-- ==== Sys2Proof/Word.lean ====
section
/-! DEFINITION. The plain value types of the model: bytes, words, lines and the names of places on the wafer. -/

namespace Sys2Proof

abbrev Byte := BitVec 8
/-- A register: every register is 32 bits wide (R16). -/
abbrev Word := BitVec 32
/-- A scalar register, a device address or a register pair (R12, R16, R41). -/
abbrev DWord := BitVec 64
/-- A 64-byte line; byte i lies in bits 8i+7 to 8i (R11, R128). -/
abbrev Line := BitVec 512
/-- A scalar register number s0 to s31 (R41). -/
abbrev SReg := BitVec 5
/-- A vector register number v0 to v15 (R58). -/
abbrev VReg := BitVec 4
/-- A partition identifier (R236). -/
abbrev Pid := BitVec 4

/-- The logical coordinates of a core (R12, R24). -/
structure CoreId where
  x : BitVec 10
  y : BitVec 10
deriving DecidableEq, Repr

/-- An endpoint of the mesh: a router and, with `ext`, its T port (R144). -/
structure Endpoint where
  ext : Bool
  py  : BitVec 10
  px  : BitVec 10
deriving DecidableEq, Repr

end Sys2Proof
end

