-- ==== Sys2Proof/Syntax.lean ====
section
/-! DEFINITION. The commands of the block: one constructor for each row of spec/opcode_table.json, with the operands
its rule names. Where an outcome is for nature, the host or Ryist to decide, that decision is an operand. -/

namespace Sys2Proof

/-- Who makes a register access: the core's own instruction, a packet of the mesh from an endpoint, a PCI Express function, or Ryist. -/
inductive Origin where
  | own
  | packet (sys : Bool) (pid : Pid) (src : Endpoint)
  | pf
  | vf (p : Pid)
  | ryist
deriving DecidableEq, Repr

/-- A place that a register access names: in a core's block (R14), in yard space or BAR0 (R15, R290), or in BAR4 (R290). -/
inductive RegTarget where
  | core (c : CoreId) (off : BitVec 16)
  | yard (off : BitVec 26)
  | bar4 (off : BitVec 17)
deriving DecidableEq, Repr

/-- What a register write carries: 4 bytes, 8 bytes, or as many as no register takes (R16, R291). -/
inductive RegData where
  | four (v : Word)
  | eight (v : DWord)
  | other (bytes : Nat)
deriving DecidableEq, Repr

/-- How a TLP of the host arrives: its T bit, the IDE stream it is on, and whether it passes that stream's integrity check (R292, R299). -/
structure Tlp where
  tbit : Bool
  stream : Option (BitVec 4)
  good : Bool
deriving DecidableEq, Repr

/-- A change of the floor plan (R35). -/
inductive FloorChange where
  | hole (px py : BitVec 10)
  | isolated (cluster : BitVec 13)
  | deadField (f : BitVec 7)
deriving DecidableEq, Repr

/-- A pattern of the SRAM screen (R356). -/
inductive SramPattern where
  | march | checkerboard
deriving DecidableEq, Repr

/-- A row of a physical core's memory that reads wrong under a pattern at a supply of so many mV: banks 0 to 7, then the instruction store. -/
structure SramFault where
  px : BitVec 10
  py : BitVec 10
  mem : BitVec 4
  row : Nat
  mv : Nat
  pattern : SramPattern
deriving DecidableEq, Repr

/-- A test of the DRAM screen (R356): one of the pattern sets, or retention with refresh intervals stretched so many times. -/
inductive DramTest where
  | pattern (set : BitVec 6)
  | retention (factor : BitVec 4)
deriving DecidableEq, Repr

/-- A row of a stack that fails a test; `again` spare rows in its place fail it too. -/
structure DramFault where
  terminus : BitVec 3
  stack : BitVec 2
  row : Nat
  test : DramTest
  again : Nat
deriving DecidableEq, Repr

/-- What is nature's in a bring-up (R354 to R358): the faults that stand in the memories, the cores that fail the logic test, what the tests
of steps 3 and 4c find, and the checks of the NVM. -/
structure BringUpFindings where
  sram : List SramFault
  dram : List DramFault
  failedCores : List (BitVec 10 × BitVec 10)
  deadFields : List (BitVec 7)
  lostStacks : List (BitVec 3 × BitVec 2)
  lostTermini : List (BitVec 3)
  dirOk : List Bool
  imagesOk : List Bool
  settingsOk : List Bool
  repairOk : List Bool
  screenOk : List Bool
  yardOk : Bool
  durationMs : Nat
  helpers : List (BitVec 13)
  slotPins : BitVec 6
deriving DecidableEq, Repr

/-- One field's readings at a power measurement (R331): its core-rail energy over the interval in nanojoule and its static
core-rail power at the present temperature in units of 0.1 W. -/
structure FieldReading where
  field : BitVec 7
  measured : Nat
  static : Nat
deriving DecidableEq, Repr

/-- The commands, one constructor for each row of the table of operations. -/
inductive Instr where
  -- Scalar ALU (R44), format A
  | add (c : CoreId) (d a b : SReg)
  | sub (c : CoreId) (d a b : SReg)
  | andS (c : CoreId) (d a b : SReg)
  | orS (c : CoreId) (d a b : SReg)
  | xorS (c : CoreId) (d a b : SReg)
  | shl (c : CoreId) (d a b : SReg)
  | shr (c : CoreId) (d a b : SReg)
  | sra (c : CoreId) (d a b : SReg)
  | slt (c : CoreId) (d a b : SReg)
  | sltu (c : CoreId) (d a b : SReg)
  | minS (c : CoreId) (d a b : SReg)
  | maxS (c : CoreId) (d a b : SReg)
  | clz (c : CoreId) (d a : SReg)
  | popc (c : CoreId) (d a : SReg)
  | mul (c : CoreId) (d a b : SReg)
  | mulhu (c : CoreId) (d a b : SReg)
  -- Immediates (R43), format I
  | addi (c : CoreId) (d a : SReg) (imm : BitVec 16)
  | andi (c : CoreId) (d a : SReg) (imm : BitVec 16)
  | ori (c : CoreId) (d a : SReg) (imm : BitVec 16)
  | xori (c : CoreId) (d a : SReg) (imm : BitVec 16)
  | shli (c : CoreId) (d a : SReg) (amt : BitVec 6)
  | shri (c : CoreId) (d a : SReg) (amt : BitVec 6)
  | srai (c : CoreId) (d a : SReg) (amt : BitVec 6)
  | lih (c : CoreId) (d a : SReg) (imm : BitVec 16)
  -- Loads and stores (R45)
  | ldB (c : CoreId) (d a : SReg) (imm : BitVec 16)
  | ldH (c : CoreId) (d a : SReg) (imm : BitVec 16)
  | ldW (c : CoreId) (d a : SReg) (imm : BitVec 16)
  | ldD (c : CoreId) (d a : SReg) (imm : BitVec 16)
  | stB (c : CoreId) (d a : SReg) (imm : BitVec 16)
  | stH (c : CoreId) (d a : SReg) (imm : BitVec 16)
  | stW (c : CoreId) (d a : SReg) (imm : BitVec 16)
  | stD (c : CoreId) (d a : SReg) (imm : BitVec 16)
  | ldAcq (c : CoreId) (d a : SReg) (imm : BitVec 16)
  | stRel (c : CoreId) (d a : SReg) (imm : BitVec 16)
  | fenceAcq (c : CoreId)
  | fenceRel (c : CoreId)
  | fence (c : CoreId)
  | csrr (c : CoreId) (d : SReg) (off : BitVec 16)
  | csrw (c : CoreId) (d : SReg) (off : BitVec 16)
  -- Branches (R43, R44)
  | beq (c : CoreId) (a b : SReg) (off : BitVec 16)
  | bne (c : CoreId) (a b : SReg) (off : BitVec 16)
  | blt (c : CoreId) (a b : SReg) (off : BitVec 16)
  | bge (c : CoreId) (a b : SReg) (off : BitVec 16)
  | j (c : CoreId) (off : BitVec 26)
  | jal (c : CoreId) (off : BitVec 26)
  | jr (c : CoreId) (a : SReg)
  | nop (c : CoreId)
  | trap (c : CoreId)
  | istoreWriteback (c : CoreId) (index : BitVec 14)
  -- Vector unit (R58)
  | vadd (c : CoreId) (vd va vb : VReg)
  | vsub (c : CoreId) (vd va vb : VReg)
  | vmul (c : CoreId) (vd va vb : VReg)
  | vfma (c : CoreId) (vd va vb vc : VReg)
  | vmin (c : CoreId) (vd va vb : VReg)
  | vmax (c : CoreId) (vd va vb : VReg)
  | vabs (c : CoreId) (vd va : VReg)
  | vneg (c : CoreId) (vd va : VReg)
  | vcmplt (c : CoreId) (vd va vb : VReg)
  | vsel (c : CoreId) (vd va vb vc : VReg)
  | vrcp (c : CoreId) (vd va : VReg)
  | vrsq (c : CoreId) (vd va : VReg)
  | vexp2 (c : CoreId) (vd va : VReg)
  | vlog2 (c : CoreId) (vd va : VReg)
  | vredsum (c : CoreId) (vd va : VReg)
  | vredmax (c : CoreId) (vd va : VReg)
  | vcvt (c : CoreId) (vd va : VReg) (src : BitVec 2) (dst : BitVec 4)
  | vadd2 (c : CoreId) (vd va vb : VReg)
  | vmul2 (c : CoreId) (vd va vb : VReg)
  | vmova (c : CoreId) (vd : VReg) (acc p : BitVec 2)
  | vmovaw (c : CoreId) (acc : BitVec 2) (va : VReg) (p : BitVec 2)
  | vld (c : CoreId) (v : VReg) (sa : SReg) (off : BitVec 17)
  | vst (c : CoreId) (v : VReg) (sa : SReg) (off : BitVec 17)
  | vectorComplete (c : CoreId)
  -- Matrix engine (R52), format M
  | mma (c : CoreId) (sa sb : SReg) (fmt : BitVec 4) (acc : BitVec 2) (inc : Bool)
  | mzero (c : CoreId) (sa sb : SReg) (fmt : BitVec 4) (acc : BitVec 2) (inc : Bool)
  | mlda (c : CoreId) (sa sb : SReg) (fmt : BitVec 4) (acc : BitVec 2) (inc : Bool)
  | mst (c : CoreId) (sa sb : SReg) (fmt : BitVec 4) (acc : BitVec 2) (inc : Bool)
  | msync (c : CoreId) (sa sb : SReg) (fmt : BitVec 4) (acc : BitVec 2) (inc : Bool)
  | mmaStepBegin (c : CoreId)
  | mmaStepComplete (c : CoreId)
  | mzeroExecute (c : CoreId)
  | mldaExecute (c : CoreId)
  | mstExecute (c : CoreId)
  -- Mover (R60, R62)
  | mvq (c : CoreId) (a : SReg) (imm : BitVec 16)
  | mvw (c : CoreId) (imm : BitVec 16)
  | copy (c : CoreId)
  | fill (c : CoreId)
  | digest (c : CoreId)
  | chunk (c : CoreId)
  -- Channels and synchronisation (R178)
  | send (c : CoreId) (a b : SReg)
  | sig (c : CoreId) (a b : SReg)
  | watch (c : CoreId) (d a b : SReg)
  | wait (c : CoreId) (d a b : SReg)
  | waitExpiry (c : CoreId)
  | atomFadd (c : CoreId) (d a b : SReg)
  | atomSwap (c : CoreId) (d a b : SReg)
  | atomCas (c : CoreId) (d a b : SReg)
  | atomUmax (c : CoreId) (d a b : SReg)
  | atomAnd (c : CoreId) (d a b : SReg)
  | atomOr (c : CoreId) (d a b : SReg)
  -- Dataflow (R205)
  | endTask (c : CoreId)
  | fin (c : CoreId)
  | tagI (c : CoreId) (d : SReg)
  | argsI (c : CoreId) (d : SReg)
  | qld (c : CoreId) (d a b : SReg)
  | qvld (c : CoreId) (vd : VReg) (a : SReg)
  | qcp (c : CoreId) (a b : SReg)
  -- Core register events
  | coreIdataWrite (c : CoreId) (o : Origin) (words : List Word)
  | vecSrseedHiWrite (c : CoreId) (o : Origin) (v : Word)
  | shRegisterWrite (c : CoreId) (o : Origin) (off : BitVec 16) (v : Word)
  | pairLoRead (t : RegTarget) (o : Origin) (size : Nat) (tlp : Tlp)
  | spErrinfoRead (c : CoreId) (o : Origin)
  | mvErrRead (c : CoreId) (o : Origin)
  | coreIstoreErrRead (c : CoreId) (o : Origin)
  | registerWrite (t : RegTarget) (o : Origin) (d : RegData) (tlp : Tlp)
  -- Scratchpad events
  | bankpwrOn (c : CoreId) (o : Origin) (bank : BitVec 3)
  | bankpwrRetain (c : CoreId) (o : Origin) (bank : BitVec 3)
  | bankpwrOff (c : CoreId) (o : Origin) (bank : BitVec 3)
  | bankModeChangeEnd (c : CoreId) (bank : BitVec 3)
  | bankWakeFillEnd (c : CoreId) (bank : BitVec 3)
  | lineWriteback (c : CoreId) (bank : BitVec 3)
  | scrubRead (c : CoreId)
  | zeroFillEnd (c : CoreId)
  -- Network events
  | remoteReadArrival (c : CoreId)
  | remoteWriteAccept (c : CoreId)
  | remoteWriteTail (c : CoreId)
  | rdrspArrival (c : CoreId)
  | ackArrival (c : CoreId)
  | errArrival (c : CoreId)
  | packetInjection (src : Endpoint)
  | flitArrival (f : Nat) (bad : Option (Nat × BitVec 576))
  | ringOnRamp (f : Nat)
  | ringOffRamp (f : Nat)
  | waypointRelay (f : Nat)
  | packetDelivery (f : Nat)
  | reduceMergeSend (px py : BitVec 10) (slot : BitVec 3)
  | transactionTimeout (c : CoreId) (slot : BitVec 6)
  | congestionMapPublish
  | routeMapRewrite
  | floorPlanChange (ev : FloorChange)
  -- Channel arrivals
  | tokenArrival (c : CoreId)
  | heldOfferRetry (c : CoreId)
  | reduceArrival (c : CoreId)
  | creditReturnArrival (c : CoreId)
  | sigArrival (c : CoreId)
  | watchRequest (c : CoreId)
  | wmsgArrival (c : CoreId)
  | atomAtHome (c : CoreId)
  | lendingStart (c : CoreId)
  -- Section life
  | arm (c : CoreId) (o : Origin)
  | start (c : CoreId) (o : Origin)
  | boundaryComplete (c : CoreId)
  | dfCtrlEnd (c : CoreId) (o : Origin)
  | abort (c : CoreId) (o : Origin)
  | clear (c : CoreId) (o : Origin)
  | abortComplete (c : CoreId)
  | abortLineSignal (c : CoreId)
  | taskFire (c : CoreId)
  | steerPointFire (c : CoreId) (u : BitVec 3)
  | mergePointFire (c : CoreId) (u : BitVec 3)
  | progressPulse (slot : BitVec 6)
  | deadlockDetection (c : CoreId)
  | reInjection (c : CoreId) (ich : BitVec 4)
  | stallLimit (c : CoreId)
  | slotQuiet (slot : BitVec 6)
  -- Jobs
  | submit (p : Pid) (r : BitVec 3) (host pkg : List Byte)
  | kill (p : Pid) (r : BitVec 3) (host : List Byte)
  | unload (p : Pid) (r : BitVec 3) (host : List Byte)
  | unknownKindRecord (p : Pid) (r : BitVec 3) (host : List Byte)
  | jobPlacement (p : Pid) (r : BitVec 3) (clusters : List (BitVec 13))
  | stageStart (p : Pid) (r : BitVec 3) (jobid : DWord)
  | jobCompletionPublish (p : Pid) (r : BitVec 3) (jobid : DWord)
  | completionPublishResume (p : Pid) (r : BitVec 3)
  | clusterScrub (cl : BitVec 13)
  | clusterScrubEnd (cl : BitVec 13)
  | jbPcfgWrite (o : Origin) (p : Pid) (v : Word) (clusters : List (BitVec 13))
  | jbPinWrite (o : Origin) (p : Pid) (w : Byte) (v : Word)
  | partitionAssignmentComplete (p : Pid)
  | ringPairEnable (o : Origin) (p : Pid) (r : BitVec 3)
  | ringPairDisable (o : Origin) (p : Pid) (r : BitVec 3)
  | ringErrClear (o : Origin) (p : Pid) (r : BitVec 3)
  | jbScrubmapWrite (o : Origin) (cl : BitVec 13)
  -- Outer memory
  | omRead (t : BitVec 3) (fails : List (BitVec 2))
  | omWholeLineWrite (t : BitVec 3)
  | omPartialWrite (t : BitVec 3) (fails : BitVec 2)
  | omAtom (t : BitVec 3) (fails : BitVec 2)
  | terminusAdmissionResume (t : BitVec 3)
  | omExtWrite (o : Origin) (w : BitVec 9) (v : Word)
  | extentZeroFillEnd (k : BitVec 11)
  | rotate (o : Origin) (p : Pid)
  | epochFlipApplied (p : Pid) (t : BitVec 3)
  | sweepStart (p : Pid)
  | sweepLine (p : Pid) (lineOff : BitVec 44) (fails : BitVec 2)
  | sweepComplete (p : Pid)
  | stackLost (t : BitVec 3) (s : BitVec 2)
  | yardPoll (answered : BitVec 8)
  -- Host port
  | linkTrainingComplete (flitMode : Bool) (width : Nat) (rate mps : BitVec 2) (mrrs : BitVec 3)
  | linkTrainingRetry
  | linkDown
  | hotReset
  | flrPf
  | flrVf (p : Pid)
  | inboxWrite (fn : BitVec 5) (off : BitVec 28) (data : List Byte) (tlp : Tlp)
  | inboxOrdRelease (fn : BitVec 5)
  | inboxRead (fn : BitVec 5) (off : BitVec 28) (len : Nat) (tlp : Tlp)
  | descriptorWrite (o : Origin) (set : BitVec 5) (d : BitVec 6) (dw : BitVec 2) (v : Word)
  | space4Request
  | hostCompletionArrival (tag : BitVec 14) (status : BitVec 2) (data : List Byte) (tlp : Tlp)
  | completionTimeout (tag : BitVec 14)
  | getReport (fn : BitVec 5) (nonce : BitVec 384)
  | keyExchange (fn : BitVec 5) (stream : BitVec 4) (qh : BitVec 776) (nonce : BitVec 384)
  | keySet (fn : BitVec 5) (stream : BitVec 4) (go : Bool)
  | keyStop (fn : BitVec 5) (stream : BitVec 4)
  | tdisp (p : Pid) (req : Byte) (stream : BitVec 4)
  | debugNonce (fn : BitVec 5)
  | debugUnlock (fn : BitVec 5) (serial : BitVec 128) (nonce : BitVec 384) (want : Byte) (sigOk : Bool)
  -- Span links
  | spanRequest (t : BitVec 3)
  | spanFlitReceive (port : BitVec 5) (flit : BitVec 2048) (uncorrectable : Bool) (corrected : Nat)
  | spanSignalSend (port : BitVec 5)
  | spanTransactionTimeout (port : BitVec 5) (stxid : BitVec 16)
  | spanPortDown (port : BitVec 5) (lockLost : Bool)
  | spanTrainingComplete (port : BitVec 5) (rtt : BitVec 12)
  | keyingComplete (port : BitVec 5) (sigOk rootOk flagsOk closed : Bool) (peerDigest : BitVec 384)
  | keyingRetry (port : BitVec 5)
  | spanRekey (port : BitVec 5)
  -- Clocks, power, heat
  | clockLeadLoss
  | referenceSwitchEnd
  | referenceReturn
  | localOscillatorFailure
  | fieldPllLoss (f : BitVec 7)
  | seamMarginExhausted (f : BitVec 7) (side : BitVec 2)
  | clusterTreeWake (c : CoreId)
  | clusterTreeStop (cl : BitVec 13)
  | railShort (cl : BitVec 13) (peak : BitVec 16)
  | fieldRegulatorFailure (f : BitVec 7)
  | rowRegulatorFailure (row : BitVec 4)
  | powerMeasurement (input vin : Nat) (fields : List FieldReading) (rows : List Nat)
  | clusterEstimate (cl : BitVec 13)
  | thermalSample (clusters : List (BitVec 13 × Int)) (bases : List (BitVec 7 × Int))
  | thermalShiftUpdate (cl : BitVec 13)
  | heatReturn (cl : BitVec 13)
  | pwCapsusWrite (o : Origin) (v : Word)
  | pwThrWrite (o : Origin) (v : Word)
  | ckRefctlWrite (o : Origin) (v : Word)
  | slClkleadWrite (o : Origin) (v : Word)
  -- Bring-up, update, settings, reset
  | powerOn (found : BringUpFindings)
  | stage (o : Origin)
  | updateStaged (result : Byte) (kinds : List (BitVec 3 × Word × BitVec 384)) (raise : Byte)
  | commit (o : Origin)
  | commitComplete
  | cancel (o : Origin)
  | apply (o : Origin)
  | fieldSettingsWrite
  | save (o : Origin)
  | coreReset (c : CoreId)
  | coreResetEnd (c : CoreId)
  | clusterReset (cl : BitVec 13)
  | partitionReset (o : Origin) (p : Pid)
  | partitionDrainComplete (p : Pid)
  | partitionDrainLate (p : Pid)
  | wholeDeviceReset (cause : BitVec 4) (cold : Bool)
  | enableDeassert
  | powerLoss
  -- Safety
  | weightsScanStart (c : CoreId)
  | weightsScanEnd (c : CoreId)
  | fltWctlWrite (c : CoreId) (o : Origin) (v : Word)
  | signalBoxReceive (f : BitVec 7)
  | faultMessageArrival (src : BitVec 7)
  | replayRestart (p : Pid) (r : BitVec 3) (jobid : DWord)
  | outputDecision (p : Pid) (r : BitVec 3) (jobid : DWord) (arg : BitVec 6)
  | stageHoldExpiry (p : Pid) (r : BitVec 3) (jobid : DWord) (stage : BitVec 8)
  | signalBoxSilent (f : BitVec 7)
  | yardControllerStopped
  | collectorDisagreement (off : BitVec 12)
  | fnrxClear (o : Origin)
  | clusterSelfTest (cl : BitVec 13)
  | fcTreqWrite (o : Origin) (cl : BitVec 13)
  | selfTestEnd (cl : BitVec 13) (failing : List (BitVec 6 × Byte))
  | spanRecalibration (port : BitVec 5)
  | fcRreqWrite (o : Origin) (port : BitVec 5)
  | recalAck (port : BitVec 5)
  | recalEnd (port : BitVec 5)
  -- Security
  | fuseCompare (differs : Option (BitVec 9))
  | rngHealthTest (t : BitVec 3) (failure : Option (BitVec 2))
  | ephemeralScalarExpiry (stream : BitVec 4)
  | dbglock (o : Origin) (v : Word)
  | localMoverCompletion (c : CoreId)
  | settingsRecordWritten
  | spanPortEnWrite (o : Origin) (port : BitVec 5) (v : Word)
  | leadLockRegained
  | terminusInternalFailure (t : BitVec 3)
  | debugPortAccess (want : BitVec 2)
deriving DecidableEq, Repr

end Sys2Proof
end

