-- ==== Sys2Proof/Decode.lean ====
section
/-! DEFINITION. Commands spelled by a word. The table of operations gives no row any bits (the block takes its commands from
outside, log entry 3), so no word spells a command. The words of the sequencer's own instruction store are decoded by
`Sys2Proof.Machine.decodeInsn`. -/

namespace Sys2Proof

/-- The command that a word of the table spells: none, for no row of the table has bits (log entry 3). -/
def decodeTableWord (_nbits _w : Nat) : Option Instr := none

end Sys2Proof
end

