-- ==== Sys2Proof/Config.lean ====
section
/-! DEFINITION. What the specification leaves to an implementation or to nature: free values, constants with no body. -/

namespace Sys2Proof.Config

/-- What a SECDED (72,64) decoder makes of three or more wrong bits: none where it detects them, otherwise the wrong bits
it leaves (R116 names a word that passes or corrects while its line's CRC fails; log entry 12). -/
opaque secdedAlias : BitVec 72 → Option (BitVec 72)

/-- The same for a (39,32) word of the instruction store (R48, log entry 12). -/
opaque istoreAlias : BitVec 39 → Option (BitVec 39)

/-- The exact results of the vector approximation tables of the core microcode image with a digest, which are not published (R89, log
entry 14). -/
opaque vrcpTable : BitVec 384 → Word → Word
opaque vrsqTable : BitVec 384 → Word → Word
opaque vexp2Table : BitVec 384 → Word → Word
opaque vlog2Table : BitVec 384 → Word → Word

/-- Which of several writes that may go into a bank goes first; the order across lines is open (R128, R130, log entry 101). -/
opaque grant : Nat → Nat

/-- The form in which the spill logic keeps the arrival order of its records, which is not given (R225, log entry 21). The
arguments are the counter of free values and the number of the line. -/
opaque spillOrder : Nat → Nat → Line

/-- The key material behind a key number of a terminus: a 512-bit XTS key and a 256-bit MAC key (R271, R276, log entry 25). -/
opaque lineKey : Nat → BitVec 768

/-- Spare rows of a stack, whose number is not given (R356, R357, log entry 94). -/
opaque stackSpares : Nat

/-- The session key (bits 0 to 255) and salt of one direction of a span port that a key number stands for (R411, R420, log entry 112). -/
opaque spanKey : Nat → BitVec 288

/-- What the placement of a section follows from (R234): the digests of Ryist's image, of the package and of the floor plan, the clusters held,
the free section slots and the stage placed. -/
structure PlanKey where
  ryist : BitVec 384
  pkg : BitVec 384
  fp : BitVec 384
  clusters : List Nat
  free : Nat
  stage : Nat
deriving DecidableEq, Repr, Inhabited

/-- What Ryist loads into one core beside its weights (R250): words of the code image by instruction index, offset in the image and number;
range bounds, DF_ and CH_ registers by offset; CH_ADDR slots for arguments by number; the first of six CH_ADDR slots for a job ring by its number. -/
structure CoreLoad where
  code : List (Nat × Nat × Nat)
  regs : List (Nat × Word)
  args : List (Nat × Nat)
  rings : List (Nat × Nat)
deriving DecidableEq, Repr, Inhabited

/-- What a graph blob says of its section, whose layout is not given (R242): none where it is not consistent with the entry, else the output
arguments it names and whether a stage may write a buffer that the same or the next stage reads (R243, R381, log entry 48). -/
opaque graphOf : List Byte → List Byte → Option (List Nat × Bool)

/-- The positions Ryist's layout gives a section (R234, R249, log entry 72). -/
opaque sectionCores : PlanKey → Nat → List CoreId

/-- What Ryist loads into the i-th core of a section, and the merge slots it configures by router (PX, PY) and number (R250, log entry
27). -/
opaque coreLoad : PlanKey → Nat → Nat → CoreLoad
opaque mergeSlots : PlanKey → Nat → List (Nat × Nat × Nat × Word)

/-- The virtual channels with packets at a router that are blocked in a cycle (R173, log entry 67). -/
opaque blockedVcs : Nat → Nat → BitVec 6

/-- A fresh random or cryptographic value whose bits the specification does not determine (log entry 4). -/
opaque randomBits : Nat → BitVec 768

/-- The identity public key, which depends on the unreadable fuse SEED (R410, R411, log entry 4). -/
opaque identityKey : BitVec 776

/-- The clock domain relation: whether the yard clock has an edge in a cycle of the network clock (R17, log entry 4). -/
opaque yardEdge : DWord → Bool

end Sys2Proof.Config
end

