-- ==== Sys2Proof/Machine/Sparse.lean ====
section
/-! DEFINITION. Sparse tables: lists of key and value with rising keys. A key that is not listed reads as a default. -/

namespace Sys2Proof.Machine

/-- A sparse table from numbers to values, keys strictly rising. -/
abbrev SMap (α : Type) := List (Nat × α)

/-- The value at a key, or the default where the key is not listed. -/
def SMap.get {α : Type} (d : α) : SMap α → Nat → α
  | [], _ => d
  | (k, v) :: t, n => if n = k then v else SMap.get d t n

/-- The table with a key's value set. -/
def SMap.set {α : Type} : SMap α → Nat → α → SMap α
  | [], n, v => [(n, v)]
  | (k, w) :: t, n, v =>
    if n < k then (n, v) :: (k, w) :: t
    else if n = k then (n, v) :: t
    else (k, w) :: SMap.set t n v

/-- The table without a key. -/
def SMap.del {α : Type} : SMap α → Nat → SMap α
  | [], _ => []
  | (k, w) :: t, n => if n = k then SMap.del t n else (k, w) :: SMap.del t n

/-- The value at a key is replaced by a function of itself. -/
def SMap.upd {α : Type} (d : α) (m : SMap α) (n : Nat) (f : α → α) : SMap α :=
  m.set n (f (m.get d n))

/-- The keys rise strictly. -/
abbrev SMap.wf {α : Type} (m : SMap α) : Prop :=
  m.Pairwise (fun a b => a.1 < b.1)

/-- Memory: bytes by address, in one canonical form: no zero byte is listed. -/
abbrev Mem := List (Nat × Byte)

/-- What an address that is not listed reads as (log entry 8). -/
def Mem.blank : Byte := 0

/-- One byte of memory. -/
def Mem.read (m : Mem) (a : Nat) : Byte := SMap.get Mem.blank m a

/-- Memory with one byte written; a byte equal to `Mem.blank` is not listed. -/
def Mem.write (m : Mem) (a : Nat) (b : Byte) : Mem :=
  if b = Mem.blank then SMap.del m a else SMap.set m a b

/-- The canonical form: addresses strictly rising, no byte listed that reads the same unlisted. -/
abbrev Mem.wf (m : Mem) : Prop :=
  m.Pairwise (fun a b => a.1 < b.1) ∧ ∀ e ∈ m, e.2 ≠ Mem.blank

/-- `n` bytes from address `a`, the byte at `a` lowest (R11). -/
def Mem.readN (m : Mem) (a : Nat) : Nat → Nat
  | 0 => 0
  | n + 1 => (Mem.read m a).toNat + 256 * Mem.readN m (a + 1) n

/-- `n` bytes written from address `a`, the least significant at `a` (R11). -/
def Mem.writeN (m : Mem) (a : Nat) : Nat → Nat → Mem
  | 0, _ => m
  | n + 1, v => Mem.writeN (Mem.write m a (BitVec.ofNat 8 v)) (a + 1) n (v / 256)

/-- The 64-byte line at address `a` (R128). -/
def Mem.readLine (m : Mem) (a : Nat) : Line := BitVec.ofNat 512 (Mem.readN m a 64)

/-- A whole line written at address `a` (R128). -/
def Mem.writeLine (m : Mem) (a : Nat) (l : Line) : Mem := Mem.writeN m a 64 l.toNat

/-- `n` zero bytes written from address `a`. -/
def Mem.zero (m : Mem) (a n : Nat) : Mem := m.filter (fun e => e.1 < a ∨ a + n ≤ e.1)

/-- The bytes of a line, byte 0 first. -/
def Line.bytes (l : Line) : List Byte :=
  (List.range 64).map (fun i => l.extractLsb' (8 * i) 8)

/-- A number from a list of bytes, the first least significant. -/
def leNat : List Byte → Nat
  | [] => 0
  | b :: t => b.toNat + 256 * leNat t

/-- A line from at most 64 bytes, byte 0 first, zero filled. -/
def Line.ofBytes (bs : List Byte) : Line := BitVec.ofNat 512 (leNat (bs.take 64))

/-- `n` bytes of a number, least significant first. -/
def leBytes : Nat → Nat → List Byte
  | 0, _ => []
  | n + 1, v => BitVec.ofNat 8 v :: leBytes n (v / 256)

/-- An element of a list by number, or a default. -/
def nth {α : Type} (d : α) : List α → Nat → α
  | [], _ => d
  | a :: _, 0 => a
  | _ :: t, n + 1 => nth d t n

/-- A list with the element at a number replaced by a function of itself. -/
def updAt {α : Type} (f : α → α) : List α → Nat → List α
  | [], _ => []
  | a :: t, 0 => f a :: t
  | a :: t, n + 1 => a :: updAt f t n

/-- A list without the element at a number. -/
def dropAt {α : Type} : List α → Nat → List α
  | [], _ => []
  | _ :: t, 0 => t
  | a :: t, n + 1 => a :: dropAt t n

/-- An element put into a sorted list before the first that is not below it. -/
def putSorted {α : Type} (le : α → α → Bool) (a : α) : List α → List α
  | [] => [a]
  | b :: t => if le a b then a :: b :: t else b :: putSorted le a t

/-- A list sorted; elements that are equal keep their order. -/
def sorted {α : Type} (le : α → α → Bool) (l : List α) : List α := l.foldr (putSorted le) []

/-- The first element that satisfies a test, and the list without it. -/
def takeFirst {α : Type} (p : α → Bool) : List α → Option (α × List α)
  | [] => none
  | a :: t =>
    if p a then some (a, t)
    else match takeFirst p t with
      | none => none
      | some (b, r) => some (b, a :: r)

end Sys2Proof.Machine
end

