-- ==== Sys2Proof/Machine/Bits.lean ====
section
/-! DEFINITION. Bit fields of registers and addresses, and small counts. -/

namespace Sys2Proof.Machine

/-- The field of `n` bits from bit `lo` of a value, as a number. -/
def field {w : Nat} (v : BitVec w) (lo n : Nat) : Nat := (v.extractLsb' lo n).toNat

/-- A word with the field of `n` bits from bit `lo` replaced. -/
def setField {w : Nat} (v : BitVec w) (lo n : Nat) (x : Nat) : BitVec w :=
  let m : BitVec w := (BitVec.ofNat w (2 ^ n - 1)) <<< lo
  (v &&& ~~~ m) ||| (((BitVec.ofNat w x) <<< lo) &&& m)

/-- A number placed in the field of `n` bits from bit `lo`, every other bit 0. -/
def place (w lo n x : Nat) : BitVec w :=
  (BitVec.ofNat w (x % 2 ^ n)) <<< lo

/-- A Boolean as a bit placed at bit `lo`. -/
def flag (w lo : Nat) (b : Bool) : BitVec w := place w lo 1 b.toNat

/-- Low and high half of a 64-bit value (R16). -/
def lo32 (v : DWord) : Word := v.extractLsb' 0 32
def hi32 (v : DWord) : Word := v.extractLsb' 32 32
def pair64 (hi lo : Word) : DWord := hi ++ lo

/-- The number of bits set in a value. -/
def popcount {w : Nat} (v : BitVec w) : Nat :=
  (List.range w).foldl (fun n i => n + (v.getLsbD i).toNat) 0

/-- The number of the lowest bit set, if any. -/
def lowestBit {w : Nat} (v : BitVec w) : Option Nat :=
  (List.range w).find? (fun i => v.getLsbD i)

/-- A value limited to a range: a value outside takes the nearer limit. -/
def clampNat (lo hi v : Nat) : Nat := if v < lo then lo else if hi < v then hi else v

/-- The least `n` with `n * d ≥ a`. -/
def ceilDiv (a d : Nat) : Nat := (a + d - 1) / d

end Sys2Proof.Machine
end

