-- ==== Sys2Proof/Machine/State.lean ====
section
/-! DEFINITION. The state of the block, plain data: every register, memory, queue, mode and record of the specification,
the queue of waiting commands, and the reasons a step could stop. Its value right after reset is `State.reset`. -/

namespace Sys2Proof.Machine

/-- Reasons for a stop with a fault. The specification reports faults by messages and error responses, which are effects
on the state, so no meaning answers with one. -/
inductive Fault where
  /-- Raised by no command; kept because a step's type names a fault. Safe. -/
  | unused
deriving DecidableEq, Repr

/-- Reasons for a stop with a refusal. -/
inductive Refusal where
  /-- A command whose meaning is not written. Raised by `exec` alone. Safe. -/
  | notModelled (mnemonic : String)
deriving DecidableEq, Repr

/-- What the last access or request was answered with: the answer its sender sees (R13, R16, R146, R417). -/
inductive Resp where
  | none
  | done
  | value (v : DWord)
  | err (code : Byte)
  | discarded
  | bytes (bs : List Byte)
  | ur
deriving DecidableEq, Repr

/-! ### The core -/

/-- State of a section on a core (R213). -/
inductive DfState where
  | idle | loaded | starting | run | aborting | aborted
deriving DecidableEq, Repr

/-- State of the sequencer (CORE_STATUS.STATE, R73). -/
inductive SeqState where
  | idle | run | stall | trapped | reset
deriving DecidableEq, Repr

/-- Accumulator tag (R53). -/
inductive AccTag where
  | fp32 | int32 | pair
deriving DecidableEq, Repr

/-- An accumulator with its checksum state (R49, R53, R101). Elements in row-major order. Checksums are pair32 values
(hi in the low half) under FP32 and pair tags and 64-bit integers under an INT32 tag; magnitudes are binary32. -/
structure Acc where
  tag : AccTag
  elems : SMap Word
  rowSum : SMap DWord
  colSum : SMap DWord
  rowMag : SMap Word
  colMag : SMap Word
deriving DecidableEq, Repr

/-- An issued vector instruction (R42, R58): the address its scalar operand gave, the operand line of a QVLD, the first line of a VLD
once it is read, and the index, word and tag it was issued with. `num` orders it against other issued instructions. -/
structure VecEntry where
  insn : Instr
  addr : DWord
  line : Line
  got : Option Line
  pc : Nat
  word : Word
  tag : BitVec 16
  num : Nat
deriving DecidableEq, Repr

/-- An issued matrix instruction (R42, R52) with the registers as they stood at issue (R74, R106). -/
structure MatEntry where
  insn : Instr
  sa : DWord
  sb : DWord
  cfg : SMap Word
  pc : Nat
  word : Word
  tag : BitVec 16
  num : Nat
deriving DecidableEq, Repr

/-- A tile step whose products are not yet all in the accumulator, with the operand lines it read and how many of its 32 issue
cycles have passed (R51, R54, R56). -/
structure MmaStep where
  entry : MatEntry
  issued : Nat
  a : List Line
  b : List Line
  aScale : Line
  bScale : Line
deriving DecidableEq, Repr

/-- A captured mover descriptor (R60, R61). -/
structure MvCmd where
  desc : BitVec 256
  descAddr : DWord
  seq : BitVec 16
  pc : Nat
  tag : BitVec 16
  num : Nat
deriving DecidableEq, Repr

/-- The mover command executing: lines issued, lines of reads arrived out of turn, first error, bytes taken for the digest
engine, whether it issues no further lines, and whether its output lines have left for their banks (R62 to R65, R67, R68). -/
structure MvActive where
  cmd : MvCmd
  next : Nat
  err : Option (Byte × DWord)
  stopped : Bool
  data : SMap Line
  sent : Bool
deriving DecidableEq, Repr

/-- What an outstanding transaction waits for (R45, R64, R168, R192). A load's `fill` tells whether its line may enter the
remote-line buffer, `on` the slot whose fetch of the same line it waits for (R125, R126). -/
inductive SlotUse where
  | load (d : SReg) (addr : DWord) (size : Nat) (fill acq : Bool) (on : Option Nat) (pc : Nat)
  | store (addr : DWord) (pc : Nat)
  | atom (d : SReg) (addr : DWord) (pc : Nat)
  | watch (d : SReg) (addr : DWord) (pc : Nat)
  | mvRead (addr : DWord) (first n : Nat)
  | mvWrite (addr : DWord) (n : Nat)
  | mcWrite (addr : DWord) (targets done skip refused : Nat)
deriving DecidableEq, Repr

/-- A transaction slot: its TXID generation and, while it is taken, its use, the timeout in force when its request left,
and the cc since (R168, R361). -/
structure Slot where
  gen : BitVec 2
  use : Option SlotUse
  limit : Nat
  age : Nat
deriving DecidableEq, Repr

/-- An entry of an input channel's queue with its side store (R182, R186). -/
structure QEntry where
  k : Nat
  tag : BitVec 16
  seq : BitVec 16
  och : BitVec 4
  src : Endpoint
  order : Nat
  count : Nat
  whole : Bool
  offered : Bool
  reinj : Bool
  owes : Bool
deriving DecidableEq, Repr

/-- An outstanding message of an output channel (R183). -/
structure OutMsg where
  seq : BitVec 16
  gather : Nat
deriving DecidableEq, Repr

/-- An output channel's message state (R181, R183). -/
structure OutChan where
  next : BitVec 16
  outst : List OutMsg
deriving DecidableEq, Repr

/-- An entry of the tag-match store (R207). -/
structure TmEntry where
  u : BitVec 3
  tag : BitVec 16
  mask : BitVec 16
  ready : Bool
deriving DecidableEq, Repr

/-- Where an operand line of a firing stands (R206, R224). -/
inductive OperandAt where
  | queue (ich : BitVec 4) (k : Nat)
  | spilled (ich : BitVec 4) (r : Nat)
deriving DecidableEq, Repr

/-- The running task (R208, R209). -/
structure Running where
  u : BitVec 3
  tag : BitVec 16
  ops : List OperandAt
deriving DecidableEq, Repr

/-- A spill record with its directory entry, the count of a contribution and whether CH_IMSG has counted the message (R187, R225,
R226). -/
structure SpillRec where
  r : Nat
  bound : Bool
  jmsg : Bool
  src : Endpoint
  ich : BitVec 4
  och : BitVec 4
  seq : BitVec 16
  tag : BitVec 16
  count : Nat
  whole : Bool
  order : Nat
  counted : Bool
deriving DecidableEq, Repr

/-- A watch entry (R192). -/
structure Watch where
  value : DWord
  ctrl : DWord
  sys : Bool
deriving DecidableEq, Repr

/-- A WAIT in progress (R194). -/
structure Waiting where
  d : SReg
  mask : BitVec 16
  limit : DWord
  elapsed : Nat
deriving DecidableEq, Repr

/-- Bank modes (R121). -/
inductive BankMode where
  | on | retain | off
deriving DecidableEq, Repr

/-- A bank: its mode; while it is CHANGING the mode it changes to and the one asked for meanwhile; whether it is in the
zero fill after a wake from OFF; whether a zero fill is owed at its next wake; lines accepted and not yet written; a
corrected line waiting to be written back (R116, R120 to R123). -/
structure Bank where
  mode : BankMode
  target : Option BankMode
  later : Option BankMode
  filling : Bool
  owed : Bool
  pendWr : Nat
  writeback : List Nat
deriving DecidableEq, Repr

/-- An entry of the remote-line buffer: the line's device address and its copy (R125). The first of the list is the least
recently used. -/
structure RlbEntry where
  addr : DWord
  line : Line
deriving DecidableEq, Repr

/-- A line, or a part of one, that an engine of the core has written and that is not yet in its bank: the engine, the offset, the
bytes, and the number of the instruction or command (R123, R127, R128). -/
structure LineWr where
  agent : Nat
  off : Nat
  bytes : List Byte
  num : Nat
deriving DecidableEq, Repr

/-- A weights scan under way: how many lines it has read, and the lines, the last first (R71). -/
structure Scan where
  next : Nat
  lines : List Line
deriving DecidableEq, Repr

/-- One logical core: compute-wafer logic, instruction store and scratchpad (R21). `lentSeen` is what its cluster's controller last saw
of `lent` (R335); `issued` tells that an instruction has retired in the present cycle (R73); `stallOn` names the counters that a held instruction advances each cycle (R109, R181, R230); `mxHist` the issue
cycles of the matrix engine among the last 64, the latest in bit 0 (R56); `recode` the banks a re-encoding holds (R109, R117); `freed`
how many entries of each channel firings and discards have freed for records that wait (R226); `fwd` the point the forwarder served
last (R212). -/
structure Core where
  /-- plain registers and counters of the block, by offset (R14, R16) -/
  regs : SMap Word
  /-- the _HI halves latched by reads of their _LO, by offset of the _HI (R16) -/
  hiLatch : SMap Word
  errAddrLatch : Option Word
  s : SMap DWord
  pc : Nat
  seq : SeqState
  stallOn : List Nat
  issued : Bool
  istore : SMap Word
  istoreErr : SMap (BitVec 39)
  istoreCounted : SMap Bool
  num : Nat
  vregs : SMap (SMap Word)
  vecQ : List VecEntry
  acc : SMap Acc
  matQ : List MatEntry
  steps : List MmaStep
  lastClass : BitVec 4
  mxHist : BitVec 64
  mvQ : List MvCmd
  mvAct : Option MvActive
  mvSeq : BitVec 16
  rng : DWord
  slots : SMap Slot
  rlb : List RlbEntry
  mem : Mem
  flips : SMap (BitVec 72)
  crcErr : SMap (BitVec 16)
  banks : SMap Bank
  lineWr : List LineWr
  scrubPos : Nat
  zeroing : Bool
  recode : BitVec 8
  shNumctl : Option Word
  shMxctrl : Option Word
  shCkcfg : Option Word
  shWtop : Option (BitVec 5)
  scan : Option Scan
  inq : SMap (List QEntry)
  arrivals : Nat
  delivered : SMap Nat
  satNow : BitVec 16
  outq : SMap OutChan
  df : DfState
  store : List TmEntry
  readyQ : List TmEntry
  running : Option Running
  held : List (BitVec 4 × Nat)
  spill : List SpillRec
  freed : SMap Nat
  fwd : BitVec 3
  spilling : Bool
  staleSeen : Bool
  abCause : Option Byte
  watches : SMap (Option Watch)
  rfull : BitVec 16
  waiting : Option Waiting
  lent : Bool
  lentSeen : Bool
  idleCc : Nat
  pwSnap : List Nat
  estRem : Nat
deriving DecidableEq, Repr

/-! ### The network -/

/-- A packet of the mesh (R142, R143). `head` is bytes 16 to 63 of the head flit. -/
structure Packet where
  op : BitVec 4
  aux : Byte
  off : BitVec 44
  space : BitVec 4
  src : Endpoint
  dst : Endpoint
  sz : BitVec 3
  len : BitVec 3
  txid : Byte
  rclass : BitVec 2
  wpy : BitVec 10
  sys : Bool
  pid : Pid
  head : BitVec 384
  lines : List Line
  killed : Bool
deriving DecidableEq, Repr

/-- A packet waiting at its source: with the device address its source router resolves, or with its destination endpoint
already in it (R144, R156). `core` tells that the router's core sends it, and not the router itself or its T port (R172). -/
structure Sent where
  pkt : Packet
  addr : Option DWord
  core : Bool
deriving DecidableEq, Repr

/-- Where a packet stands towards the date line of its ring (R154): before it, just over the hop that crosses it, or after it. -/
inductive DateSide where
  | before | crossing | after
deriving DecidableEq, Repr

/-- Where a packet in flight stands (R139, R148, R152, R156): at a router with the input port it came by, at a ring station by
axis, line and position with its side of the date line, at a waypoint relay, or at the T port of its destination. -/
inductive Loc where
  | router (px py : Nat) (port : Nat)
  | station (yAxis : Bool) (line pos : Nat) (side : DateSide)
  | relay (px py : Nat)
  | tport (px py : Nat)
deriving DecidableEq, Repr

/-- How a packet in flight spreads (R151, R161): to its destination; or a multicast, at its source, along the source's row,
or along a column. -/
inductive Cast where
  | single | source | east | west | north | south
deriving DecidableEq, Repr

/-- A packet in flight; `fresh` tells that its flits have reached the place and are not yet checked there (R167). -/
structure Flight where
  pkt : Packet
  loc : Loc
  fresh : Bool
  cast : Cast
deriving DecidableEq, Repr

/-- A contribution absorbed by a merge slot (R165). -/
structure Contribution where
  port : Nat
  pkt : Packet
deriving DecidableEq, Repr

/-- One router: the RT_ registers and counters by offset, what its merge slots hold, and the cycles since the last map in which any VC of
any port was blocked (R139, R165, R173, R174, R176). -/
structure Router where
  regs : SMap Word
  hiLatch : SMap Word
  held : SMap (List Contribution)
  blocked : Nat
deriving DecidableEq, Repr

/-- A remote write that a core's network interface has accepted and whose lines are not yet all in their banks: how many are, and
whether one of them was refused (R123, R437). -/
structure Accepted where
  core : CoreId
  pkt : Packet
  next : Nat
  bad : Bool
deriving DecidableEq, Repr

/-! ### Fault messages -/

/-- A fault message (R385). -/
structure Msg where
  stamp : Word
  address : BitVec 48
  detail : BitVec 16
  kind : Byte
  block : BitVec 5
  core : BitVec 6
  cluster : BitVec 6
  field : BitVec 7
deriving DecidableEq, Repr

/-- A field's signal box: its queue of 256 messages and the slot kept for kind 0xE7 (R387). -/
structure SignalBox where
  queue : List Msg
  lostSlot : Option Msg
  silent : Bool
deriving DecidableEq, Repr

/-- A counting entry of the device collector (R388); `used` orders entries by last update. -/
structure CountEntry where
  kind : Byte
  loc : BitVec 24
  first : DWord
  count : Nat
  used : Nat
deriving DecidableEq, Repr

/-- A log entry (R399). -/
structure LogEntry where
  msg : Msg
  stamp : DWord
  cls : BitVec 2
  react : Byte
  gate : Bool
deriving DecidableEq, Repr

/-- The device collector (R384, R388, R392). -/
structure Collector where
  counts : List CountEntry
  log : SMap LogEntry
  safe : Bool
  grave : Bool
  graveMsg : Option Msg
  fnrx : Bool
  nvmSecond : DWord
  nvmThisSecond : Nat
deriving DecidableEq, Repr

/-! ### The floor plan and the route map -/

/-- The floor plan (R25 to R36). Skips by field row (64 f + row) as physical columns in ascending order with their source;
failed physical cores, holes and those since the last bring-up by logical index, isolated clusters by global index; `todo` holds the
changes declared and not yet shown (R35). -/
structure FloorPlan where
  gen : Word
  skips : SMap (List (Nat × Bool))
  failed : List (Nat × Nat)
  holes : List Nat
  newHoles : List Nat
  isolated : List Nat
  dead : List Nat
  todo : List FloorChange
deriving DecidableEq, Repr

/-- The route map as the routers hold it (R150, R268). -/
structure RouteMap where
  skips : SMap (List (Nat × Bool))
  dead : List Nat
  ringXOut : List Nat
  ringYOut : List Nat
  lostTermini : List Nat
  lostStacks : List (Nat × Nat)
deriving DecidableEq, Repr

/-! ### Sections, partitions, jobs -/

/-- A section entry of a job package (R242), and what its graph blob says of it: the output arguments it names, whether it is consistent
with the entry (R243, reason 8), and whether it lets a stage write a buffer that the same or the next stage reads (R381). -/
structure SectionEntry where
  secid : BitVec 16
  stage : BitVec 8
  flags : Byte
  minCores : Nat
  maxCores : Nat
  grain : Nat
  work : Nat
  wbytes : Nat
  codeOff : Nat
  codeLen : Nat
  graphLen : Nat
  graphOff : Nat
  wtsOff : Nat
  outs : List Nat
  blobOk : Bool
  dbuf : Bool
deriving DecidableEq, Repr

/-- A job package as Ryist reads it (R241): its header and entries, the digest it names and the SHA-384 that Ryist computes, and its
bytes. -/
structure Package where
  magic : BitVec 64
  version : BitVec 32
  nsec : Nat
  nstage : Nat
  nargs : Nat
  zeros : Bool
  outargs : BitVec 64
  length : Nat
  digest : BitVec 384
  computed : BitVec 384
  sections : List SectionEntry
  image : List Byte
deriving DecidableEq, Repr

/-- The payload of a SUBMIT record (R246) with the record's LEN. -/
structure SubmitRecord where
  recLen : Nat
  jobid : BitVec 64
  pkg : BitVec 64
  pkgLen : Nat
  flags : BitVec 32
  clusters : Nat
  args : List (BitVec 64)
deriving DecidableEq, Repr

/-- Ryist's layout of one section: its slot, its cores, the lead core, its bounding rectangle is computed (R249, R233). -/
structure SectionPlace where
  secid : BitVec 16
  slot : BitVec 6
  cores : List CoreId
deriving DecidableEq, Repr

/-- A section slot (R203); `merges` are the merge slots of its merge trees, by router (PX, PY) and number (R165, R250). -/
structure SectionSlot where
  cores : List CoreId
  merges : List (Nat × Nat × Nat)
  secid : BitVec 16
  job : Option (Pid × BitVec 3 × DWord)
  abortLine : Option (Byte × Byte × CoreId)
  progress : Bool
deriving DecidableEq, Repr

/-- The gate's state of an output or of a stage end (R375, R377, R381). -/
inductive GateState where
  | open
  | final (f : DWord)
  | released (f t : DWord)
  | withheld (f t : DWord)
  | withdrawn
deriving DecidableEq, Repr

/-- Where a job stands (R248 to R263). -/
inductive JobPhase where
  | waiting | running | ended | killed | finished
deriving DecidableEq, Repr

/-- A job (R246 to R254): `kept` the clusters its resident placement retains, `away` those that left it and whose scrub its record awaits
(R254), `noKeep` that a later SUBMIT of another digest keeps it from retaining its placement (R252), `reload` the cores whose weights a replay reloads (R382), `killYc` when Ryist took its kill,
until the core resets of its sequence (R260). -/
structure Job where
  p : Pid
  r : BitVec 3
  jobid : DWord
  srec : SubmitRecord
  pkg : Package
  phase : JobPhase
  staged : Bool
  curStage : Nat
  clusters : List Nat
  kept : List Nat
  away : List Nat
  noKeep : Bool
  reload : List CoreId
  killYc : Option DWord
  layout : List SectionPlace
  secsEnded : List (BitVec 16)
  stageEnds : SMap GateState
  outputs : SMap GateState
  status : BitVec 16
  detail : BitVec 16
  fcause : Byte
  fkind : Byte
  fcore : Word
  flags : Byte
  fpgen : Word
  started : Option DWord
  endStamp : DWord
  lastRelease : DWord
  energyPj : Nat
  converged : Bool
  pred : DWord
  firstCover : Option (Byte × Byte × Word)
  replays : SMap Nat
  replaying : Option Nat
  scrubbed : Bool
deriving DecidableEq, Repr

/-- A resident placement (R252). -/
structure Resident where
  p : Pid
  r : BitVec 3
  digest : BitVec 384
  clusters : List Nat
  layout : List SectionPlace
deriving DecidableEq, Repr

/-- Records a ring carries to its reader (R251, R253, R378). -/
inductive RingRecord where
  | placement (jobid : DWord) (fpgen : Word) (mode stage : Byte) (clusters cores imbal : Nat) (pred : DWord)
      (entries : List (BitVec 16 × Byte × Nat × CoreId × CoreId))
  | completion (jobid : DWord) (status detail : BitVec 16) (fcause fkind aclass flags : Byte) (fcore fpgen : Word)
      (start fin release energy pred : DWord)
  | release (jobid : DWord) (arg : Byte) (withheld : Bool) (fkind fclass : Byte) (floc : Word) (fstamp decided : DWord)
deriving DecidableEq, Repr

/-- A job-ring pair beyond its registers (R197, R244, R255, R256): where its index block lies, by core and scratchpad offset; Ryist's copies
of the four index words; the records that wait, and those published. -/
structure Ring where
  idx : Option (CoreId × Nat)
  subWr : DWord
  subRd : DWord
  compWr : DWord
  compRd : DWord
  waiting : List RingRecord
  published : List RingRecord
deriving DecidableEq, Repr

/-- A partition beyond its registers (R236 to R240). -/
structure Partition where
  clusters : List Nat
  standby : List Nat
  target : List Nat
  state : BitVec 3
  drained : Bool
  resetYc : Option DWord
deriving DecidableEq, Repr

/-- A cluster's scrub, self-test, power and heat (R261, R329, R331 to R335, R339 to R343, R394): its budget before the thermal shift in
µW; the sums of its estimates, of their dynamic part, of its issue power and of its demand over the present 100 µs in pJ; issue energy
in 0.01 pJ and issue cycles at the last estimate; samples in succession at or below TR. -/
structure Cluster where
  scrubPend : Bool
  scrubbing : Bool
  tree : Bool
  fuseOpen : Bool
  heat : BitVec 2
  heatNoted : Bool
  temp : Int
  shift : Nat
  baseUw : Nat
  allow : Nat
  holders : Nat
  nmax : Nat
  rotation : Nat
  est : Nat
  dyn : Nat
  issue : Nat
  demand : Nat
  lastE : Nat
  lastCyc : Nat
  belowTr : Nat
  testing : Option Bool
  testWait : Bool
  testScrub : Bool
  sensorBad : Bool
deriving DecidableEq, Repr

/-- A field's power and clock state (R29, R318, R327, R331, R332); `dead` tells that its base logic has failed. -/
structure FieldPower where
  dead : Bool
  pll : Bool
  spine : Bool
  base : DWord
  staticDw : Nat
  factor : Nat
  okRun : Nat
  badRun : Nat
  baseT : Int
  baseBad : Bool
deriving DecidableEq, Repr

/-! ### Outer memory -/

/-- State of an extent (R269). -/
inductive ExtentOwner where
  | free | system | part (p : Pid)
deriving DecidableEq, Repr


/-- The key slots of a partition (R276, R277): key numbers stand for keys, which no agent reads. `pos` is how many lines of outer memory, in
ascending order, the sweep has left behind it on each terminus (R278). -/
structure KeySlots where
  slot0 : Option Nat
  slot1 : Option Nat
  epoch : Bool
  sweep : Bool
  flipping : Bool
  applied : List Nat
  pos : SMap Nat
  swerr : Nat
deriving DecidableEq, Repr

/-- How a line of outer memory was written: the number of the key and the epoch its sideband holds (R271). -/
structure LineTag where
  key : Nat
  epoch : Bool
deriving DecidableEq, Repr

/-- An extent: its owner, whether it is zeroing, and how its last fill or sweep wrote the lines that no request has written
since; `missed` how those of a part, by terminus and stack, stand that was lost before the fill could write them (R269, R270, R278,
R283). -/
structure Extent where
  owner : ExtentOwner
  zeroing : Bool
  fill : LineTag
  missed : List (Nat × Nat × LineTag)
deriving DecidableEq, Repr

/-- A terminus (R265, R269, R281, R410). -/
structure Terminus where
  lost : Bool
  stkLost : BitVec 3
  missed : Nat
  full : Bool
  rngHalted : Bool
deriving DecidableEq, Repr

/-- The module's power control (R333, R337): tenths of a mJ of input energy not yet in PW_MODENG, and intervals without excess since the
peak guard came into force. -/
structure PowerCtl where
  tenths : Nat
  guardRun : Nat
deriving DecidableEq, Repr

/-- Outer memory (R265 to R285): `fills` are the extents whose zero fill is under way or waits, in order. -/
structure OuterMem where
  mem : Mem
  tags : SMap LineTag
  extents : SMap Extent
  keys : SMap KeySlots
  sysKey : Option Nat
  nextKey : Nat
  fills : List Nat
deriving DecidableEq, Repr

/-! ### Host port and span links -/

/-- A selective IDE stream (R299, R418). -/
structure IdeStream where
  secure : Bool
  keyed : Bool
  exch : Option Nat
  exchFn : BitVec 5
deriving DecidableEq, Repr

/-- A write to the inbox held or unacknowledged at terminus 0, under its transaction number (R293). -/
structure InboxWr where
  id : Byte
  fn : BitVec 5
  core : CoreId
  off : Nat
  data : List Byte
  ord : Bool
  sent : Bool
deriving DecidableEq, Repr

/-- A host read of the inbox under way (R292, R293): its function, the place in its first line and the length of what it reads, the
transaction numbers of its line reads with the lines they have brought, the writes it waits for, and whether its packets have gone. -/
structure InRead where
  fn : BitVec 5
  core : CoreId
  off : Nat
  len : Nat
  parts : List (Byte × Option Line)
  after : List Byte
  sent : Bool
deriving DecidableEq, Repr

/-- A memory read of the host that is part of a request: its tag, host bus address and length, the bytes its completion brought, and whether
its tag is free (R296). -/
structure ReadPart where
  tag : BitVec 14
  haddr : DWord
  len : Nat
  data : List Byte
  done : Bool
deriving DecidableEq, Repr

/-- A host read outstanding for a requester on the wafer, with its descriptor set, and whether it has been answered (R295, R296). -/
structure HostRead where
  req : Packet
  set : BitVec 5
  answered : Bool
  parts : List ReadPart
deriving DecidableEq, Repr

/-- What leaves the host port, in order (R294): memory writes and reads with T bit and IDE stream, MSI-X messages, and completions of the
host's own reads. -/
inductive OutTlp where
  | write (addr : DWord) (data : List Byte) (tee : Bool) (stream : Option (BitVec 4))
  | read (tag : BitVec 14) (addr : DWord) (len : Nat) (tee : Bool) (stream : Option (BitVec 4))
  | message (fn : BitVec 5) (vec : BitVec 4) (addr : DWord) (data : Word)
  | completion (fn : BitVec 5) (r : Resp)
deriving DecidableEq, Repr

/-- The host port (R287 to R301): `training` while its link trains, `unlock` the partitions whose TDI returns to CONFIG_UNLOCKED
once their keys are destroyed (R289); the largest payload and read request in bytes; what has left the port; the words of the MSI-X tables
and the pending bits (R290). -/
structure HostPort where
  up : Bool
  training : Bool
  unlock : List Pid
  fail : BitVec 3
  width : Nat
  rate : BitVec 2
  tdi : SMap (BitVec 2)
  tdiStream : SMap (BitVec 4)
  streams : SMap IdeStream
  desc : SMap Word
  inbox : List InboxWr
  reads : List HostRead
  inReads : List InRead
  mps : Nat
  mrrs : Nat
  out : List OutTlp
  msixTab : SMap Word
  msixPend : List (BitVec 5 × BitVec 4)
  debugNonce : Option Nat
deriving DecidableEq, Repr

/-- A span packet (R307): its header's fields, the data of its head block and its lines. -/
structure SpanPacket where
  pctr : DWord
  op : BitVec 4
  vc : Bool
  kepoch : Bool
  sys : Bool
  mode : BitVec 2
  rpid : Pid
  stxid : BitVec 16
  aux : Byte
  sz : BitVec 3
  addr : DWord
  extra : DWord
  head : DWord
  lines : List Line
deriving DecidableEq, Repr

/-- A span flit without its CRC (R303). -/
structure SpanFlit where
  type : BitVec 3
  xoff : BitVec 2
  fseq : BitVec 11
  first : Byte
  payload : List Byte
deriving DecidableEq, Repr

/-- A span request being served at the module it arrived at: under which transaction number its packets travel in the mesh, and how
many lines are still unacknowledged; `sig` while the signal of MODE 1 is owed, `bad` when a line was refused (R309). -/
structure SpanIn where
  id : Byte
  pkt : SpanPacket
  left : Nat
  sig : Bool
  bad : Option Byte
deriving DecidableEq, Repr

/-- A span port (R302 to R310, R396). Sending: the packets queued, the bytes of those begun, the flit sent last. Receiving: the bytes of a packet
begun, the requests held, the flits that a gap in FSEQ shows lost, the yard cycles of the uncorrectable codewords of the last millisecond.
Keys are numbers; `rxOld` is the key before the last change with the counter seen under it, accepted until the first packet under the new
one (R308). -/
structure SpanPort where
  state : BitVec 3
  kepoch : Bool
  txKey : Option Nat
  rxKey : Option Nat
  rxOld : Option (Nat × Option DWord)
  rekeying : Bool
  rtt : BitVec 12
  txctr : DWord
  rxctr : Option DWord
  lastSeq : Option (BitVec 11)
  lost : Nat
  rxBuf : List Byte
  held : List SpanPacket
  badAt : List DWord
  xoffRx : BitVec 2
  xoffTx : BitVec 2
  outq : List (Pid × SpanPacket)
  txBuf : List Byte
  txSeq : BitVec 11
  sent : Option SpanFlit
  trans : List (BitVec 16 × Packet)
  nextStx : BitVec 16
  inbound : List SpanIn
  recalReq : Bool
  recal : Bool
  keyFail : Bool
deriving DecidableEq, Repr

/-! ### Yard: clocks, bring-up, security -/

/-- The reference and the yard clock (R319 to R322). -/
structure Clocks where
  lead : Bool
  leadLock : Bool
  lossInForce : Bool
  switching : Option Bool
  pendingLoss : Bool
  retPend : Bool
  retStart : DWord
  yardRo : Bool
deriving DecidableEq, Repr

/-- A boot directory copy (R350): its sequence number and the banks it names. -/
structure BootDir where
  seq : DWord
  bank : Bool
  tcbank : Bool
deriving DecidableEq, Repr

/-- An image in the NVM (R349, R408). -/
structure Image where
  version : Word
  digest : BitVec 384
  raise : Bool
deriving DecidableEq, Repr

/-- A row that a spare row replaces: of a physical core (field row and column) and one of its memories, or of a stack (R357). -/
inductive RowRepair where
  | sram (core : Nat × Nat) (mem row : Nat)
  | dram (terminus stack row : Nat)
deriving DecidableEq, Repr

/-- A repair record: its sequence number, the row skips it holds, by field row, and the rows replaced (R26, R352, R357). -/
structure RepairRec where
  seq : DWord
  skips : SMap (List (Nat × Bool))
  rows : List RowRepair
deriving DecidableEq, Repr

/-- The serial NVM (R349 to R353, R399). Banks hold images by kind; a settings record holds registers by their yard offset;
`lastRead` tells which copy was read last of the directory (0) and of the settings (1), repair (2) and screen (3) records. -/
structure Nvm where
  dirs : SMap BootDir
  bank0 : SMap Image
  bank1 : SMap Image
  tc0 : Image
  tc1 : Image
  settings : SMap (DWord × SMap Word)
  repair : SMap RepairRec
  screen : SMap (DWord × Bool)
  lastRead : SMap Nat
  faultLog : List Msg
deriving DecidableEq, Repr

/-- Bring-up, update and settings pass (R353 to R362). -/
structure BringUp where
  power : Bool
  enable : Bool
  phase : BitVec 4
  warm : Bool
  bank : Bool
  lastCause : BitVec 4
  lastWarm : Bool
  scrAge : Word
  graveSeen : Bool
  lostSeen : Bool
  updState : BitVec 4
  updReason : Byte
  updKinds : List (BitVec 3 × Word × BitVec 384)
  updRaise : Byte
  committing : Bool
  commitStart : DWord
  pendingReset : Option (BitVec 4 × Bool)
  mixed : Bool
  saving : Option (SMap Word)
  front : Nat
  dspend : List Nat
  fieldDs : SMap (SMap Word)
  active : SMap Image
  raiseDue : Bool
  slotPins : BitVec 6
deriving DecidableEq, Repr

/-- The fuses (R36, R327, R405, R26): `same` tells whether both copies of each bit agree (R406). -/
structure Fuses where
  rootDig : BitVec 384
  svn : SMap Nat
  secboot : Bool
  factClosed : Bool
  seedSet : Bool
  dbglock : Bool
  pmaxCut : Nat
  serial : BitVec 128
  part : BitVec 64
  grade : BitVec 4
  termini : Byte
  skips : SMap (List Nat)
  fvolt : SMap Nat
deriving DecidableEq, Repr

/-- Security (R410 to R422). -/
structure Security where
  debug : BitVec 2
  scalars : Nat
  idKnown : Bool
deriving DecidableEq, Repr

/-! ### The whole block -/

/-- The state of the module, with the queue of waiting commands and the model's own counter of free values; `served` is the job ring that
Ryist served last (R247). -/
structure State where
  pending : List Instr
  freeCtr : Nat
  resp : Resp
  cc : DWord
  yc : DWord
  cores : SMap Core
  routers : SMap Router
  inj : List Sent
  flights : List Flight
  inbox : List (CoreId × Packet)
  accepted : List Accepted
  tin : List (Nat × Packet)
  fp : FloorPlan
  map : RouteMap
  yregs : SMap Word
  yHiLatch : SMap Word
  transit : List Msg
  boxes : SMap SignalBox
  fc : Collector
  slots : SMap SectionSlot
  parts : SMap Partition
  rings : SMap Ring
  jobs : List Job
  residents : List Resident
  served : Nat
  clusters : SMap Cluster
  fields : SMap FieldPower
  pw : PowerCtl
  termini : SMap Terminus
  om : OuterMem
  host : HostPort
  span : SMap SpanPort
  ck : Clocks
  nvm : Nvm
  bu : BringUp
  fuses : Fuses
  sec : Security
deriving DecidableEq, Repr

/-! ### Values right after reset -/

/-- A plain position. -/
def noCore : CoreId := { x := 0, y := 0 }
def noEndpoint : Endpoint := { ext := false, py := 0, px := 0 }

/-- An accumulator as a core reset leaves it (R53). -/
def Acc.reset : Acc :=
  { tag := .fp32, elems := [], rowSum := [], colSum := [], rowMag := [], colMag := [] }

def Slot.reset : Slot := { gen := 0, use := none, limit := 0, age := 0 }

def OutChan.reset : OutChan := { next := 0, outst := [] }

def Bank.reset : Bank :=
  { mode := .on, target := none, later := none, filling := false, owed := false, pendWr := 0, writeback := [] }

/-- A core before bring-up: every register at its reset value, the sequencer in RESET (CORE_STATUS), the section state
IDLE (DF_STATUS), the generator at the seed of R91. -/
def Core.reset : Core :=
  { regs := [], hiLatch := [], errAddrLatch := none, s := [], pc := 0, seq := .reset, stallOn := [], issued := false, istore := [], istoreErr := [],
    istoreCounted := [], num := 0, vregs := [], vecQ := [], acc := [], matQ := [], steps := [], lastClass := 0xF, mxHist := 0,
    mvQ := [], mvAct := none, mvSeq := 0, rng := 0x9E3779B97F4A7C15, slots := [], rlb := [], mem := [], flips := [],
    crcErr := [], banks := [], lineWr := [], scrubPos := 0, zeroing := false, recode := 0, shNumctl := none, shMxctrl := none,
    shCkcfg := none, shWtop := none, scan := none, inq := [], arrivals := 0, delivered := [], satNow := 0, outq := [],
    df := .idle, store := [], readyQ := [], running := none, held := [], spill := [], freed := [], fwd := 0, spilling := false,
    staleSeen := false, abCause := none, watches := [], rfull := 0, waiting := none, lent := false, lentSeen := false, idleCc := 0,
    pwSnap := [], estRem := 0 }

def Router.reset : Router := { regs := [], hiLatch := [], held := [], blocked := 0 }

def SignalBox.reset : SignalBox := { queue := [], lostSlot := none, silent := false }

def Collector.reset : Collector :=
  { counts := [], log := [], safe := false, grave := false, graveMsg := none, fnrx := false, nvmSecond := 0,
    nvmThisSecond := 0 }

/-- The floor plan before bring-up publishes one: FP_GEN is 1 (R36). -/
def FloorPlan.reset : FloorPlan :=
  { gen := 1, skips := [], failed := [], holes := [], newHoles := [], isolated := [], dead := [], todo := [] }

def RouteMap.reset : RouteMap :=
  { skips := [], dead := [], ringXOut := [], ringYOut := [], lostTermini := [], lostStacks := [] }

def SectionSlot.reset : SectionSlot :=
  { cores := [], merges := [], secid := 0, job := none, abortLine := none, progress := false }

def Partition.reset : Partition :=
  { clusters := [], standby := [], target := [], state := 0, drained := false, resetYc := none }

def Ring.reset : Ring :=
  { idx := none, subWr := 0, subRd := 0, compWr := 0, compRd := 0, waiting := [], published := [] }

/-- A cluster before bring-up: its tree stopped, N at 64 (R74, R346). -/
def Cluster.reset : Cluster :=
  { scrubPend := false, scrubbing := false, tree := false, fuseOpen := false, heat := 0, heatNoted := false, temp := 0,
    shift := 0, baseUw := 0, allow := 0, holders := 0, nmax := 64, rotation := 0, est := 0, dyn := 0, issue := 0,
    demand := 0, lastE := 0, lastCyc := 0, belowTr := 0, testing := none, testWait := false,
    testScrub := false, sensorBad := false }

/-- A field before bring-up: factor 1.0 in units of 2^-16 (R346). -/
def FieldPower.reset : FieldPower :=
  { dead := false, pll := false, spine := false, base := 0, staticDw := 0, factor := 0x10000, okRun := 0, badRun := 0,
    baseT := 0, baseBad := false }


def KeySlots.reset : KeySlots :=
  { slot0 := none, slot1 := none, epoch := false, sweep := false, flipping := false, applied := [], pos := [], swerr := 0 }

/-- The tag of a line nothing has written: no key (log entry 8). -/
def LineTag.reset : LineTag := { key := 0, epoch := false }

def Extent.reset : Extent := { owner := .free, zeroing := false, fill := .reset, missed := [] }

def Terminus.reset : Terminus :=
  { lost := false, stkLost := 0, missed := 0, full := false, rngHalted := false }

def OuterMem.reset : OuterMem :=
  { mem := [], tags := [], extents := [], keys := [], sysKey := none, nextKey := 1, fills := [] }

def IdeStream.reset : IdeStream := { secure := false, keyed := false, exch := none, exchFn := 0 }

def HostPort.reset : HostPort :=
  { up := false, training := false, unlock := [], fail := 0, width := 0, rate := 0, tdi := [], tdiStream := [], streams := [], desc := [], inbox := [],
    reads := [], inReads := [], mps := 128, mrrs := 512, out := [], msixTab := [], msixPend := [], debugNonce := none }

def SpanPort.reset : SpanPort :=
  { state := 0, kepoch := false, txKey := none, rxKey := none, rxOld := none, rekeying := false, rtt := 0, txctr := 0, rxctr := none,
    lastSeq := none, lost := 0, rxBuf := [], held := [], badAt := [], xoffRx := 0, xoffTx := 0, outq := [], txBuf := [], txSeq := 0,
    sent := none, trans := [], nextStx := 0, inbound := [], recalReq := false, recal := false, keyFail := false }

/-- The reference on the local oscillator (CK_STATUS.REFSRC resets to 1, R345). -/
def Clocks.reset : Clocks :=
  { lead := false, leadLock := false, lossInForce := false, switching := none, pendingLoss := false, retPend := false,
    retStart := 0, yardRo := false }

def RepairRec.reset : RepairRec := { seq := 0, skips := [], rows := [] }

def BootDir.reset : BootDir := { seq := 0, bank := false, tcbank := false }

def Image.reset : Image := { version := 0, digest := 0, raise := false }

def Nvm.reset : Nvm :=
  { dirs := [], bank0 := [], bank1 := [], tc0 := .reset, tc1 := .reset, settings := [], repair := [], screen := [],
    lastRead := [], faultLog := [] }

def BringUp.reset : BringUp :=
  { power := false, enable := true, phase := 0, warm := false, bank := false, lastCause := 0, lastWarm := false,
    scrAge := 0xFFFFFFFF, graveSeen := false, lostSeen := false, updState := 0, updReason := 0, updKinds := [],
    updRaise := 0, committing := false, commitStart := 0, pendingReset := none, mixed := false, saving := none, front := 0, dspend := [],
    fieldDs := [], active := [], raiseDue := false, slotPins := 0x3F }

/-- The fuses of the module at hand (log entry 5): an HX1-8A, closed for shipment (R407), no skips blown, no rollback
counter advanced, PMAX 16. -/
def Fuses.reset : Fuses :=
  { rootDig := 0, svn := [], secboot := true, factClosed := true, seedSet := true, dbglock := false, pmaxCut := 0,
    serial := 0, part := 0x41382D315848, grade := 0xA, termini := 0xFF, skips := [], fvolt := [] }

def Security.reset : Security := { debug := 0, scalars := 0, idKnown := false }

/-- The block right after reset: every register at the value its table gives, power not yet applied, before bring-up. -/
def State.reset : State :=
  { pending := [], freeCtr := 0, resp := .none, cc := 0, yc := 0, cores := [], routers := [], inj := [], flights := [],
    inbox := [], accepted := [], tin := [], fp := .reset, map := .reset, yregs := [], yHiLatch := [], transit := [],
    boxes := [], fc := .reset, slots := [], parts := [], rings := [], jobs := [], residents := [], served := 127, clusters := [],
    fields := [], pw := { tenths := 0, guardRun := 0 }, termini := [], om := .reset, host := .reset, span := [], ck := .reset, nvm := .reset, bu := .reset,
    fuses := .reset, sec := .reset }

end Sys2Proof.Machine
end

