-- ==== Sys2Proof/Machine/Geometry.lean ====
section
/-! DEFINITION. Positions: logical and physical coordinates, the state of a position, device addresses (R12, R24 to R34). -/

namespace Sys2Proof.Machine

/-- The coordinates lie on the logical grid (R13). -/
def onGrid (c : CoreId) : Bool := c.x.toNat < 558 && c.y.toNat < 576

/-- The key of a core in the table of cores. -/
def coreKey (c : CoreId) : Nat := c.y.toNat * 558 + c.x.toNat

/-- A core from plain coordinates. -/
def coreAt (x y : Nat) : CoreId := { x := BitVec.ofNat 10 x, y := BitVec.ofNat 10 y }

/-- The key of a router in the table of routers. -/
def routerKey (py px : Nat) : Nat := py * 576 + px

/-- The router of an endpoint. -/
def epKey (e : Endpoint) : Nat := routerKey e.py.toNat e.px.toNat

/-- An endpoint as its 21 bits (R144). -/
def epBits (e : Endpoint) : Nat := e.px.toNat + 1024 * e.py.toNat + 1048576 * e.ext.toNat

/-- A core's own network interface. -/
def endpointAt (px py : Nat) : Endpoint := { ext := false, py := BitVec.ofNat 10 py, px := BitVec.ofNat 10 px }

/-- The field of a logical position, fy * 9 + fx (R36). -/
def fieldOf (x y : Nat) : Nat := (y / 64) * 9 + x / 62

/-- The physical column of a logical column of a row with the skips given in ascending order (R25). -/
def physCol (skips : List Nat) (lx : Nat) : Nat :=
  skips.foldl (fun pc s => if s ≤ pc then pc + 1 else pc) lx

/-- The logical column that a physical column of a row carries, or none for a skipped or spare column (R25, R28). -/
def logCol (skips : List Nat) (pc : Nat) : Option Nat :=
  (List.range 62).find? (fun lx => physCol skips lx == pc)

/-- The skips of a row of the grid in ascending order: `fy * 9 + fx` and the row of the field (R25). -/
def rowSkips (m : SMap (List (Nat × Bool))) (f ly : Nat) : List Nat := (m.get [] (64 * f + ly)).map (·.1)

/-- The physical position (PX, PY) of a logical position (R24, R25, R144). -/
def physOf (m : SMap (List (Nat × Bool))) (x y : Nat) : Nat × Nat :=
  ((x / 62) * 64 + physCol (rowSkips m (fieldOf x y) (y % 64)) (x % 62), y)

/-- The logical position of a physical position, if it carries one. -/
def logOf (m : SMap (List (Nat × Bool))) (px py : Nat) : Option CoreId :=
  match logCol (rowSkips m ((py / 64) * 9 + px / 64) (py % 64)) (px % 64) with
  | none => none
  | some lx => some (coreAt ((px / 64) * 62 + lx) py)

/-- The field of a physical position. -/
def fieldOfPhys (px py : Nat) : Nat := (py / 64) * 9 + px / 64

/-- The cluster of a physical position within its field, cy * 8 + cx (R24). -/
def clusterIn (px py : Nat) : Nat := ((py % 64) / 8) * 8 + (px % 64) / 8

/-- The global index of the cluster of a physical position, gy * 72 + gx (R235). -/
def clusterOf (px py : Nat) : Nat := (py / 8) * 72 + px / 8

/-- The field of a cluster, and its number within the field, cy * 8 + cx (R24, R235). -/
def fieldOfCluster (cl : Nat) : Nat := (cl / 72 / 8) * 9 + cl % 72 / 8
def clusterInField (cl : Nat) : Nat := (cl / 72 % 8) * 8 + cl % 72 % 8

/-- The clusters of a field, by number within the field (R24, R235). -/
def fieldClusters (f : Nat) : List Nat :=
  (List.range 64).map (fun b => ((f / 9) * 8 + b / 8) * 72 + (f % 9) * 8 + b % 8)

/-- The physical core within its cluster, py * 8 + px (R385). -/
def coreIn (px py : Nat) : Nat := (py % 8) * 8 + px % 8

/-- The state of a logical position (R32). -/
inductive PosState where
  | usable | hole | isolated | dead
deriving DecidableEq, Repr

/-- R32: each position is in exactly one state. -/
def posState (fp : FloorPlan) (c : CoreId) : PosState :=
  let x := c.x.toNat
  let y := c.y.toNat
  let p := physOf fp.skips x y
  if fp.dead.contains (fieldOf x y) then .dead
  else if fp.holes.contains (coreKey c) then .hole
  else if fp.isolated.contains (clusterOf p.1 p.2) then .isolated
  else .usable

/-- The terminus whose T port an edge router carries, by position (R22). -/
def terminusOfRouter (px py : Nat) : Option Nat :=
  if px = 0 ∧ 240 ≤ py ∧ py < 288 then some 0
  else if px = 0 ∧ 288 ≤ py ∧ py < 336 then some 1
  else if py = 575 ∧ 240 ≤ px ∧ px < 288 then some 2
  else if py = 575 ∧ 288 ≤ px ∧ px < 336 then some 3
  else if px = 575 ∧ 240 ≤ py ∧ py < 288 then some 4
  else if px = 575 ∧ 288 ≤ py ∧ py < 336 then some 5
  else if py = 0 ∧ 240 ≤ px ∧ px < 288 then some 6
  else if py = 0 ∧ 288 ≤ px ∧ px < 336 then some 7
  else none

/-- Edge router `e` (0 to 47) of terminus `t`, as (PX, PY) (R22). -/
def edgeRouter (t e : Nat) : Nat × Nat :=
  match t with
  | 0 => (0, 240 + e)
  | 1 => (0, 288 + e)
  | 2 => (240 + e, 575)
  | 3 => (288 + e, 575)
  | 4 => (575, 240 + e)
  | 5 => (575, 288 + e)
  | 6 => (240 + e, 0)
  | _ => (288 + e, 0)

/-- A terminus is fitted, by the fuses (R5, R23, R36). -/
def State.fitted (s : State) (t : Nat) : Bool := s.fuses.termini.getLsbD t && t < 8

/-- A router has a T port: it is an edge router of a fitted terminus (R23, R139). -/
def State.tPort (s : State) (px py : Nat) : Bool :=
  match terminusOfRouter px py with
  | some t => s.fitted t
  | none => false

/-- The number of a bank of the scratchpad (R108). -/
def bankOf (off : Nat) : Nat := off / 0xC000

/-- Parts of a device address (R12). -/
def addrSpace (a : DWord) : Nat := field a 60 4
def addrY (a : DWord) : Nat := field a 50 10
def addrX (a : DWord) : Nat := field a 40 10
def addrOff40 (a : DWord) : Nat := field a 0 40
def addrOff44 (a : DWord) : Nat := field a 0 44

/-- The core an address of space 0 or 1 names. -/
def addrCore (a : DWord) : CoreId := coreAt (addrX a) (addrY a)

/-- A device address of space 0 or 1 (R12). -/
def mkAddr (space : Nat) (c : CoreId) (off : Nat) : DWord :=
  BitVec.ofNat 64 (space * 2 ^ 60 + c.y.toNat * 2 ^ 50 + c.x.toNat * 2 ^ 40 + off)

/-- An address names the core's own scratchpad (R45). -/
def isOwnSpad (c : CoreId) (a : DWord) : Bool :=
  addrSpace a == 0 && addrCore a == c

/-- The bits of an address that name its line: the address in full, or its offset alone in space 2, where bits 59 to 44
are ignored (R12, R125). -/
def lineAddr (a : DWord) : DWord :=
  let l := a &&& 0xFFFFFFFFFFFFFFC0#64
  if addrSpace a = 2 then l &&& 0xF0000FFFFFFFFFFF#64 else l

end Sys2Proof.Machine
end

