-- ==== Sys2Proof/Machine/Ops.lean ====
section
/-! DEFINITION. The shared operations of a core: what a step of one core works on, counters, fault messages, packets,
transaction slots, the section abort and the execution fault. -/

namespace Sys2Proof.Machine

/-! ### Register offsets in a core's block (R14) used by name -/

abbrev rCORE_NUMCTL : Nat := 0x00C
abbrev rCORE_TRAP : Nat := 0x010
abbrev rCORE_TRAPPC : Nat := 0x014
abbrev rCORE_IADDR : Nat := 0x018
abbrev rCORE_ISTORE_ERR : Nat := 0x020
abbrev rCORE_RETIRED : Nat := 0x030
abbrev rCORE_SQSTALL : Nat := 0x038
abbrev rMX_CTRL : Nat := 0x1000
abbrev rMX_ASTRIDE : Nat := 0x1008
abbrev rMX_BSTRIDE : Nat := 0x100C
abbrev rMX_MXCFG : Nat := 0x1010
abbrev rMX_LIMIT : Nat := 0x1014
abbrev rMX_STEPS : Nat := 0x1020
abbrev rMX_ISSUE : Nat := 0x1028
abbrev rMX_THROTTLE : Nat := 0x1030
abbrev rMX_ACCWAIT : Nat := 0x1038
abbrev rMX_NANREC0 : Nat := 0x1400
abbrev rMX_NANREC1 : Nat := 0x1404
abbrev rMX_NANREC2 : Nat := 0x1408
abbrev rMX_NANSTAMP : Nat := 0x1410
abbrev rMX_NANCNT : Nat := 0x1420
abbrev rMX_RCFG : Nat := 0x1430
abbrev rMX_RSTAT : Nat := 0x1434
abbrev rMX_RVAL : Nat := 0x1438
abbrev rMX_RCNT : Nat := 0x1440
abbrev rMX_CKCFG : Nat := 0x1450
abbrev rMX_CKSTAT : Nat := 0x1454
abbrev rMX_CKCNT : Nat := 0x1458
abbrev rMX_CKDONE : Nat := 0x1460
abbrev rMX_CKSKIP : Nat := 0x1468
abbrev rMX_SATCNT : Nat := 0x1470
abbrev rMX_RLO : Nat := 0x1500
abbrev rMX_RHI : Nat := 0x1600
abbrev rVEC_SRSEED_LO : Nat := 0x1808
abbrev rVEC_OPS : Nat := 0x1810
abbrev rSP_REGION : Nat := 0x2004
abbrev rSP_BANKPWR : Nat := 0x2008
abbrev rSP_SCRUB : Nat := 0x2018
abbrev rSP_ERRINFO : Nat := 0x201C
abbrev rSP_ERRADDR : Nat := 0x2020
abbrev rSP_CECNT : Nat := 0x2028
abbrev rSP_UECNT : Nat := 0x2030
abbrev rSP_PARCNT : Nat := 0x2038
abbrev rSP_SCRUBPASS : Nat := 0x2040
abbrev rSP_SLEEPREF : Nat := 0x2048
abbrev rSP_LOCKREF : Nat := 0x2050
abbrev rSP_RSVREF : Nat := 0x2058
abbrev rSP_RLBHIT : Nat := 0x2060
abbrev rSP_RLBMISS : Nat := 0x2068
abbrev rSP_RLBINV : Nat := 0x2070
abbrev rMV_ERR : Nat := 0x3004
abbrev rMV_ERRADDR : Nat := 0x3008
abbrev rMV_DONE : Nat := 0x3010
abbrev rMV_LINES : Nat := 0x3018
abbrev rMV_DGBYTES : Nat := 0x3028
abbrev rSY_CNT : Nat := 0x4040
abbrev rSY_RVAL : Nat := 0x4200
abbrev rSY_RSRC : Nat := 0x4280
abbrev rSY_WREQ : Nat := 0x4300
abbrev rSY_SIGS : Nat := 0x4500
abbrev rSY_FIRED : Nat := 0x4508
abbrev rSY_OVERRUN : Nat := 0x4510
abbrev rSY_WAITCYC : Nat := 0x4518
abbrev rSY_LENTCYC : Nat := 0x4520
abbrev rCH_ICFG : Nat := 0x5100
abbrev rCH_IRED : Nat := 0x5104
abbrev rCH_ISTAT : Nat := 0x5108
abbrev rCH_IMSG : Nat := 0x5110
abbrev rCH_ISPILL : Nat := 0x5118
abbrev rCH_IDISC : Nat := 0x5120
abbrev rCH_OCFG : Nat := 0x5500
abbrev rCH_ODST : Nat := 0x5504
abbrev rCH_OCRED : Nat := 0x5508
abbrev rCH_OMASK : Nat := 0x5510
abbrev rCH_OMSG : Nat := 0x5520
abbrev rCH_OSTALL : Nat := 0x5528
abbrev rCH_OCRET : Nat := 0x5530
abbrev rCH_ADDR : Nat := 0x5900
abbrev rDF_SECCFG : Nat := 0x6008
abbrev rDF_FIN : Nat := 0x600C
abbrev rDF_WINDOW : Nat := 0x6010
abbrev rDF_STALL : Nat := 0x6014
abbrev rDF_SPILL : Nat := 0x6018
abbrev rDF_ABREC : Nat := 0x601C
abbrev rDF_ABSRC : Nat := 0x6020
abbrev rDF_NOPROG : Nat := 0x6024
abbrev rDF_FIRED : Nat := 0x6030
abbrev rDF_FWD : Nat := 0x6038
abbrev rDF_EPDISC : Nat := 0x6040
abbrev rDF_ABDISC : Nat := 0x6048
abbrev rDF_SPILLEV : Nat := 0x6050
abbrev rDF_SPILLTOK : Nat := 0x6058
abbrev rDF_REINJ : Nat := 0x6060
abbrev rDF_HELD : Nat := 0x6068
abbrev rDF_UCFG : Nat := 0x6100
abbrev rDF_UREQ : Nat := 0x6104
abbrev rDF_UPT : Nat := 0x6108
abbrev rDF_UFIRE : Nat := 0x6110
abbrev rDF_UWIN : Nat := 0x6118
abbrev rDF_UWOUT : Nat := 0x6120
abbrev rDF_UWMX : Nat := 0x6128
abbrev rDF_QIN : Nat := 0x6400
abbrev rDF_QOUT : Nat := 0x6408
abbrev rDF_QMX : Nat := 0x6410
abbrev rPWC_MXC : Nat := 0xA010
abbrev rPWC_VEC : Nat := 0xA040
abbrev rPWC_VFMA : Nat := 0xA048
abbrev rPWC_VLONG : Nat := 0xA050
abbrev rPWC_MVL : Nat := 0xA058
abbrev rPWC_DGB : Nat := 0xA060
abbrev rPWC_SEQ : Nat := 0xA068
abbrev rPWC_EST : Nat := 0xA070
abbrev rPWC_WAKE : Nat := 0xA078
abbrev rFLT_WCTL : Nat := 0xC000
abbrev rFLT_WSTAT : Nat := 0xC004
abbrev rFLT_WREF : Nat := 0xC010
abbrev rFLT_WLAST : Nat := 0xC040
abbrev rFLT_WSCANS : Nat := 0xC070
abbrev rFLT_MSGS : Nat := 0xC078
abbrev rFLT_LAST : Nat := 0xC080

/-! Router registers, offsets within RT_ (R176). -/

abbrev rRT_PID : Nat := 0x004
abbrev rRT_ROUTE : Nat := 0x008
abbrev rRT_TIMEOUT : Nat := 0x00C
abbrev rRT_FLITSIN : Nat := 0x020
abbrev rRT_FLITSOUT : Nat := 0x028
abbrev rRT_CRCDISC : Nat := 0x030
abbrev rRT_TOCNT : Nat := 0x038
abbrev rRT_LATE : Nat := 0x040
abbrev rRT_BLK : Nat := 0x080
abbrev rRT_DISCARD : Nat := 0x048
abbrev rRT_FWREF : Nat := 0x050
abbrev rRT_MCSKIP : Nat := 0x058
abbrev rRT_NOROUTE : Nat := 0x060
abbrev rRT_REDERR : Nat := 0x068
abbrev rRT_INVAL : Nat := 0x070
abbrev rRT_RED : Nat := 0x100

/-! ### Registers and counters -/

/-- The reset value of a core register that is not zero at reset (R74, R106, R137, R200, R231). -/
def coreReset (off : Nat) : Word :=
  if off = rMX_ASTRIDE ∨ off = rMX_BSTRIDE then 1
  else if off = rMX_LIMIT then 64
  else if off = rMX_CKCFG then 0x260E
  else if rMX_RLO ≤ off ∧ off < rMX_RHI then 0xFF800000
  else if rMX_RHI ≤ off ∧ off < 0x1700 then 0x7F800000
  else if off = rSP_SCRUB then 1024
  else if 0x5100 ≤ off ∧ off < 0x5500 ∧ off % 0x40 = 0 then 0x01F00001
  else if 0x5500 ≤ off ∧ off < 0x5900 ∧ off % 0x40 = 0 then 0x1F000001
  else if off = rDF_WINDOW then 65536
  else if off = rDF_STALL then 1024
  else 0

/-- The reset value of a router register (R176). -/
def routerReset (off : Nat) : Word :=
  if off = rRT_PID then 0x40000000
  else if off = rRT_ROUTE then 1
  else if off = rRT_TIMEOUT then 20
  else if 0x100 ≤ off ∧ off < 0x200 ∧ off % 0x20 = 0 then 0x01000000
  else 0

/-- A stored register of a core. -/
def Core.reg (k : Core) (off : Nat) : Word := k.regs.get (coreReset off) off

/-- A core with a stored register set. -/
def Core.setReg (k : Core) (off : Nat) (v : Word) : Core := { k with regs := k.regs.set off v }

/-- A stored register of a router. -/
def Router.reg (r : Router) (off : Nat) : Word := r.regs.get (routerReset off) off

/-- A router with a stored register set. -/
def Router.setReg (r : Router) (off : Nat) (v : Word) : Router := { r with regs := r.regs.set off v }

/-- A 64-bit counter of a pair at its _LO offset. -/
def pairAt (m : SMap Word) (lo : Nat) : DWord := pair64 (m.get 0 (lo + 4)) (m.get 0 lo)

/-- A pair set to a 64-bit value. -/
def setPair (m : SMap Word) (lo : Nat) (v : DWord) : SMap Word := (m.set lo (lo32 v)).set (lo + 4) (hi32 v)

/-- A counter pair advanced; counters do not saturate (R106, R137, R176, R200). -/
def bump (m : SMap Word) (lo n : Nat) : SMap Word :=
  if n = 0 then m else setPair m lo (pairAt m lo + BitVec.ofNat 64 n)

/-- A core with a counter pair advanced. -/
def Core.count (k : Core) (lo n : Nat) : Core := { k with regs := bump k.regs lo n }

/-- A router with a counter pair advanced. -/
def Router.count (r : Router) (lo n : Nat) : Router := { r with regs := bump r.regs lo n }

/-- A scalar register; s0 reads as 0 (R41). -/
def Core.sreg (k : Core) (r : SReg) : DWord := if r = 0 then 0 else k.s.get 0 r.toNat

/-- A scalar register written; a write to s0 is ignored (R41). -/
def Core.setS (k : Core) (r : SReg) (v : DWord) : Core :=
  if r = 0 then k else { k with s := k.s.set r.toNat v }

/-! ### What a step of one core works on -/

/-- The working context of a step of one core: its place, its cycle counter, its state and its router, and what the step
sends out: packets, fault messages, a section abort for its slot's abort line, progress, and the model's answer. -/
structure K where
  c : CoreId
  here : Endpoint
  skips : SMap (List (Nat × Bool))
  cyc : DWord
  core : Core
  rt : Router
  out : List Sent
  msgs : List Msg
  abort : Option (Byte × Byte)
  progress : Bool
  free : Nat
  resp : Resp
  tree : Bool
  heat : Nat
  posn : PosState
  edge : Bool
  slot : Nat
  image : BitVec 384
  guarded : Bool

/-- A core that bring-up has taken out of reset (R359): as after reset, with its sequencer IDLE. -/
def Core.booted : Core := { Core.reset with seq := .idle }

/-- A core that is not listed: in reset until bring-up is READY (R354). -/
def State.blankCore (s : State) : Core := if s.bu.phase = 10 then Core.booted else Core.reset

/-- One core of the state. -/
def State.core (s : State) (c : CoreId) : Core := s.cores.get s.blankCore (coreKey c)

/-- One router of the state. -/
def State.router (s : State) (px py : Nat) : Router := s.routers.get Router.reset (routerKey py px)

/-- The physical position of a core in the floor plan in force. -/
def State.phys (s : State) (c : CoreId) : Nat × Nat := physOf s.fp.skips c.x.toNat c.y.toNat

/-- The network interface of a core. -/
def State.epOf (s : State) (c : CoreId) : Endpoint := endpointAt (s.phys c).1 (s.phys c).2

/-- The local cycle counter of a field: cleared when the field PLL locks (R73). -/
def State.cycle (s : State) (f : Nat) : DWord := s.cc - (s.fields.get FieldPower.reset f).base

/-- CORE_CYCLE of a core (R73). -/
def State.coreCycle (s : State) (c : CoreId) : DWord := s.cycle (fieldOf c.x.toNat c.y.toNat)

/-- The section slot a core is configured with (R203). -/
def Core.slotNo (k : Core) : Nat := field (k.reg rDF_SECCFG) 10 6

/-- The cluster a core lies in. -/
def State.clusterAt (s : State) (c : CoreId) : Cluster :=
  s.clusters.get Cluster.reset (clusterOf (s.phys c).1 (s.phys c).2)

/-- The state of a position as accesses and packets meet it (R32, R33): a cluster whose power a rail short has removed is isolated at once
(R31), the table shows it later (R35). -/
def State.posOf (s : State) (c : CoreId) : PosState :=
  match posState s.fp c with
  | .usable => if (s.clusterAt c).fuseOpen then .isolated else .usable
  | p => p

/-- A guarded partition holds a cluster: JB_PCFGp.GUARDED is set (R98, R239). -/
def State.guards (s : State) (cl : Nat) : Bool :=
  s.parts.any (fun (e : Nat × Partition) =>
    e.2.clusters.contains cl && (s.yregs.get 0 (0x070100 + 0x40 * e.1)).getLsbD 30)

/-- The digest of the core microcode image in use, which carries the tables of the vector unit (R89, R349). -/
def State.coreImage (s : State) : BitVec 384 := (s.bu.active.get Image.reset 3).digest

/-- The working context of a core. -/
def kOf (s : State) (c : CoreId) : K :=
  { c := c, here := s.epOf c, skips := s.fp.skips, cyc := s.coreCycle c, core := s.core c,
    rt := s.routers.get Router.reset (epKey (s.epOf c)), out := [], msgs := [], abort := none, progress := false,
    free := s.freeCtr, resp := s.resp, tree := (s.clusterAt c).tree, heat := (s.clusterAt c).heat.toNat,
    posn := s.posOf c, edge := s.tPort (s.phys c).1 (s.phys c).2,
    slot := (s.core c).slotNo, image := s.coreImage, guarded := s.guards (clusterOf (s.phys c).1 (s.phys c).2) }

/-- The slots after a step of a core: its abort reaches the abort line of its slot when none is signalled yet (R219), its
progress is noted (R222). -/
def putSlot (k : K) (m : SMap SectionSlot) : SMap SectionSlot :=
  match k.abort, k.progress with
  | none, false => m
  | a, p =>
    SMap.upd SectionSlot.reset m k.slot (fun e =>
      { e with
        abortLine := match e.abortLine, a with
          | none, some (cause, kind) => some (cause, kind, k.c)
          | l, _ => l
        progress := e.progress || p })

/-- A section is configured on the core (R213). -/
def Core.configured (k : Core) : Bool := k.df != .idle

/-- When the first core of a slot is configured, and when the last one leaves it without an abort, the slot's abort line and its progress are
those of no section (R213, R217, R219). -/
def freeLine (s : State) (k : K) (m : SMap SectionSlot) : SMap SectionSlot :=
  if ((s.core k.c).configured != k.core.configured) && k.abort.isNone
      && !s.cores.any (fun (e : Nat × Core) => e.1 != coreKey k.c && e.2.configured && e.2.slotNo == k.slot) then
    SMap.upd SectionSlot.reset m k.slot (fun e => { e with abortLine := none, progress := false })
  else m

/-- The state after a step of a core. -/
def kPut (s : State) (k : K) : State :=
  { s with
    cores := s.cores.set (coreKey k.c) k.core
    routers := if k.rt = s.routers.get Router.reset (epKey k.here) then s.routers else s.routers.set (epKey k.here) k.rt
    inj := s.inj ++ k.out
    transit := s.transit ++ k.msgs
    slots := freeLine s k (putSlot k s.slots)
    freeCtr := k.free
    resp := k.resp }

/-- A step of one core: everything else of the state stays as it is. Coordinates off the grid name no core (R13). -/
def onCore (c : CoreId) (s : State) (f : K → K) : State :=
  if onGrid c then kPut s (f (kOf s c)) else s

/-- A field's base logic has failed (R29). -/
def State.fieldDead (s : State) (f : Nat) : Bool := (s.fields.get FieldPower.reset f).dead

/-- The position's base-wafer part works: a usable position (R32) of a live field of a powered module. -/
def State.present (s : State) (c : CoreId) : Bool :=
  onGrid c && s.bu.power && s.posOf c == .usable && !s.fieldDead (fieldOf c.x.toNat c.y.toNat)

/-- The scratchpad has power: at a usable position, and at one of an isolated cluster, whose scratchpads stay up (R31). -/
def State.padUp (s : State) (c : CoreId) : Bool :=
  onGrid c && s.bu.power && (s.posOf c == .usable || s.posOf c == .isolated) && !s.fieldDead (fieldOf c.x.toNat c.y.toNat)

/-- The core's compute logic works: its position is usable, it is not switched off for heat (R341) and issue is not stopped by the safe
state (R392). -/
def State.alive (s : State) (c : CoreId) : Bool :=
  s.present c && !s.fc.safe && (s.clusterAt c).heat.toNat ≤ 1

/-- A step that only a powered core takes; otherwise nothing happens (log entry 2). -/
def onLive (c : CoreId) (s : State) (f : K → K) : State :=
  if s.alive c then onCore c s f else s

/-! ### Fault messages -/

/-- The message a position sends (R385). -/
def mkMsg (px py : Nat) (stamp : DWord) (block kind detail addr : Nat) : Msg :=
  { stamp := lo32 stamp, address := BitVec.ofNat 48 addr, detail := BitVec.ofNat 16 detail,
    kind := BitVec.ofNat 8 kind, block := BitVec.ofNat 5 block, core := BitVec.ofNat 6 (coreIn px py),
    cluster := BitVec.ofNat 6 (clusterIn px py), field := BitVec.ofNat 7 (fieldOfPhys px py) }

/-- A message as its 128 bits (R385). -/
def Msg.bits (m : Msg) : BitVec 128 :=
  m.stamp ++ m.address ++ m.detail ++ m.kind ++ m.block ++ m.core ++ m.cluster ++ m.field

/-- FLT_MSGS counts a message of blocks 0 to 11 of its position and FLT_LAST keeps it (R400). -/
def Core.noteMsg (k : Core) (m : Msg) : Core :=
  if m.block.toNat ≤ 11 then
    let r := bump k.regs rFLT_MSGS 1
    let b := Msg.bits m
    { k with regs := (((r.set rFLT_LAST (b.extractLsb' 0 32)).set (rFLT_LAST + 4) (b.extractLsb' 32 32)).set
        (rFLT_LAST + 8) (b.extractLsb' 64 32)).set (rFLT_LAST + 12) (b.extractLsb' 96 32) }
  else k

/-- A block of the core sends a fault message (R384, R385). -/
def K.report (k : K) (block kind detail addr : Nat) : K :=
  let m := mkMsg k.here.px.toNat k.here.py.toNat k.cyc block kind detail addr
  { k with core := k.core.noteMsg m, msgs := k.msgs ++ [m] }

/-! ### Packets and transaction slots -/

/-- The low n bits of a packet's head payload, bytes 16 on (R142). -/
def headOf (v : Nat) : BitVec 384 := BitVec.ofNat 384 v

/-- A packet of this core with the PID and SYS that RT_PID gives (R170). -/
def K.packet (k : K) (op : Nat) (space off : Nat) (sz len : Nat) (txid : Byte) (head : BitVec 384) (lines : List Line) :
    Packet :=
  { op := BitVec.ofNat 4 op, aux := 0, off := BitVec.ofNat 44 off, space := BitVec.ofNat 4 space, src := k.here,
    dst := noEndpoint, sz := BitVec.ofNat 3 sz, len := BitVec.ofNat 3 len, txid := txid, rclass := 0, wpy := 0,
    sys := field (k.rt.reg rRT_PID) 29 1 == 1, pid := BitVec.ofNat 4 (field (k.rt.reg rRT_PID) 0 4), head := head,
    lines := lines, killed := false }

/-- The core hands a packet to its router, for a device address. -/
def K.sendTo (k : K) (a : DWord) (p : Packet) : K := { k with out := k.out ++ [{ pkt := p, addr := some a, core := true }] }

/-- The core hands a packet with its endpoint to its router. -/
def K.sendEp (k : K) (p : Packet) : K := { k with out := k.out ++ [{ pkt := p, addr := none, core := true }] }

/-- The offset a request carries: 19 bits in space 0, 16 in space 1, else 44 bits of the address; in spaces 2 to 5 the
full offset (R143). -/
def pktOff (a : DWord) : Nat :=
  if addrSpace a ≤ 1 then addrOff40 a else addrOff44 a

/-- The first free slot from `lo` within `n` slots (R168). -/
def Core.freeSlot (k : Core) (lo n : Nat) : Option Nat :=
  (List.range n).map (· + lo) |>.find? (fun i => (k.slots.get Slot.reset i).use.isNone)

/-- Slots in use among the `n` from `lo`. -/
def Core.slotsUsed (k : Core) (lo n : Nat) : Nat :=
  ((List.range n).filter (fun i => (k.slots.get Slot.reset (i + lo)).use.isSome)).length

/-- The TXID of a slot: its generation and its number (R143). -/
def Core.txid (k : Core) (i : Nat) : Byte :=
  BitVec.ofNat 8 ((k.slots.get Slot.reset i).gen.toNat * 64 + i)

/-- A slot taken by a transaction, with the timeout in force as its request leaves (R168, R361). -/
def K.take (k : K) (i : Nat) (u : SlotUse) : K :=
  { k with core := { k.core with slots := SMap.upd Slot.reset k.core.slots i (fun e =>
      { e with use := some u, limit := field (k.rt.reg rRT_TIMEOUT) 0 10 * 2400, age := 0 }) } }

/-- A slot freed; its generation advances (R168). -/
def Core.freeUp (k : Core) (i : Nat) : Core :=
  { k with slots := SMap.upd Slot.reset k.slots i (fun e => { e with gen := e.gen + 1, use := none, age := 0 }) }

/-- A scalar register waits for a remote answer. -/
def Core.awaits (k : Core) (r : SReg) : Bool :=
  (List.range 8).any (fun i =>
    match (k.slots.get Slot.reset i).use with
    | some (.load d _ _ _ _ _ _) => d == r && r != 0
    | some (.atom d _ _) => d == r && r != 0
    | some (.watch d _ _) => d == r && r != 0
    | _ => false)

/-! ### The remote-line buffer -/

/-- The whole buffer is invalidated; fills in flight are not entered (R126). -/
def Core.rlbClear (k : Core) : Core :=
  { k with
    rlb := []
    slots := k.slots.map (fun e =>
      match e.2.use with
      | some (.load d a n _ q o pc) => (e.1, { e.2 with use := some (.load d a n false q o pc) })
      | _ => e)
    regs := bump k.regs rSP_RLBINV 1 }

/-- A fetch of a line under way will not enter the buffer: the core has written the line since (R126, R129). -/
def Core.noFill (k : Core) (a : DWord) : Core :=
  { k with slots := k.slots.map (fun e =>
      match e.2.use with
      | some (.load d b n f q o pc) =>
        (e.1, { e.2 with use := some (.load d b n (f && lineAddr b != lineAddr a) q o pc) })
      | _ => e) }

/-- One line is invalidated (R126). -/
def Core.rlbDrop (k : Core) (a : DWord) : Core :=
  { k.noFill a with rlb := k.rlb.filter (fun e => e.addr != lineAddr a) }

/-! ### The section abort and the execution fault -/

/-- A core enters ABORTING (R218, R219): the sequencer issues nothing further, queued engine work is cancelled and the work
executing is left to finish, and every token and record is discarded. -/
def Core.enterAbort (k : Core) (cause kind : Byte) (src : CoreId) : Core :=
  { k with
    df := .aborting
    seq := .idle
    vecQ := k.vecQ.take 1
    matQ := []
    mvQ := []
    mvAct := k.mvAct.map (fun a => { a with stopped := true })
    inq := []
    store := []
    readyQ := []
    running := none
    held := []
    spill := []
    freed := []
    spilling := false
    waiting := none
    abCause := some cause
    regs := ((k.regs.set rDF_ABREC (place 32 31 1 1 ||| place 32 16 3 cause.toNat ||| place 32 8 8 kind.toNat)).set
      rDF_ABSRC (place 32 10 10 src.y.toNat ||| place 32 0 10 src.x.toNat)).set rDF_NOPROG 0 }

/-- A section on the core can be aborted (R214). -/
def Core.abortable (k : Core) : Bool :=
  match k.df with
  | .loaded | .starting | .run => true
  | _ => false

/-- An abort that arises on this core: it enters ABORTING at once and its slot's abort line is signalled (R219). -/
def K.abortNow (k : K) (cause kind : Nat) : K :=
  if k.core.abortable then
    { k with core := k.core.enterAbort (BitVec.ofNat 8 cause) (BitVec.ofNat 8 kind) k.c
             abort := some (BitVec.ofNat 8 cause, BitVec.ofNat 8 kind) }
  else k

/-- An execution fault (R49): CORE_TRAP and CORE_TRAPPC record it, it is reported, and the section aborts with cause 0. -/
def K.execFault (k : K) (block kind pc detail addr : Nat) : K :=
  let k1 := K.report { k with core := (k.core.setReg rCORE_TRAP (place 32 31 1 1 ||| place 32 0 8 kind)).setReg
                                rCORE_TRAPPC (place 32 0 14 pc) } block kind detail addr
  let k2 := k1.abortNow 0 kind
  { k2 with core := { k2.core with seq := .trapped } }

/-- The core has made progress (R222). -/
def K.progressed (k : K) : K :=
  { k with core := k.core.setReg rDF_NOPROG 0, progress := true }

/-- The identifier of the section configured on the core (R231). -/
def Core.secid (k : Core) : Nat := field (k.reg rDF_SECCFG) 16 16

/-- The iteration tag of the running task (R97, R107). -/
def Core.runTag (k : Core) : BitVec 16 :=
  match k.running with
  | some r => r.tag
  | none => 0

/-- A fresh free value number (log entry 4). -/
def K.fresh (k : K) : K := { k with free := k.free + 1 }

end Sys2Proof.Machine
end

