-- ==== Sys2Proof/Machine/Encoding.lean ====
section
/-! DEFINITION. The instruction words of the sequencer: formats and opcodes (R43, R44, R52, R58, R178, R205). -/

namespace Sys2Proof.Machine

/-- Fields of an instruction word (R43). -/
def fOp (w : Word) : Nat := field w 26 6
def fD (w : Word) : SReg := w.extractLsb' 21 5
def fA (w : Word) : SReg := w.extractLsb' 16 5
def fB (w : Word) : SReg := w.extractLsb' 11 5
def fImm (w : Word) : BitVec 16 := w.extractLsb' 0 16
def fFunc (w : Word) : Nat := field w 0 11

/-- Scalar ALU, opcode 0x00 (R44). -/
def decodeAlu (c : CoreId) (w : Word) : Option Instr :=
  let d := fD w; let a := fA w; let b := fB w
  match fFunc w with
  | 0x000 => some (.add c d a b)
  | 0x001 => some (.sub c d a b)
  | 0x002 => some (.andS c d a b)
  | 0x003 => some (.orS c d a b)
  | 0x004 => some (.xorS c d a b)
  | 0x005 => some (.shl c d a b)
  | 0x006 => some (.shr c d a b)
  | 0x007 => some (.sra c d a b)
  | 0x008 => some (.slt c d a b)
  | 0x009 => some (.sltu c d a b)
  | 0x00A => some (.mul c d a b)
  | 0x00B => some (.mulhu c d a b)
  | 0x00C => some (.minS c d a b)
  | 0x00D => some (.maxS c d a b)
  | 0x00E => some (.clz c d a)
  | 0x00F => some (.popc c d a)
  | _ => none

/-- Shift immediate, opcode 0x05: bits 15 to 8 of the immediate are 0 and bits 7 and 6 select the shift (R43). -/
def decodeShiftImm (c : CoreId) (w : Word) : Option Instr :=
  let amt : BitVec 6 := w.extractLsb' 0 6
  match field w 6 10 with
  | 0 => some (.shli c (fD w) (fA w) amt)
  | 1 => some (.shri c (fD w) (fA w) amt)
  | 2 => some (.srai c (fD w) (fA w) amt)
  | _ => none

/-- FENCE, opcode 0x12 (R43). -/
def decodeFence (c : CoreId) (w : Word) : Option Instr :=
  match field w 0 16 with
  | 1 => some (.fenceAcq c)
  | 2 => some (.fenceRel c)
  | 3 => some (.fence c)
  | _ => none

/-- A vector register number is even, as a register pair names it (R58). -/
def evenReg (v : VReg) : Bool := v.getLsbD 0 == false

/-- Vector functions, opcode 0x20 (R58, R86). -/
def decodeVec (c : CoreId) (w : Word) : Option Instr :=
  let vd : VReg := w.extractLsb' 22 4
  let va : VReg := w.extractLsb' 18 4
  let vb : VReg := w.extractLsb' 14 4
  let vc : VReg := w.extractLsb' 10 4
  match field w 0 10 with
  | 0x00 => some (.vadd c vd va vb)
  | 0x01 => some (.vsub c vd va vb)
  | 0x02 => some (.vmul c vd va vb)
  | 0x03 => some (.vfma c vd va vb vc)
  | 0x04 => some (.vmin c vd va vb)
  | 0x05 => some (.vmax c vd va vb)
  | 0x06 => some (.vabs c vd va)
  | 0x07 => some (.vneg c vd va)
  | 0x08 => some (.vcmplt c vd va vb)
  | 0x09 => some (.vsel c vd va vb vc)
  | 0x10 => some (.vrcp c vd va)
  | 0x11 => some (.vrsq c vd va)
  | 0x12 => some (.vexp2 c vd va)
  | 0x13 => some (.vlog2 c vd va)
  | 0x18 => some (.vredsum c vd va)
  | 0x19 => some (.vredmax c vd va)
  | 0x20 => if vc.toNat ≤ 10 then some (.vcvt c vd va (vb.extractLsb' 0 2) vc) else none
  | 0x28 => if evenReg vd && evenReg va && evenReg vb then some (.vadd2 c vd va vb) else none
  | 0x29 => if evenReg vd && evenReg va && evenReg vb then some (.vmul2 c vd va vb) else none
  | 0x30 => some (.vmova c vd (va.extractLsb' 0 2) (vb.extractLsb' 0 2))
  | 0x31 => some (.vmovaw c (vd.extractLsb' 0 2) va (vb.extractLsb' 0 2))
  | _ => none

/-- Matrix functions, opcode 0x28 (R52). -/
def decodeMat (c : CoreId) (w : Word) : Option Instr :=
  let sa := fD w; let sb := fA w
  let fmt : BitVec 4 := w.extractLsb' 12 4
  let acc : BitVec 2 := w.extractLsb' 10 2
  let inc := w.getLsbD 9
  match field w 6 3 with
  | 0 => some (.mma c sa sb fmt acc inc)
  | 1 => some (.mzero c sa sb fmt acc inc)
  | 2 => some (.mlda c sa sb fmt acc inc)
  | 3 => some (.mst c sa sb fmt acc inc)
  | 4 => some (.msync c sa sb fmt acc inc)
  | _ => none

/-- Channel and sync functions, opcode 0x30 (R178). -/
def decodeChan (c : CoreId) (w : Word) : Option Instr :=
  let d := fD w; let a := fA w; let b := fB w
  match fFunc w with
  | 0x000 => some (.send c a b)
  | 0x001 => some (.sig c a b)
  | 0x002 => some (.watch c d a b)
  | 0x003 => some (.wait c d a b)
  | 0x010 => some (.atomFadd c d a b)
  | 0x011 => some (.atomSwap c d a b)
  | 0x012 => some (.atomCas c d a b)
  | 0x013 => some (.atomUmax c d a b)
  | 0x014 => some (.atomAnd c d a b)
  | 0x015 => some (.atomOr c d a b)
  | _ => none

/-- Dataflow functions, opcode 0x34; QVLD needs d[4] at 0 (R205). -/
def decodeFlow (c : CoreId) (w : Word) : Option Instr :=
  let d := fD w; let a := fA w; let b := fB w
  match fFunc w with
  | 0x000 => some (.endTask c)
  | 0x001 => some (.fin c)
  | 0x002 => some (.tagI c d)
  | 0x003 => some (.argsI c d)
  | 0x004 => some (.qld c d a b)
  | 0x005 => if d.getLsbD 4 then none else some (.qvld c (d.extractLsb' 0 4) a)
  | 0x006 => some (.qcp c a b)
  | _ => none

/-- System functions, opcode 0x3C (R43). -/
def decodeSys (c : CoreId) (w : Word) : Option Instr :=
  match fFunc w with
  | 0 => some (.nop c)
  | 1 => some (.trap c)
  | _ => none

/-- The instruction a word stands for on a core; none for an illegal instruction (R43). Fields that no rule reads are
ignored (log entry 16). -/
def decodeInsn (c : CoreId) (w : Word) : Option Instr :=
  let d := fD w; let a := fA w; let imm := fImm w
  match fOp w with
  | 0x00 => decodeAlu c w
  | 0x01 => some (.addi c d a imm)
  | 0x02 => some (.andi c d a imm)
  | 0x03 => some (.ori c d a imm)
  | 0x04 => some (.xori c d a imm)
  | 0x05 => decodeShiftImm c w
  | 0x06 => some (.lih c d a imm)
  | 0x08 => some (.ldB c d a imm)
  | 0x09 => some (.ldH c d a imm)
  | 0x0A => some (.ldW c d a imm)
  | 0x0B => some (.ldD c d a imm)
  | 0x0C => some (.stB c d a imm)
  | 0x0D => some (.stH c d a imm)
  | 0x0E => some (.stW c d a imm)
  | 0x0F => some (.stD c d a imm)
  | 0x10 => some (.ldAcq c d a imm)
  | 0x11 => some (.stRel c d a imm)
  | 0x12 => decodeFence c w
  | 0x14 => some (.csrr c d imm)
  | 0x15 => some (.csrw c d imm)
  | 0x18 => some (.beq c d a imm)
  | 0x19 => some (.bne c d a imm)
  | 0x1A => some (.blt c d a imm)
  | 0x1B => some (.bge c d a imm)
  | 0x1C => some (.j c (w.extractLsb' 0 26))
  | 0x1D => some (.jal c (w.extractLsb' 0 26))
  | 0x1E => some (.jr c a)
  | 0x20 => decodeVec c w
  | 0x21 => some (.vld c (w.extractLsb' 22 4) (w.extractLsb' 17 5) (w.extractLsb' 0 17))
  | 0x22 => some (.vst c (w.extractLsb' 22 4) (w.extractLsb' 17 5) (w.extractLsb' 0 17))
  | 0x28 => decodeMat c w
  | 0x2C => if d = 0 then some (.mvq c a imm) else none
  | 0x2D => some (.mvw c imm)
  | 0x30 => decodeChan c w
  | 0x34 => decodeFlow c w
  | 0x3C => decodeSys c w
  | _ => none

/-! ### The words of instructions -/

/-- The formats of an instruction word (R43, R52, R58): A, I, J, V, VM and M. -/
def wordA (op : BitVec 6) (d a b : SReg) (func : BitVec 11) : Word := op ++ d ++ a ++ b ++ func
def wordI (op : BitVec 6) (d a : SReg) (imm : BitVec 16) : Word := op ++ d ++ a ++ imm
def wordJ (op : BitVec 6) (off : BitVec 26) : Word := op ++ off
def wordV (vd va vb vc : VReg) (func : BitVec 10) : Word := 0x20#6 ++ vd ++ va ++ vb ++ vc ++ func
def wordVM (op : BitVec 6) (v : VReg) (sa : SReg) (off : BitVec 17) : Word := op ++ v ++ sa ++ off
def wordM (sa sb : SReg) (fmt : BitVec 4) (acc : BitVec 2) (inc : Bool) (func : BitVec 3) : Word :=
  0x28#6 ++ sa ++ sb ++ fmt ++ acc ++ BitVec.ofBool inc ++ func ++ 0#6

/-- The word of an instruction of the sequencer, fields that no rule reads 0; none for a command that is no instruction (R43,
R44, R52, R58, R178, R205). -/
def encodeInsn (i : Instr) : Option Word :=
  match i with
  | .add _ d a b => some (wordA 0x00 d a b 0x000)
  | .sub _ d a b => some (wordA 0x00 d a b 0x001)
  | .andS _ d a b => some (wordA 0x00 d a b 0x002)
  | .orS _ d a b => some (wordA 0x00 d a b 0x003)
  | .xorS _ d a b => some (wordA 0x00 d a b 0x004)
  | .shl _ d a b => some (wordA 0x00 d a b 0x005)
  | .shr _ d a b => some (wordA 0x00 d a b 0x006)
  | .sra _ d a b => some (wordA 0x00 d a b 0x007)
  | .slt _ d a b => some (wordA 0x00 d a b 0x008)
  | .sltu _ d a b => some (wordA 0x00 d a b 0x009)
  | .mul _ d a b => some (wordA 0x00 d a b 0x00A)
  | .mulhu _ d a b => some (wordA 0x00 d a b 0x00B)
  | .minS _ d a b => some (wordA 0x00 d a b 0x00C)
  | .maxS _ d a b => some (wordA 0x00 d a b 0x00D)
  | .clz _ d a => some (wordA 0x00 d a 0 0x00E)
  | .popc _ d a => some (wordA 0x00 d a 0 0x00F)
  | .addi _ d a imm => some (wordI 0x01 d a imm)
  | .andi _ d a imm => some (wordI 0x02 d a imm)
  | .ori _ d a imm => some (wordI 0x03 d a imm)
  | .xori _ d a imm => some (wordI 0x04 d a imm)
  | .shli _ d a amt => some (wordI 0x05 d a (0#10 ++ amt))
  | .shri _ d a amt => some (wordI 0x05 d a (1#10 ++ amt))
  | .srai _ d a amt => some (wordI 0x05 d a (2#10 ++ amt))
  | .lih _ d a imm => some (wordI 0x06 d a imm)
  | .ldB _ d a imm => some (wordI 0x08 d a imm)
  | .ldH _ d a imm => some (wordI 0x09 d a imm)
  | .ldW _ d a imm => some (wordI 0x0A d a imm)
  | .ldD _ d a imm => some (wordI 0x0B d a imm)
  | .stB _ d a imm => some (wordI 0x0C d a imm)
  | .stH _ d a imm => some (wordI 0x0D d a imm)
  | .stW _ d a imm => some (wordI 0x0E d a imm)
  | .stD _ d a imm => some (wordI 0x0F d a imm)
  | .ldAcq _ d a imm => some (wordI 0x10 d a imm)
  | .stRel _ d a imm => some (wordI 0x11 d a imm)
  | .fenceAcq _ => some (wordI 0x12 0 0 1)
  | .fenceRel _ => some (wordI 0x12 0 0 2)
  | .fence _ => some (wordI 0x12 0 0 3)
  | .csrr _ d off => some (wordI 0x14 d 0 off)
  | .csrw _ d off => some (wordI 0x15 d 0 off)
  | .beq _ a b off => some (wordI 0x18 a b off)
  | .bne _ a b off => some (wordI 0x19 a b off)
  | .blt _ a b off => some (wordI 0x1A a b off)
  | .bge _ a b off => some (wordI 0x1B a b off)
  | .j _ off => some (wordJ 0x1C off)
  | .jal _ off => some (wordJ 0x1D off)
  | .jr _ a => some (wordI 0x1E 0 a 0)
  | .nop _ => some (wordA 0x3C 0 0 0 0x000)
  | .trap _ => some (wordA 0x3C 0 0 0 0x001)
  | .vadd _ vd va vb => some (wordV vd va vb 0 0x00)
  | .vsub _ vd va vb => some (wordV vd va vb 0 0x01)
  | .vmul _ vd va vb => some (wordV vd va vb 0 0x02)
  | .vmin _ vd va vb => some (wordV vd va vb 0 0x04)
  | .vmax _ vd va vb => some (wordV vd va vb 0 0x05)
  | .vcmplt _ vd va vb => some (wordV vd va vb 0 0x08)
  | .vadd2 _ vd va vb => some (wordV vd va vb 0 0x28)
  | .vmul2 _ vd va vb => some (wordV vd va vb 0 0x29)
  | .vfma _ vd va vb vc => some (wordV vd va vb vc 0x03)
  | .vsel _ vd va vb vc => some (wordV vd va vb vc 0x09)
  | .vabs _ vd va => some (wordV vd va 0 0 0x06)
  | .vneg _ vd va => some (wordV vd va 0 0 0x07)
  | .vrcp _ vd va => some (wordV vd va 0 0 0x10)
  | .vrsq _ vd va => some (wordV vd va 0 0 0x11)
  | .vexp2 _ vd va => some (wordV vd va 0 0 0x12)
  | .vlog2 _ vd va => some (wordV vd va 0 0 0x13)
  | .vredsum _ vd va => some (wordV vd va 0 0 0x18)
  | .vredmax _ vd va => some (wordV vd va 0 0 0x19)
  | .vcvt _ vd va src dst => some (wordV vd va (0#2 ++ src) dst 0x20)
  | .vmova _ vd acc p => some (wordV vd (0#2 ++ acc) (0#2 ++ p) 0 0x30)
  | .vmovaw _ acc va p => some (wordV (0#2 ++ acc) va (0#2 ++ p) 0 0x31)
  | .vld _ v sa off => some (wordVM 0x21 v sa off)
  | .vst _ v sa off => some (wordVM 0x22 v sa off)
  | .mma _ sa sb fmt acc inc => some (wordM sa sb fmt acc inc 0)
  | .mzero _ sa sb fmt acc inc => some (wordM sa sb fmt acc inc 1)
  | .mlda _ sa sb fmt acc inc => some (wordM sa sb fmt acc inc 2)
  | .mst _ sa sb fmt acc inc => some (wordM sa sb fmt acc inc 3)
  | .msync _ sa sb fmt acc inc => some (wordM sa sb fmt acc inc 4)
  | .mvq _ a imm => some (wordI 0x2C 0 a imm)
  | .mvw _ imm => some (wordI 0x2D 0 0 imm)
  | .send _ a b => some (wordA 0x30 0 a b 0x000)
  | .sig _ a b => some (wordA 0x30 0 a b 0x001)
  | .watch _ d a b => some (wordA 0x30 d a b 0x002)
  | .wait _ d a b => some (wordA 0x30 d a b 0x003)
  | .atomFadd _ d a b => some (wordA 0x30 d a b 0x010)
  | .atomSwap _ d a b => some (wordA 0x30 d a b 0x011)
  | .atomCas _ d a b => some (wordA 0x30 d a b 0x012)
  | .atomUmax _ d a b => some (wordA 0x30 d a b 0x013)
  | .atomAnd _ d a b => some (wordA 0x30 d a b 0x014)
  | .atomOr _ d a b => some (wordA 0x30 d a b 0x015)
  | .endTask _ => some (wordA 0x34 0 0 0 0x000)
  | .fin _ => some (wordA 0x34 0 0 0 0x001)
  | .tagI _ d => some (wordA 0x34 d 0 0 0x002)
  | .argsI _ d => some (wordA 0x34 d 0 0 0x003)
  | .qld _ d a b => some (wordA 0x34 d a b 0x004)
  | .qvld _ vd a => some (wordA 0x34 (0#1 ++ vd) a 0 0x005)
  | .qcp _ a b => some (wordA 0x34 0 a b 0x006)
  | _ => none

end Sys2Proof.Machine
end

