-- ==== Sys2Proof/Machine/Scratchpad.lean ====
section
/-! DEFINITION. The scratchpad of a core: regions, codes, refusals, reads and writes of a line, and the watches that a write
or an update fires (R108 to R123, R193, R437). -/

namespace Sys2Proof.Machine

/-- Agents of the scratchpad as SP_ERRINFO codes them (R137). -/
abbrev agSEQ : Nat := 0
abbrev agVEC : Nat := 1
abbrev agMX : Nat := 2
abbrev agMV : Nat := 3
abbrev agNET : Nat := 4
abbrev agSCRUB : Nat := 5
abbrev agRECODE : Nat := 6
abbrev agFILL : Nat := 7

/-- The size of a scratchpad (R108). -/
abbrev padSize : Nat := 0x60000

/-- SP_REGION.WTOP in force (R110). -/
def Core.wtop (k : Core) : Nat := field (k.reg rSP_REGION) 0 5

/-- SP_REGION.WLOCK (R118). -/
def Core.wlock (k : Core) : Bool := (k.reg rSP_REGION).getLsbD 31

/-- An offset lies in the weights region (R110). -/
def Core.inWeights (k : Core) (off : Nat) : Bool := off < k.wtop * 0x4000

/-- An input channel is ACTIVE (R200). -/
def Core.ichActive (k : Core) (n : Nat) : Bool := (k.reg (rCH_ICFG + 0x40 * n)).getLsbD 31

/-- An output channel is ACTIVE (R200). -/
def Core.ochActive (k : Core) (n : Nat) : Bool := (k.reg (rCH_OCFG + 0x40 * n)).getLsbD 31

/-- An offset lies in a reserved area (R110, R113). -/
def Core.reserved (k : Core) (off : Nat) : Bool :=
  k.configured &&
    (0x5C000 ≤ off && off < 0x60000 ||
      0x54000 ≤ off && off < 0x5C000 && k.ichActive ((off - 0x54000) / 0x800))

/-- One bank. -/
def Core.bank (k : Core) (b : Nat) : Bank := k.banks.get Bank.reset b

/-- A bank serves accesses: it is ON and not CHANGING (R121, R122). -/
def Bank.serves (b : Bank) : Bool := b.mode == .on && b.target.isNone

/-- Why an access is refused, as its fault kind: a sleeping bank (R122), a reserved area (R113), a locked weights region
(R118). -/
def Core.refusal (k : Core) (write : Bool) (off : Nat) : Option Nat :=
  if !(k.bank (bankOf off)).serves then some (if write then 0x05 else 0x06)
  else if k.reserved off then some 0x08
  else if write && k.wlock && k.inWeights off then some 0x07
  else none

/-- A zero fill or a re-encoding holds the bank of an offset: every other request for it waits (R109, R117, R120). -/
def Core.padHeld (k : Core) (off : Nat) : Bool :=
  (k.zeroing && (k.bank (bankOf off)).serves) || k.recode.getLsbD (bankOf off)

/-- Some of the offsets lie in a held bank. -/
def Core.anyHeld (k : Core) (offs : List Nat) : Bool := offs.any k.padHeld

/-! ### Codes -/

/-- One byte of a CRC-16 with polynomial 0x1021 (R114, R141). -/
def crcByte (crc : BitVec 16) (b : Byte) : BitVec 16 :=
  (List.range 8).foldl (fun r _ => if r.getLsbD 15 then (r <<< 1) ^^^ 0x1021#16 else r <<< 1)
    (crc ^^^ ((b.setWidth 16) <<< 8))

/-- CRC-16, polynomial 0x1021, initial value 0xFFFF, bytes in ascending order (R114, R141). -/
def crc16 (bs : List Byte) : BitVec 16 := bs.foldl crcByte 0xFFFF

/-- What a SECDED decoder finds in a word: its data, and 0 for no error, 1 with the corrected bit, 2 uncorrectable. -/
structure WordRead where
  data : DWord
  status : Nat
  bit : Nat

/-- SECDED (72,64) on a stored word whose wrong bits are `m` (R114, R116, log entry 12). -/
def secded (stored : DWord) (m : BitVec 72) : WordRead :=
  let fix : BitVec 72 → DWord := fun e => stored ^^^ e.setWidth 64
  match popcount m with
  | 0 => { data := stored, status := 0, bit := 0 }
  | 1 => { data := fix m, status := 1, bit := (lowestBit m).getD 0 }
  | 2 => { data := stored, status := 2, bit := 0 }
  | _ =>
    match Config.secdedAlias m with
    | none => { data := stored, status := 2, bit := 0 }
    | some left =>
      if left = m then { data := stored, status := 0, bit := 0 }
      else { data := fix (m ^^^ left), status := 1, bit := (lowestBit (m ^^^ left)).getD 0 }

/-- Parity fails in halfword `h` of a word: an odd number of wrong bits in it and its parity bit (R114). -/
def parityBad (m : BitVec 72) (h : Nat) : Bool :=
  (popcount (m.extractLsb' (16 * h) 16) + (m.getLsbD (64 + h)).toNat) % 2 == 1

/-- The wrong bits of the word at an offset. -/
def Core.flip (k : Core) (off : Nat) : BitVec 72 := k.flips.get 0 (off / 8)

/-- The stored data of the aligned word at an offset. -/
def Core.wordAt (k : Core) (off : Nat) : DWord := BitVec.ofNat 64 (Mem.readN k.mem off 8)

/-- What a read of a line finds: the data it delivers, the corrected words with their bits, the uncorrectable words, a CRC
failure, and the halfwords with a parity error (R116). -/
structure LineScan where
  data : Line
  ce : List (Nat × Nat)
  ue : List Nat
  crcBad : Bool
  par : List Nat

/-- The words of a line as SECDED reads them. -/
def Core.lineWords (k : Core) (off : Nat) : List (Nat × WordRead) :=
  (List.range 8).map (fun i => (off + 8 * i, secded (k.wordAt (off + 8 * i)) (k.flip (off + 8 * i))))

/-- No error is stored in a line. -/
def Core.cleanLine (k : Core) (off : Nat) : Bool :=
  (List.range 8).all (fun i => k.flip (off + 8 * i) == 0) && (k.crcErr.get 0 (off / 64)) == 0

/-- A line made of eight words, the first lowest. -/
def lineOfWords (ws : List DWord) : Line := BitVec.ofNat 512 (ws.foldr (fun w n => w.toNat + 2 ^ 64 * n) 0)

/-- The read of a line under its class (R114, R116). -/
def Core.scanLine (k : Core) (off : Nat) : LineScan :=
  if k.cleanLine off then
    { data := Mem.readLine k.mem off, ce := [], ue := [], crcBad := false, par := [] }
  else if k.inWeights off then
    let ws := k.lineWords off
    let ue := (ws.filter (fun w => w.2.status == 2)).map (·.1)
    let data := lineOfWords (ws.map (·.2.data))
    let good := lineOfWords (ws.map (fun w => k.wordAt w.1 ^^^ (k.flip w.1).setWidth 64))
    let crcBad := crc16 (Line.bytes data) != (crc16 (Line.bytes good) ^^^ k.crcErr.get 0 (off / 64))
    { data := data
      ce := (ws.filter (fun w => w.2.status == 1)).map (fun w => (w.1, w.2.bit))
      ue := ue
      crcBad := ue.isEmpty && crcBad
      par := [] }
  else
    { data := Mem.readLine k.mem off, ce := [], ue := [], crcBad := false
      par := (List.range 32).filterMap (fun h =>
        if parityBad (k.flip (off + 8 * (h / 4))) (h % 4) then some (off + 2 * h) else none) }

/-- A line has an error that its code does not correct. -/
def LineScan.bad (l : LineScan) : Bool := !l.ue.isEmpty || l.crcBad || !l.par.isEmpty

/-! ### Records and messages of the scratchpad -/

/-- The counter of a scratchpad fault kind (R116, R118, R113, R122). -/
def spCounter (kind : Nat) : Nat :=
  match kind with
  | 0x01 => rSP_CECNT
  | 0x02 => rSP_UECNT
  | 0x03 => rSP_UECNT
  | 0x04 => rSP_PARCNT
  | 0x05 => rSP_SLEEPREF
  | 0x06 => rSP_SLEEPREF
  | 0x07 => rSP_LOCKREF
  | _ => rSP_RSVREF

/-- The record of the first error since SP_ERRINFO was last read (R116, R137). -/
def Core.spRecord (k : Core) (agent kind off bit : Nat) : Core :=
  if (k.reg rSP_ERRINFO).getLsbD 31 then k
  else (k.setReg rSP_ERRINFO
      (place 32 31 1 1 ||| place 32 16 8 kind ||| place 32 13 3 agent ||| place 32 0 7 bit)).setReg rSP_ERRADDR
        (place 32 0 19 off)

/-- An error or a refusal of the scratchpad: counted, recorded and reported (R116, R138). `req` is the requester of a
remote access. -/
def K.spErr (k : K) (agent kind off bit : Nat) (req : Option CoreId) : K :=
  let who := match req with
    | some r => r.y.toNat * 2 ^ 29 + r.x.toNat * 2 ^ 19
    | none => 0
  K.report { k with core := (k.core.spRecord agent kind off bit).count (spCounter kind) 1 } 8 kind
    (agent * 2 ^ 13 + bit) (off + who)

/-- The errors a read found, reported (R116). -/
def K.spFound (k : K) (agent off : Nat) (l : LineScan) (req : Option CoreId) : K :=
  let k1 := l.ce.foldl (fun a w => a.spErr agent 0x01 w.1 w.2 req) k
  let k2 := l.ue.foldl (fun a w => a.spErr agent 0x02 w 0 req) k1
  let k3 := if l.crcBad then k2.spErr agent 0x03 off 0 req else k2
  l.par.foldl (fun a w => a.spErr agent 0x04 w 0 req) k3

/-- How a read of a line went. -/
inductive ReadStat where
  | good | bad | refused
deriving DecidableEq, Repr

/-- A read by an agent of the line that holds an offset: refused, with the access's own offset recorded, or delivered with its errors
reported. A corrected line is written back at the bank's next free cycle when SEQ, VEC or MX read it (R112, R116, R137). -/
def K.readLine (k : K) (agent : Nat) (req : Option CoreId) (acc : Nat) : K × Line × ReadStat :=
  match k.core.refusal false acc with
  | some kind => (k.spErr agent kind acc 0 req, 0, .refused)
  | none =>
    let off := acc / 64 * 64
    let l := k.core.scanLine off
    let k1 := k.spFound agent off l req
    let k2 : K :=
      if !l.ce.isEmpty && !l.bad && agent ≤ agMX then
        { k1 with core := { k1.core with banks := SMap.upd Bank.reset k1.core.banks (bankOf off) (fun b =>
            { b with writeback := if b.writeback.contains off then b.writeback else b.writeback ++ [off] }) } }
      else k1
    (k2, l.data, if l.bad then .bad else .good)

/-! ### Watches -/

/-- The fields of a watch request's control word (R192). -/
def Watch.target (w : Watch) : Nat := field w.ctrl 0 19
def Watch.onCounter (w : Watch) : Bool := w.ctrl.getLsbD 19
def Watch.cond (w : Watch) : Nat := field w.ctrl 20 2
def Watch.waiter (w : Watch) : CoreId := coreAt (field w.ctrl 32 10) (field w.ctrl 42 10)
def Watch.channel (w : Watch) : Nat := field w.ctrl 52 4

/-- The condition of a watch (R192). -/
def Watch.holds (w : Watch) (v : DWord) : Bool :=
  match w.cond with
  | 0 => v == w.value
  | 1 => w.value.toNat ≤ v.toNat
  | _ => v != w.value

/-- A sync counter (R189). -/
def Core.counter (k : Core) (n : Nat) : DWord := pairAt k.regs (rSY_CNT + 8 * n)

/-- The value a watch sees: its counter, or its scratchpad word as its code delivers it. -/
def Core.watched (k : Core) (w : Watch) : DWord :=
  if w.onCounter then k.counter w.target
  else if k.inWeights w.target then (secded (k.wordAt w.target) (k.flip w.target)).data
  else k.wordAt w.target

/-- A watch fires: its WMSG carries the value, and its entry is freed (R193). -/
def K.fire (k : K) (i : Nat) (w : Watch) (v : DWord) : K :=
  let off := rSY_RVAL + 8 * w.channel
  let p := k.packet 5 1 off 3 0 0 (headOf v.toNat) []
  K.sendTo { k with core := ({ k.core with watches := k.core.watches.set i none }).count rSY_FIRED 1 }
    (mkAddr 1 w.waiter off) (if w.sys then { p with sys := true } else p)

/-- The watches that concern an event are evaluated in ascending entry order (R193). -/
def K.evalWatches (k : K) (concerns : Watch → Bool) : K :=
  (List.range 16).foldl (fun a i =>
    match a.core.watches.get none i with
    | none => a
    | some w =>
      if concerns w && w.holds (a.core.watched w) then a.fire i w (a.core.watched w) else a) k

/-- The watches on a scratchpad word that a write touches. -/
def K.wroteBytes (k : K) (off n : Nat) : K :=
  k.evalWatches (fun w => !w.onCounter && w.target < off + n && off < w.target + 8)

/-- The watches on a counter that was updated. -/
def K.wroteCounter (k : K) (i : Nat) : K := k.evalWatches (fun w => w.onCounter && w.target == i)

/-! ### Writes -/

/-- Bytes stored at an offset, one after the other. -/
def Mem.put (m : Mem) (off : Nat) : List Byte → Mem
  | [] => m
  | b :: t => Mem.put (Mem.write m off b) (off + 1) t

/-- The wrong bits of a line after its words are written with a fresh code (R114). -/
def Core.freshLine (k : Core) (off : Nat) : Core :=
  { k with flips := (List.range 8).foldl (fun f i => SMap.del f (off / 8 + i)) k.flips
           crcErr := k.crcErr.del (off / 64) }

/-- The wrong bits of one byte cleared, as a write of the activation class leaves them. -/
def Core.freshByte (k : Core) (off : Nat) : Core :=
  let m := k.flip off
  if m = 0 then k
  else { k with flips := k.flips.set (off / 8) (setField m (8 * (off % 8)) 8 0) }

/-- The parity bit of a halfword that a write covers whole is written anew (R114). -/
def Core.freshParity (k : Core) (off n : Nat) : Core :=
  (List.range (n / 2 + 1)).foldl (fun a i =>
    let h := (off + 1) / 2 * 2 + 2 * i
    let m := a.flip h
    if m = 0 || off + n < h + 2 then a
    else { a with flips := a.flips.set (h / 8) (setField m (64 + h % 8 / 2) 1 0) }) k

/-- Bytes written within one line, under the code of the line's class, with the line's other bytes unchanged (R114,
R115, R128). -/
def Core.putBytes (k : Core) (off : Nat) (bs : List Byte) : Core :=
  if k.inWeights off then
    let line := off / 64 * 64
    let k1 := k.freshLine line
    { k1 with mem := Mem.put (Mem.writeLine k1.mem line (k.scanLine line).data) off bs }
  else
    let k1 := ((List.range bs.length).foldl (fun a i => a.freshByte (off + i)) k).freshParity off bs.length
    { k1 with mem := Mem.put k1.mem off bs }

/-- Bytes of one line written once the access is accepted, with the watches they satisfy fired. In the weights region a write
of part of a line first reads it (R115, R437). The Boolean tells whether they were written. -/
def K.commitBytes (k : K) (agent : Nat) (req : Option CoreId) (off : Nat) (bs : List Byte) : K × Bool :=
  if k.core.inWeights off && bs.length < 64 then
    let line := off / 64 * 64
    let l := k.core.scanLine line
    let k1 := k.spFound agent line l req
    if l.bad then (k1, false)
    else (K.wroteBytes { k1 with core := k1.core.putBytes off bs } off bs.length, true)
  else (K.wroteBytes { k with core := k.core.putBytes off bs } off bs.length, true)

/-- A write of bytes within one line by an agent: refused (R112), or carried out. -/
def K.writeBytes (k : K) (agent : Nat) (req : Option CoreId) (off : Nat) (bs : List Byte) : K × Bool :=
  match k.core.refusal true off with
  | some kind => (k.spErr agent kind off 0 req, false)
  | none => k.commitBytes agent req off bs

/-- The fault kind of an access by the channel-queue and spill logic to a bank that is not ON; no reserved area refuses it (R113,
R122). -/
def Core.logicRefused (k : Core) (write : Bool) (off : Nat) : Option Nat :=
  if (k.bank (bankOf off)).serves then none else some (if write then 0x05 else 0x06)

/-- Bytes written by the channel-queue and spill logic as agent NET; a bank that is not ON refuses them (R122, R182, R193, R224). -/
def K.logicBytes (k : K) (off : Nat) (bs : List Byte) : K :=
  match k.core.logicRefused true off with
  | some kind => k.spErr agNET kind off 0 none
  | none => K.wroteBytes { k with core := k.core.putBytes off bs } off bs.length

/-- A line written by that logic. -/
def K.logicLine (k : K) (off : Nat) (l : Line) : K := k.logicBytes off (Line.bytes l)

/-- A line read by the channel-queue and spill logic (R206), with parity errors reported as agent NET; a bank that is not ON refuses
the read and delivers zeros (R122, DEDUCED, log entry 103). -/
def K.logicRead (k : K) (off : Nat) : K × Line :=
  match k.core.logicRefused false off with
  | some kind => (k.spErr agNET kind off 0 none, 0)
  | none =>
    let l := k.core.scanLine off
    (k.spFound agNET off l none, l.data)

/-! ### Writes of the engines on their way to their banks (R123, R127, R128) -/

/-- An engine writes bytes within one line: refused at once (R112), or accepted and left for a later cycle of the bank. The Boolean
tells whether they were accepted. -/
def K.queueBytes (k : K) (agent num off : Nat) (bs : List Byte) : K × Bool :=
  match k.core.refusal true off with
  | some kind => (k.spErr agent kind off 0 none, false)
  | none =>
    ({ k with core := { k.core with lineWr := k.core.lineWr ++ [{ agent := agent, off := off, bytes := bs, num := num }] } }, true)

/-- The accepted writes that no earlier one to the same line precedes (R127, R129), in a bank. -/
def Core.drainable (k : Core) (bank : Nat) : List LineWr :=
  go [] k.lineWr
where
  /-- `seen` holds the lines of the writes passed over. -/
  go (seen : List Nat) : List LineWr → List LineWr
    | [] => []
    | w :: t =>
      let rest := go (w.off / 64 :: seen) t
      if bankOf w.off = bank ∧ !seen.contains (w.off / 64) then w :: rest else rest

/-- One accepted write goes into its bank. -/
def K.drainOne (k : K) (w : LineWr) : K :=
  (K.commitBytes { k with core := { k.core with lineWr := k.core.lineWr.erase w } } w.agent none w.off w.bytes).1

/-- The counter of a bank's waits, SP_BANKWAIT (R109, R137). -/
def bankWait (off : Nat) : Nat := 0x2080 + 8 * bankOf off

/-- A cycle of one bank for the engines' writes: one of those that may go is written, which one is a free choice where there are
several, and each other engine that waits for the bank counts a cycle (R109, R128, log entry 101). -/
def K.drainBank (k : K) (b : Nat) : K :=
  let ws := k.core.drainable b
  let wait := fun (k : K) (w : List LineWr) =>
    ({ k with core := k.core.count (bankWait (0xC000 * b)) ((w.map (·.agent)).eraseDups.length) } : K)
  match ws with
  | [] => k
  | w :: t =>
    if k.core.padHeld (0xC000 * b) then wait k ws
    else if t.isEmpty then k.drainOne w
    else
      let pick := ws.getD (Config.grant k.free % ws.length) w
      let k1 := (K.drainOne { k with free := k.free + 1 } pick)
      wait k1 (ws.filter (fun x => x.agent != pick.agent))

/-- A cycle of every bank for the engines' writes. -/
def K.drainBanks (k : K) : K := if k.core.lineWr.isEmpty then k else (List.range 8).foldl K.drainBank k

/-- Several lines written from an offset, each refused or written by itself (R128); tells whether all were written. -/
def K.writeLines (k : K) (agent : Nat) (req : Option CoreId) (off : Nat) : List Line → K × Bool
  | [] => (k, true)
  | l :: t =>
    let r := k.writeBytes agent req off (Line.bytes l)
    let q := K.writeLines r.1 agent req (off + 64) t
    (q.1, r.2 && q.2)

/-- Several lines read from an offset; the worst outcome of any of them. -/
def K.readLines (k : K) (agent : Nat) (req : Option CoreId) (off : Nat) : Nat → K × List Line × ReadStat
  | 0 => (k, [], .good)
  | n + 1 =>
    let r := k.readLine agent req off
    let q := K.readLines r.1 agent req (off + 64) n
    (q.1, r.2.1 :: q.2.1,
      match r.2.2, q.2.2 with
      | .refused, _ => .refused
      | _, .refused => .refused
      | .bad, _ => .bad
      | .good, t => t)

end Sys2Proof.Machine
end

