-- ==== Sys2Proof/Machine/Sequencer.lean ====
section
/-! DEFINITION. How the sequencer issues an instruction: fetch, the word at the program counter, interlocks, retirement and
jumps (R41, R42, R46, R48, R49). -/

namespace Sys2Proof.Machine

/-- A task holds the sequencer and can issue: the core is in RUN, a task is running, and it is neither in WAIT nor trapped
(R41, R194, R208, R213). -/
def Core.canIssue (k : Core) : Bool :=
  k.df == .run && k.running.isSome && k.waiting.isNone && (k.seq == .run || k.seq == .stall)

/-! ### Fetch -/

/-- What the (39,32) SECDED code makes of an instruction word with wrong bits `m` (R48, log entry 12): none when it is
uncorrectable, otherwise the word delivered and whether it was corrected. -/
def istoreRead (word : Word) (m : BitVec 39) : Option (Word × Bool) :=
  match popcount m with
  | 0 => some (word, false)
  | 1 => some (word, true)
  | 2 => none
  | _ => match Config.istoreAlias m with
    | none => none
    | some left => some (word ^^^ left.setWidth 32, left != m)

/-- The word written last at an index; an instruction store nothing has loaded holds an illegal instruction (R359). -/
def Core.insnAt (k : Core) (i : Nat) : Word := k.istore.get 0xFFFFFFFF i

/-- A corrected word is counted and reported once until it is written back (R48). -/
def K.fetchNote (k : K) (i : Nat) : K :=
  if k.core.istoreCounted.get false i then k
  else
    let n := field (k.core.reg rCORE_ISTORE_ERR) 0 16
    let c1 := k.core.setReg rCORE_ISTORE_ERR (place 32 0 16 (if n = 65535 then n else n + 1))
    K.report { k with core := { c1 with istoreCounted := c1.istoreCounted.set i true } } 9 0x18 i 0

/-- A LD.ACQ waits for its data: nothing further issues until it returns (R131). -/
def Core.acquiring (k : Core) : Bool :=
  (List.range 8).any (fun i =>
    match (k.slots.get Slot.reset i).use with
    | some (.load _ _ _ _ q _ _) => q
    | _ => false)

/-- The instruction cannot issue yet. The cycles it is held pass with the clock, and each advances CORE_SQSTALL and the counters
`cs` of what holds it (R18, R42, R73, log entry 10). -/
def K.hold (k : K) (cs : List Nat) : K := { k with core := { k.core with seq := .stall, stallOn := cs } }

/-- A hold that no counter but CORE_SQSTALL names. -/
def K.stall (k : K) : K := k.hold []

/-- One issue of instruction `i`: the word at the program counter is fetched and decoded; an index beyond 16,383, an
uncorrectable word and an illegal word are execution faults (R48, R49); a word that stands for another instruction leaves
everything as it is (log entry 3). -/
def issueK (i : Instr) (body : Nat → Word → K → K) (k : K) : K :=
  if !k.core.canIssue then k
  else if k.core.acquiring then k.stall
  else
    let pc := k.core.pc
    if 16383 < pc then k.execFault 0 0x51 16383 16383 pc
    else
      match istoreRead (k.core.insnAt pc) (k.core.istoreErr.get 0 pc) with
      | none => k.execFault 9 0x19 pc pc 0
      | some (w, corrected) =>
        let k1 := if corrected then k.fetchNote pc else k
        match decodeInsn k.c w with
        | none => k1.execFault 0 0x50 pc pc w.toNat
        | some j => if j = i then body pc w k1 else k

/-- A command that issues an instruction on a core. -/
def issue (c : CoreId) (i : Instr) (s : State) (body : Nat → Word → K → K) :
    Host.Outcome State Fault Refusal :=
  .next (onLive c s (issueK i body))

/-! ### Retirement and stalls -/

/-- The instruction retires: the retirement counters advance, and the task's progress is noted (R73, R222, R347). -/
def K.retire (k : K) (next : Nat) : K :=
  K.progressed { k with core :=
    { ((k.core.count rCORE_RETIRED 1).count rPWC_SEQ 1) with pc := next, seq := .run, stallOn := [], issued := true } }

/-- The instruction retires and the next one in order follows. -/
def K.advance (k : K) : K := k.retire (k.core.pc + 1)

/-- The channels the running task consumed (R205). -/
def Running.chans (r : Running) : List Nat :=
  r.ops.map (fun o => match o with
    | .queue ich _ => ich.toNat
    | .spilled ich _ => ich.toNat)

/-- The channels that hold an entry of the running task: a spilled operand has left its queue (R224, R230). -/
def Running.queued (r : Running) : List Nat :=
  r.ops.filterMap (fun o => match o with
    | .queue ich _ => some ich.toNat
    | .spilled _ _ => none)

/-- A stall on the matrix engine: the unit and its channels count it (R55, R230). -/
def K.stallMx (k : K) : K :=
  match k.core.running with
  | none => k.stall
  | some r => k.hold ((rDF_UWMX + 0x40 * r.u.toNat) :: r.queued.map (fun n => rDF_QMX + 0x20 * n))

/-- A stall on an output window: the channel and the unit count it (R181, R230). -/
def K.stallOut (k : K) (m : Nat) : K :=
  match k.core.running with
  | none => k.hold [rCH_OSTALL + 0x40 * m]
  | some r => k.hold [rCH_OSTALL + 0x40 * m, rDF_UWOUT + 0x40 * r.u.toNat]

/-- A wait for a bank that a zero fill or a re-encoding holds is counted for the bank (R109); a wait for an earlier access to the line
(R46) is not. -/
def K.stallBank (k : K) (off : Nat) : K := if k.core.padHeld off then k.hold [bankWait off] else k.stall

/-- The scalar registers an instruction reads or writes are ready (R42, R44, R45); a register that waits for a remote answer
holds a later write of it too (log entry 11). -/
def K.whenReady (k : K) (rs : List SReg) (f : K → K) : K :=
  if rs.any k.core.awaits then k.stall else f k

/-- A jump to an instruction index; one beyond 16,383 is an execution fault of the jumping instruction (R49, R77). -/
def K.jump (k : K) (pc : Nat) (target : Int) (f : K → K) : K :=
  if 0 ≤ target ∧ target ≤ 16383 then (f k).retire target.toNat
  else k.execFault 0 0x51 pc pc (target.emod (2 ^ 48)).toNat

/-! ### Hazards between the sequencer and the engines (R46) -/

/-- A register as it stood when a matrix instruction issued (R74, R106). -/
def MatEntry.reg (e : MatEntry) (off : Nat) : Word := e.cfg.get (coreReset off) off

/-- The row distance of A and of store rows, in bytes (R51, R52). -/
def MatEntry.aStep (e : MatEntry) : Nat := field (e.reg rMX_ASTRIDE) 0 10 * 64
def MatEntry.bStep (e : MatEntry) : Nat := field (e.reg rMX_BSTRIDE) 0 10 * 64

/-- The 16 rows of a tile. -/
def MatEntry.rows (e : MatEntry) : List Nat := (List.range 16).map (fun i => addrOff40 e.sa + i * e.aStep)

/-- The lines a queued matrix instruction reads (R51, R52). -/
def MatEntry.reads (e : MatEntry) : List Nat :=
  match e.insn with
  | .mma _ _ _ fmt _ _ =>
    e.rows ++ (List.range 8).map (fun j => addrOff40 e.sb + j * e.bStep) ++
      (if 7 ≤ fmt.toNat ∧ fmt.toNat ≤ 10 then [addrOff40 e.sa + 16 * e.aStep, addrOff40 e.sb + 8 * e.bStep] else [])
  | .mlda .. => e.rows
  | _ => []

/-- The lines a queued matrix instruction writes (R52). -/
def MatEntry.writes (e : MatEntry) : List Nat :=
  match e.insn with
  | .mst .. => e.rows
  | _ => []

/-- The lines a queued vector instruction reads and writes (R58). -/
def VecEntry.reads (e : VecEntry) : List Nat :=
  match e.insn with
  | .vld .. => [addrOff40 e.addr, addrOff40 e.addr + 64]
  | _ => []
def VecEntry.writes (e : VecEntry) : List Nat :=
  match e.insn with
  | .vst .. => [addrOff40 e.addr, addrOff40 e.addr + 64]
  | _ => []

/-- Two lists of byte offsets name a common line. -/
def sharesLine (a b : List Nat) : Bool := a.any (fun x => b.any (fun y => x / 64 == y / 64))

/-- An access that reads `rs` and writes `ws` must wait for engine instructions numbered before `n`, and for their writes that are not
yet in their banks (R46, R127); the mover is outside this rule. -/
def Core.hazard (k : Core) (n : Nat) (rs ws : List Nat) : Bool :=
  k.vecQ.any (fun e => e.num < n && (sharesLine e.writes (rs ++ ws) || sharesLine e.reads ws)) ||
    k.matQ.any (fun e => e.num < n && (sharesLine e.writes (rs ++ ws) || sharesLine e.reads ws)) ||
    k.lineWr.any (fun e => e.agent != agMV && e.num < n && sharesLine [e.off] (rs ++ ws))

/-- The tag an accumulator carries (R53). -/
def Core.accTag (k : Core) (n : Nat) : AccTag := (k.acc.get Acc.reset n).tag

/-- The accumulators a matrix instruction uses: a pair operation uses two, and MST is one when its accumulator carries the pair tag
(R53). -/
def Core.matAccs (k : Core) (e : MatEntry) : List Nat :=
  let pair := fun (acc : BitVec 2) (two : Bool) => if two then [acc.toNat, acc.toNat + 1] else [acc.toNat]
  match e.insn with
  | .mma _ _ _ fmt acc _ => pair acc (fmt == 13)
  | .mzero _ _ _ fmt acc _ => pair acc (fmt == 7)
  | .mlda _ _ _ fmt acc _ => pair acc (fmt == 7)
  | .mst _ _ _ _ acc _ => pair acc (k.accTag acc.toNat == .pair)
  | _ => []

/-- The accumulator a vector instruction uses (R58). -/
def VecEntry.accs (e : VecEntry) : List Nat :=
  match e.insn with
  | .vmova _ _ acc _ => [acc.toNat]
  | .vmovaw _ acc _ _ => [acc.toNat]
  | _ => []

/-- A vector instruction that uses an accumulator waits for earlier matrix instructions on it (R54, R58). -/
def Core.accWaitVec (k : Core) (e : VecEntry) : Bool :=
  k.matQ.any (fun m => m.num < e.num && (k.matAccs m).any (fun a => e.accs.contains a)) ||
    k.steps.any (fun m => m.entry.num < e.num && (k.matAccs m.entry).any (fun a => e.accs.contains a))

/-- A matrix instruction waits for earlier vector instructions on its accumulators (R54, R58). -/
def Core.accWaitMat (k : Core) (e : MatEntry) : Bool :=
  k.vecQ.any (fun v => v.num < e.num && v.accs.any (fun a => (k.matAccs e).contains a))

/-- With the NaN trap enabled an instruction's effect waits for the earlier instructions of the other engine that can produce a NaN, since
a trap cancels without effect what was issued after it (R95, DEDUCED, log entry 44): matrix work waits for vector instructions. -/
def Core.trapWaitMat (k : Core) (n : Nat) : Bool :=
  (k.reg rCORE_NUMCTL).getLsbD 5 && k.vecQ.any (fun v => v.num < n)

/-- An instruction that can produce a NaN in the matrix engine (R94). -/
def MatEntry.isMst (e : MatEntry) : Bool :=
  match e.insn with
  | .mst .. => true
  | _ => false

/-- Vector work waits for MST. -/
def Core.trapWaitVec (k : Core) (n : Nat) : Bool :=
  (k.reg rCORE_NUMCTL).getLsbD 5 && k.matQ.any (fun m => m.num < n && m.isMst)

end Sys2Proof.Machine
end

