-- ==== Sys2Proof/Machine/Section.lean ====
section
/-! DEFINITION. The life of a section on a core: the configuration registers, the checks of ARM, the section boundary, END,
ABORT and CLEAR, and the QUIET condition (R203, R207, R210, R213 to R219). -/

namespace Sys2Proof.Machine

/-! ### Configuration registers of units and channels -/

/-- Fields of CH_ICFG and CH_OCFG (R200). -/
def Core.icfg (k : Core) (n : Nat) : Word := k.reg (rCH_ICFG + 0x40 * n)
def Core.ocfg (k : Core) (m : Nat) : Word := k.reg (rCH_OCFG + 0x40 * m)
def Core.isJunction (k : Core) (n : Nat) : Bool := (k.icfg n).getLsbD 30
def Core.fedByReduce (k : Core) (n : Nat) : Bool := (k.icfg n).getLsbD 29
def Core.junctionOp (k : Core) (n : Nat) : Nat := field (k.icfg n) 27 2
def Core.depth (k : Core) (n : Nat) : Nat := field (k.icfg n) 20 5 + 1
def Core.jn (k : Core) (n : Nat) : Nat := field (k.icfg n) 0 19
def Core.omode (k : Core) (m : Nat) : Nat := field (k.ocfg m) 29 2
def Core.window (k : Core) (m : Nat) : Nat := field (k.ocfg m) 24 5 + 1

/-- Fields of DF_UCFG, DF_UREQ and DF_UPT (R231). -/
def Core.ucfg (k : Core) (u : Nat) : Word := k.reg (rDF_UCFG + 0x40 * u)
def Core.upt (k : Core) (u : Nat) : Word := k.reg (rDF_UPT + 0x40 * u)
def Core.unitValid (k : Core) (u : Nat) : Bool := (k.ucfg u).getLsbD 31
def Core.unitKind (k : Core) (u : Nat) : Nat := field (k.ucfg u) 29 2
/-- Firing under ANY: a task with DF_UCFG.ANY, and every merge point (R208, R211). -/
def Core.unitAny (k : Core) (u : Nat) : Bool := (k.unitKind u == 0 && (k.ucfg u).getLsbD 28) || k.unitKind u == 2
def Core.unitEntry (k : Core) (u : Nat) : Nat := field (k.ucfg u) 14 14
def Core.unitReq (k : Core) (u : Nat) : List Nat :=
  (List.range 16).filter (fun n => (k.reg (rDF_UREQ + 0x40 * u)).getLsbD n)
def Core.uptDin (k : Core) (u : Nat) : Nat := field (k.upt u) 28 4
def Core.uptPin (k : Core) (u : Nat) : Nat := field (k.upt u) 24 4
def Core.uptPsrc (k : Core) (u : Nat) : Bool := (k.upt u).getLsbD 23
def Core.uptPword (k : Core) (u : Nat) : Nat := field (k.upt u) 20 3
def Core.uptOutT (k : Core) (u : Nat) : Nat := field (k.upt u) 16 4
def Core.uptOutF (k : Core) (u : Nat) : Nat := field (k.upt u) 12 4
def Core.uptTen (k : Core) (u : Nat) : Bool := (k.upt u).getLsbD 11
def Core.uptFen (k : Core) (u : Nat) : Bool := (k.upt u).getLsbD 10
def Core.uptItT (k : Core) (u : Nat) : Nat := field (k.upt u) 8 2
def Core.uptItF (k : Core) (u : Nat) : Nat := field (k.upt u) 6 2

/-- The eight units (R203). -/
def units : List Nat := List.range 8

/-- The valid units of a core. -/
def Core.validUnits (k : Core) : List Nat := units.filter k.unitValid

/-- A unit is a point (R203). -/
def Core.isPoint (k : Core) (u : Nat) : Bool := k.unitKind u == 1 || k.unitKind u == 2

/-- The channels a unit reads (R215): its REQ, or for a steer point its DIN and, with PSRC 0, its PIN. -/
def Core.unitReads (k : Core) (u : Nat) : List Nat :=
  if k.unitKind u = 1 then
    if k.uptPsrc u || k.uptPin u == k.uptDin u then [k.uptDin u] else [k.uptDin u, k.uptPin u]
  else k.unitReq u

/-- The unit that reads an input channel, the lowest one of them. -/
def Core.readerOf (k : Core) (n : Nat) : Option Nat :=
  k.validUnits.find? (fun u => (k.unitReads u).contains n)

/-- The enabled outputs of a point (R210, R211). -/
def Core.pointOutputs (k : Core) (u : Nat) : List Nat :=
  (if k.uptTen u then [k.uptOutT u] else []) ++
    (if k.unitKind u = 1 ∧ k.uptFen u then [k.uptOutF u] else [])

/-- The first check that ARM fails, with its reason and the offending unit or channel (R215, R232). -/
def Core.armCheck (k : Core) : Option (Nat × Nat) :=
  let us := k.validUnits
  let pts := us.filter k.isPoint
  match us.find? (fun u => (k.unitReads u).any (fun n => !k.ichActive n)) with
  | some u => some (1, u)
  | none =>
  match (List.range 16).find? (fun n =>
      k.ichActive n && (us.filter (fun u => (k.unitReads u).contains n)).length != 1) with
  | some n => some (2, n)
  | none =>
  match pts.find? (fun u => (k.pointOutputs u).any (fun m => !k.ochActive m || 1 < k.omode m)) with
  | some u => some (3, u)
  | none =>
  match pts.drop 4 with
  | u :: _ => some (4, u)
  | [] =>
  match us.find? (fun u => k.unitKind u == 3 || (k.isPoint u && (k.uptItT u == 3 || k.uptItF u == 3))) with
  | some u => some (5, u)
  | none =>
  match (List.range 16).find? (fun m => k.ochActive m && k.omode m == 3) with
  | some m => some (6, m)
  | none => none

/-! ### Quiet -/

/-- Entries in use of an input channel (CH_ISTAT.USED). -/
def Core.used (k : Core) (n : Nat) : Nat := (k.inq.get [] n).length

/-- Outstanding messages of an output channel (CH_OSTAT.OUTST). -/
def Core.outst (k : Core) (m : Nat) : Nat := (k.outq.get OutChan.reset m).outst.length

/-- The engines hold no work, and what they wrote stands in its banks (R217). -/
def Core.enginesIdle (k : Core) : Bool :=
  k.vecQ.isEmpty && k.matQ.isEmpty && k.steps.isEmpty && k.lineWr.isEmpty && k.mvQ.isEmpty && k.mvAct.isNone

/-- DF_STATUS.QUIET (R217). -/
def Core.quiet (k : Core) : Bool :=
  k.df == .run && field (k.reg rDF_FIN) 0 16 ≤ field (k.reg rDF_FIN) 16 16
    && k.running.isNone && k.readyQ.isEmpty && k.enginesIdle
    && (List.range 16).all (fun n => !k.ichActive n || k.used n == 0)
    && (List.range 16).all (fun m => !k.ochActive m || k.outst m == 0)
    && k.store.isEmpty && k.spill.isEmpty

/-- Iterations in flight: those a store entry, a ready task or the running task carries (R207). -/
def Core.inFlight (k : Core) : List Nat :=
  ((k.store.map (fun e => field e.tag 0 14)) ++ (k.readyQ.map (fun e => field e.tag 0 14)) ++
    (match k.running with
     | some r => [field r.tag 0 14]
     | none => [])).eraseDups

/-! ### Commands of DF_CTRL -/

/-- ARM (R214, R215): the epoch advances, the abort record clears, LOADED; or ERR 0x09 with kind 0x69. -/
def K.arm (k : K) : K × Option Nat :=
  if k.core.df != .idle then (k, some 0x09)
  else
    match k.core.armCheck with
    | some (reason, who) => (k.report 7 0x69 reason (k.core.secid * 2 ^ 32 + who), some 0x09)
    | none =>
      let cfg := k.core.reg rDF_SECCFG
      let c1 := k.core.setReg rDF_SECCFG (setField cfg 0 2 (field cfg 0 2 + 1))
      let c2 := (c1.setReg rDF_ABREC 0).setReg rDF_ABSRC 0
      ({ k with core := { c2 with df := .loaded, staleSeen := false, abCause := none } }, none)

/-- A value of CORE_NUMCTL as a core takes it: on a core of a guarded partition NANTRAP is 1 (R98, R239). -/
def forceNan (guarded : Bool) (v : Word) : Word := if guarded then v ||| 0x20 else v

/-- The staged SH registers applied in one step (R216, R360), with NANTRAP forced on a core of a guarded partition (R239). -/
def Core.applyStaged (k : Core) (guarded : Bool) : Core :=
  let k1 := match k.shNumctl with
    | some v => k.setReg rCORE_NUMCTL (forceNan guarded v)
    | none => if guarded then k.setReg rCORE_NUMCTL (forceNan guarded (k.reg rCORE_NUMCTL)) else k
  let k2 := match k.shMxctrl with
    | some v => k1.setReg rMX_CTRL v
    | none => k1
  let k3 := match k.shCkcfg with
    | some v => k2.setReg rMX_CKCFG v
    | none => k2
  let k4 := match k.shWtop with
    | some v => k3.setReg rSP_REGION (setField (k3.reg rSP_REGION) 0 5 v.toNat)
    | none => k3
  { k4 with shNumctl := none, shMxctrl := none, shCkcfg := none, shWtop := none }

/-- The lines that hold wrong bits within a range of offsets. -/
def Core.dirtyLines (k : Core) (lo hi : Nat) : List Nat :=
  (((k.flips.filter (fun (e : Nat × BitVec 72) => e.2 != 0)).map (fun (e : Nat × BitVec 72) => e.1 * 8 / 64 * 64)) ++
    ((k.crcErr.filter (fun (e : Nat × BitVec 16) => e.2 != 0)).map (fun (e : Nat × BitVec 16) => e.1 * 64))).eraseDups.filter (fun o => lo ≤ o && o < hi)

/-- Re-encoding of the lines whose class changes between two values of WTOP (R117): read under the old code, with errors
reported under agent RECODE, and written under the new one: corrected where single-bit errors are all it holds, with its data as stored
where it holds any other error. -/
def K.recodeLines (k : K) (lines : List Nat) : K :=
  lines.foldl (fun a off =>
    let l := a.core.scanLine off
    let a1 := a.spFound agRECODE off l none
    let data := if l.bad then Mem.readLine a1.core.mem off else l.data
    { a1 with core := { a1.core.freshLine off with mem := Mem.writeLine a1.core.mem off data } }) k

/-- The banks that hold lines between two offsets, the banks a re-encoding works on (R109, R117). -/
def banksBetween (lo hi : Nat) : BitVec 8 :=
  BitVec.ofNat 8 ((List.range 8).foldl (fun n b => n + if lo < 0xC000 * b + 0xC000 ∧ 0xC000 * b < hi then 2 ^ b else 0) 0)

/-- The highest value of WTOP × 16 KiB that reaches no reserved area (R111). -/
def Core.weightsLimit (k : Core) : Nat :=
  match (List.range 16).find? k.ichActive with
  | some n => min 0x5C000 (0x54000 + n * 0x800)
  | none => 0x5C000

/-- Registers that START clears (R216): CORE_TRAP, MX_NANREC0, MX_RSTAT, MX_CKSTAT, DF_FIN.COUNT, DF_SPILL.PEAK and the stall
counters of units and queues. -/
def clearedByStart : List Nat :=
  [rCORE_TRAP, rMX_NANREC0, rMX_RSTAT, rMX_CKSTAT] ++
    (units.flatMap (fun u => [rDF_UWIN + 0x40 * u, rDF_UWIN + 4 + 0x40 * u, rDF_UWOUT + 0x40 * u, rDF_UWOUT + 4 + 0x40 * u,
      rDF_UWMX + 0x40 * u, rDF_UWMX + 4 + 0x40 * u])) ++
    ((List.range 16).flatMap (fun n => [rDF_QIN + 0x20 * n, rDF_QIN + 4 + 0x20 * n, rDF_QOUT + 0x20 * n,
      rDF_QOUT + 4 + 0x20 * n, rDF_QMX + 0x20 * n, rDF_QMX + 4 + 0x20 * n]))

/-- The record and message of the section-start check (R111). -/
def K.startRefused (k : K) (off : Nat) : K :=
  K.report { k with core := k.core.spRecord agRECODE 0x08 off 0 } 8 0x08 (agRECODE * 2 ^ 13) off

/-- The lead core's message of kind 0x68 on entering ABORTED (R219). -/
def K.leadReports (k : K) : K :=
  if (k.core.reg rDF_SECCFG).getLsbD 9 then
    let rec_ := k.core.reg rDF_ABREC
    let src := k.core.reg rDF_ABSRC
    k.report 7 0x68 (field rec_ 16 3 + 256 * field rec_ 8 8) (k.core.secid * 2 ^ 32 + field src 0 20)
  else k

/-- START (R214, R216): staged values, re-encoding, the check of R111, the clears, and the buffer; STARTING, or ABORTED with
cause 5. -/
def K.start (k : K) : K × Option Nat :=
  if k.core.df != .loaded then (k, some 0x09)
  else
    let old := k.core.wtop
    let new := match k.core.shWtop with
      | some v => v.toNat
      | none => old
    let k1 := if new = old then k
      else k.recodeLines (k.core.dirtyLines (min old new * 0x4000) (max old new * 0x4000))
    let c1 := k1.core.applyStaged k.guarded
    let c2 := if new = old then c1
      else { c1.setReg rFLT_WCTL 0 with scan := none, recode := banksBetween (min old new * 0x4000) (max old new * 0x4000) }
    if c2.weightsLimit < new * 0x4000 then
      let k2 := K.startRefused { k1 with core := c2 } c2.weightsLimit
      let k3 := k2.abortNow 5 0x08
      (K.leadReports { k3 with core := { k3.core with df := .aborted, recode := 0 } }, none)
    else
      let c3 := { c2 with regs := clearedByStart.foldl SMap.del c2.regs }
      let c4 := c3.setReg rDF_FIN (setField (c3.reg rDF_FIN) 16 16 0)
      let c5 := (c4.setReg rDF_SPILL 0).rlbClear
      ({ k1 with core := { c5 with df := .starting, arrivals := c5.arrivals, delivered := [], satNow := 0 } }, none)

/-- The section cleared (R217): the ACTIVE bits of every channel, the VALID bits of every unit, the store and the spill
area; the core is IDLE. -/
def Core.clearSection (k : Core) : Core :=
  let ics := (List.range 16).map (fun n => rCH_ICFG + 0x40 * n)
  let ocs := (List.range 16).map (fun n => rCH_OCFG + 0x40 * n)
  let ucs := units.map (fun u => rDF_UCFG + 0x40 * u)
  let k1 := (ics ++ ocs ++ ucs).foldl (fun a o => a.setReg o (a.reg o &&& 0x7FFFFFFF#32)) k
  { k1 with df := .idle, seq := .idle, inq := [], store := [], readyQ := [], running := none, held := [],
            spill := [], freed := [], fwd := 0, spilling := false, waiting := none, lent := false, idleCc := 0,
            regs := k1.regs.set rDF_NOPROG 0 }

/-- END (R214, R217): only in RUN with QUIET at 1. -/
def K.dfEnd (k : K) : K × Option Nat :=
  if k.core.quiet then ({ k with core := k.core.clearSection }, none) else (k, some 0x09)

/-- ABORT by Ryist, cause 4 (R214, R219). -/
def K.dfAbort (k : K) : K × Option Nat :=
  if k.core.abortable then ({ k with core := k.core.enterAbort 4 0 k.c }, none) else (k, some 0x09)

/-- CLEAR (R182, R214, R217): only in ABORTED; every channel's state is reset. -/
def K.dfClear (k : K) : K × Option Nat :=
  if k.core.df == .aborted then ({ k with core := { k.core.clearSection with outq := [] } }, none) else (k, some 0x09)

/-- A command of DF_CTRL by its code (R231). -/
def K.dfCtrl (k : K) (cmd : Nat) : K × Option Nat :=
  match cmd with
  | 1 => k.arm
  | 2 => k.start
  | 3 => k.dfEnd
  | 4 => k.dfAbort
  | 5 => k.dfClear
  | _ => (k, some 0x09)

end Sys2Proof.Machine
end

