-- ==== Sys2Proof/Machine/CoreRegs.lean ====
section
/-! DEFINITION. The registers of a core's block: which offsets are assigned, what a read returns and does, what a write does and
when it is refused (R14, R16, R17, R73 to R76, R106, R137, R176, R200, R201, R231, R347, R400). -/

namespace Sys2Proof.Machine

/-- Access codes (R16). -/
inductive Access where
  | rw | ro | wo | rc | sh
deriving DecidableEq, Repr

/-- A row of a register table: `count` registers or pairs from `base` at distance `stride`, the bits that are not reserved,
and the access code. -/
structure RegRow where
  base : Nat
  stride : Nat
  count : Nat
  pair : Bool
  acc : Access
  mask : Word

def one (base : Nat) (acc : Access) (mask : Word) : RegRow :=
  { base := base, stride := 8, count := 1, pair := false, acc := acc, mask := mask }
def pairs (base stride count : Nat) (acc : Access) : RegRow :=
  { base := base, stride := stride, count := count, pair := true, acc := acc, mask := 0xFFFFFFFF }
def arr (base stride count : Nat) (acc : Access) (mask : Word) : RegRow :=
  { base := base, stride := stride, count := count, pair := false, acc := acc, mask := mask }

/-- CORE_, MX_ and VEC_ (R73, R74, R75, R106). -/
def rowsEngine : List RegRow :=
  [ one 0x000 .ro 0x000FFFFF, one 0x004 .ro 0x000000E7, one 0x008 .ro 0x00003FFF, one 0x00C .sh 0x0000002E,
    one 0x010 .ro 0x800000FF, one 0x014 .ro 0x00003FFF, one 0x018 .rw 0x00003FFF, one 0x01C .wo 0xFFFFFFFF,
    one 0x020 .rc 0x0000FFFF, pairs 0x028 8 3 .ro,
    one 0x1000 .sh 0x0000000C, one 0x1004 .ro 0x00000FFF, one 0x1008 .rw 0x000003FF, one 0x100C .rw 0x000003FF,
    one 0x1010 .rw 0x00000003, one 0x1014 .ro 0x0000007F, pairs 0x1020 8 4 .ro,
    one 0x1400 .ro 0xE0FF3FFF, one 0x1404 .ro 0xFFFFFFFF, one 0x1408 .ro 0x3FFFFC7F, pairs 0x1410 8 1 .ro,
    pairs 0x1420 8 1 .ro, one 0x1430 .rw 0x0000007F, one 0x1434 .ro 0xFFFE3FFF, one 0x1438 .ro 0xFFFFFFFF,
    pairs 0x1440 8 1 .ro, one 0x1450 .sh 0x00003F1F, one 0x1454 .ro 0xC1FC3FFF, pairs 0x1458 8 4 .ro,
    arr 0x1500 4 64 .rw 0xFFFFFFFF, arr 0x1600 4 64 .rw 0xFFFFFFFF,
    one 0x1800 .ro 0x0000001F, one 0x1808 .rw 0xFFFFFFFF, one 0x180C .rw 0xFFFFFFFF, pairs 0x1810 8 1 .ro ]

/-- SP_, MV_ and SY_ (R76, R137, R201). -/
def rowsMemory : List RegRow :=
  [ one 0x2000 .ro 0x00000003, one 0x2004 .rw 0x8000001F, one 0x2008 .rw 0x0000FFFF, one 0x200C .ro 0x0000FFFF,
    one 0x2010 .ro 0xFFFFFFFF, one 0x2014 .ro 0xFFFFFFFF, one 0x2018 .rw 0x000007FF, one 0x201C .rc 0x80FFE07F,
    one 0x2020 .ro 0x0007FFFF, pairs 0x2028 8 10 .ro, pairs 0x2080 8 8 .ro,
    one 0x3000 .ro 0x000000FF, one 0x3004 .rc 0x80FFFFFF, pairs 0x3008 8 3 .ro, one 0x3020 .ro 0x0000003F,
    pairs 0x3028 8 1 .ro,
    one 0x4000 .ro 0x0001FFFF, one 0x4004 .ro 0x0000FFFF, pairs 0x4040 8 32 .rw, pairs 0x4200 8 16 .ro,
    arr 0x4280 4 16 .ro 0x001FFFFF, arr 0x4300 4 16 .wo 0xFFFFFFFF, pairs 0x4400 0x10 16 .ro,
    pairs 0x4408 0x10 16 .ro, pairs 0x4500 8 5 .ro ]

/-- CH_ and DF_ (R200, R231). -/
def rowsFlow : List RegRow :=
  [ one 0x5000 .ro 0xFFFFFFFF, arr 0x5100 0x40 16 .rw 0xF9F7FFFF, arr 0x5104 0x40 16 .rw 0x00000FFF,
    arr 0x5108 0x40 16 .ro 0x803F003F, pairs 0x5110 0x40 16 .ro, pairs 0x5118 0x40 16 .ro, pairs 0x5120 0x40 16 .ro,
    arr 0x5500 0x40 16 .rw 0xFFC7FFFF, arr 0x5504 0x40 16 .rw 0x3FFFFC0F, arr 0x5508 0x40 16 .wo 0x0000FFFF,
    arr 0x550C 0x40 16 .ro 0xFFFF003F, arr 0x5510 0x40 16 .rw 0xFFFFFFFF, arr 0x5514 0x40 16 .rw 0xFFFFFFFF,
    arr 0x5518 0x40 16 .rw 0xFFFFFFFF, arr 0x551C 0x40 16 .rw 0xFFFFFFFF, pairs 0x5520 0x40 16 .ro,
    pairs 0x5528 0x40 16 .ro, pairs 0x5530 0x40 16 .ro, pairs 0x5900 8 32 .rw,
    one 0x6000 .ro 0x07FFF8C7, one 0x6004 .wo 0x00000007, one 0x6008 .rw 0xFFFFFE00, one 0x600C .rw 0x0000FFFF,
    one 0x6010 .rw 0x00FFFFFF, one 0x6014 .rw 0x0000FFFF, one 0x6018 .ro 0x0000FFFF, one 0x601C .ro 0x8007FF00,
    one 0x6020 .ro 0x000FFFFF, one 0x6024 .ro 0xFFFFFFFF, pairs 0x6030 8 4 .ro, pairs 0x6050 8 4 .ro,
    arr 0x6100 0x40 8 .rw 0xFFFFC000, arr 0x6104 0x40 8 .rw 0x0000FFFF, arr 0x6108 0x40 8 .rw 0xFFFFFFC0,
    pairs 0x6110 0x40 8 .ro, pairs 0x6118 0x40 8 .ro, pairs 0x6120 0x40 8 .ro, pairs 0x6128 0x40 8 .ro,
    pairs 0x6400 0x20 16 .ro, pairs 0x6408 0x20 16 .ro, pairs 0x6410 0x20 16 .ro ]

/-- RT_, PWC_ and FLT_ (R176, R347, R400). -/
def rowsBase : List RegRow :=
  [ one 0x8000 .ro 0xF80FFFFF, one 0x8004 .rw 0xE000000F, one 0x8008 .rw 0x00000001, one 0x800C .rw 0x000003FF,
    one 0x8010 .ro 0x0000007F, pairs 0x8020 8 11 .ro, pairs 0x8080 8 6 .ro, arr 0x8100 0x20 8 .rw 0xB7000FFF,
    arr 0x8104 0x20 8 .rw 0x0007FFFF, arr 0x8108 0x20 8 .rw 0x0007FFFF, arr 0x810C 0x20 8 .rw 0x0007FFFF,
    arr 0x8110 0x20 8 .rw 0x0007FFFF, arr 0x8114 0x20 8 .rw 0x0007FFFF,
    one 0xA000 .ro 0xC0000000, pairs 0xA010 8 5 .ro, pairs 0xA040 8 8 .ro,
    one 0xC000 .rw 0x80000000, one 0xC004 .ro 0xC0000000, arr 0xC010 4 12 .rw 0xFFFFFFFF, arr 0xC040 4 12 .ro 0xFFFFFFFF,
    pairs 0xC070 8 2 .ro, arr 0xC080 4 4 .ro 0xFFFFFFFF ]

/-- The row covers an offset. -/
def RegRow.covers (r : RegRow) (off : Nat) : Bool :=
  r.base ≤ off && (off - r.base) / r.stride < r.count
    && ((off - r.base) % r.stride == 0 || (r.pair && (off - r.base) % r.stride == 4))

/-- The offset is the _LO of a pair. -/
def RegRow.isLo (r : RegRow) (off : Nat) : Bool := r.pair && (off - r.base) % r.stride == 0

/-- The offset is the _HI of a pair. -/
def RegRow.isHi (r : RegRow) (off : Nat) : Bool := r.pair && (off - r.base) % r.stride == 4

/-- The rows of the block an offset lies in (R14). -/
def coreRows (off : Nat) : List RegRow :=
  if off < 0x2000 then rowsEngine
  else if off < 0x5000 then rowsMemory
  else if off < 0x8000 then rowsFlow
  else rowsBase

/-- The row of an offset; none for an unassigned one (R16). -/
def coreRow (off : Nat) : Option RegRow := (coreRows off).find? (fun r => r.covers off)

/-! ### Values that are views of the state -/

/-- CORE_STATUS (R73). -/
def Core.statusView (k : Core) : Word :=
  let st := match k.seq with
    | .idle => 0
    | .run => 1
    | .stall => 2
    | .trapped => 3
    | .reset => 4
  flag 32 7 (!k.mvQ.isEmpty || k.mvAct.isSome) ||| flag 32 6 (!k.vecQ.isEmpty)
    ||| flag 32 5 (!k.matQ.isEmpty || !k.steps.isEmpty) ||| place 32 0 3 st

/-- Accumulators with a step in flight or a write pending (R74). -/
def Core.accBusy (k : Core) : Nat :=
  (List.range 4).foldl (fun n i =>
    n + (if k.steps.any (fun e => (k.matAccs e.entry).contains i) then 2 ^ i else 0)) 0

/-- MX_STATUS (R74): ACTIVE while the issue cycles of a step are not over (R54). -/
def Core.mxView (k : Core) : Word :=
  place 32 8 4 k.accBusy ||| place 32 4 4 k.lastClass.toNat ||| flag 32 3 (k.steps.any (fun e => e.issued < 32))
    ||| place 32 0 3 k.matQ.length

/-- A vector instruction of the 12 cc class (R58). -/
def isLongVec (i : Instr) : Bool :=
  match i with
  | .vrcp .. | .vrsq .. | .vexp2 .. | .vlog2 .. => true
  | _ => false

/-- Incomplete mover commands (R60, R76). -/
def Core.mvIncomplete (k : Core) : Nat := k.mvQ.length + (if k.mvAct.isSome then 1 else 0)

/-- MV_STATUS (R76). -/
def Core.mvView (k : Core) : Word :=
  flag 32 7 k.scan.isSome ||| flag 32 6 ((k.reg rMV_ERR).getLsbD 31) ||| flag 32 5 k.mvAct.isSome
    ||| place 32 0 5 k.mvIncomplete

/-- SP_BANKSTAT (R121, R137). -/
def Core.bankstatView (k : Core) : Word :=
  BitVec.ofNat 32 ((List.range 8).foldl (fun n b =>
    n + 4 ^ b * (if (k.bank b).target.isSome then 3
      else match (k.bank b).mode with
        | .on => 0
        | .retain => 1
        | .off => 2)) 0)

/-- Writes accepted for a bank and not yet in it, from the network and from the core's own engines (R123). -/
def Core.pendingAt (k : Core) (b : Nat) : Nat :=
  (k.bank b).pendWr + (k.lineWr.filter (fun w => bankOf w.off == b)).length

/-- SP_PENDWR0 and SP_PENDWR1 (R123, R137): the counts of banks `b` to `b + 3`. -/
def Core.pendwrView (k : Core) (b : Nat) : Word :=
  BitVec.ofNat 32 ((List.range 4).foldl (fun n i => n + 256 ^ i * min 255 (k.pendingAt (b + i))) 0)

/-- A 16-bit map of a predicate. -/
def bits16 (p : Nat → Bool) : Nat := (List.range 16).foldl (fun n i => n + 2 ^ i * (p i).toNat) 0

/-- Entries of a channel still combining (R200). -/
def Core.combining (k : Core) (n : Nat) : Nat := ((k.inq.get [] n).filter (fun e => !e.whole)).length

/-- CH_ISTAT (R200). -/
def Core.istatView (k : Core) (n : Nat) : Word :=
  flag 32 31 (k.satNow.getLsbD n) ||| place 32 16 6 (k.combining n) ||| place 32 0 6 (k.used n)

/-- CH_OSTAT (R200). -/
def Core.ostatView (k : Core) (m : Nat) : Word :=
  place 32 16 16 (k.outq.get OutChan.reset m).next.toNat ||| place 32 0 6 (k.outst m)

/-- DF_STATUS (R231). -/
def Core.dfView (k : Core) : Word :=
  let st := match k.df with
    | .idle => 0
    | .loaded => 1
    | .starting => 2
    | .run => 3
    | .aborting => 4
    | .aborted => 5
  let runu := match k.running with
    | some r => r.u.toNat
    | none => 0
  place 32 22 5 k.inFlight.length ||| place 32 15 7 k.store.length ||| place 32 12 3 runu
    ||| flag 32 11 k.running.isSome ||| flag 32 7 k.spilling ||| flag 32 6 k.quiet ||| place 32 0 3 st

/-- SY_WCTL and SY_WVAL of a watch entry: bit 31 of _LO reads 1 while the entry is in use (R201). -/
def Core.watchView (k : Core) (w : Nat) (value : Bool) : DWord :=
  match k.watches.get none w with
  | none => 0
  | some e => if value then e.value else e.ctrl ||| 0x80000000#64

/-- RT_ID (R176). -/
def K.rtId (k : K) : Word :=
  let px := k.here.px.toNat
  let py := k.here.py.toNat
  let pos := match k.posn with
    | .usable => 0
    | .hole => 1
    | .isolated => 2
    | .dead => 0
  flag 32 31 (px % 8 == 4 && py % 8 == 4) ||| place 32 28 3 pos ||| flag 32 27 k.edge ||| place 32 10 10 py
    ||| place 32 0 10 px

/-- The value of a register at the moment (R16). -/
def K.regNow (k : K) (off : Nat) : Word :=
  let c := k.core
  if 0x8000 ≤ off ∧ off < 0xA000 then
    if off = 0x8000 then k.rtId
    else if off = 0x8010 then BitVec.ofNat 32 (c.slotsUsed 0 64)
    else k.rt.reg (off - 0x8000)
  else if 0x5100 ≤ off ∧ off < 0x5500 ∧ off % 0x40 = 8 then c.istatView ((off - 0x5100) / 0x40)
  else if 0x5500 ≤ off ∧ off < 0x5900 ∧ off % 0x40 = 0xC then c.ostatView ((off - 0x5500) / 0x40)
  else if 0x4400 ≤ off ∧ off < 0x4500 then
    let v := c.watchView ((off - 0x4400) / 0x10) (8 ≤ off % 0x10)
    if off % 8 = 0 then lo32 v else hi32 v
  else match off with
    | 0x000 => place 32 10 10 k.c.y.toNat ||| place 32 0 10 k.c.x.toNat
    | 0x004 => c.statusView
    | 0x008 => BitVec.ofNat 32 (c.pc % 16384)
    | 0x028 => lo32 k.cyc
    | 0x02C => hi32 k.cyc
    | 0x1004 => c.mxView
    | 0x1800 => flag 32 4 (c.vecQ.any (fun e => isLongVec e.insn)) ||| place 32 0 4 c.vecQ.length
    | 0x2000 => flag 32 1 c.zeroing ||| flag 32 0 (c.recode != 0)
    | 0x200C => c.bankstatView
    | 0x2010 => c.pendwrView 0
    | 0x2014 => c.pendwrView 4
    | 0x3000 => c.mvView
    | 0x3020 => BitVec.ofNat 32 (c.slotsUsed 8 56)
    | 0x4000 => flag 32 16 c.lent ||| place 32 0 16 c.rfull.toNat
    | 0x4004 => BitVec.ofNat 32 (bits16 (fun w => (c.watches.get none w).isSome))
    | 0x5000 => BitVec.ofNat 32 (bits16 c.ichActive + 65536 * bits16 c.ochActive)
    | 0x6000 => c.dfView
    | 0x6018 => c.reg off ||| place 32 0 8 c.spill.length
    | 0xA000 => flag 32 31 k.tree ||| flag 32 30 (2 ≤ k.heat)
    | _ => c.reg off

/-- A latched upper half is taken by the next read of its _HI (R16). -/
def K.dropLatch (k : K) (off : Nat) : K := { k with core := { k.core with hiLatch := k.core.hiLatch.del off } }

/-- A read of one register: none answers ERR 0x09 for an unassigned offset. A read of _LO latches _HI, a read-to-clear
register clears, and SP_ERRINFO latches SP_ERRADDR (R16, R17, R137). -/
def K.readReg (k : K) (off : Nat) : K × Option Word :=
  match coreRow off with
  | none => (k, none)
  | some r =>
    if rSY_WREQ ≤ off ∧ off < rSY_WREQ + 0x40 then (k, none)
    else if r.acc = .wo then (k, some 0)
    else if r.isLo off then
      ({ k with core := { k.core with hiLatch := k.core.hiLatch.set (off + 4) (k.regNow (off + 4)) } }, some (k.regNow off))
    else if r.isHi off then
      match k.core.hiLatch.find? (fun (e : Nat × Word) => e.1 == off) with
      | some e => (k.dropLatch off, some e.2)
      | none => (k, some (k.regNow off))
    else if off = rSP_ERRINFO then
      ({ k with core := { k.core.setReg off 0 with errAddrLatch := some (k.core.reg rSP_ERRADDR) } },
        some (k.core.reg off))
    else if off = rSP_ERRADDR then
      ({ k with core := { k.core with errAddrLatch := none } }, some (k.core.errAddrLatch.getD (k.core.reg off)))
    else if r.acc = .rc then ({ k with core := k.core.setReg off 0 }, some (k.core.reg off))
    else (k, some (k.regNow off))

/-- An 8-byte read covers two registers in one access (R16); none answers ERR 0x09. -/
def K.readReg8 (k : K) (off : Nat) : K × Option DWord :=
  let a := k.readReg off
  let b := K.readReg a.1 (off + 4)
  match a.2, b.2 with
  | some lo, some hi => (b.1, some (pair64 hi lo))
  | _, _ => (k, none)

/-! ### Writes -/

/-- The writer is Ryist: a packet with SYS 1, or Ryist's own access to yard and cores. -/
def isSystem (o : Origin) : Bool :=
  match o with
  | .packet s _ _ => s
  | .ryist => true
  | _ => false

/-- SP_BANKPWR may take these modes (R122). -/
def Core.bankpwrOk (k : Core) (v : Nat) : Bool :=
  (List.range 8).all (fun b =>
    let m := v / 4 ^ b % 4
    m != 3 && (m == 0 || !((b == 7 && k.configured) || (k.wlock && b * 0xC000 < k.wtop * 0x4000))))

/-- The mode a MODE field codes (R137). -/
def modeOf (m : Nat) : BankMode := if m = 0 then .on else if m = 1 then .retain else .off

/-- A bank asked for a mode: it becomes CHANGING, or while CHANGING takes the mode when the change ends (R121, R122). -/
def Bank.ask (b : Bank) (m : BankMode) : Bank :=
  match b.target with
  | some _ => { b with later := some m }
  | none => if b.mode = m then b else { b with target := some m }

/-- A write of SP_BANKPWR (R122). -/
def K.writeBankpwr (k : K) (v : Word) : K × Option Nat :=
  if k.core.bankpwrOk v.toNat then
    let c1 := k.core.setReg rSP_BANKPWR (v &&& 0xFFFF)
    ({ k with core := (List.range 8).foldl (fun a b =>
        { a with banks := a.banks.set b ((a.bank b).ask (modeOf (v.toNat / 4 ^ b % 4))) }) c1 }, none)
  else (k, some 0x09)

/-- A write of n / 4 words to CORE_IDATA (R47): refused unless the sequencer is IDLE, no section is configured and the words
fit; CORE_IADDR advances, staying at 14 bits. -/
def K.writeIdata (k : K) (ws : List Word) : K × Option Nat :=
  let i := field (k.core.reg rCORE_IADDR) 0 14
  if k.core.seq != .idle || k.core.configured || 16384 < i + ws.length then (k, some 0x09)
  else
    let c1 := (List.range ws.length).foldl (fun a j =>
      { a with istore := a.istore.set (i + j) (nth 0 ws j), istoreErr := a.istoreErr.del (i + j),
               istoreCounted := a.istoreCounted.del (i + j) }) k.core
    ({ k with core := c1.setReg rCORE_IADDR (place 32 0 14 (i + ws.length)) }, none)

/-- The generator's state from a seed (R91). -/
def seedState (v : DWord) : DWord := if v = 0 then 0x9E3779B97F4A7C15 else v

/-- A write to FLT_WCTL (R379, R380, R400): setting EN clears the status, clearing it abandons a scan. -/
def Core.setWctl (k : Core) (en : Bool) : Core :=
  if en then
    let was := (k.reg rFLT_WCTL).getLsbD 31
    (if was then k else k.setReg rFLT_WSTAT 0).setReg rFLT_WCTL 0x80000000
  else { k.setReg rFLT_WCTL 0 with scan := none }

/-- A limit that a write outside takes the nearer end of (R119, R176, R231). -/
def nearest (lo hi : Nat) (v : Nat) : Word := BitVec.ofNat 32 (clampNat lo hi v)

/-- The registers of RT_ that only system packets write (R176). -/
def rtWritable (off : Nat) : Bool := off == 0x8004 || off == 0x8008 || off == 0x800C || 0x8100 ≤ off && off < 0x8200

/-- A write of a RT_ register by a system packet (R176): a merge slot's ERR clears with VALID 0, and its contributions with
the slot (R165). -/
def K.writeRt (k : K) (off : Nat) (v : Word) (mask : Word) : K :=
  let o := off - 0x8000
  if off = 0x800C then { k with rt := k.rt.setReg o (nearest 1 1000 (field v 0 10)) }
  else if 0x8100 ≤ off ∧ off % 0x20 = 0 then
    let n := (off - 0x8100) / 0x20
    let err := if v.getLsbD 31 then (k.rt.reg o) &&& 0x40000000#32 else 0
    let r1 := k.rt.setReg o ((v &&& mask) ||| err)
    { k with rt := if v.getLsbD 31 then r1 else { r1 with held := r1.held.del n } }
  else { k with rt := k.rt.setReg o (v &&& mask) }

/-- The CH_ configuration registers and address slots (R179). -/
def chConfig (off : Nat) : Bool :=
  (0x5100 ≤ off && off < 0x5500 && (off % 0x40 == 0 || off % 0x40 == 4)) ||
    (0x5500 ≤ off && off < 0x5900 && (off % 0x40 == 0 || off % 0x40 == 4 || (0x10 ≤ off % 0x40 && off % 0x40 < 0x20))) ||
    (0x5900 ≤ off && off < 0x5A00)

/-- The DF_ configuration registers (R231). -/
def dfConfig (off : Nat) : Bool :=
  off == rDF_SECCFG || off == rDF_FIN || off == rDF_WINDOW || off == rDF_STALL ||
    (0x6100 ≤ off && off < 0x6300 && off % 0x40 ≤ 8)

/-- A write of one register; the answer is an error code where it is refused (R16, R17, R47, R122, R176, R179, R231, R360,
R400). -/
def K.writeReg (k : K) (off : Nat) (v : Word) (o : Origin) : K × Option Nat :=
  match coreRow off with
  | none => (k, some 0x09)
  | some r =>
    let keep := fun (old : Word) => (old &&& ~~~ r.mask) ||| (v &&& r.mask)
    if 0x8000 ≤ off ∧ off < 0xA000 then
      if rtWritable off then (if isSystem o then (k.writeRt off v r.mask, none) else (k, some 0x09)) else (k, none)
    else if rSY_WREQ ≤ off ∧ off < rSY_WREQ + 0x40 then (k, some 0x09)
    else if chConfig off then
      if !isSystem o || k.core.configured then (k, some 0x09)
      else if 0x5500 ≤ off ∧ off < 0x5900 ∧ off % 0x40 = 4 ∧ (558 ≤ field v 10 10 ∨ 576 ≤ field v 20 10) then (k, some 0x09)
      else ({ k with core := k.core.setReg off (keep (k.core.reg off)) }, none)
    else if 0x5500 ≤ off ∧ off < 0x5900 ∧ off % 0x40 = 8 then (k, some 0x09)
    else if off = 0x6004 then (if isSystem o then k.dfCtrl (field v 0 3) else (k, some 0x09))
    else if dfConfig off then
      if !isSystem o || k.core.configured then (k, some 0x09)
      else
        let w := if off = rDF_WINDOW then nearest 4096 16777215 (field v 0 24)
          else if off = rDF_STALL then nearest 1 65535 (field v 0 16)
          else keep (k.core.reg off)
        ({ k with core := k.core.setReg off w }, none)
    else if off = rFLT_WCTL then
      (if isSystem o then ({ k with core := k.core.setWctl (v.getLsbD 31) }, none) else (k, some 0x09))
    else if rFLT_WREF ≤ off ∧ off < rFLT_WREF + 0x30 then
      (if isSystem o && !(k.core.reg rFLT_WCTL).getLsbD 31 then ({ k with core := k.core.setReg off v }, none)
       else (k, some 0x09))
    else if off = 0x01C then k.writeIdata [v]
    else if off = rSP_BANKPWR then k.writeBankpwr v
    else if off = rSP_REGION then
      let c1 := k.core.setReg off (setField (k.core.reg off) 31 1 (field v 31 1))
      ({ k with core := { c1 with shWtop := some (BitVec.ofNat 5 (min 23 (field v 0 5))) } }, none)
    else if off = rSP_SCRUB then ({ k with core := k.core.setReg off (nearest 64 1630 (field v 0 11)) }, none)
    else if off = rCORE_NUMCTL then ({ k with core := { k.core with shNumctl := some (forceNan k.guarded (v &&& r.mask)) } }, none)
    else if off = rMX_CTRL then ({ k with core := { k.core with shMxctrl := some (v &&& r.mask) } }, none)
    else if off = rMX_CKCFG then ({ k with core := { k.core with shCkcfg := some (v &&& r.mask) } }, none)
    else if off = 0x180C then
      let c1 := k.core.setReg off v
      ({ k with core := { c1 with rng := seedState (pair64 v (c1.reg rVEC_SRSEED_LO)) } }, none)
    else if rSY_CNT ≤ off ∧ off < rSY_CNT + 0x100 then
      match o with
      | .own => (K.wroteCounter { k with core := k.core.setReg off v } ((off - rSY_CNT) / 8), none)
      | _ => (k, some 0x0B)
    else if r.acc = .rw then ({ k with core := k.core.setReg off (keep (k.core.reg off)) }, none)
    else (k, none)

/-- An 8-byte write covers two registers in one access and lands whole (R16, R17): a counter takes both halves at once
(R189); when either half is refused, nothing changes. -/
def K.writeReg8 (k : K) (off : Nat) (v : DWord) (o : Origin) : K × Option Nat :=
  if rSY_CNT ≤ off ∧ off < rSY_CNT + 0x100 then
    (K.wroteCounter { k with core := { k.core with regs := setPair k.core.regs off v } } ((off - rSY_CNT) / 8), none)
  else
    let a := k.writeReg off (lo32 v) o
    let b := K.writeReg a.1 (off + 4) (hi32 v) o
    match a.2, b.2 with
    | none, none => b
    | some e, _ => (k, some e)
    | _, some e => (k, some e)

end Sys2Proof.Machine
end

