-- ==== Sys2Proof/Machine/Settings.lean ====
section
/-! DEFINITION. The device-wide settings as cores and routers take them, and notifications to the host (R297, R361, R362). -/

namespace Sys2Proof.Machine

/-- Word `i` of the MSI-X table entry of a function's vector: address, data, and vector control, whose mask bit is 1 at reset (R290, log entry
109). -/
def State.msixWord (s : State) (fn vec i : Nat) : Word :=
  s.host.msixTab.get (if i = 3 then 1 else 0) (64 * fn + 4 * vec + i)

/-- The message of a vector: a posted write in the port's transmit order (R294, R297). -/
def State.msixSend (s : State) (fn vec : Nat) : State :=
  { s with host := { s.host with out := s.host.out ++ [.message (BitVec.ofNat 5 fn) (BitVec.ofNat 4 vec)
      (pair64 (s.msixWord fn vec 1) (s.msixWord fn vec 0)) (s.msixWord fn vec 2)] } }

/-- A notification is sent to a function (R297): the physical function is 0, VF p + 1 is p + 1. In the safe state and without a link none is
(R301, R289); that of a masked vector is pending (R290, log entry 109). -/
def State.notify (s : State) (fn vec : Nat) : State :=
  if s.fc.safe || !s.host.up then s
  else if (s.msixWord fn vec 3).getLsbD 0 then
    let e : BitVec 5 × BitVec 4 := (BitVec.ofNat 5 fn, BitVec.ofNat 4 vec)
    { s with host := { s.host with msixPend := if s.host.msixPend.contains e then s.host.msixPend else s.host.msixPend ++ [e] } }
  else s.msixSend fn vec

/-- One core of the state set. -/
def State.setCore (s : State) (c : CoreId) (k : Core) : State := { s with cores := s.cores.set (coreKey c) k }

/-- One router of the state set. -/
def State.setRouter (s : State) (px py : Nat) (r : Router) : State :=
  { s with routers := s.routers.set (routerKey py px) r }

/-- The logical cores of a field. -/
def fieldCores (f : Nat) : List CoreId :=
  (List.range 64).flatMap (fun ly => (List.range 62).map (fun lx => coreAt ((f % 9) * 62 + lx) ((f / 9) * 64 + ly)))

/-- The physical positions of a field, as (PX, PY). -/
def fieldPositions (f : Nat) : List (Nat × Nat) :=
  (List.range 64).flatMap (fun py => (List.range 64).map (fun px => ((f % 9) * 64 + px, (f / 9) * 64 + py)))

/-- The physical positions of a cluster, as (PX, PY) (R24). -/
def clusterPositions (cl : Nat) : List (Nat × Nat) :=
  (List.range 64).map (fun i => ((cl % 72) * 8 + i % 8, (cl / 72) * 8 + i / 8))

/-- The logical cores of a cluster (R24, R25). -/
def State.clusterCores (s : State) (cl : Nat) : List CoreId :=
  (clusterPositions cl).filterMap (fun p => logOf s.fp.skips p.1 p.2)

/-- The values the yard has written into a field, by item; none before any pass has reached it (R361, R362). -/
def State.fieldItems (s : State) (f : Nat) : Option (SMap Word) :=
  (s.bu.fieldDs.find? (fun (e : Nat × SMap Word) => e.1 == f)).map (fun (e : Nat × SMap Word) => e.2)

/-- A router takes RT_ROUTE (item 4). -/
def State.routeItem (s : State) (px py : Nat) (v : Word) : State :=
  if (s.router px py).reg rRT_ROUTE = v then s else s.setRouter px py ((s.router px py).setReg rRT_ROUTE v)

/-- A core that is IDLE takes DF_WINDOW and DF_STALL, and its router RT_ROUTE.XEN while no transaction is outstanding
(R361). -/
def State.takeItems (s : State) (c : CoreId) : State :=
  match s.fieldItems (fieldOf c.x.toNat c.y.toNat) with
  | none => s
  | some ds =>
    let k := s.core c
    if k.df != .idle then s
    else
      let same := k.reg rDF_WINDOW == ds.get 65536 2 && k.reg rDF_STALL == ds.get 1024 3
      let k1 := if same then k else (k.setReg rDF_WINDOW (ds.get 65536 2)).setReg rDF_STALL (ds.get 1024 3)
      let s1 := if same then s else s.setCore c k1
      let p := s1.phys c
      if k1.slotsUsed 0 64 = 0 then s1.routeItem p.1 p.2 (ds.get 1 4) else s1

/-- Every usable core of a field and its router hold the items written into the field (R362). -/
def State.fieldTaken (s : State) (f : Nat) : Bool :=
  match s.fieldItems f with
  | none => true
  | some ds =>
    (fieldCores f).all (fun c =>
      posState s.fp c != .usable ||
        ((s.core c).reg rDF_WINDOW == ds.get 65536 2 && (s.core c).reg rDF_STALL == ds.get 1024 3 &&
          (s.router (s.phys c).1 (s.phys c).2).reg rRT_ROUTE == ds.get 1 4))

/-- A field whose cores have taken everything leaves BU_DSPEND; with the last one the pass ends and PF vector 5 is raised
(R362). -/
def State.passProgress (s : State) (f : Nat) : State :=
  if s.bu.dspend.contains f && decide (f < s.bu.front) && s.fieldTaken f then
    let rest := s.bu.dspend.filter (fun x => x != f)
    let s1 : State := { s with bu := { s.bu with dspend := rest } }
    if rest.isEmpty then ({ s1 with bu := { s1.bu with mixed := false } }).notify 0 5 else s1
  else s

/-- A core that may have become IDLE, or whose last transaction may have ended, takes the settings waiting for it. -/
def State.settled (s : State) (c : CoreId) : State :=
  if s.bu.fieldDs.isEmpty then s
  else (s.takeItems c).passProgress (fieldOf c.x.toNat c.y.toNat)

/-- A step of one core after which it may be IDLE. -/
def onCoreSettled (c : CoreId) (s : State) (f : K → K) : State := (onCore c s f).settled c

/-! ### Taking an arrival -/

/-- A response travels on VC1 (R147). -/
def Packet.isResponse (p : Packet) : Bool := 9 ≤ p.op.toNat

/-- The extent of a request in bytes (R143). -/
def Packet.span (p : Packet) : Nat := if p.sz.toNat ≤ 3 then 2 ^ p.sz.toNat else 64 * (p.sz.toNat - 3)

/-- The lines a request touches, as aligned offsets. -/
def Packet.padLines (p : Packet) : List Nat :=
  if p.sz.toNat ≤ 3 then [p.off.toNat / 64 * 64] else (List.range (p.sz.toNat - 3)).map (fun i => p.off.toNat + 64 * i)

/-- A request to the scratchpad, which a cluster switched off for heat still serves (R342). -/
def Packet.padRequest (p : Packet) : Bool := p.space == 0 && (p.op ≤ 2 || p.op == 7)

/-- A request to a register of the core's block. -/
def Packet.regRequest (p : Packet) : Bool := p.space == 1 && (p.op ≤ 2 || p.op == 7)

/-- Offsets in the banks that a packet uses at its core: those of a request, the queue of a token, bank 7 for a contribution. -/
def Packet.padOffs (p : Packet) : List Nat :=
  if p.padRequest then p.padLines
  else if p.op == 3 || p.op == 8 then [p.off.toNat]
  else if p.op == 6 then [0x54000]
  else []

/-- Two packets of one source on one VC keep their order at the core: answers, accesses to one line or register, and posted packets
(R127, R129, R135, R157); other accesses may take effect in any order (R130, R134). -/
def Packet.ordered (a b : Packet) : Bool :=
  a.src == b.src && a.isResponse == b.isResponse &&
    (a.isResponse || (a.padRequest && b.padRequest && a.padLines.any (fun l => b.padLines.any (fun m => m / 64 == l / 64))) ||
      (a.regRequest && b.regRequest && a.off.toNat / 8 == b.off.toNat / 8) ||
      (!a.padRequest && !a.regRequest && !b.padRequest && !b.regRequest))

/-- Places in the list of the packets for a core that satisfy a test and that no earlier packet holds back. -/
def eligible (c : CoreId) (ok : Packet → Bool) : List Packet → Nat → List (CoreId × Packet) → List Nat
  | _, _, [] => []
  | seen, i, e :: t =>
    if e.1 = c then
      let rest := eligible c ok (e.2 :: seen) (i + 1) t
      if ok e.2 && !seen.any (fun a => a.ordered e.2) then i :: rest else rest
    else eligible c ok seen (i + 1) t

/-- The lines an accepted write has still to bring into their banks (R123). -/
def Accepted.lines (a : Accepted) : List Nat := a.pkt.padLines.drop a.next

/-- An accepted write of the same source to the same line is not yet in its bank (R129). -/
def State.behindAccepted (s : State) (c : CoreId) (p : Packet) : Bool :=
  p.padRequest && s.accepted.any (fun a => a.core == c && a.pkt.src == p.src
    && a.lines.any (fun l => p.padLines.any (fun m => m / 64 == l / 64)))

/-- The packet at a place of the list asks for the scratchpad. -/
def State.padAt (s : State) (i : Nat) : Bool := (s.inbox[i]?).any (fun e => e.2.padRequest)

/-- A packet delivered to a core is taken: the oldest that satisfies the test and may go, or where that is a request to the scratchpad any
one of the requests to it that may (R130, log entry 101). -/
def State.takeArrival (s : State) (c : CoreId) (p : Packet → Bool) : Option (Packet × State) :=
  match eligible c (fun q => p q && !s.behindAccepted c q) [] 0 s.inbox with
  | [] => none
  | i :: t =>
    let pads := i :: t.filter s.padAt
    let free := s.padAt i && 1 < pads.length
    let j := if free then pads.getD (Config.grant s.freeCtr % pads.length) i else i
    match s.inbox[j]? with
    | none => none
    | some e => some (e.2, { s with inbox := s.inbox.eraseIdx j, freeCtr := if free then s.freeCtr + 1 else s.freeCtr })

/-- An arrival of a packet at a core: one that satisfies the test is taken and acted on. While a zero fill or re-encoding holds the banks
it uses, it waits (R109, R120). -/
def onArrival (c : CoreId) (s : State) (p : Packet → Bool) (f : Packet → K → K) : State :=
  if s.present c then
    match s.takeArrival c (fun q => p q && (s.alive c || q.padRequest) && !(s.core c).anyHeld q.padOffs) with
    | none => s
    | some (pkt, s1) => onCoreSettled c s1 (f pkt)
  else s

/-- A register access: its answer is kept in `resp` (R16). -/
def K.answer (r : K × Option Nat) : K :=
  { r.1 with resp := match r.2 with
      | none => .done
      | some e => .err (BitVec.ofNat 8 e) }

/-- A register access refused. -/
def K.refuse (k : K) (e : Nat) : K := { k with resp := .err (BitVec.ofNat 8 e) }

end Sys2Proof.Machine
end

