-- ==== Sys2Proof/Machine/Banks.lean ====
section
/-! DEFINITION. Events of the scratchpad: bank power, drains and wakes, the write-back of corrected lines, the scrub and zero
fill (R116, R119 to R123). -/

namespace Sys2Proof.Machine

/-- A step of the scratchpad, which works at every usable position of a powered module and in isolated clusters (R31, R341). -/
def onPad (c : CoreId) (s : State) (f : K → K) : State := if s.padUp c then onCore c s f else s

/-! ### Register accesses from outside (R33, R171, R342, R366) -/

/-- Blocks served while a core is in reset or its cluster is switched off for heat: RT_ and PWC_ always, and for heat also
SP_, FLT_ and CORE_CYCLE (R342, R366). -/
def servedBase (off : Nat) : Bool := (0x8000 ≤ off && off < 0xA000) || (0xA000 ≤ off && off < 0xC000)
def servedHeat (off : Nat) : Bool :=
  servedBase off || (0x2000 ≤ off && off < 0x3000) || 0xC000 ≤ off || off == 0x028 || off == 0x02C

/-! ### Bank modes (R121 to R123) -/

/-- The lines of a bank zeroed with fresh codes (R120, R121). -/
def Core.zeroBank (k : Core) (b : Nat) : Core :=
  { k with
    mem := Mem.zero k.mem (0xC000 * b) 0xC000
    flips := k.flips.filter (fun (e : Nat × BitVec 72) => e.1 * 8 / 0xC000 != b)
    crcErr := k.crcErr.filter (fun (e : Nat × BitVec 16) => e.1 * 64 / 0xC000 != b) }

/-- A change of a bank's mode that was waiting is taken now (R122). -/
def Bank.takeLater (b : Bank) : Bank :=
  match b.later with
  | none => b
  | some m => { b with later := none, target := if b.mode = m then none else some m }

/-- BANK_MODE_CHANGE_END: pending writes and corrected lines are drained and the bank reaches its new mode. A bank going OFF
loses its contents; one waking from OFF, or owing a zero fill, stays CHANGING through the fill (R120, R121, R123). -/
def bankChangeEnd (n : Nat) (k : K) : K :=
  let b := k.core.bank n
  match b.target with
  | none => k
  | some m =>
    if b.filling || 0 < b.pendWr || !b.writeback.isEmpty || k.core.lineWr.any (fun w => bankOf w.off == n) then k
    else
      let put := fun (c : Core) (x : Bank) => { k with core := { c with banks := c.banks.set n x } }
      match m with
      | .on =>
        if b.mode == BankMode.off || b.owed then put k.core { b with filling := true }
        else put k.core ({ b with mode := .on, target := none }.takeLater)
      | .retain => put k.core ({ b with mode := .retain, target := none, owed := b.owed || b.mode == BankMode.off }.takeLater)
      | .off => put (k.core.zeroBank n) ({ b with mode := .off, target := none }.takeLater)

def execBankModeChangeEnd (c : CoreId) (bank : BitVec 3) (s : State) : Host.Outcome State Fault Refusal :=
  .next (onPad c s (bankChangeEnd bank.toNat))

/-- BANK_WAKE_FILL_END: the bank reads zero and is ON (R121); the fill is a write that watches see (R193). -/
def bankFillEnd (n : Nat) (k : K) : K :=
  let b := k.core.bank n
  if b.filling then
    let b1 : Bank := { b with mode := .on, target := none, filling := false, owed := false }
    let c1 := k.core.zeroBank n
    K.wroteBytes { k with core := { c1 with banks := c1.banks.set n b1.takeLater } } (0xC000 * n) 0xC000
  else k

def execBankWakeFillEnd (c : CoreId) (bank : BitVec 3) (s : State) : Host.Outcome State Fault Refusal :=
  .next (onPad c s (bankFillEnd bank.toNat))

/-! ### The write-back of a corrected line, and the scrub (R116, R119) -/

/-- A line rewritten with its corrected data and a fresh code, when SECDED can correct it. -/
def Core.correctLine (k : Core) (off : Nat) : Core :=
  let l := k.scanLine off
  if l.bad then k else { k.freshLine off with mem := Mem.writeLine k.mem off l.data }

/-- LINE_WRITEBACK: the oldest corrected line of the bank is written back (R116). -/
def lineWriteback (n : Nat) (k : K) : K :=
  let b := k.core.bank n
  match b.writeback with
  | [] => k
  | off :: rest =>
    if k.core.padHeld off then { k with core := k.core.count (bankWait off) 1 }
    else
      let c1 := if k.core.inWeights off then k.core.correctLine off else k.core
      { k with core := { c1 with banks := c1.banks.set n { b with writeback := rest } } }

def execLineWriteback (c : CoreId) (bank : BitVec 3) (s : State) : Host.Outcome State Fault Refusal :=
  .next (onPad c s (lineWriteback bank.toNat))

/-- SCRUB_READ: the next line of the weights region is read, corrected or reported, and the position advances, wrapping at the
end of the region; lines of a bank that is not ON are skipped, and a bank that is held is waited for (R109, R119). A region that has
become smaller than the position starts anew at its first line and counts no pass (DESIGN CHOICE, log entry 108). -/
def scrubRead (k : K) : K :=
  let lines := k.core.wtop * 256
  let pos := if k.core.scrubPos < lines then k.core.scrubPos else 0
  let off := 64 * pos
  if lines = 0 then k
  else if k.core.padHeld off then { k with core := k.core.count (bankWait off) 1 }
  else
    let k1 : K :=
      if (k.core.bank (bankOf off)).serves then
        let l := k.core.scanLine off
        let a := k.spFound agSCRUB off l none
        if l.ce.isEmpty then a else { a with core := a.core.correctLine off }
      else k
    let wrap := decide (lines ≤ pos + 1)
    let c1 : Core := { k1.core with scrubPos := if wrap then 0 else pos + 1 }
    { k1 with core := if wrap then c1.count rSP_SCRUBPASS 1 else c1 }

def execScrubRead (c : CoreId) (s : State) : Host.Outcome State Fault Refusal := .next (onPad c s scrubRead)

/-! ### Zero fill (R120) -/

/-- A zero fill starts: every other request waits until it ends, and the weights scan is disabled (R109, R120). -/
def Core.startZero (k : Core) : Core := { k.setWctl false with zeroing := true }

/-- Every bank that is ON is zeroed, the others owe the fill; WLOCK is left at 0 (R120). -/
def zeroAll (k : K) : K :=
  let c0 := k.core.setReg rSP_REGION (setField (k.core.reg rSP_REGION) 31 1 0)
  let c1 := (List.range 8).foldl (fun (a : Core) b =>
    if (a.bank b).mode == .on && (a.bank b).target.isNone then a.zeroBank b
    else { a with banks := a.banks.set b { a.bank b with owed := true } }) c0
  let c2 : Core := { c1 with zeroing := false }
  (List.range 8).foldl (fun a b => if (a.core.bank b).serves then a.wroteBytes (0xC000 * b) 0xC000 else a)
    { k with core := c2 }

/-- ZERO_FILL_END (R120). -/
def execZeroFillEnd (c : CoreId) (s : State) : Host.Outcome State Fault Refusal :=
  .next (onPad c s (fun k => if k.core.zeroing then zeroAll k else k))

end Sys2Proof.Machine
end

