-- ==== Sys2Proof/Machine/Aes.lean ====
section
/-! DEFINITION. The cryptography of a line of outer memory: AES-256 of FIPS 197, XTS of IEEE 1619 over the 64-byte line, and CMAC of
NIST SP 800-38B (R271); GCM of NIST SP 800-38D for span packets (R308). The specification names these standards and does not print them (log entry 25). -/

namespace Sys2Proof.Machine

/-- Multiplication by x in the field of AES. -/
def xtime (b : Nat) : Nat := if b < 128 then 2 * b else Nat.xor (2 * b - 256) 0x1B

/-- Multiplication in the field of AES. -/
def gmul : Nat → Nat → Nat → Nat
  | 0, _, _ => 0
  | n + 1, a, b => Nat.xor (if a % 2 = 1 then b else 0) (gmul n (a / 2) (xtime b))

/-- The inverse of a byte, by its power 254. -/
def ginv (b : Nat) : Nat :=
  let m := gmul 8
  let b2 := m b b
  let b4 := m b2 b2
  let b8 := m b4 b4
  let b16 := m b8 b8
  let b32 := m b16 b16
  let b64 := m b32 b32
  m (m b64 b64) (m b64 (m b32 (m b16 (m b8 (m b4 b2)))))

/-- The substitution box of AES. -/
def sbox (x : Byte) : Byte :=
  let i : Byte := BitVec.ofNat 8 (ginv x.toNat)
  i ^^^ i.rotateLeft 1 ^^^ i.rotateLeft 2 ^^^ i.rotateLeft 3 ^^^ i.rotateLeft 4 ^^^ 0x63#8

/-- A block: sixteen bytes, the first first. -/
abbrev Block := List Byte

def xorBlock (a b : Block) : Block := List.zipWith (· ^^^ ·) a b

/-- Byte `4 c + r` of a block is row r, column c. -/
def shiftRows (b : Block) : Block := (List.range 16).map (fun i => nth 0 b ((4 * (i / 4 + i % 4) + i % 4) % 16))

def mixColumn (c : List Byte) : List Byte :=
  (List.range 4).map (fun r =>
    let a := fun k => (nth 0 c ((r + k) % 4)).toNat
    BitVec.ofNat 8 (Nat.xor (Nat.xor (gmul 8 2 (a 0)) (gmul 8 3 (a 1))) (Nat.xor (a 2) (a 3))))
def mixColumns (b : Block) : Block := (List.range 4).flatMap (fun c => mixColumn ((b.drop (4 * c)).take 4))

/-- One more word of the key schedule of AES-256, the last word first. -/
def nextKeyWord (ws : List (List Byte)) : List (List Byte) :=
  let i := ws.length
  let last := nth [] ws 0
  let t :=
    if i % 8 = 0 then
      xorBlock (((last.drop 1) ++ last.take 1).map sbox) [BitVec.ofNat 8 (2 ^ (i / 8 - 1)), 0, 0, 0]
    else if i % 8 = 4 then last.map sbox
    else last
  xorBlock (nth [] ws 7) t :: ws

/-- The round keys of a 256-bit key, byte 0 of the key lowest. -/
def roundKeys (key : BitVec 256) : List Block :=
  let k := leBytes 32 key.toNat
  let first := ((List.range 8).map (fun i => (k.drop (4 * i)).take 4)).reverse
  let ws := ((List.range 52).foldl (fun l _ => nextKeyWord l) first).reverse
  (List.range 15).map (fun r => ((ws.drop (4 * r)).take 4).flatten)

/-- AES-256 of one block. -/
def aes (keys : List Block) (b : Block) : Block :=
  let b0 := xorBlock b (nth [] keys 0)
  let b13 := (List.range 13).foldl (fun (x : Block) r => xorBlock (mixColumns (shiftRows (x.map sbox))) (nth [] keys (r + 1))) b0
  xorBlock (shiftRows (b13.map sbox)) (nth [] keys 14)

/-- The tweak times alpha, as a little-endian number (IEEE 1619). -/
def timesAlpha (t : BitVec 128) : BitVec 128 := (t <<< 1) ^^^ (if t.getLsbD 127 then 0x87#128 else 0)

/-- A line encrypted under an XTS key with its index as the tweak. -/
def xtsLine (key : BitVec 512) (index : Nat) (l : Line) : Line :=
  let k1 := roundKeys (key.extractLsb' 0 256)
  let k2 := roundKeys (key.extractLsb' 256 256)
  let t0 : BitVec 128 := BitVec.ofNat 128 (leNat (aes k2 (leBytes 16 index)))
  let tweaks := [t0, timesAlpha t0, timesAlpha (timesAlpha t0), timesAlpha (timesAlpha (timesAlpha t0))]
  let bs := Line.bytes l
  Line.ofBytes ((List.range 4).flatMap (fun j =>
    let t := leBytes 16 (nth 0 tweaks j).toNat
    xorBlock (aes k1 (xorBlock ((bs.drop (16 * j)).take 16) t)) t))

/-- A number from bytes, the first most significant. -/
def bigNat (bs : List Byte) : Nat := bs.foldl (fun n b => 256 * n + b.toNat) 0
def bigBytes (n v : Nat) : List Byte := (leBytes n v).reverse

/-- A subkey of CMAC doubled. -/
def cmacDouble (b : Block) : Block :=
  let v : BitVec 128 := BitVec.ofNat 128 (bigNat b)
  bigBytes 16 ((v <<< 1) ^^^ (if v.getLsbD 127 then 0x87#128 else 0)).toNat

/-- AES-256-CMAC of a message that is not empty. -/
def cmac (key : BitVec 256) (msg : List Byte) : Block :=
  let ks := roundKeys key
  let k1 := cmacDouble (aes ks (List.replicate 16 0))
  let n := (msg.length + 15) / 16
  let tail := msg.drop (16 * (n - 1))
  let last := if tail.length = 16 then xorBlock tail k1
    else xorBlock (tail ++ [0x80] ++ List.replicate (15 - tail.length) 0) (cmacDouble k1)
  let c := (List.range (n - 1)).foldl (fun (x : Block) i => aes ks (xorBlock x ((msg.drop (16 * i)).take 16))) (List.replicate 16 0)
  aes ks (xorBlock c last)

/-- The MAC of a line: the leftmost 56 bits over the ciphertext, the line's offset and its epoch (R271). -/
def lineMac (key : BitVec 256) (c : Line) (off : Nat) (epoch : Bool) : BitVec 56 :=
  BitVec.ofNat 56 (bigNat ((cmac key (Line.bytes c ++ leBytes 8 off ++ [BitVec.ofNat 8 epoch.toNat])).take 7))

/-! ### GCM (R308) -/

/-- The product in the field of GCM, whose blocks are polynomials with the leftmost bit first. -/
def gcmMul (x y : BitVec 128) : BitVec 128 :=
  ((List.range 128).foldl (fun (a : BitVec 128 × BitVec 128) i =>
    (if x.getLsbD (127 - i) then a.1 ^^^ a.2 else a.1,
     if a.2.getLsbD 0 then (a.2 >>> 1) ^^^ (0xE1#128 <<< 120) else a.2 >>> 1)) (0, y)).1

/-- The blocks of a string as numbers, the last filled with zeros. -/
def gcmBlocks (bs : List Byte) : List (BitVec 128) :=
  (List.range ((bs.length + 15) / 16)).map (fun i =>
    let b := (bs.drop (16 * i)).take 16
    BitVec.ofNat 128 (bigNat (b ++ List.replicate (16 - b.length) 0)))

/-- The tag over additional data and ciphertext under a 12-byte IV. -/
def gcmTag (keys : List Block) (iv aad ct : List Byte) : Block :=
  let h : BitVec 128 := BitVec.ofNat 128 (bigNat (aes keys (List.replicate 16 0)))
  let lens : BitVec 128 := BitVec.ofNat 128 (8 * aad.length * 2 ^ 64 + 8 * ct.length)
  let g := (gcmBlocks aad ++ gcmBlocks ct ++ [lens]).foldl (fun y b => gcmMul (y ^^^ b) h) 0
  xorBlock (bigBytes 16 g.toNat) (aes keys (iv ++ bigBytes 4 1))

/-- Counter mode: the same both ways. -/
def gcmCrypt (keys : List Block) (iv text : List Byte) : List Byte :=
  (List.range ((text.length + 15) / 16)).flatMap (fun i =>
    xorBlock ((text.drop (16 * i)).take 16) (aes keys (iv ++ bigBytes 4 (i + 2))))

end Sys2Proof.Machine
end

