-- ==== Sys2Proof/Machine/Operands.lean ====
section
/-! DEFINITION. The operand forms of the sequencer: immediates, shift amounts, addresses and their classes, parts of a line
(R43 to R45). -/

namespace Sys2Proof.Machine

/-- A signed 16-bit immediate (R43). -/
def sext16 (imm : BitVec 16) : DWord := imm.signExtend 64

/-- A zero-extended 16-bit immediate (ANDI, ORI, XORI, LIH). -/
def zext16 (imm : BitVec 16) : DWord := imm.setWidth 64

/-- The low 6 bits of a register as a shift amount (R44). -/
def shiftAmt (v : DWord) : Nat := field v 0 6

/-- A load or store address (R45). -/
def Core.effAddr (k : Core) (a : SReg) (imm : BitVec 16) : DWord := k.sreg a + sext16 imm

/-- The address of VLD and VST: s[sa] plus the signed byte offset of the VM format (R43, R58). -/
def Core.vecAddr (k : Core) (sa : SReg) (off : BitVec 17) : DWord := k.sreg sa + off.signExtend 64

/-- The class of a load or store address (R45). -/
inductive AddrClass where
  | pad (off : Nat)
  | ownReg (off : Nat)
  | remote
deriving DecidableEq, Repr

/-- R45: local, own registers, or remote. -/
def addrClass (c : CoreId) (a : DWord) : AddrClass :=
  if isOwnSpad c a then .pad (addrOff40 a)
  else if addrSpace a = 1 ∧ addrCore a = c then .ownReg (addrOff40 a)
  else .remote

/-- An address is aligned for a width (R45). -/
def aligned (a : DWord) (n : Nat) : Bool := a.toNat % n == 0

/-- Bits [47:0] of an address, as fault messages carry it (R77). -/
def addr48 (a : DWord) : Nat := field a 0 48

/-- `n` bytes of a line from byte `off`, zero-extended (R43). -/
def linePart (l : Line) (off n : Nat) : DWord := BitVec.ofNat 64 (l.toNat / 2 ^ (8 * off) % 2 ^ (8 * n))

/-- The SZ code of 1, 2, 4 or 8 bytes (R143). -/
def szOf (n : Nat) : Nat := if n = 1 then 0 else if n = 2 then 1 else if n = 4 then 2 else 3

/-- The `n` low bytes of a register. -/
def storeBytes (v : DWord) (n : Nat) : List Byte := leBytes n v.toNat

/-- The head payload of a sub-line write: the bytes stand at byte 16 + (OFFSET mod 8) (R142). -/
def subHead (v : DWord) (n off : Nat) : BitVec 384 := headOf (v.toNat % 2 ^ (8 * n) * 2 ^ (8 * (off % 8)))

/-- The sub-line data of a head payload. -/
def headPart (h : BitVec 384) (n off : Nat) : DWord := BitVec.ofNat 64 (h.toNat / 2 ^ (8 * (off % 8)) % 2 ^ (8 * n))

/-- A branch target: the offset counts from the branch's own index (R43, log entry 17). -/
def relTarget {w : Nat} (pc : Nat) (off : BitVec w) : Int := (pc : Int) + off.toInt

end Sys2Proof.Machine
end

