-- ==== Sys2Proof/Machine/Flags.lean ====
section
/-! DEFINITION. Conditions the sequencer computes. The core has no status flags (R84): comparisons write registers or decide
branches, and the states below say when an order of memory accesses is complete (R44, R131 to R133). -/

namespace Sys2Proof.Machine

/-- Signed and unsigned comparison of 64-bit integers (R44). -/
def sltFlag (a b : DWord) : Bool := a.toInt < b.toInt
def sltuFlag (a b : DWord) : Bool := a.toNat < b.toNat

/-- A comparison's result in a register. -/
def boolWord (b : Bool) : DWord := if b then 1 else 0

/-- Branch conditions (R43). -/
def takenBeq (a b : DWord) : Bool := a == b
def takenBne (a b : DWord) : Bool := a != b
def takenBlt (a b : DWord) : Bool := sltFlag a b
def takenBge (a b : DWord) : Bool := !sltFlag a b

/-- Some transaction of the sequencer satisfies a test. -/
def Core.anySeqSlot (k : Core) (p : SlotUse → Bool) : Bool :=
  (List.range 8).any (fun i =>
    match (k.slots.get Slot.reset i).use with
    | some u => p u
    | none => false)

/-- A load of the sequencer has not returned its data; an ATOM's old value is one (R131, R191). -/
def Core.loadsPending (k : Core) : Bool :=
  k.anySeqSlot (fun u => match u with
    | .load .. => true
    | .atom .. => true
    | _ => false)

/-- A write of the sequencer is unacknowledged: a store, an ATOM, a watch request (R132, R191, R192). -/
def Core.storesPending (k : Core) : Bool :=
  k.anySeqSlot (fun u => match u with
    | .store .. => true
    | .atom .. => true
    | .watch .. => true
    | _ => false)

/-- Every write the core issued has taken effect (R132): its stores are acknowledged, its matrix and vector instructions have
retired and what they wrote stands in its banks, and its mover commands are complete. -/
def Core.released (k : Core) : Bool :=
  !k.storesPending && k.vecQ.isEmpty && k.matQ.isEmpty && k.steps.isEmpty && k.lineWr.isEmpty && k.mvQ.isEmpty && k.mvAct.isNone

end Sys2Proof.Machine
end

