-- ==== Sys2Proof/Machine/Scalar.lean ====
section
/-! DEFINITION. Scalar arithmetic, immediates, branches, NOP, TRAP and the instruction-store write-back (R43, R44, R48, R49). -/

namespace Sys2Proof.Machine

/-- s[d] = f (s[a], s[b]). -/
def alu3 (d a b : SReg) (f : DWord → DWord → DWord) (_pc : Nat) (_w : Word) (k : K) : K :=
  k.whenReady [d, a, b] (fun k => K.advance { k with core := k.core.setS d (f (k.core.sreg a) (k.core.sreg b)) })

/-- s[d] = f (s[a]). -/
def alu2 (d a : SReg) (f : DWord → DWord) (_pc : Nat) (_w : Word) (k : K) : K :=
  k.whenReady [d, a] (fun k => K.advance { k with core := k.core.setS d (f (k.core.sreg a)) })

/-- The number of leading zero bits of a value, 64 for 0. -/
def clz64 (v : DWord) : DWord :=
  BitVec.ofNat 64 (match ((List.range 64).find? (fun i => v.getLsbD (63 - i))) with
    | some i => i
    | none => 64)

/-- The number of one bits. -/
def popc64 (v : DWord) : DWord := BitVec.ofNat 64 (popcount v)

/-- The upper half of the unsigned product (MULHU). -/
def mulhu64 (a b : DWord) : DWord := BitVec.ofNat 64 (a.toNat * b.toNat / 2 ^ 64)

def execAdd (c : CoreId) (d a b : SReg) (s : State) : Host.Outcome State Fault Refusal :=
  issue c (.add c d a b) s (alu3 d a b (fun x y => x + y))
def execSub (c : CoreId) (d a b : SReg) (s : State) : Host.Outcome State Fault Refusal :=
  issue c (.sub c d a b) s (alu3 d a b (fun x y => x - y))
def execAndS (c : CoreId) (d a b : SReg) (s : State) : Host.Outcome State Fault Refusal :=
  issue c (.andS c d a b) s (alu3 d a b (fun x y => x &&& y))
def execOrS (c : CoreId) (d a b : SReg) (s : State) : Host.Outcome State Fault Refusal :=
  issue c (.orS c d a b) s (alu3 d a b (fun x y => x ||| y))
def execXorS (c : CoreId) (d a b : SReg) (s : State) : Host.Outcome State Fault Refusal :=
  issue c (.xorS c d a b) s (alu3 d a b (fun x y => x ^^^ y))
def execShl (c : CoreId) (d a b : SReg) (s : State) : Host.Outcome State Fault Refusal :=
  issue c (.shl c d a b) s (alu3 d a b (fun x y => x <<< shiftAmt y))
def execShr (c : CoreId) (d a b : SReg) (s : State) : Host.Outcome State Fault Refusal :=
  issue c (.shr c d a b) s (alu3 d a b (fun x y => x >>> shiftAmt y))
def execSra (c : CoreId) (d a b : SReg) (s : State) : Host.Outcome State Fault Refusal :=
  issue c (.sra c d a b) s (alu3 d a b (fun x y => x.sshiftRight (shiftAmt y)))
def execSlt (c : CoreId) (d a b : SReg) (s : State) : Host.Outcome State Fault Refusal :=
  issue c (.slt c d a b) s (alu3 d a b (fun x y => boolWord (sltFlag x y)))
def execSltu (c : CoreId) (d a b : SReg) (s : State) : Host.Outcome State Fault Refusal :=
  issue c (.sltu c d a b) s (alu3 d a b (fun x y => boolWord (sltuFlag x y)))
def execMinS (c : CoreId) (d a b : SReg) (s : State) : Host.Outcome State Fault Refusal :=
  issue c (.minS c d a b) s (alu3 d a b (fun x y => if sltFlag x y then x else y))
def execMaxS (c : CoreId) (d a b : SReg) (s : State) : Host.Outcome State Fault Refusal :=
  issue c (.maxS c d a b) s (alu3 d a b (fun x y => if sltFlag x y then y else x))
def execClz (c : CoreId) (d a : SReg) (s : State) : Host.Outcome State Fault Refusal :=
  issue c (.clz c d a) s (alu2 d a clz64)
def execPopc (c : CoreId) (d a : SReg) (s : State) : Host.Outcome State Fault Refusal :=
  issue c (.popc c d a) s (alu2 d a popc64)
def execMul (c : CoreId) (d a b : SReg) (s : State) : Host.Outcome State Fault Refusal :=
  issue c (.mul c d a b) s (alu3 d a b (fun x y => x * y))
def execMulhu (c : CoreId) (d a b : SReg) (s : State) : Host.Outcome State Fault Refusal :=
  issue c (.mulhu c d a b) s (alu3 d a b mulhu64)

def execAddi (c : CoreId) (d a : SReg) (imm : BitVec 16) (s : State) : Host.Outcome State Fault Refusal :=
  issue c (.addi c d a imm) s (alu2 d a (fun x => x + sext16 imm))
def execAndi (c : CoreId) (d a : SReg) (imm : BitVec 16) (s : State) : Host.Outcome State Fault Refusal :=
  issue c (.andi c d a imm) s (alu2 d a (fun x => x &&& zext16 imm))
def execOri (c : CoreId) (d a : SReg) (imm : BitVec 16) (s : State) : Host.Outcome State Fault Refusal :=
  issue c (.ori c d a imm) s (alu2 d a (fun x => x ||| zext16 imm))
def execXori (c : CoreId) (d a : SReg) (imm : BitVec 16) (s : State) : Host.Outcome State Fault Refusal :=
  issue c (.xori c d a imm) s (alu2 d a (fun x => x ^^^ zext16 imm))
def execShli (c : CoreId) (d a : SReg) (amt : BitVec 6) (s : State) : Host.Outcome State Fault Refusal :=
  issue c (.shli c d a amt) s (alu2 d a (fun x => x <<< amt.toNat))
def execShri (c : CoreId) (d a : SReg) (amt : BitVec 6) (s : State) : Host.Outcome State Fault Refusal :=
  issue c (.shri c d a amt) s (alu2 d a (fun x => x >>> amt.toNat))
def execSrai (c : CoreId) (d a : SReg) (amt : BitVec 6) (s : State) : Host.Outcome State Fault Refusal :=
  issue c (.srai c d a amt) s (alu2 d a (fun x => x.sshiftRight amt.toNat))
def execLih (c : CoreId) (d a : SReg) (imm : BitVec 16) (s : State) : Host.Outcome State Fault Refusal :=
  issue c (.lih c d a imm) s (alu2 d a (fun x => (x <<< 16) ||| zext16 imm))

/-- A conditional branch (R43, R44). -/
def branch (a b : SReg) (off : BitVec 16) (taken : DWord → DWord → Bool) (pc : Nat) (_w : Word) (k : K) : K :=
  k.whenReady [a, b] (fun k =>
    if taken (k.core.sreg a) (k.core.sreg b) then k.jump pc (relTarget pc off) (fun k => k) else k.advance)

def execBeq (c : CoreId) (a b : SReg) (off : BitVec 16) (s : State) : Host.Outcome State Fault Refusal :=
  issue c (.beq c a b off) s (branch a b off takenBeq)
def execBne (c : CoreId) (a b : SReg) (off : BitVec 16) (s : State) : Host.Outcome State Fault Refusal :=
  issue c (.bne c a b off) s (branch a b off takenBne)
def execBlt (c : CoreId) (a b : SReg) (off : BitVec 16) (s : State) : Host.Outcome State Fault Refusal :=
  issue c (.blt c a b off) s (branch a b off takenBlt)
def execBge (c : CoreId) (a b : SReg) (off : BitVec 16) (s : State) : Host.Outcome State Fault Refusal :=
  issue c (.bge c a b off) s (branch a b off takenBge)

/-- J (R43). -/
def execJ (c : CoreId) (off : BitVec 26) (s : State) : Host.Outcome State Fault Refusal :=
  issue c (.j c off) s (fun pc _ k => k.jump pc (relTarget pc off) (fun k => k))

/-- JAL writes its return index to s31 (R41, R43). -/
def execJal (c : CoreId) (off : BitVec 26) (s : State) : Host.Outcome State Fault Refusal :=
  issue c (.jal c off) s (fun pc _ k => k.whenReady [31] (fun k =>
    k.jump pc (relTarget pc off) (fun k => { k with core := k.core.setS 31 (BitVec.ofNat 64 (pc + 1)) })))

/-- JR jumps to the index held in s[a] (R43). -/
def execJr (c : CoreId) (a : SReg) (s : State) : Host.Outcome State Fault Refusal :=
  issue c (.jr c a) s (fun pc _ k => k.whenReady [a] (fun k => k.jump pc ((k.core.sreg a).toNat : Int) (fun k => k)))

/-- NOP (R43). -/
def execNop (c : CoreId) (s : State) : Host.Outcome State Fault Refusal :=
  issue c (.nop c) s (fun _ _ k => k.advance)

/-- TRAP raises kind 0x50 with detail 0xFFFF (R49, R77). -/
def execTrap (c : CoreId) (s : State) : Host.Outcome State Fault Refusal :=
  issue c (.trap c) s (fun pc w k =>
    let k1 := K.report { k with core := (k.core.setReg rCORE_TRAP (place 32 31 1 1 ||| place 32 0 8 0x50)).setReg
                                  rCORE_TRAPPC (place 32 0 14 pc) } 0 0x50 0xFFFF w.toNat
    let k2 := k1.abortNow 0 0x50
    { k2 with core := { k2.core with seq := .trapped } })

/-- The word that a fetch at an index delivered is written back with its code, and a later error there is counted again (R48). -/
def execIstoreWriteback (c : CoreId) (index : BitVec 14) (s : State) : Host.Outcome State Fault Refusal :=
  .next (onLive c s (fun k =>
    let i := index.toNat
    match k.core.istoreCounted.get false i, istoreRead (k.core.insnAt i) (k.core.istoreErr.get 0 i) with
    | true, some (w, _) =>
      { k with core := { k.core with istore := k.core.istore.set i w, istoreErr := k.core.istoreErr.del i,
                                     istoreCounted := k.core.istoreCounted.del i } }
    | _, _ => k))

end Sys2Proof.Machine
end

