-- ==== Sys2Proof/Machine/LoadStore.lean ====
section
/-! DEFINITION. Loads, stores, fences and register reads and writes of the sequencer, with the remote-line buffer (R43 to R46,
R112, R125, R126, R131 to R133). -/

namespace Sys2Proof.Machine

/-- A misaligned access (R45, R49, R77). -/
def K.misaligned (k : K) (pc : Nat) (a : DWord) : K := k.execFault 0 0x52 pc pc (addr48 a)

/-- An error response to a scalar access (R49, R77). -/
def K.accessError (k : K) (pc : Nat) (a : DWord) : K := k.execFault 0 0x54 pc pc (addr48 a)

/-- An address whose lines the remote-line buffer holds: space 0 of another core, or space 2 (R125). -/
def buffered (a : DWord) : Bool := addrSpace a == 0 || addrSpace a == 2

/-- The buffer's copy of a line. -/
def Core.rlbFind (k : Core) (a : DWord) : Option RlbEntry := k.rlb.find? (fun e => e.addr == lineAddr a)

/-- A hit makes the entry the most recently used (R125). -/
def Core.rlbTouch (k : Core) (e : RlbEntry) : Core :=
  { k with rlb := k.rlb.filter (fun x => x.addr != e.addr) ++ [e] }

/-- A line enters the buffer; the least recently used of 16 leaves (R125). -/
def Core.rlbEnter (k : Core) (e : RlbEntry) : Core :=
  let l := k.rlb.filter (fun x => x.addr != e.addr) ++ [e]
  { k with rlb := l.drop (l.length - 16) }

/-- The fetch of a line under way that may enter the buffer (R125). -/
def Core.fetching (k : Core) (a : DWord) : Option Nat :=
  (List.range 8).find? (fun i =>
    match (k.slots.get Slot.reset i).use with
    | some (.load _ b _ f _ none _) => f && lineAddr b == lineAddr a
    | _ => false)

/-- A remote read leaves the core: a whole line that may enter the buffer, or a sub-line read (R124, R125, R143). -/
def K.remoteLoad (k : K) (d : SReg) (a : DWord) (n : Nat) (fill acq : Bool) (pc : Nat) : K :=
  match k.core.freeSlot 0 8 with
  | none => k.stall
  | some i =>
    let on := if fill then k.core.fetching a else none
    let k1 := k.take i (.load d a n fill acq on pc)
    let k2 := match on with
      | some _ => k1
      | none =>
        let off := if fill then pktOff (lineAddr a) else pktOff a
        k1.sendTo a (k.packet 0 (addrSpace a) off (if fill then 4 else szOf n) 0 (k.core.txid i) 0 [])
    k2.advance

/-- A load of `n` bytes (R45). `acq` marks LD.ACQ, which bypasses the buffer and then invalidates it (R131). -/
def load (d a : SReg) (imm : BitVec 16) (n : Nat) (acq : Bool) (pc : Nat) (_w : Word) (k : K) : K :=
  k.whenReady [d, a] (fun k =>
    let ad := k.core.effAddr a imm
    if !aligned ad n then k.misaligned pc ad
    else
      let done := fun (k : K) (v : DWord) =>
        K.advance { k with core := (if acq then k.core.rlbClear else k.core).setS d v }
      match addrClass k.c ad with
      | .pad off =>
        if padSize ≤ off then k.accessError pc ad
        else if k.core.padHeld off || k.core.hazard k.core.num [off] [] then k.stallBank off
        else
          let r := k.readLine agSEQ none off
          match r.2.2 with
          | .refused => r.1.accessError pc ad
          | _ => done r.1 (linePart r.2.1 (off % 64) n)
      | .ownReg off =>
        if n < 4 then k.accessError pc ad
        else if n = 4 then
          match k.readReg off with
          | (k1, some v) => done k1 (v.setWidth 64)
          | (_, none) => k.accessError pc ad
        else
          match k.readReg8 off with
          | (k1, some v) => done k1 v
          | (_, none) => k.accessError pc ad
      | .remote =>
        if buffered ad && !acq then
          match k.core.rlbFind ad with
          | some e =>
            done { k with core := (k.core.rlbTouch e).count rSP_RLBHIT 1 } (linePart e.line (field ad 0 6) n)
          | none =>
            match k.core.freeSlot 0 8 with
            | none => k.stall
            | some _ => K.remoteLoad { k with core := k.core.count rSP_RLBMISS 1 } d ad n true false pc
        else k.remoteLoad d ad n false acq pc)

/-- A store updates the buffer's copy of its line when it issues, and no fetch under way may enter it (R126, R129). -/
def Core.rlbStore (k : Core) (a : DWord) (n : Nat) (v : DWord) : Core :=
  let k1 := k.noFill a
  match k1.rlbFind a with
  | none => k1
  | some e =>
    let m := 2 ^ (8 * n) - 1
    let sh := 8 * field a 0 6
    let line := (e.line &&& ~~~ (BitVec.ofNat 512 (m * 2 ^ sh))) ||| BitVec.ofNat 512 (v.toNat % 2 ^ (8 * n) * 2 ^ sh)
    k1.rlbTouch { e with line := line }

/-- A store of the `n` low bytes of s[src] (R45). -/
def store (src a : SReg) (imm : BitVec 16) (n : Nat) (pc : Nat) (_w : Word) (k : K) : K :=
  k.whenReady [src, a] (fun k =>
    let ad := k.core.effAddr a imm
    let v := k.core.sreg src
    if !aligned ad n then k.misaligned pc ad
    else match addrClass k.c ad with
      | .pad off =>
        if padSize ≤ off then k.accessError pc ad
        else if k.core.padHeld off || k.core.hazard k.core.num [] [off] then k.stallBank off
        else
          let r := k.writeBytes agSEQ none off (storeBytes v n)
          if r.2 then r.1.advance else r.1.accessError pc ad
      | .ownReg off =>
        if n < 4 then k.accessError pc ad
        else
          let r := if n = 4 then k.writeReg off (lo32 v) .own else k.writeReg8 off v .own
          match r.2 with
          | none => r.1.advance
          | some _ => r.1.accessError pc ad
      | .remote =>
        match k.core.freeSlot 0 8 with
        | none => k.stall
        | some i =>
          let k1 := K.take { k with core := if buffered ad then k.core.rlbStore ad n v else k.core } i (.store ad pc)
          K.advance (k1.sendTo ad (k.packet 1 (addrSpace ad) (pktOff ad) (szOf n) 0 (k.core.txid i)
            (subHead v n (pktOff ad)) [])))

def execLdB (c : CoreId) (d a : SReg) (imm : BitVec 16) (s : State) : Host.Outcome State Fault Refusal :=
  issue c (.ldB c d a imm) s (load d a imm 1 false)
def execLdH (c : CoreId) (d a : SReg) (imm : BitVec 16) (s : State) : Host.Outcome State Fault Refusal :=
  issue c (.ldH c d a imm) s (load d a imm 2 false)
def execLdW (c : CoreId) (d a : SReg) (imm : BitVec 16) (s : State) : Host.Outcome State Fault Refusal :=
  issue c (.ldW c d a imm) s (load d a imm 4 false)
def execLdD (c : CoreId) (d a : SReg) (imm : BitVec 16) (s : State) : Host.Outcome State Fault Refusal :=
  issue c (.ldD c d a imm) s (load d a imm 8 false)
def execStB (c : CoreId) (d a : SReg) (imm : BitVec 16) (s : State) : Host.Outcome State Fault Refusal :=
  issue c (.stB c d a imm) s (store d a imm 1)
def execStH (c : CoreId) (d a : SReg) (imm : BitVec 16) (s : State) : Host.Outcome State Fault Refusal :=
  issue c (.stH c d a imm) s (store d a imm 2)
def execStW (c : CoreId) (d a : SReg) (imm : BitVec 16) (s : State) : Host.Outcome State Fault Refusal :=
  issue c (.stW c d a imm) s (store d a imm 4)
def execStD (c : CoreId) (d a : SReg) (imm : BitVec 16) (s : State) : Host.Outcome State Fault Refusal :=
  issue c (.stD c d a imm) s (store d a imm 8)
def execLdAcq (c : CoreId) (d a : SReg) (imm : BitVec 16) (s : State) : Host.Outcome State Fault Refusal :=
  issue c (.ldAcq c d a imm) s (load d a imm 8 true)

/-- ST.REL behaves as FENCE.REL followed by a 64-bit store (R132). -/
def execStRel (c : CoreId) (d a : SReg) (imm : BitVec 16) (s : State) : Host.Outcome State Fault Refusal :=
  issue c (.stRel c d a imm) s (fun pc w k => if k.core.released then store d a imm 8 pc w k else k.stall)

/-- FENCE.ACQ waits for every earlier load and then invalidates the buffer (R131). -/
def execFenceAcq (c : CoreId) (s : State) : Host.Outcome State Fault Refusal :=
  issue c (.fenceAcq c) s (fun _ _ k =>
    if k.core.loadsPending then k.stall else K.advance { k with core := k.core.rlbClear })

/-- FENCE.REL waits until every write the core issued has taken effect (R132). -/
def execFenceRel (c : CoreId) (s : State) : Host.Outcome State Fault Refusal :=
  issue c (.fenceRel c) s (fun _ _ k => if k.core.released then k.advance else k.stall)

/-- FENCE with imm 3 waits for both and then invalidates the buffer (R133). -/
def execFence (c : CoreId) (s : State) : Host.Outcome State Fault Refusal :=
  issue c (.fence c) s (fun _ _ k =>
    if k.core.released && !k.core.loadsPending then K.advance { k with core := k.core.rlbClear } else k.stall)

/-- CSRR reads a register of the core's own block at an unsigned byte offset (R43, R16). -/
def execCsrr (c : CoreId) (d : SReg) (off : BitVec 16) (s : State) : Host.Outcome State Fault Refusal :=
  issue c (.csrr c d off) s (fun pc _ k => k.whenReady [d] (fun k =>
    let ad := mkAddr 1 k.c off.toNat
    if off.toNat % 4 ≠ 0 then k.misaligned pc ad
    else match k.readReg off.toNat with
      | (k1, some v) => K.advance { k1 with core := k1.core.setS d (v.setWidth 64) }
      | (_, none) => k.accessError pc ad))

/-- CSRW writes the low 32 bits of s[d] (R43, R16). -/
def execCsrw (c : CoreId) (d : SReg) (off : BitVec 16) (s : State) : Host.Outcome State Fault Refusal :=
  issue c (.csrw c d off) s (fun pc _ k => k.whenReady [d] (fun k =>
    let ad := mkAddr 1 k.c off.toNat
    if off.toNat % 4 ≠ 0 then k.misaligned pc ad
    else
      let r := k.writeReg off.toNat (lo32 (k.core.sreg d)) .own
      match r.2 with
      | none => r.1.advance
      | some _ => r.1.accessError pc ad))

end Sys2Proof.Machine
end

