-- ==== Sys2Proof/Machine/Sha.lean ====
section
/-! DEFINITION. The digest engine: SHA-384 of FIPS 180-4 over bytes, and content-defined chunking (R66 to R69). The constants
are those of FIPS 180-4, which the specification names and does not print (log entry 20). -/

namespace Sys2Proof.Machine

def shaK0 : List DWord :=
  [0x428A2F98D728AE22, 0x7137449123EF65CD, 0xB5C0FBCFEC4D3B2F, 0xE9B5DBA58189DBBC,
   0x3956C25BF348B538, 0x59F111F1B605D019, 0x923F82A4AF194F9B, 0xAB1C5ED5DA6D8118,
   0xD807AA98A3030242, 0x12835B0145706FBE, 0x243185BE4EE4B28C, 0x550C7DC3D5FFB4E2,
   0x72BE5D74F27B896F, 0x80DEB1FE3B1696B1, 0x9BDC06A725C71235, 0xC19BF174CF692694,
   0xE49B69C19EF14AD2, 0xEFBE4786384F25E3, 0x0FC19DC68B8CD5B5, 0x240CA1CC77AC9C65]

def shaK1 : List DWord :=
  [0x2DE92C6F592B0275, 0x4A7484AA6EA6E483, 0x5CB0A9DCBD41FBD4, 0x76F988DA831153B5,
   0x983E5152EE66DFAB, 0xA831C66D2DB43210, 0xB00327C898FB213F, 0xBF597FC7BEEF0EE4,
   0xC6E00BF33DA88FC2, 0xD5A79147930AA725, 0x06CA6351E003826F, 0x142929670A0E6E70,
   0x27B70A8546D22FFC, 0x2E1B21385C26C926, 0x4D2C6DFC5AC42AED, 0x53380D139D95B3DF,
   0x650A73548BAF63DE, 0x766A0ABB3C77B2A8, 0x81C2C92E47EDAEE6, 0x92722C851482353B]

def shaK2 : List DWord :=
  [0xA2BFE8A14CF10364, 0xA81A664BBC423001, 0xC24B8B70D0F89791, 0xC76C51A30654BE30,
   0xD192E819D6EF5218, 0xD69906245565A910, 0xF40E35855771202A, 0x106AA07032BBD1B8,
   0x19A4C116B8D2D0C8, 0x1E376C085141AB53, 0x2748774CDF8EEB99, 0x34B0BCB5E19B48A8,
   0x391C0CB3C5C95A63, 0x4ED8AA4AE3418ACB, 0x5B9CCA4F7763E373, 0x682E6FF3D6B2B8A3,
   0x748F82EE5DEFB2FC, 0x78A5636F43172F60, 0x84C87814A1F0AB72, 0x8CC702081A6439EC]

def shaK3 : List DWord :=
  [0x90BEFFFA23631E28, 0xA4506CEBDE82BDE9, 0xBEF9A3F7B2C67915, 0xC67178F2E372532B,
   0xCA273ECEEA26619C, 0xD186B8C721C0C207, 0xEADA7DD6CDE0EB1E, 0xF57D4F7FEE6ED178,
   0x06F067AA72176FBA, 0x0A637DC5A2C898A6, 0x113F9804BEF90DAE, 0x1B710B35131C471B,
   0x28DB77F523047D84, 0x32CAAB7B40C72493, 0x3C9EBE0A15C9BEBC, 0x431D67C49C100D4C,
   0x4CC5D4BECB3E42B6, 0x597F299CFC657E2A, 0x5FCB6FAB3AD6FAEC, 0x6C44198C4A475817]

/-- The round constants of SHA-384. -/
def shaK : List DWord := shaK0 ++ shaK1 ++ shaK2 ++ shaK3

/-- The initial hash value of SHA-384. -/
def shaInit : List DWord :=
  [0xCBBB9D5DC1059ED8, 0x629A292A367CD507, 0x9159015A3070DD17, 0x152FECD8F70E5939,
   0x67332667FFC00B31, 0x8EB44A8768581511, 0xDB0C2E0D64F98FA7, 0x47B5481DBEFA4FA4]

/-- The working variables of a round and the window of the last sixteen words of the schedule, oldest first. -/
structure ShaRound where
  v : List DWord
  window : List DWord

/-- One round. -/
def shaRound (r : ShaRound) (k : DWord) : ShaRound :=
  match r.v, r.window with
  | [a, b, c, d, e, f, g, h], w :: rest =>
    let s1 := e.rotateRight 14 ^^^ e.rotateRight 18 ^^^ e.rotateRight 41
    let ch := (e &&& f) ^^^ (~~~e &&& g)
    let t1 := h + s1 + ch + k + w
    let s0 := a.rotateRight 28 ^^^ a.rotateRight 34 ^^^ a.rotateRight 39
    let maj := (a &&& b) ^^^ (a &&& c) ^^^ (b &&& c)
    let w1 := nth 0 rest 0
    let w14 := nth 0 rest 13
    let g0 := w1.rotateRight 1 ^^^ w1.rotateRight 8 ^^^ (w1 >>> 7)
    let g1 := w14.rotateRight 19 ^^^ w14.rotateRight 61 ^^^ (w14 >>> 6)
    { v := [t1 + (s0 + maj), a, b, c, d + t1, e, f, g], window := rest ++ [g1 + nth 0 rest 8 + g0 + w] }
  | v, w => { v := v, window := w }

/-- A big-endian word from eight bytes. -/
def beWord (bs : List Byte) : DWord := BitVec.ofNat 64 (bs.foldl (fun n b => n * 256 + b.toNat) 0)

/-- The bytes of a word, most significant first. -/
def beBytes (w : DWord) : List Byte := (leBytes 8 w.toNat).reverse

/-- One block of sixteen words. -/
def shaBlock (h : List DWord) (block : List DWord) : List DWord :=
  List.zipWith (· + ·) h (shaK.foldl shaRound { v := h, window := block }).v

/-- `n` groups of `m` elements from the front of a list. -/
def groups {α : Type} (m : Nat) : Nat → List α → List (List α)
  | 0, _ => []
  | n + 1, l => l.take m :: groups m n (l.drop m)

/-- Blocks of a message of n bytes (R66). -/
def shaBlocks (n : Nat) : Nat := (n + 17 + 127) / 128

/-- The padded message. -/
def shaPad (m : List Byte) : List Byte :=
  m ++ [0x80] ++ List.replicate (128 * shaBlocks m.length - m.length - 17) 0
    ++ (leBytes 16 (8 * m.length)).reverse

/-- SHA-384 of a message: 48 bytes in FIPS byte order (R67). -/
def sha384 (m : List Byte) : List Byte :=
  let h := (groups 128 (shaBlocks m.length) (shaPad m)).foldl
    (fun h blk => shaBlock h ((groups 8 16 blk).map beWord)) shaInit
  (h.take 6).flatMap beBytes

/-- An entry of the gear table (R68). -/
def gear (v : Byte) : DWord := BitVec.ofNat 64 (leNat ((sha384 [v]).take 8))

/-- A chunk: its bytes and whether MAX forced its end. -/
structure Chunk where
  bytes : List Byte
  forced : Bool

/-- The chunks of a range (R68): `cur` holds the bytes of the open chunk in reverse, `len` their number, `h` the rolling
hash. A cut by the hash is not a cut forced by MAX. -/
def chunksOf (min max bits : Nat) : List Byte → List Byte → Nat → DWord → List Chunk
  | [], [], _, _ => []
  | [], cur, _, _ => [{ bytes := cur.reverse, forced := false }]
  | v :: t, cur, len, h =>
    let h1 := (h <<< 1) + gear v
    if min ≤ len + 1 ∧ h1.toNat < 2 ^ (64 - bits) then
      { bytes := (v :: cur).reverse, forced := false } :: chunksOf min max bits t [] 0 0
    else if max ≤ len + 1 then
      { bytes := (v :: cur).reverse, forced := true } :: chunksOf min max bits t [] 0 0
    else chunksOf min max bits t (v :: cur) (len + 1) h1

/-- A line that holds a digest, two values and zeros (R67, R69). -/
def digestLine (m : List Byte) (v : Nat) (w x : Nat) : Line :=
  Line.ofBytes (sha384 m ++ leBytes 8 v ++ leBytes 4 w ++ leBytes 4 x)

/-- The records of a CHUNK command (R69): `off` is the offset of the next chunk, `room` the records still allowed. -/
def chunkRecords : Nat → Nat → List Chunk → List Line
  | _, _, [] => []
  | _, 0, _ => []
  | off, room + 1, c :: t =>
    let flags := (if t.isEmpty then 1 else 0) + (if c.forced then 2 else 0) + (if room = 0 ∧ !t.isEmpty then 4 else 0)
    digestLine c.bytes off c.bytes.length flags :: chunkRecords (off + c.bytes.length) room t

end Sys2Proof.Machine
end

