-- ==== Sys2Proof/Machine/Mover.lean ====
section
/-! DEFINITION. The mover and the digest engine: descriptors, MVQ and MVW, the start of a command, the lines it moves and its
end (R60 to R70). -/

namespace Sys2Proof.Machine

/-! ### Descriptors (R61, R62) -/

abbrev mvCOPY : Nat := 1
abbrev mvFILL : Nat := 2
abbrev mvDIGEST : Nat := 3
abbrev mvCHUNK : Nat := 4

def MvCmd.op (m : MvCmd) : Nat := field m.desc 0 4
def MvCmd.rel (m : MvCmd) : Bool := m.desc.getLsbD 6
def MvCmd.acq (m : MvCmd) : Bool := m.desc.getLsbD 7
def MvCmd.sync (m : MvCmd) : Nat := field m.desc 9 5
def MvCmd.syncEn (m : MvCmd) : Bool := m.desc.getLsbD 14
def MvCmd.rows (m : MvCmd) : Nat := field m.desc 16 16
def MvCmd.length (m : MvCmd) : Nat := field m.desc 32 32
def MvCmd.src (m : MvCmd) : DWord := m.desc.extractLsb' 64 64
def MvCmd.dst (m : MvCmd) : DWord := m.desc.extractLsb' 128 64
def MvCmd.sstride (m : MvCmd) : Nat := field m.desc 192 32
def MvCmd.dstride (m : MvCmd) : Nat := field m.desc 224 32

/-- An address in the core's own scratchpad (R62). -/
def inPad (c : CoreId) (a : DWord) : Bool := isOwnSpad c a && addrOff40 a < padSize

/-- The constraints of the operation, and reserved bits at 0 (R61, R62). -/
def MvCmd.valid (m : MvCmd) (c : CoreId) : Bool :=
  field m.desc 15 1 == 0 && field m.desc 8 1 == 0 && field m.desc 4 2 == 0 && m.rows != 0 &&
    match m.op with
    | 1 => m.length != 0 && m.length % 64 == 0 && aligned m.src 64 && aligned m.dst 64 && (inPad c m.src || inPad c m.dst)
    | 2 => m.length != 0 && m.length % 64 == 0 && aligned m.dst 64
    | 3 => aligned m.src 64 && aligned m.dst 64 && inPad c m.dst
    | 4 => m.rows == 1 && m.length != 0 && 1 ≤ m.sstride % 65536 && m.sstride % 65536 ≤ m.sstride / 65536
        && 8 ≤ m.dstride % 256 && m.dstride % 256 ≤ 24 && m.dstride / 256 % 256 == 0 && 1 ≤ m.dstride / 65536
        && aligned m.src 64 && aligned m.dst 64 && inPad c m.dst
    | _ => false

/-! ### The pieces of a command -/

/-- Lines that a command moves in one transaction: where from, where to, how many, and the number of the first of them. -/
structure MvPiece where
  src : DWord
  dst : DWord
  n : Nat
  idx : Nat
deriving DecidableEq, Repr

/-- The pieces of a row of `left` lines: up to four lines each; a transaction to space 2 never crosses an aligned 256 B
boundary (R64, R267). -/
def rowPieces (split : DWord → DWord → Nat) : Nat → DWord → DWord → Nat → Nat → List MvPiece
  | 0, _, _, _, _ => []
  | fuel + 1, s, d, idx, left =>
    if left = 0 then []
    else
      let n := min left (split s d)
      let b := BitVec.ofNat 64 (64 * n)
      { src := s, dst := d, n := n, idx := idx } :: rowPieces split fuel (s + b) (d + b) (idx + n) (left - n)

/-- Lines up to the next aligned 256 B boundary, in space 2; elsewhere four (R64, R267). -/
def upTo256 (a : DWord) : Nat := if addrSpace a = 2 then 4 - field a 6 2 else 4

/-- How far a piece reaches at a source and a destination: one line where nothing goes over the network (R64). -/
def MvCmd.split (m : MvCmd) (c : CoreId) (s d : DWord) : Nat :=
  match m.op with
  | 1 => if isOwnSpad c s then (if isOwnSpad c d then 1 else upTo256 d) else upTo256 s
  | 2 => if isOwnSpad c d then 1 else upTo256 d
  | _ => if isOwnSpad c s then 1 else upTo256 s

/-- Lines of a row. -/
def MvCmd.rowLines (m : MvCmd) : Nat := (m.length + 63) / 64

/-- The pieces of a command, in ascending address order, row by row (R63). -/
def MvCmd.pieces (m : MvCmd) (c : CoreId) : List MvPiece :=
  (List.range m.rows).flatMap (fun r =>
    let s := if m.op = mvFILL then 0 else m.src + BitVec.ofNat 64 (64 * r * (if m.op = mvCHUNK then 0 else m.sstride))
    let d := m.dst + BitVec.ofNat 64 (64 * r * (if 3 ≤ m.op then 0 else m.dstride))
    rowPieces (m.split c) m.rowLines s d (r * m.rowLines) m.rowLines)

def noPiece : MvPiece := { src := 0, dst := 0, n := 0, idx := 0 }

/-! ### Records of the mover -/

/-- A mover error: recorded unless a record stands, and reported (R62, R65, R76). -/
def K.mvError (k : K) (kind : Nat) (seq : BitVec 16) (addr : DWord) : K :=
  let c := k.core
  let c1 := if (c.reg rMV_ERR).getLsbD 31 then c
    else { c with regs := setPair (c.regs.set rMV_ERR (place 32 31 1 1 ||| place 32 16 8 kind ||| place 32 0 16 seq.toNat))
                            rMV_ERRADDR addr }
  K.report { k with core := c1 } 3 kind seq.toNat (addr48 addr)

/-- Lines moved are counted (R76, R347). -/
def K.mvMoved (k : K) (n : Nat) : K := { k with core := (k.core.count rMV_LINES n).count rPWC_MVL n }

/-- The command keeps its first failing address and issues no further lines (R65). -/
def K.mvFail (k : K) (addr : DWord) : K :=
  { k with core := { k.core with mvAct := k.core.mvAct.map (fun a =>
      { a with stopped := true, err := match a.err with
          | none => some (0x1A, addr)
          | e => e }) } }

/-- Network transactions of the mover outstanding (R64). -/
def Core.mvOutst (k : Core) : Nat := k.slotsUsed 8 56

/-- Lines the mover has written to the own scratchpad are not yet in their banks (R63, R123). -/
def Core.mvWrites (k : Core) : Bool := k.lineWr.any (fun w => w.agent == agMV)

/-- The mover cannot access a line of the own scratchpad now: its bank is held, or an earlier write of the mover to it is on its way (R109,
R129). -/
def Core.mvHeld (k : Core) (off : Nat) : Bool :=
  k.padHeld off || k.lineWr.any (fun w => w.agent == agMV && w.off / 64 == off / 64)

/-! ### The end of a command (R60, R63, R65) -/

/-- The command completes: MV_DONE advances, its sync counter is incremented and with ACQ the buffer is invalidated (R63). -/
def K.mvComplete (k : K) (m : MvCmd) : K :=
  let c1 := { k.core with mvAct := none }.count rMV_DONE 1
  let k1 : K := { k with core := if m.acq then c1.rlbClear else c1 }
  let k2 := if m.syncEn then
      let lo := rSY_CNT + 8 * m.sync
      K.wroteCounter { k1 with core := { k1.core with regs := setPair k1.core.regs lo (pairAt k1.core.regs lo + 1) } } m.sync
    else k1
  k2.progressed

/-- The command ends without completing: after an error with MV_ERR and kind 0x1A (R65), after an abort without either
(R218). -/
def K.mvEndBad (k : K) (a : MvActive) : K :=
  let k1 : K := { k with core := { k.core with mvAct := none } }
  match a.err with
  | some (kind, addr) => k1.mvError kind.toNat a.cmd.seq addr
  | none => k1

/-! ### Moving lines -/

/-- Lines read from the own scratchpad by the mover, one after the other, up to the first line error (R65, R112, R116). -/
def K.mvReadPad (k : K) (a : DWord) : Nat → K × List Line
  | 0 => (k, [])
  | n + 1 =>
    if padSize ≤ addrOff40 a then (k.mvFail a, [])
    else
      let r := k.readLine agMV none (addrOff40 a)
      match r.2.2 with
      | .good =>
        let q := K.mvReadPad r.1 (a + 64) n
        (q.1, r.2.1 :: q.2)
      | _ => (r.1.mvFail a, [])

/-- Lines written to the own scratchpad by the mover for command `num`, up to the first line error (R65, R112); they reach their banks in
later cycles. -/
def K.mvWritePad (k : K) (num : Nat) (a : DWord) : List Line → K
  | [] => k
  | l :: t =>
    if padSize ≤ addrOff40 a then k.mvFail a
    else
      let r := k.queueBytes agMV num (addrOff40 a) (Line.bytes l)
      if r.2 then K.mvWritePad (r.1.mvMoved 1) num (a + 64) t else r.1.mvFail a

/-- Lines kept for the digest engine (R66). -/
def K.mvKeep (k : K) (idx : Nat) (ls : List Line) : K :=
  { k with core := { k.core with mvAct := k.core.mvAct.map (fun a =>
      { a with data := (List.range ls.length).foldl (fun d i => SMap.set d (idx + i) (nth 0 ls i)) a.data }) } }

/-- A mover line sent to a line of the remote-line buffer invalidates that entry (R126). -/
def K.mvDrop (k : K) (a : DWord) (n : Nat) : K :=
  { k with core := (List.range n).foldl (fun c i => c.rlbDrop (a + BitVec.ofNat 64 (64 * i))) k.core }

/-- A read of a piece leaves for the network. -/
def K.mvSendRead (k : K) (slot i : Nat) (p : MvPiece) : K :=
  let k1 := k.take slot (.mvRead p.src i p.n)
  k1.sendTo p.src (k.packet 0 (addrSpace p.src) (pktOff p.src) (p.n + 3) 0 (k.core.txid slot) 0 [])

/-- A write of a piece leaves for the network. -/
def K.mvSendWrite (k : K) (slot : Nat) (p : MvPiece) (ls : List Line) : K :=
  let k1 := (k.mvDrop p.dst p.n).take slot (.mvWrite p.dst p.n)
  k1.sendTo p.dst (k.packet 1 (addrSpace p.dst) (pktOff p.dst) (p.n + 3) p.n (k.core.txid slot) 0 ls)

/-- The pattern of a FILL, repeated (R61, R62). -/
def fillLine (m : MvCmd) : Line := lineOfWords (List.replicate 8 m.src)

/-- One piece of the command, once a transaction slot is free where it needs one. -/
def K.mvPiece (k : K) (m : MvCmd) (i : Nat) (p : MvPiece) (slot : Nat) : K :=
  if m.op ≠ mvFILL ∧ !isOwnSpad k.c p.src then k.mvSendRead slot i p
  else
    let r : K × List Line :=
      if m.op = mvFILL then (k, List.replicate p.n (fillLine m)) else k.mvReadPad p.src p.n
    if r.2.length < p.n then r.1
    else if 3 ≤ m.op then (r.1.mvKeep p.idx r.2).mvMoved p.n
    else if isOwnSpad k.c p.dst then r.1.mvWritePad m.num p.dst r.2
    else r.1.mvSendWrite slot p r.2

/-- A piece uses the network. -/
def MvCmd.remote (m : MvCmd) (c : CoreId) (p : MvPiece) : Bool :=
  (m.op != mvFILL && !isOwnSpad c p.src) || (m.op ≤ 2 && !isOwnSpad c p.dst)

/-- A line of the own scratchpad that a piece reads cannot be read now. -/
def Core.pieceHeld (k : Core) (c : CoreId) (m : MvCmd) (p : MvPiece) : Bool :=
  m.op != mvFILL && isOwnSpad c p.src && (List.range p.n).any (fun i => k.mvHeld (addrOff40 p.src + 64 * i))

/-- Pieces issue in order until a slot is wanting, a line is held, the command is stopped or none is left (R63 to R65, R109). -/
def K.mvIssue (k : K) (m : MvCmd) : List MvPiece → Nat → K
  | [], _ => k
  | p :: t, i =>
    match k.core.mvAct with
    | none => k
    | some a =>
      if a.stopped || k.core.pieceHeld k.c m p then k
      else
        match k.core.freeSlot 8 56 with
        | none => if m.remote k.c p then k else K.mvIssue ((advanceTo k (i + 1)).mvPiece m i p 8) m t (i + 1)
        | some slot => K.mvIssue ((advanceTo k (i + 1)).mvPiece m i p slot) m t (i + 1)
where
  /-- The number of the piece that issues next. -/
  advanceTo (k : K) (n : Nat) : K :=
    { k with core := { k.core with mvAct := k.core.mvAct.map (fun a => { a with next := n }) } }

/-- Every line of the command has issued. -/
def MvActive.issued (a : MvActive) (c : CoreId) : Bool := (a.cmd.pieces c).length ≤ a.next

/-- The command needs no LOCAL_MOVER_COMPLETION: a COPY or a FILL over the network (R63). -/
def MvCmd.networked (m : MvCmd) (c : CoreId) : Bool :=
  m.op ≤ 2 && (m.pieces c).any (m.remote c)

/-- The mover goes on after a line's answer, and when its last line is in its bank: further pieces issue, and a command over the network, or
one whose output has left the digest engine, ends with its last line (R63, R65, R67). -/
def K.mvGoOn (k : K) : K :=
  match k.core.mvAct with
  | none => k
  | some a =>
    let k1 := if a.stopped then k else k.mvIssue a.cmd ((a.cmd.pieces k.c).drop a.next) a.next
    match k1.core.mvAct with
    | none => k1
    | some b =>
      if 0 < k1.core.mvOutst || k1.core.mvWrites then k1
      else if b.stopped then (if b.err.isSome then k1.mvEndBad b else k1)
      else if b.issued k.c && (b.cmd.networked k.c || b.sent) then k1.mvComplete b.cmd
      else k1

/-! ### Answers to the mover's transactions -/

/-- Read data of piece `i` has arrived (R62, R66). -/
def K.mvArrived (k : K) (i : Nat) (ls : List Line) : K :=
  match k.core.mvAct with
  | none => k
  | some a =>
    let p := nth noPiece (a.cmd.pieces k.c) i
    if 3 ≤ a.cmd.op then (k.mvKeep p.idx ls).mvMoved ls.length
    else k.mvWritePad a.cmd.num p.dst ls

/-! ### Instructions (R60) -/

/-- What a command with REL waits for before its first line (R63, R132): every write the core has issued by then; of the mover's own, those
of earlier commands are complete. -/
def Core.mvReleased (k : Core) : Bool :=
  !k.storesPending && k.vecQ.isEmpty && k.matQ.isEmpty && k.steps.isEmpty && k.lineWr.isEmpty

/-- Every write that the engines had retired when a command's MVQ issued stands in its bank, where the command's reads observe it (R63). -/
def Core.mvSees (k : Core) (m : MvCmd) : Bool := k.lineWr.all (fun w => m.num ≤ w.num)

/-- MVQ captures a descriptor and enqueues it; at 16 incomplete commands it stalls (R60). An address outside the own
scratchpad is kind 0x55; of one that is also misaligned, that is reported (DESIGN CHOICE, log entry 15). -/
def mvqBody (a : SReg) (imm : BitVec 16) (pc : Nat) (_w : Word) (k : K) : K :=
  k.whenReady [a] (fun k =>
    let ad := k.core.effAddr a imm
    let off := addrOff40 ad
    if !aligned ad 32 then k.misaligned pc ad
    else if !inPad k.c ad then k.execFault 0 0x55 pc pc (addr48 ad)
    else if 16 ≤ k.core.mvIncomplete then k.stall
    else if k.core.padHeld off || k.core.hazard k.core.num [off] [] then k.stallBank off
    else
      let r := k.readLine agSEQ none off
      match r.2.2 with
      | .refused => r.1.accessError pc ad
      | _ =>
        let c := r.1.core
        let m : MvCmd := { desc := r.2.1.extractLsb' (8 * (off % 64)) 256, descAddr := ad, seq := c.mvSeq, pc := pc,
                           tag := c.runTag, num := c.num }
        K.advance { r.1 with core := { c with mvQ := c.mvQ ++ [m], mvSeq := c.mvSeq + 1, num := c.num + 1 } })

def execMvq (c : CoreId) (a : SReg) (imm : BitVec 16) (s : State) : Host.Outcome State Fault Refusal :=
  issue c (.mvq c a imm) s (mvqBody a imm)

/-- MVW stalls until no more than imm16 commands remain incomplete (R60). -/
def execMvw (c : CoreId) (imm : BitVec 16) (s : State) : Host.Outcome State Fault Refusal :=
  issue c (.mvw c imm) s (fun _ _ k => if k.core.mvIncomplete ≤ imm.toNat then k.advance else k.stall)

/-! ### Commands of the mover (R62 to R69) -/

/-- The mover takes the command at the head of its queue when it is of operation `op`, or of a value that names none: an
invalid descriptor is recorded and moves nothing (R62); a command with REL waits for earlier writes (R63); its first lines
issue (R63, R64). -/
def mvStart (op : Nat) (k : K) : K :=
  match k.core.mvAct, k.core.mvQ with
  | none, m :: rest =>
    if m.op ≠ op ∧ 1 ≤ m.op ∧ m.op ≤ 4 then k
    else if !m.valid k.c then
      K.mvError { k with core := { k.core with mvQ := rest } } 0x1B m.seq m.descAddr
    else if !k.core.mvSees m || (m.rel && !k.core.mvReleased) then k
    else
      K.mvGoOn { k with core := { k.core with
        mvQ := rest, mvAct := some { cmd := m, next := 0, err := none, stopped := false, data := [], sent := false } } }
  | _, _ => k

def execCopy (c : CoreId) (s : State) : Host.Outcome State Fault Refusal := .next (onLive c s (mvStart mvCOPY))
def execFill (c : CoreId) (s : State) : Host.Outcome State Fault Refusal := .next (onLive c s (mvStart mvFILL))
def execDigest (c : CoreId) (s : State) : Host.Outcome State Fault Refusal := .next (onLive c s (mvStart mvDIGEST))
def execChunk (c : CoreId) (s : State) : Host.Outcome State Fault Refusal := .next (onLive c s (mvStart mvCHUNK))

/-- The bytes of the rows the mover has read, row by row (R67). -/
def MvActive.message (a : MvActive) : List Byte :=
  (List.range a.cmd.rows).flatMap (fun r =>
    ((List.range a.cmd.rowLines).flatMap (fun i =>
      Line.bytes (SMap.get 0 a.data (r * a.cmd.rowLines + i)))).take a.cmd.length)

/-- The lines a DIGEST or CHUNK command writes, and the lengths of the messages it hashed (R67 to R69). -/
def MvActive.output (a : MvActive) : List Line × List Nat :=
  let m := a.message
  if a.cmd.op = mvDIGEST then ([digestLine m m.length 0 0], [m.length])
  else
    let cs := chunksOf (64 * (a.cmd.sstride % 65536)) (64 * (a.cmd.sstride / 65536)) (a.cmd.dstride % 256) m [] 0 0
    let cap := a.cmd.dstride / 65536
    (chunkRecords 0 cap cs, (cs.take cap).map (fun c => c.bytes.length))

/-- Bytes and blocks hashed are counted (R76, R347). -/
def K.mvHashed (k : K) (ns : List Nat) : K :=
  { k with core := (k.core.count rMV_DGBYTES ns.sum).count rPWC_DGB ((ns.map shaBlocks).sum) }

/-- Output lines of a digest are written from DST in order (R67, R69). -/
def K.mvOutput (k : K) (num : Nat) (a : DWord) : List Line → K
  | [] => k
  | l :: t =>
    if padSize ≤ addrOff40 a then k.mvFail a
    else
      let r := k.queueBytes agMV num (addrOff40 a) (Line.bytes l)
      if r.2 then K.mvOutput r.1 num (a + 64) t else r.1.mvFail a

/-- The digest engine has hashed a command's lines and its output leaves (R67 to R69). -/
def K.mvDigest (k : K) (a : MvActive) : K :=
  let out := a.output
  let k1 : K := { k with core := { k.core with mvAct := some { a with sent := true } } }
  ((k1.mvHashed out.2).mvOutput a.cmd.num a.cmd.dst out.1).mvGoOn

/-- LOCAL_MOVER_COMPLETION (R63, R67 to R71): the executing command has no line outstanding and ends, or its digest leaves; a command held up
goes on. A running weights scan holds the digest engine. -/
def execLocalMoverCompletion (c : CoreId) (s : State) : Host.Outcome State Fault Refusal :=
  .next (onLive c s (fun k =>
    match k.core.mvAct with
    | none => k
    | some a =>
      if 0 < k.core.mvOutst || k.core.mvWrites then k
      else if a.stopped then k.mvEndBad a
      else if !a.issued k.c then k.mvGoOn
      else if a.cmd.op ≤ 2 || a.sent then k.mvComplete a.cmd
      else if k.core.scan.isSome then k
      else k.mvDigest a))

/-- A cycle in which the mover's next line waits for a bank that is held (R109). -/
def Core.mvTick (k : Core) (c : CoreId) : Core :=
  match k.mvAct with
  | none => k
  | some a =>
    if a.stopped || (k.recode == 0 && !k.zeroing) then k
    else
      match (a.cmd.pieces c).drop a.next with
      | [] => k
      | p :: _ =>
        if a.cmd.op != mvFILL && isOwnSpad c p.src && k.padHeld (addrOff40 p.src) then
          k.count (bankWait (addrOff40 p.src)) 1
        else k

end Sys2Proof.Machine
end

