-- ==== Sys2Proof/Machine/Packets.lean ====
section
/-! DEFINITION. Packets as their flits carry them: the header, the sideband and the CRC of every flit, and what a receiver makes of a flit
(R141 to R145, R154, R167). -/

namespace Sys2Proof.Machine

/-! ### Packets (R142, R145) -/

/-- The operation, its size and its data agree (R145). -/
def Packet.valid (p : Packet) : Bool :=
  let sub := p.sz.toNat ≤ 3
  let len0 := p.len == 0
  let lens := p.len.toNat + 3 == p.sz.toNat && 1 ≤ p.len.toNat
  p.rclass != 3 &&
    match p.op.toNat with
    | 0 => len0
    | 1 => (sub && len0) || lens
    | 2 => p.sz == 3 && len0
    | 3 => p.sz == 4 && p.len == 1
    | 4 => sub && len0
    | 5 => p.sz == 3 && len0
    | 6 => lens
    | 7 => (sub && len0) || lens
    | 8 => p.sz == 4 && p.len == 1
    | 9 => (sub && len0) || lens
    | 10 => p.sz == 0 && len0
    | 11 => p.sz == 0 && len0
    | _ => false

/-- A request that expects an answer (R145). -/
def Packet.expectsAnswer (p : Packet) : Bool := p.op.toNat ≤ 2 || p.op == 7

/-- A multicast packet. -/
def Packet.multicast (p : Packet) : Bool := p.op == 7 || p.op == 8

/-- Flits of a packet (R142). -/
def Packet.flits (p : Packet) : Nat := 1 + p.lines.length

/-! ### Flits (R141, R143) -/

/-- An endpoint as its 21 bits, and back (R144). -/
def epField (e : Endpoint) : BitVec 21 := BitVec.ofNat 21 (epBits e)
def endpointOf (b : BitVec 21) : Endpoint := { ext := b.getLsbD 20, py := b.extractLsb' 10 10, px := b.extractLsb' 0 10 }

/-- The header, bytes 0 to 15 of the head flit (R143). -/
def Packet.header (p : Packet) : BitVec 128 :=
  p.aux ++ p.off ++ p.space ++ epField p.src ++ epField p.dst ++ p.wpy ++ p.rclass ++ p.txid ++ p.sz ++ p.len ++ p.op

/-- A flit: 64 bytes of data and 8 of sideband (R140). -/
structure Flit where
  data : Line
  side : DWord
deriving DecidableEq, Repr

/-- The CRC of a flit, over its data and the sideband below the CRC (R141). -/
def Flit.crc (f : Flit) : BitVec 16 := crc16 (Line.bytes f.data ++ leBytes 6 f.side.toNat)

/-- A flit fails its check (R167). -/
def Flit.fails (f : Flit) : Bool := f.crc != f.side.extractLsb' 48 16

/-- The KIND of flit `n` (R141): head, body, tail, or both head and tail. -/
def Packet.kind (p : Packet) (n : Nat) : BitVec 2 := if n + 1 = p.flits then (if n = 0 then 3 else 2) else if n = 0 then 0 else 1

/-- Flit `n` of a packet on a VC, as its sender puts it on the link (R141, R142). -/
def Packet.flit (p : Packet) (vc n : Nat) : Flit :=
  let data : Line := if n = 0 then p.head ++ p.header else nth 0 p.lines (n - 1)
  let last := decide (n + 1 = p.flits)
  let low : BitVec 48 := p.pid ++ BitVec.ofBool p.sys ++ p.kind n ++ BitVec.ofNat 2 vc ++ BitVec.ofBool (p.killed && last) ++ (0 : BitVec 38)
  { data := data, side := (Flit.crc { data := data, side := low.setWidth 64 }) ++ low }

/-- The packet a receiver assembles when flit `n` reaches it as `f`: the fields of the head, or one line of data, and KILL of the tail. -/
def Packet.withFlit (p : Packet) (n : Nat) (f : Flit) : Packet :=
  let q : Packet :=
    if n = 0 then
      let h : BitVec 128 := f.data.extractLsb' 0 128
      { p with
        head := f.data.extractLsb' 128 384, aux := h.extractLsb' 120 8, off := h.extractLsb' 76 44, space := h.extractLsb' 72 4
        src := endpointOf (h.extractLsb' 51 21), dst := endpointOf (h.extractLsb' 30 21), wpy := h.extractLsb' 20 10
        rclass := h.extractLsb' 18 2, txid := h.extractLsb' 10 8, sz := h.extractLsb' 7 3, len := h.extractLsb' 4 3
        op := h.extractLsb' 0 4, pid := f.side.extractLsb' 44 4, sys := f.side.getLsbD 43 }
    else { p with lines := p.lines.set (n - 1) f.data }
  if n + 1 = p.flits then { q with killed := f.side.getLsbD 38 } else q

/-- The packet that goes on when flit `n`, not the head, fails: the flits before it and a tail with KILL and zero data (R167). -/
def Packet.kill (p : Packet) (n : Nat) : Packet := { p with killed := true, lines := p.lines.take (n - 1) ++ [0] }

/-- What a receiver finds in a packet's flits: a packet, or the number of the flit that fails. -/
inductive Received where
  | whole (p : Packet)
  | fails (n : Nat)
deriving DecidableEq, Repr

/-- The flits of a packet as they arrive, with `bad` naming one that a link has changed and the bits changed, data below sideband. A change
that the CRC does not see goes through (R141, R167). -/
def Packet.receive (p : Packet) (vc : Nat) : Option (Nat × BitVec 576) → Received
  | none => .whole p
  | some (n, e) =>
    if p.flits ≤ n then .whole p
    else
      let f := p.flit vc n
      let g : Flit := { data := f.data ^^^ e.extractLsb' 0 512, side := f.side ^^^ e.extractLsb' 512 64 }
      if g.fails then .fails n else .whole (p.withFlit n g)

end Sys2Proof.Machine
end

