-- ==== Sys2Proof/Machine/Routing.lean ====
section
/-! DEFINITION. Routes of the mesh and the ring lines, destinations of device addresses, multicast trees and the validity of
packets (R139, R144, R145, R150 to R161, R266). -/

namespace Sys2Proof.Machine

/-! ### The multicast mask (R160) -/

def maskX0 (p : Packet) : Nat := field p.head 0 10
def maskY0 (p : Packet) : Nat := field p.head 10 10
def maskX1 (p : Packet) : Nat := field p.head 20 10
def maskY1 (p : Packet) : Nat := field p.head 30 10
def maskSX (p : Packet) : Nat := field p.head 40 6
def maskSY (p : Packet) : Nat := field p.head 46 6
def maskSkip (p : Packet) : Bool := p.head.getLsbD 52

/-- The mask is well formed. -/
def maskOk (p : Packet) : Bool :=
  maskX0 p ≤ maskX1 p && maskY0 p ≤ maskY1 p && maskX1 p ≤ 557 && maskY1 p ≤ 575 && maskSX p != 0 && maskSY p != 0

/-- A logical position is a target. -/
def maskHas (p : Packet) (x y : Nat) : Bool :=
  maskX0 p ≤ x && x ≤ maskX1 p && (x - maskX0 p) % maskSX p == 0 && maskY0 p ≤ y && y ≤ maskY1 p
    && (y - maskY0 p) % maskSY p == 0

/-- Target columns and rows. -/
def maskXs (p : Packet) : List Nat :=
  (List.range ((maskX1 p - maskX0 p) / maskSX p + 1)).map (fun i => maskX0 p + i * maskSX p)
def maskYs (p : Packet) : List Nat :=
  (List.range ((maskY1 p - maskY0 p) / maskSY p + 1)).map (fun i => maskY0 p + i * maskSY p)

/-- The number of targets. -/
def maskCount (p : Packet) : Nat := (maskXs p).length * (maskYs p).length

/-- The least and the greatest physical column that holds a target in any target row (R161). -/
def maskSpan (m : RouteMap) (p : Packet) : Nat × Nat :=
  let cols := (maskYs p).flatMap (fun y => (maskXs p).map (fun x => (physOf m.skips x y).1))
  (cols.foldl min 575, cols.foldl max 0)

/-! ### Mesh routes (R151, R159) -/

/-- Distance of two coordinates and seams between them. -/
def dist (a b : Nat) : Nat := (a - b) + (b - a)
def seams (a b : Nat) : Nat := dist (a / 64) (b / 64)

/-- One-way latency of a mesh route without contention (R159). -/
def meshLatency (ax ay bx bY : Nat) : Nat := 2 * (dist ax bx + dist ay bY) + 3 * (seams ax bx + seams ay bY)

/-- A field is dead in the route map (R150). -/
def RouteMap.deadAt (m : RouteMap) (px py : Nat) : Bool := m.dead.contains (fieldOfPhys px py)

/-- Steps of 64 from the field of one coordinate to that of another, both included. -/
def fieldsBetween (a b : Nat) : List Nat :=
  (List.range (seams a b + 1)).map (fun i => min (a / 64) (b / 64) + i)

/-- A straight leg along a row or a column meets no dead field. -/
def RouteMap.rowOpen (m : RouteMap) (ax bx y : Nat) : Bool :=
  (fieldsBetween ax bx).all (fun fx => !m.deadAt (64 * fx) y)
def RouteMap.colOpen (m : RouteMap) (x ay bY : Nat) : Bool :=
  (fieldsBetween ay bY).all (fun fy => !m.deadAt x (64 * fy))

/-- The mesh route meets no dead field (R156). -/
def RouteMap.meshOpen (m : RouteMap) (ax ay bx bY : Nat) : Bool := m.rowOpen ax bx ay && m.colOpen bx ay bY

/-- The waypoint route: along the source's column, then along the destination's row (R156). -/
def RouteMap.wayOpen (m : RouteMap) (ax ay bx bY : Nat) : Bool := m.colOpen ax ay bY && m.rowOpen ax bx bY

/-! ### Ring lines (R152 to R155) -/

/-- The ring position of a station, and the station at a position. -/
def ringPos (s : Nat) : Nat := if s % 2 = 0 then s / 2 else 36 + (71 - s) / 2
def ringStation (p : Nat) : Nat := if p < 36 then 2 * p else 71 - 2 * (p - 36)

/-- Hops of a trip (R153). -/
def ringHops (a b : Nat) : Nat := (ringPos b + 72 - ringPos a) % 72

/-- Express latency (R159) and whether every ring line it needs is in service (R156). -/
def expressLatency (ax ay bx bY : Nat) : Nat :=
  let rr := fun (v : Nat) => 8 * (v / 8) + 4
  let h1 := dist ax (rr ax) + dist ay (rr ay)
  let h2 := dist bx (rr bx) + dist bY (rr bY)
  2 * h1 + (if ax / 8 = bx / 8 then 0 else 4 + 4 * ringHops (ax / 8) (bx / 8))
    + (if ay / 8 = bY / 8 then 0 else 4 + 4 * ringHops (ay / 8) (bY / 8)) + 2 * h2
def RouteMap.expressOpen (m : RouteMap) (ax ay bx bY : Nat) : Bool :=
  (ax / 8 != bx / 8 || ay / 8 != bY / 8)
    && (ax / 8 == bx / 8 || !m.ringXOut.contains (ay / 8)) && (ay / 8 == bY / 8 || !m.ringYOut.contains (bx / 8))

/-- The route class of a packet: 0 mesh, 1 express, 2 waypoint; none where no class is available (R156). -/
def RouteMap.routeClass (m : RouteMap) (xen : Bool) (ax ay bx bY : Nat) : Option Nat :=
  let mesh := if m.meshOpen ax ay bx bY then some (meshLatency ax ay bx bY) else none
  let exp := if xen && m.expressOpen ax ay bx bY then some (expressLatency ax ay bx bY) else none
  let way := if mesh.isNone && m.wayOpen ax ay bx bY then
      some (meshLatency ax ay ax bY + 6 + meshLatency ax bY bx bY) else none
  match mesh, exp, way with
  | some a, some e, _ => if e < a then some 1 else some 0
  | some _, none, _ => some 0
  | none, some e, some w => if e ≤ w then some 1 else some 2
  | none, some _, none => some 1
  | none, none, some _ => some 2
  | none, none, none => none

/-! ### Destinations (R144, R266, R296, R306) -/

/-- The fitted termini in ascending order (R266). -/
def State.fittedList (s : State) : List Nat := (List.range 8).filter s.fitted

/-- Installed capacity of outer memory (R265): 192 GiB per fitted terminus. -/
def State.capacity (s : State) : Nat := s.fittedList.length * 192 * 2 ^ 30

/-- The place of an offset of outer memory (R266). -/
structure OmPlace where
  t : Nat
  stack : Nat
  page : Nat
  router : Nat
deriving DecidableEq, Repr

/-- R266. -/
def State.omPlace (s : State) (o : Nat) : OmPlace :=
  let q := o / 4096
  let n := s.fittedList.length
  let pl := q / n
  { t := nth 0 s.fittedList (q % n), stack := pl % 3, page := pl / 3, router := o / 256 % 48 }

/-- The T port of an edge router of a terminus. -/
def tEndpoint (t e : Nat) : Endpoint :=
  { ext := true, py := BitVec.ofNat 10 (edgeRouter t e).2, px := BitVec.ofNat 10 (edgeRouter t e).1 }

/-- What the source router makes of a device address: the destination, or the error code with which it answers (R13, R144,
R268). -/
inductive Resolved where
  | dst (e : Endpoint)
  | err (code : Nat) (lost : Bool)
deriving DecidableEq, Repr

/-- R144, R268. -/
def State.resolve (s : State) (a : DWord) : Resolved :=
  let o := addrOff44 a
  let e := o / 256 % 48
  match addrSpace a with
  | 0 => pos 0x60000
  | 1 => pos 0x10000
  | 2 =>
    if s.capacity ≤ o then .err 0x06 false
    else
      let w := s.omPlace o
      if s.map.lostTermini.contains w.t || s.map.lostStacks.contains (w.t, w.stack) then .err 0x0A true
      else .dst (tEndpoint w.t w.router)
  | 3 => .dst (tEndpoint 0 e)
  | 4 => .dst (tEndpoint 0 e)
  | 5 => .dst (tEndpoint (nth 0 s.fittedList (field a 34 6 % s.fittedList.length)) e)
  | _ => .err 0x06 false
where
  /-- A logical position with an offset below the extent of its space (R13). -/
  pos (extent : Nat) : Resolved :=
    if !onGrid (addrCore a) || extent ≤ addrOff40 a then .err 0x06 false
    else
      let p := physOf s.map.skips (addrX a) (addrY a)
      .dst (endpointAt p.1 p.2)

end Sys2Proof.Machine
end

