-- ==== Sys2Proof/Machine/Float.lean ====
section
/-! DEFINITION. Number formats: element formats, exact sums and products, rounding, conversion, comparison, the stochastic
generator, pair32 and the approximations (R78 to R92). -/

namespace Sys2Proof.Machine

/-- A floating-point value: NaN, an infinity, or the exact ± m × 2^e. -/
inductive FVal where
  | nan
  | inf (neg : Bool)
  | fin (neg : Bool) (m : Nat) (e : Int)
deriving DecidableEq, Repr

/-- How a format uses its highest exponent (R78): IEEE infinities and NaNs, E4M3's single NaN, or neither. -/
inductive Specials where
  | ieee | e4m3 | none
deriving DecidableEq, Repr

/-- A floating-point element format (R78). -/
structure Fmt where
  ebits : Nat
  mbits : Nat
  bias : Nat
  spec : Specials
  canon : Nat
  maxMag : Nat
deriving DecidableEq, Repr

/-- The formats of R78. -/
def fB32 : Fmt := { ebits := 8, mbits := 23, bias := 127, spec := .ieee, canon := 0x7FC00000, maxMag := 0x7F7FFFFF }
def fB16 : Fmt := { ebits := 5, mbits := 10, bias := 15, spec := .ieee, canon := 0x7E00, maxMag := 0x7BFF }
def fBF16 : Fmt := { ebits := 8, mbits := 7, bias := 127, spec := .ieee, canon := 0x7FC0, maxMag := 0x7F7F }
def fE4M3 : Fmt := { ebits := 4, mbits := 3, bias := 7, spec := .e4m3, canon := 0x7F, maxMag := 0x7E }
def fE5M2 : Fmt := { ebits := 5, mbits := 2, bias := 15, spec := .ieee, canon := 0x7E, maxMag := 0x7B }
def fE3M2 : Fmt := { ebits := 3, mbits := 2, bias := 3, spec := .none, canon := 0, maxMag := 0x1F }
def fE2M3 : Fmt := { ebits := 2, mbits := 3, bias := 1, spec := .none, canon := 0, maxMag := 0x1F }
def fE2M1 : Fmt := { ebits := 2, mbits := 1, bias := 1, spec := .none, canon := 0, maxMag := 0x7 }

/-- The exponent of the least subnormal bit. -/
def Fmt.qmin (f : Fmt) : Int := 1 - (f.bias : Int) - (f.mbits : Int)

/-- The sign bit's weight. -/
def Fmt.signW (f : Fmt) : Nat := 2 ^ (f.ebits + f.mbits)

/-- The value of an encoding (R78); subnormals are values. -/
def Fmt.decode (f : Fmt) (w : Nat) : FVal :=
  let man := w % 2 ^ f.mbits
  let ex := w / 2 ^ f.mbits % 2 ^ f.ebits
  let neg := w / f.signW % 2 == 1
  if f.spec = .ieee ∧ ex = 2 ^ f.ebits - 1 then (if man = 0 then .inf neg else .nan)
  else if f.spec = .e4m3 ∧ ex = 15 ∧ man = 7 then .nan
  else if ex = 0 then .fin neg man f.qmin
  else .fin neg (man + 2 ^ f.mbits) (f.qmin + (ex : Int) - 1)

/-- The number of bits of a number. -/
def bitLen (m : Nat) : Nat := if m = 0 then 0 else Nat.log2 m + 1

/-- How a rounding decides: nearest, ties to even, or stochastically with a draw (R90). -/
inductive Rnd where
  | rne
  | sr (draw : Word)
deriving DecidableEq, Repr

/-- n + rem / 2^sh rounded to an integer (R90). -/
def roundInt (r : Rnd) (n rem sh : Nat) : Nat :=
  match r with
  | .rne => if 2 ^ sh < 2 * rem ∨ (2 * rem = 2 ^ sh ∧ n % 2 = 1) then n + 1 else n
  | .sr d => if 2 ^ 32 ≤ rem * 2 ^ 32 / 2 ^ sh + d.toNat then n + 1 else n

/-- m × 2^e as a multiple of 2^q, rounded. -/
def roundQ (r : Rnd) (m : Nat) (e q : Int) : Nat :=
  if q ≤ e then m * 2 ^ (e - q).toNat
  else roundInt r (m / 2 ^ (q - e).toNat) (m % 2 ^ (q - e).toNat) (q - e).toNat

/-- The magnitude bits of m × 2^e rounded to a format with an unbounded exponent (R85, R90). -/
def Fmt.roundMag (f : Fmt) (r : Rnd) (m : Nat) (e : Int) : Nat :=
  if m = 0 then 0
  else
    let top : Int := e + (bitLen m : Int) - 1
    let q : Int := max (top - (f.mbits : Int)) f.qmin
    (q - f.qmin).toNat * 2 ^ f.mbits + roundQ r m e q

/-- Infinity's magnitude bits in a format that has it. -/
def Fmt.infMag (f : Fmt) : Nat := (2 ^ f.ebits - 1) * 2 ^ f.mbits

/-- A value converted to binary32 in one rounding; overflow gives infinity, a zero is +0 (R82, R84, R87). -/
def b32 (r : Rnd) (v : FVal) : Word :=
  match v with
  | .nan => 0x7FC00000
  | .inf neg => if neg then 0xFF800000 else 0x7F800000
  | .fin neg m e =>
    let mag := fB32.roundMag r m e
    let mag := if fB32.maxMag < mag then fB32.infMag else mag
    if mag = 0 then 0 else BitVec.ofNat 32 (mag + (if neg then 2 ^ 31 else 0))

/-- A non-negative value in binary32, rounded upwards (R101). -/
def up32 (v : FVal) : Word :=
  match v with
  | .fin _ m e =>
    let top : Int := e + (bitLen m : Int) - 1
    let q : Int := max (top - 23) fB32.qmin
    let n := if q ≤ e then m * 2 ^ (e - q).toNat else (m + 2 ^ (q - e).toNat - 1) / 2 ^ (q - e).toNat
    let mag := if m = 0 then 0 else (q - fB32.qmin).toNat * 2 ^ 23 + n
    BitVec.ofNat 32 (if fB32.maxMag < mag then fB32.infMag else mag)
  | .inf _ => 0x7F800000
  | .nan => 0x7FC00000

/-- A binary32 word's value. -/
def fv (w : Word) : FVal := fB32.decode w.toNat

def isNaN (w : Word) : Bool := fv w == .nan
def isInf (w : Word) : Bool := w == 0x7F800000 || w == 0xFF800000
def finite (w : Word) : Bool := !isNaN w && !isInf w

/-- A signed mantissa. -/
def sgn (neg : Bool) (m : Nat) : Int := if neg then -(m : Int) else (m : Int)

/-- The exact product (R82): an infinity times zero is NaN. -/
def fmul (a b : FVal) : FVal :=
  match a, b with
  | .nan, _ => .nan
  | _, .nan => .nan
  | .inf s, .inf t => .inf (s != t)
  | .inf s, .fin t m _ => if m = 0 then .nan else .inf (s != t)
  | .fin s m _, .inf t => if m = 0 then .nan else .inf (s != t)
  | .fin s m e, .fin t n g => .fin (s != t) (m * n) (e + g)

/-- The exact sum of two finite values, or the special result (R82). -/
def fadd (a b : FVal) : FVal :=
  match a, b with
  | .nan, _ => .nan
  | _, .nan => .nan
  | .inf s, .inf t => if s = t then .inf s else .nan
  | .inf s, _ => .inf s
  | _, .inf t => .inf t
  | .fin s m e, .fin t n g =>
    let q := min e g
    let v := sgn s m * 2 ^ (e - q).toNat + sgn t n * 2 ^ (g - q).toNat
    .fin (v < 0) v.natAbs q

/-- The negated value. -/
def fneg (a : FVal) : FVal :=
  match a with
  | .nan => .nan
  | .inf s => .inf (!s)
  | .fin s m e => .fin (!s) m e

/-- The exact sum of a list (R82): NaN with a NaN or with infinities of opposite sign. -/
def fsum (vs : List FVal) : FVal := vs.foldl fadd (.fin false 0 0)

/-- binary32 operations, rounded to nearest-even, with zero as +0 (R84, R87). -/
def add32 (a b : Word) : Word := b32 .rne (fadd (fv a) (fv b))
def sub32 (a b : Word) : Word := b32 .rne (fadd (fv a) (fneg (fv b)))
def mul32 (a b : Word) : Word := b32 .rne (fmul (fv a) (fv b))
def fma32 (a b c : Word) : Word := b32 .rne (fadd (fmul (fv a) (fv b)) (fv c))
def neg32 (a : Word) : Word := a ^^^ 0x80000000#32
def abs32 (a : Word) : Word := a &&& 0x7FFFFFFF#32

/-- A key that orders non-NaN binary32 words as R88 does, −0 below +0. -/
def orderKey (w : Word) : Int :=
  if w.getLsbD 31 then -((abs32 w).toNat : Int) - 1 else (w.toNat : Int)

/-- The smaller and the larger operand of R88; NaN gives the canonical NaN. -/
def min32 (a b : Word) : Word :=
  if isNaN a || isNaN b then 0x7FC00000 else if orderKey b < orderKey a then b else a
def max32 (a b : Word) : Word :=
  if isNaN a || isNaN b then 0x7FC00000 else if orderKey a < orderKey b then b else a

/-- The IEEE quiet less-than (R88): zeros are equal. -/
def less32 (a b : Word) : Bool :=
  !isNaN a && !isNaN b && orderKey a < orderKey b && !(abs32 a == 0 && abs32 b == 0)

/-- a ≤ b as binary32 values; false with a NaN. -/
def le32 (a b : Word) : Bool := !isNaN a && !isNaN b && !less32 b a

/-! ### The stochastic generator (R91) -/

/-- One draw: the next state and the 32-bit value. -/
def draw (s : DWord) : DWord × Word :=
  let s1 := s ^^^ (s <<< 13)
  let s2 := s1 ^^^ (s1 >>> 7)
  let s3 := s2 ^^^ (s2 <<< 17)
  (s3, (s3 * 0x2545F4914F6CDD1D#64).extractLsb' 32 32)

/-! ### Conversion (R85, R86) -/

/-- What a conversion writes, whether that is a NaN or a NaN was lost, and whether the source was a NaN (R85, R94). -/
structure Conv where
  bits : Nat
  nan : Bool
  carried : Bool

/-- A conversion to a floating-point target (R85). `sat` is CORE_NUMCTL.SATFP8. -/
def toFmt (f : Fmt) (r : Rnd) (sat : Bool) (v : FVal) : Conv :=
  let sgnB := fun (neg : Bool) (mag : Nat) => if mag = 0 then 0 else mag + (if neg then f.signW else 0)
  let ovf := fun (neg : Bool) =>
    match f.spec with
    | .ieee => if sat ∧ f.ebits = 5 ∧ f.mbits = 2 then sgnB neg f.maxMag else sgnB neg f.infMag
    | .e4m3 => if sat then sgnB neg f.maxMag else f.canon
    | .none => sgnB neg f.maxMag
  match v with
  | .nan => { bits := f.canon, nan := true, carried := true }
  | .inf neg => { bits := ovf neg, nan := f.spec == .e4m3 && !sat, carried := false }
  | .fin neg m e =>
    let mag := f.roundMag r m e
    if f.maxMag < mag then { bits := ovf neg, nan := f.spec == .e4m3 && !sat, carried := false }
    else { bits := sgnB neg mag, nan := false, carried := false }

/-- A conversion to an n-bit two's-complement integer (R85): the nearer limit, 0 for NaN. -/
def toInt (n : Nat) (r : Rnd) (v : FVal) : Conv :=
  let hi : Int := 2 ^ (n - 1) - 1
  let lo : Int := -(2 ^ (n - 1))
  let enc := fun (x : Int) => ((if hi < x then hi else if x < lo then lo else x) % (2 ^ n : Int)).toNat
  match v with
  | .nan => { bits := 0, nan := true, carried := true }
  | .inf neg => { bits := enc (if neg then lo else hi), nan := false, carried := false }
  | .fin neg m e => { bits := enc (sgn neg (roundQ r m e 0)), nan := false, carried := false }

/-- A two's-complement integer's value. -/
def ofInt (x : Int) : FVal := .fin (x < 0) x.natAbs 0

/-- The signed value of the n low bits of a number. -/
def signedOf (n w : Nat) : Int :=
  let v := w % 2 ^ n
  if v < 2 ^ (n - 1) then (v : Int) else (v : Int) - 2 ^ n

/-- A stored element converted by a store format (R52, R85, R86): 0 FP32, 1 BF16, 2 FP16, 3 E4M3, 4 E5M2, 5 INT8, 6 INT32. -/
def toStore (fmt : Nat) (r : Rnd) (sat : Bool) (v : FVal) : Conv :=
  match fmt with
  | 0 => toFmt fB32 r sat v
  | 1 => toFmt fBF16 r sat v
  | 2 => toFmt fB16 r sat v
  | 3 => toFmt fE4M3 r sat v
  | 4 => toFmt fE5M2 r sat v
  | 5 => toInt 8 r v
  | _ => toInt 32 r v

/-- Bytes of one element in a store format; pair32 takes eight (R52). -/
def storeBytesOf (fmt : Nat) : Nat :=
  match fmt with
  | 0 => 4
  | 1 => 2
  | 2 => 2
  | 3 => 1
  | 4 => 1
  | 5 => 1
  | 6 => 4
  | _ => 8

/-- An element of a store format widened into an accumulator (R85, R86): formats 0 and 6 bit for bit. -/
def fromStore (fmt : Nat) (w : Nat) : Word :=
  match fmt with
  | 1 => widen fBF16 w
  | 2 => widen fB16 w
  | 3 => widen fE4M3 w
  | 4 => widen fE5M2 w
  | 5 => BitVec.ofInt 32 (signedOf 8 w)
  | _ => BitVec.ofNat 32 w
where
  /-- Widening is exact, −0 included; a NaN becomes the canonical one (R82, R85, R86). -/
  widen (f : Fmt) (w : Nat) : Word :=
    match f.decode w with
    | .fin true 0 _ => 0x80000000
    | v => b32 .rne v

/-! ### pair32 (R81, R92) -/

/-- A pair: hi and lo. -/
structure Pair where
  hi : Word
  lo : Word
deriving DecidableEq, Repr

/-- An infinite or NaN result, or an infinity met on the way (R92). -/
def pairInf (w : Word) : Pair := { hi := w, lo := 0 }

def twoSum (a b : Word) : Word × Word :=
  let s := add32 a b
  let t := sub32 s a
  (s, add32 (sub32 a (sub32 s t)) (sub32 b t))

def fastTwoSum (a b : Word) : Word × Word :=
  let s := add32 a b
  (s, sub32 b (sub32 s a))

def twoProd (a b : Word) : Word × Word :=
  let p := mul32 a b
  (p, fma32 a b (neg32 p))

/-- A finite result as the device writes it: a zero is (+0, +0) (R81). -/
def pairOf (r : Word × Word) : Pair :=
  if abs32 r.1 = 0 then { hi := 0, lo := 0 } else { hi := r.1, lo := if abs32 r.2 = 0 then 0 else r.2 }

/-- VADD2 and each addition into a pair accumulator (R92). -/
def pairAdd (x y : Pair) : Pair :=
  if !finite x.hi || !finite y.hi then pairInf (add32 x.hi y.hi)
  else
    let s := twoSum x.hi y.hi
    if isInf s.1 then pairInf s.1
    else
      let t := twoSum x.lo y.lo
      if isInf t.1 then pairInf t.1
      else
        let u := fastTwoSum s.1 (add32 s.2 t.1)
        if isInf u.1 then pairInf u.1
        else
          let v := fastTwoSum u.1 (add32 u.2 t.2)
          if isInf v.1 || isNaN v.1 then pairInf v.1 else pairOf v

/-- VMUL2 and each pair product of a MMA (R92). -/
def pairMul (x y : Pair) : Pair :=
  if !finite x.hi || !finite y.hi then pairInf (mul32 x.hi y.hi)
  else
    let p := twoProd x.hi y.hi
    if isInf p.1 then pairInf p.1
    else
      let t := fma32 x.lo y.hi (mul32 x.hi y.lo)
      let v := fastTwoSum p.1 (add32 p.2 t)
      if isInf v.1 || isNaN v.1 then pairInf v.1 else pairOf v

/-- The value of a pair (R81): the exact sum; an infinite or NaN hi is the value. -/
def pairVal (x : Pair) : FVal := if finite x.hi then fadd (fv x.hi) (fv x.lo) else fv x.hi

/-- An exact value as a normalised pair. -/
def pairRound (v : FVal) : Pair :=
  let h := b32 .rne v
  if !finite h then pairInf h
  else pairOf (h, b32 .rne (fadd v (fneg (fv h))))

/-- A pair in memory order: bytes 0 to 3 hold hi (R81). -/
def pairBits (x : Pair) : DWord := x.lo ++ x.hi
def pairFrom (v : DWord) : Pair := { hi := v.extractLsb' 0 32, lo := v.extractLsb' 32 32 }

/-! ### Approximations (R89) -/

/-- 2^(p / 2^k) ≤ m × 2^e, exactly. -/
def pow2Le (p : Int) (k m : Nat) (e : Int) : Bool :=
  let d := p - e * (2 ^ k : Nat)
  if d ≤ 0 then 1 ≤ m else 2 ^ d.toNat ≤ m ^ (2 ^ k)

/-- The exponent of the unit in the last place at a value whose leading bit is at 2^top. -/
def ulpExp (top : Int) : Int := max (top - 23) (-149)

/-- a ≤ b for exact finite values. -/
def fle (a b : FVal) : Bool :=
  match fadd b (fneg a) with
  | .fin neg m _ => !neg || m == 0
  | _ => false

/-- a ≤ b for exact values, infinities included; a NaN compares false. -/
def fleX (a b : FVal) : Bool :=
  match a, b with
  | .nan, _ => false
  | _, .nan => false
  | .inf true, _ => true
  | _, .inf false => true
  | .inf false, _ => false
  | _, .inf true => false
  | x, y => fle x y

/-- A value of the tables where it meets the bound, and otherwise the first value that does (log entry 14). -/
def pickBounded (ok : Word → Bool) (cand : Word) : Word :=
  if ok cand then cand
  else (((List.range (2 ^ 32)).map (BitVec.ofNat 32)).find? ok).getD cand

/-- |r − 1/x| ≤ 2 ulp for x = m × 2^e, on magnitudes: |r × x − 1| ≤ 2 ulp × x; a result below 2^−126, of an x above 2^126, is
subnormal. -/
def rcpOk (neg : Bool) (m : Nat) (e : Int) (r : Word) : Bool :=
  let top : Int := -e - (if m = 2 ^ (bitLen m - 1) then (bitLen m : Int) - 1 else (bitLen m : Int))
  let x : FVal := .fin false m e
  let tol : FVal := fmul (.fin false 2 (ulpExp top)) x
  let prod := fmul (fv (abs32 r)) x
  finite r && (r.getLsbD 31 == neg) && (fle x (.fin false 1 126) || decide ((abs32 r).toNat < 0x00800000)) &&
    fle prod (fadd (.fin false 1 0) tol) && fle (fadd (.fin false 1 0) (fneg tol)) prod

/-- VRCP of one lane (R89) under a core image: an exact result of 2^128 or more is an infinity (log entry 14). Of −∞ it is −0, as R89's
special values say, although R87 writes other zeros as +0 (DESIGN CHOICE, log entry 104). -/
def vrcp1 (img : BitVec 384) (x : Word) : Word :=
  match fv x with
  | .nan => 0x7FC00000
  | .inf neg => if neg then 0x80000000 else 0
  | .fin neg m e =>
    if m = 0 then (if neg then 0xFF800000 else 0x7F800000)
    else if (128 : Int) ≤ -e - ((bitLen m : Int) - 1) ∧ (m = 2 ^ (bitLen m - 1) ∨ (129 : Int) ≤ -e - ((bitLen m : Int) - 1)) then
      (if neg then 0xFF800000 else 0x7F800000)
    else pickBounded (rcpOk neg m e) (Config.vrcpTable img x)

/-- The exponent of the leading bit of 1 / sqrt (m × 2^e): the largest t with 4^t × m × 2^e ≤ 1. -/
def rsqTop (m : Nat) (e : Int) : Int :=
  let g := -(e + (bitLen m : Int)) / 2
  if fle (fmul (.fin false 1 (2 * (g + 1))) (.fin false m e)) (.fin false 1 0) then g + 1 else g

/-- |r − 1/√x| ≤ 2 ulp: (r − 2u)² x ≤ 1 ≤ (r + 2u)² x, the first square only where r exceeds 2u. -/
def rsqOk (m : Nat) (e : Int) (r : Word) : Bool :=
  let u : FVal := .fin false 2 (ulpExp (rsqTop m e))
  let x : FVal := .fin false m e
  let lo := fadd (fv r) (fneg u)
  let hi := fadd (fv r) u
  finite r && !r.getLsbD 31 && fle (.fin false 1 0) (fmul (fmul hi hi) x) &&
    (!fle (.fin false 0 0) lo || fle (fmul (fmul lo lo) x) (.fin false 1 0))

/-- VRSQ of one lane (R89). -/
def vrsq1 (img : BitVec 384) (x : Word) : Word :=
  match fv x with
  | .nan => 0x7FC00000
  | .inf neg => if neg then 0x7FC00000 else 0
  | .fin neg m e =>
    if m = 0 then (if neg then 0xFF800000 else 0x7F800000)
    else if neg then 0x7FC00000
    else pickBounded (rsqOk m e) (Config.vrsqTable img x)

/-- A finite value as p / 2^k. -/
def dyadic (v : FVal) : Int × Nat :=
  match v with
  | .fin neg m e => if 0 ≤ e then (sgn neg m * 2 ^ e.toNat, 0) else (sgn neg m, (-e).toNat)
  | _ => (0, 0)

/-- |r − 2^x| ≤ 2 ulp: r − 2u ≤ 2^x ≤ r + 2u. -/
def exp2Ok (x : FVal) (r : Word) : Bool :=
  let pk := dyadic x
  let top : Int := pk.1 / (2 ^ pk.2 : Nat)
  let u : FVal := .fin false 2 (ulpExp top)
  let above := match fadd (fv r) u with
    | .fin false m e => pow2Le pk.1 pk.2 m e
    | _ => false
  let below := match fadd (fv r) (fneg u) with
    | .fin false m e => m == 0 || !pow2Le pk.1 pk.2 m e || (pow2Le pk.1 pk.2 m e && pow2Eq pk.1 pk.2 m e)
    | .fin true _ _ => true
    | _ => false
  finite r && !r.getLsbD 31 && above && below
where
  /-- 2^(p / 2^k) = m × 2^e, exactly. -/
  pow2Eq (p : Int) (k m : Nat) (e : Int) : Bool :=
    let d := p - e * (2 ^ k : Nat)
    0 ≤ d && 2 ^ d.toNat == m ^ (2 ^ k)

/-- VEXP2 of one lane (R89): below −149 no value is stated, so the table's stands with a zero as +0 (log entry 14). -/
def vexp21 (img : BitVec 384) (x : Word) : Word :=
  match fv x with
  | .nan => 0x7FC00000
  | .inf neg => if neg then 0 else 0x7F800000
  | v =>
    if fle (.fin false 128 0) v then 0x7F800000
    else if fle (.fin true 149 0) v then pickBounded (exp2Ok v) (Config.vexp2Table img x)
    else if abs32 (Config.vexp2Table img x) = 0 then 0 else Config.vexp2Table img x

/-- |r − log₂ x| ≤ d: 2^(r − d) ≤ x ≤ 2^(r + d). -/
def log2Within (m : Nat) (e : Int) (d : FVal) (r : Word) : Bool :=
  let lo := dyadic (fadd (fv r) (fneg d))
  let hi := dyadic (fadd (fv r) d)
  finite r && pow2Le lo.1 lo.2 m e && (!pow2Le hi.1 hi.2 m e || exp2Ok.pow2Eq hi.1 hi.2 m e)

/-- The error bound of VLOG2 (R89): 2^−21 for inputs in [0.5, 2], otherwise 2 ulp of the result. -/
def log2Ok (m : Nat) (e : Int) (r : Word) : Bool :=
  let x : FVal := .fin false m e
  let top : Int := e + (bitLen m : Int) - 1
  if fle (.fin false 1 (-1)) x && fle x (.fin false 2 0) then log2Within m e (.fin false 1 (-21)) r
  else
    let mag : Nat := if 0 ≤ top then top.toNat else (-top - 1).toNat
    let mag1 : Nat := if top < 0 ∧ m = 2 ^ (bitLen m - 1) then mag + 1 else mag
    log2Within m e (.fin false 2 ((Nat.log2 (max 1 mag1) : Int) - 23)) r

/-- VLOG2 of one lane (R89). -/
def vlog21 (img : BitVec 384) (x : Word) : Word :=
  match fv x with
  | .nan => 0x7FC00000
  | .inf neg => if neg then 0x7FC00000 else 0x7F800000
  | .fin neg m e =>
    if m = 0 then 0xFF800000
    else if neg then 0x7FC00000
    else
      let r := pickBounded (log2Ok m e) (Config.vlog2Table img x)
      if abs32 r = 0 then 0 else r

end Sys2Proof.Machine
end

