-- ==== Sys2Proof/Machine/Accum.lean ====
section
/-! DEFINITION. The accumulators with their checksum state, and the NaN record shared by the engines (R53, R94 to R97, R101,
R107). -/

namespace Sys2Proof.Machine

/-- One accumulator. -/
def Core.accAt (k : Core) (n : Nat) : Acc := k.acc.get Acc.reset n

/-- Element (row i, column j), row-major (R53). -/
def Acc.elem (a : Acc) (i j : Nat) : Word := a.elems.get 0 (8 * i + j)

/-- Elements as a table from a list in row-major order. -/
def elemsOf (ws : List Word) : SMap Word := (List.range ws.length).map (fun n => (n, nth 0 ws n))

/-- The exact value of an element: under a pair tag `lo` holds the low part (R81, R99). -/
def elemVal (tag : AccTag) (hi lo : Word) : FVal :=
  match tag with
  | .fp32 => fv hi
  | .int32 => ofInt hi.toInt
  | .pair => pairVal { hi := hi, lo := lo }

/-- The exact absolute value. -/
def fabs (v : FVal) : FVal :=
  match v with
  | .nan => .nan
  | .inf _ => .inf false
  | .fin _ m e => .fin false m e

/-- A sum of integers kept in 64 bits (R101). -/
def isum (xs : List Int) : DWord := BitVec.ofInt 64 xs.sum

/-- The checksum state that matches an accumulator's contents (R101): `vals` gives the exact value at (i, j). -/
def Acc.matched (a : Acc) (vals : Nat → Nat → FVal) (ints : Nat → Nat → Int) : Acc :=
  let rows := List.range 16
  let cols := List.range 8
  let chk := fun (xs : List FVal) (ns : List Int) =>
    match a.tag with
    | .int32 => isum ns
    | _ => pairBits (pairRound (fsum xs))
  { a with
    rowSum := cols.map (fun j => (j, chk (rows.map (fun i => vals i j)) (rows.map (fun i => ints i j))))
    colSum := rows.map (fun i => (i, chk (cols.map (fun j => vals i j)) (cols.map (fun j => ints i j))))
    rowMag := cols.map (fun j => (j, up32 (fsum (rows.map (fun i => fabs (vals i j))))))
    colMag := rows.map (fun i => (i, up32 (fsum (cols.map (fun j => fabs (vals i j)))))) }

/-- The accumulators that a write of elements reaches, with their checksum state set to match (R101): under a pair tag the
state is kept with the high tile. -/
def Core.rematch (k : Core) (n : Nat) : Core :=
  let base := if (k.accAt n).tag = .pair then n / 2 * 2 else n
  let a := k.accAt base
  let b := k.accAt (base + 1)
  { k with acc := k.acc.set base (a.matched (fun i j => elemVal a.tag (a.elem i j) (b.elem i j))
      (fun i j => (a.elem i j).toInt)) }

/-! ### Produced NaNs -/

/-- What an instruction's numeric messages carry (R97, R107). -/
structure NumSrc where
  vec : Bool
  func : Nat
  pc : Nat
  tag : BitVec 16
  num : Nat

/-- OPKIND (R97). -/
def NumSrc.opkind (n : NumSrc) : Nat := (if n.vec then 64 else 0) + n.func % 64

/-- The address of a numeric message (R107) with its bits [31:14]. -/
def numAddr (secid pc hi : Nat) : Nat := secid * 2 ^ 32 + hi * 2 ^ 14 + pc

/-- The NaN record is filled (R97). -/
def K.nanRecord (k : K) (n : NumSrc) (trapped carried : Bool) (elem : Nat) : K :=
  let r0 := place 32 31 1 1 ||| flag 32 30 carried ||| flag 32 29 trapped ||| place 32 16 8 n.opkind ||| place 32 0 14 n.pc
  let r1 := place 32 16 16 k.core.secid ||| place 32 0 16 n.tag.toNat
  let r2 := place 32 20 10 k.c.y.toNat ||| place 32 10 10 k.c.x.toNat ||| place 32 0 7 elem
  let c1 := ((k.core.setReg rMX_NANREC0 r0).setReg rMX_NANREC1 r1).setReg rMX_NANREC2 r2
  { k with core := { c1 with regs := setPair c1.regs rMX_NANSTAMP k.cyc } }

/-- The block that reports for an engine (R386). -/
def NumSrc.block (n : NumSrc) : Nat := if n.vec then 2 else 1

/-- Bits [31:14] of the address of kinds 0x40 and 0x43 (R107). -/
def nanHigh (n : NumSrc) (carried : Bool) (elem : Nat) : Nat :=
  n.opkind * 2 ^ 10 + (if carried then 2 ^ 9 else 0) + elem

/-- The trap (R95): the record, the cancellation of what was issued later, the message of kind 0x40, and an execution fault. -/
def K.nanTrap (k : K) (n : NumSrc) (carried : Bool) (elem : Nat) : K :=
  let k1 := k.nanRecord n true carried elem
  let c1 := { k1.core with vecQ := k1.core.vecQ.filter (fun e => e.num < n.num),
                           matQ := k1.core.matQ.filter (fun e => e.num < n.num),
                           steps := k1.core.steps.filter (fun e => e.entry.num < n.num) }
  let c2 := (c1.setReg rCORE_TRAP (place 32 31 1 1 ||| place 32 0 8 0x40)).setReg rCORE_TRAPPC (place 32 0 14 n.pc)
  let k2 := K.report { k1 with core := c2 } n.block 0x40 n.tag.toNat (numAddr k.core.secid n.pc (nanHigh n carried elem))
  let k3 := k2.abortNow 0 0x40
  { k3 with core := { k3.core with seq := .trapped } }

/-- NaNs produced with the trap disabled (R96): counted; the first of the section is recorded and reported. -/
def K.nanCount (k : K) (n : NumSrc) (nans : List (Nat × Bool)) : K :=
  match nans with
  | [] => k
  | (elem, carried) :: _ =>
    let k1 := { k with core := k.core.count rMX_NANCNT nans.length }
    if (k1.core.reg rMX_NANREC0).getLsbD 31 then k1
    else (k1.nanRecord n false carried elem).report n.block 0x43 n.tag.toNat
      (numAddr k.core.secid n.pc (nanHigh n carried elem))

/-- CORE_NUMCTL fields (R73). -/
def Core.nanTrapOn (k : Core) : Bool := (k.reg rCORE_NUMCTL).getLsbD 5
def Core.stochastic (k : Core) : Bool := field (k.reg rCORE_NUMCTL) 2 2 == 1
def Core.satFp8 (k : Core) : Bool := (k.reg rCORE_NUMCTL).getLsbD 1

/-- An instruction that produced NaNs either traps, with no other effect, or takes its effect and counts them (R95, R96).
The list gives elements in ascending order with their cause: carried or arising (R94). -/
def K.settle (k : K) (n : NumSrc) (nans : List (Nat × Bool)) (f : K → K) : K :=
  match nans with
  | [] => f k
  | (elem, carried) :: _ =>
    if k.core.nanTrapOn then k.nanTrap n carried elem else (f k).nanCount n nans

/-- The draws of `n` elements, in order, and the generator's next state (R91); none while RMODE is not 1. -/
def draws (s : DWord) : Nat → DWord × List Word
  | 0 => (s, [])
  | n + 1 =>
    let d := draw s
    let r := draws d.1 n
    (r.1, d.2 :: r.2)

/-- The roundings of `n` elements and the generator after them (R90, R91). -/
def Core.roundings (k : Core) (n : Nat) : DWord × List Rnd :=
  if k.stochastic then
    let r := draws k.rng n
    (r.1, r.2.map Rnd.sr)
  else (k.rng, List.replicate n .rne)

end Sys2Proof.Machine
end

