-- ==== Sys2Proof/Machine/Channels.lean ====
section
/-! DEFINITION. The channel port and the tag-match store: queue entries, offers, credits, junctions, output windows, the spill
area and the placing of arrivals (R164, R180 to R188, R207, R212, R220, R223 to R228). -/

namespace Sys2Proof.Machine

/-! ### Elements that junctions and merge slots combine (R164, R185) -/

/-- One element of ROP 0, 2 or 3 combined; tells whether an INT32 sum was clamped. -/
def combineWord (rop : Nat) (a b : Word) : Word × Bool :=
  match rop with
  | 0 => (add32 a b, false)
  | 2 =>
    let s := a.toInt + b.toInt
    if 2147483647 < s then (0x7FFFFFFF, true)
    else if s < -2147483648 then (0x80000000, true)
    else (BitVec.ofInt 32 s, false)
  | _ => (max32 a b, false)

/-- A line made of sixteen words, the first lowest. -/
def lineOfWords32 (ws : List Word) : Line := BitVec.ofNat 512 (ws.foldr (fun w n => w.toNat + 2 ^ 32 * n) 0)

/-- A word of a line. -/
def lineWord (l : Line) (i : Nat) : Word := l.extractLsb' (32 * i) 32

/-- An 8-byte word of a line. -/
def lineDWord (l : Line) (i : Nat) : DWord := l.extractLsb' (64 * i) 64

/-- Two lines combined element by element (R164). -/
def combineLine (rop : Nat) (a b : Line) : Line × Bool :=
  if rop = 1 then
    (lineOfWords ((List.range 8).map (fun i => pairBits (pairAdd (pairFrom (lineDWord a i)) (pairFrom (lineDWord b i))))), false)
  else
    let ws := (List.range 16).map (fun i => combineWord rop (lineWord a i) (lineWord b i))
    (lineOfWords32 (ws.map (·.1)), ws.any (·.2))

/-! ### Places of lines (R110, R182, R225) -/

/-- Entry k of the queue of input channel n. -/
def entryOff (n k : Nat) : Nat := 0x54000 + 0x800 * n + 64 * k

/-- Record r of the spill area and its directory entry. -/
def recordOff (r : Nat) : Nat := 0x5C000 + 64 * r
def directoryOff (r : Nat) : Nat := 0x5F800 + 8 * r

/-- Entries of input channel n. -/
def Core.entries (k : Core) (n : Nat) : List QEntry := k.inq.get [] n

/-- Input channel n with its entries replaced. -/
def Core.setEntries (k : Core) (n : Nat) (l : List QEntry) : Core := { k with inq := k.inq.set n l }

/-- An entry replaced by a function of itself. -/
def Core.onEntry (k : Core) (n i : Nat) (f : QEntry → QEntry) : Core :=
  k.setEntries n ((k.entries n).map (fun e => if e.k = i then f e else e))

/-- The lowest free entry of input channel n (R182). -/
def Core.freeEntry (k : Core) (n : Nat) : Option Nat :=
  (List.range (k.depth n)).find? (fun i => !(k.entries n).any (fun e => e.k == i))

/-- Every entry of input channel n is in use. -/
def Core.fullQueue (k : Core) (n : Nat) : Bool := (k.freeEntry n).isNone

/-! ### Tags (R204) -/

/-- The configuration epoch of a core. -/
def Core.epoch (k : Core) : Nat := field (k.reg rDF_SECCFG) 0 2

/-- A tag of the core's epoch. -/
def Core.mkTag (k : Core) (iter : Nat) : BitVec 16 := place 16 14 2 k.epoch ||| place 16 0 14 iter

/-! ### Offers (R207, R208) -/

/-- The entry is ready: its mask covers what the unit needs. -/
def Core.unitReady (k : Core) (u : Nat) (mask : BitVec 16) : Bool :=
  let need := k.unitReads u
  if k.unitAny u then need.any (fun n => mask.getLsbD n) else need.all (fun n => mask.getLsbD n)

/-- The store's entry for a unit and a tag. -/
def Core.storeFind (k : Core) (u : Nat) (tag : BitVec 16) : Option TmEntry :=
  k.store.find? (fun e => e.u.toNat == u && e.tag == tag)

/-- An entry of the store that has become ready joins the order of firing (R208). -/
def Core.noteReady (k : Core) (u : Nat) (tag : BitVec 16) : Core :=
  match k.storeFind u tag with
  | none => k
  | some e =>
    if e.ready || !k.unitReady u e.mask then k
    else { k with
      store := k.store.map (fun x => if x.u.toNat = u ∧ x.tag = tag then { x with ready := true } else x)
      readyQ := k.readyQ ++ [{ e with ready := true }] }

/-- A held offer: counted when it is first held (R207). -/
def Core.hold (k : Core) (n i : Nat) : Core :=
  if k.held.contains (BitVec.ofNat 4 n, i) then k
  else { k.count rDF_HELD 1 with held := k.held ++ [(BitVec.ofNat 4 n, i)] }

/-- An offer accepted. -/
def Core.accept (k : Core) (n i : Nat) : Core :=
  { k with held := k.held.filter (fun h => h != (BitVec.ofNat 4 n, i)) }

/-- Entry `i` of input channel `n` is offered to the tag-match store; its first offer counts it (R187, R207). -/
def Core.offer (k : Core) (n i : Nat) : Core :=
  match (k.entries n).find? (fun e => e.k == i), k.readerOf n with
  | some e, some u =>
    let k0 := if e.offered then k else k.count (rCH_IMSG + 0x40 * n) 1
    let k1 := k0.onEntry n i (fun x => { x with offered := true })
    match k1.storeFind u e.tag with
    | some t =>
      if t.mask.getLsbD n then k1.hold n i
      else
        let k2 : Core := { k1 with store := k1.store.map (fun (x : TmEntry) =>
          if x.u.toNat = u ∧ x.tag = e.tag then { x with mask := setField x.mask n 1 1 } else x) }
        (k2.accept n i).noteReady u e.tag
    | none =>
      let fl := k1.inFlight
      if k1.store.length < 64 ∧ (fl.contains (field e.tag 0 14) ∨ fl.length < 16) then
        let t : TmEntry := { u := BitVec.ofNat 3 u, tag := e.tag, mask := place 16 n 1 1, ready := false }
        (({ k1 with store := k1.store ++ [t] }).accept n i).noteReady u e.tag
      else k1.hold n i
  | _, _ => k

/-- A message stands whole in entry `i`: it is offered when the core is in RUN (R186, R200, R207). -/
def Core.present (k : Core) (n i : Nat) : Core := if k.df == .run then k.offer n i else k

/-! ### Credits (R182, R183) -/

/-- A credit return leaves for the source of a token. -/
def K.creditReturn (k : K) (src : Endpoint) (och : BitVec 4) (seq : BitVec 16) : K :=
  k.sendEp { k.packet 4 1 (rCH_OCRED + 0x40 * och.toNat) 1 0 0 (headOf seq.toNat) [] with dst := src }

/-- A queue entry is freed; its credit returns unless it has returned already (R182, R209, R226). -/
def K.freeQEntry (k : K) (n i : Nat) : K :=
  match (k.core.entries n).find? (fun e => e.k == i) with
  | none => k
  | some e =>
    let c1 := (k.core.setEntries n ((k.core.entries n).filter (fun x => x.k != i))).accept n i
    let k1 : K := { k with core := c1 }
    if e.owes then k1.creditReturn e.src e.och e.seq else k1

/-! ### The spill area (R224 to R227) -/

/-- A directory entry (R225). -/
def SpillRec.entry (r : SpillRec) : DWord :=
  place 64 63 1 1 ||| flag 64 62 r.bound ||| flag 64 61 r.jmsg ||| place 64 40 21 (epBits r.src)
    ||| place 64 36 4 r.ich.toNat ||| place 64 32 4 r.och.toNat ||| place 64 16 16 r.seq.toNat ||| place 64 0 16 r.tag.toNat

/-- The lowest free record (R225). -/
def Core.freeRecord (k : Core) : Option Nat :=
  (List.range 224).find? (fun r => !k.spill.any (fun e => e.r == r))

/-- The spill logic's own note of the order of its records, in a form that is not given (R225, log entry 21). -/
def K.noteOrder (k : K) : K :=
  if (k.core.logicRefused true 0x5FF00).isSome then k
  else K.fresh ((List.range 4).foldl (fun a i => a.logicLine (0x5FF00 + 64 * i) (Config.spillOrder k.free i)) k)

/-- DF_SPILL.PEAK (R231). -/
def Core.notePeak (k : Core) : Core :=
  let p := field (k.reg rDF_SPILL) 8 8
  k.setReg rDF_SPILL (place 32 8 8 (max p k.spill.length))

/-- An entry or arrival written to the spill area (R224 to R227); a full area is a deadlock fault with cause 2. -/
def K.spillLine (k : K) (rec_ : SpillRec) (l : Line) : K :=
  match k.core.freeRecord with
  | none =>
    (k.report 7 0x65 rec_.ich.toNat (k.core.secid * 2 ^ 32 + k.core.spill.length)).abortNow 2 0x65
  | some r =>
    let e : SpillRec := { rec_ with r := r }
    let k1 := (k.logicLine (recordOff r) l).logicBytes (directoryOff r) (leBytes 8 e.entry.toNat)
    let c2 := ({ k1.core with spill := k1.core.spill ++ [e] }).notePeak.count rDF_SPILLTOK 1
    K.noteOrder { k1 with core := c2 }

/-- The bit of channel `n` leaves the store's entry for a spilled queue entry that no task consumes (R224). -/
def Core.unoffer (k : Core) (n : Nat) (tag : BitVec 16) : Core :=
  match k.readerOf n with
  | none => k
  | some u =>
    let same := fun (x : TmEntry) => x.u.toNat == u && x.tag == tag
    let st := (k.store.map (fun x => if same x then { x with mask := setField x.mask n 1 0 } else x)).filter
      (fun x => x.mask != 0)
    let ready := st.any (fun x => same x && k.unitReady u x.mask)
    { k with
      store := st.map (fun x => if same x then { x with ready := ready } else x)
      readyQ := if ready then k.readyQ else k.readyQ.filter (fun x => !same x) }

/-- The running task holds entry `i` of channel `n`. -/
def Core.bound (k : Core) (n i : Nat) : Bool :=
  match k.running with
  | none => false
  | some r => r.ops.contains (.queue (BitVec.ofNat 4 n) i)

/-- A queue entry is spilled: its line and directory entry written, the entry freed, its credit returned; bound to the
running task it stays bound, otherwise it leaves the store (R224, R226). -/
def K.spillEntry (k : K) (n i : Nat) : K :=
  match (k.core.entries n).find? (fun e => e.k == i) with
  | none => k
  | some e =>
    let b := k.core.bound n i
    let l := k.logicRead (entryOff n i)
    let rec_ : SpillRec :=
      { r := 0, bound := b, jmsg := k.core.isJunction n, src := e.src, ich := BitVec.ofNat 4 n, och := e.och, seq := e.seq,
        tag := e.tag, count := e.count, whole := e.whole, order := e.order, counted := e.offered }
    let k1 := l.1.spillLine rec_ l.2
    if k1.core.df == .aborting then k1
    else
      let r := (k1.core.spill.getLast?.map (·.r)).getD 0
      let wasHeld := k1.core.held.contains (BitVec.ofNat 4 n, i)
      let k2 := k1.freeQEntry n i
      let c := k2.core
      let c1 := if b then { c with running := c.running.map (fun t =>
            { t with ops := t.ops.map (fun o => if o = .queue (BitVec.ofNat 4 n) i then .spilled (BitVec.ofNat 4 n) r else o) }) }
        else if e.offered && !wasHeld then c.unoffer n e.tag
        else c
      { k2 with core := c1 }

/-! ### Placing an arrival (R182, R184 to R187, R226) -/

/-- What the port keeps of a token or contribution. -/
structure Arrival where
  line : Line
  tag : BitVec 16
  seq : BitVec 16
  och : BitVec 4
  src : Endpoint
  count : Nat
  owes : Bool
  reinj : Bool
  counted : Bool
deriving DecidableEq, Repr

/-- A new queue entry with its line written (R182); a full queue has no entry left that a firing freed (R226). -/
def K.newEntry (k : K) (n i : Nat) (a : Arrival) (whole : Bool) : K :=
  let e : QEntry := { k := i, tag := a.tag, seq := a.seq, och := a.och, src := a.src, order := k.core.arrivals,
                      count := a.count, whole := whole, offered := a.counted, reinj := a.reinj, owes := a.owes }
  let k1 := k.logicLine (entryOff n i) a.line
  let c1 := k1.core.setEntries n (k1.core.entries n ++ [e])
  let c2 : Core := { c1 with arrivals := c1.arrivals + 1 }
  { k1 with core := if c2.fullQueue n then { c2 with freed := c2.freed.del n } else c2 }

/-- An arrival that finds no entry is spilled, and its credit returns at once (R184, R226). -/
def K.spillArrival (k : K) (n : Nat) (a : Arrival) : K :=
  let rec_ : SpillRec :=
    { r := 0, bound := false, jmsg := k.core.isJunction n && k.core.fedByReduce n, src := a.src, ich := BitVec.ofNat 4 n,
      och := a.och, seq := a.seq, tag := a.tag, count := a.count, whole := !k.core.isJunction n, order := k.core.arrivals,
      counted := a.counted }
  let k1 := K.spillLine { k with core := { k.core with arrivals := k.core.arrivals + 1 } } rec_ a.line
  if k1.core.df == .aborting then k1
  else
    let k2 : K := { k1 with core := if a.reinj then k1.core else k1.core.count (rCH_ISPILL + 0x40 * n) 1 }
    if a.owes then k2.creditReturn a.src a.och a.seq else k2

/-- A token placed in a channel that is no junction (R182, R226). -/
def K.placeToken (k : K) (n : Nat) (a : Arrival) : K :=
  let put := fun (k : K) (i : Nat) =>
    let k1 := k.newEntry n i a true
    { k1 with core := k1.core.present n i }
  match k.core.freeEntry n with
  | some i => put k i
  | none =>
    let back := (k.core.entries n).filter (fun e => e.reinj)
    match back.reverse with
    | [] => k.spillArrival n a
    | e :: t =>
      let y := t.foldl (fun m x => if m.order < x.order then x else m) e
      let k1 := k.spillEntry n y.k
      if k1.core.df == .aborting then k1 else put k1 y.k

/-- A contribution discarded (R186, R187): counted and reported with kind 0x61. -/
def K.contribDiscard (k : K) (n : Nat) (detail cause : Nat) (src : Endpoint) : K :=
  K.report { k with core := k.core.count (rCH_IDISC + 0x40 * n) 1 } 6 0x61 detail
    (cause * 2 ^ 25 + n * 2 ^ 21 + epBits src)

/-- A junction delivers entry `i`: its tag is set where packets carry none, and it is offered (R186, R187, R222). -/
def K.deliver (k : K) (n i : Nat) : K :=
  let d := k.core.delivered.get 0 n
  let c1 := k.core.onEntry n i (fun e =>
    { e with whole := true, tag := if k.core.fedByReduce n then k.core.mkTag d else e.tag })
  let c2 := { c1 with delivered := c1.delivered.set n (d + 1) }
  K.progressed { k with core := c2.present n i }

/-- A clamp seen by a junction (R185, R200). -/
def Core.noteSat (k : Core) (n : Nat) (sat : Bool) : Core :=
  if sat then { k with satNow := setField k.satNow n 1 1 } else k

/-- The credit of a contribution returns at its write or addition (R186). -/
def K.contribCredit (k : K) (a : Arrival) : K := if a.owes then k.creditReturn a.src a.och a.seq else k

/-- A message that was delivered and is not yet consumed carries the tag (R186). -/
def Core.deliveredTag (k : Core) (n : Nat) (tag : BitVec 16) : Bool :=
  (k.entries n).any (fun e => e.whole && e.tag == tag) ||
    k.spill.any (fun r => r.ich.toNat == n && r.whole && r.tag == tag)

/-- A contribution combined into a junction (R185 to R187). `detail` is what kind 0x61 carries. -/
def K.contribute (k : K) (n : Nat) (a : Arrival) (detail : Nat) : K :=
  let red := k.core.fedByReduce n
  match (k.core.entries n).find? (fun e => !e.whole && (red || e.tag == a.tag)) with
  | some e =>
    if k.core.jn n < e.count + a.count then k.contribDiscard n detail 0 a.src
    else
      let old := k.logicRead (entryOff n e.k)
      let r := combineLine (k.core.junctionOp n) old.2 a.line
      let k0 := old.1.logicLine (entryOff n e.k) r.1
      let c1 := (k0.core.onEntry n e.k (fun x => { x with count := x.count + a.count })).noteSat n r.2
      let k1 := K.contribCredit { k0 with core := c1 } a
      if k.core.jn n = e.count + a.count then k1.deliver n e.k else k1
  | none =>
    if !red && k.core.deliveredTag n a.tag then (k.contribDiscard n detail 0 a.src).contribCredit a
    else if k.core.jn n < a.count then (k.contribDiscard n detail 0 a.src).contribCredit a
    else
      match k.core.freeEntry n with
      | none => k.spillArrival n a
      | some i =>
        let k1 := (k.newEntry n i { a with owes := false } false).contribCredit a
        if k.core.jn n = a.count then k1.deliver n i else k1

/-! ### Output channels (R181, R212) -/

/-- The window of output channel m lets its next message go (R181). -/
def Core.windowOpen (k : Core) (m : Nat) : Bool :=
  let o := k.outq.get OutChan.reset m
  let last := o.next - BitVec.ofNat 16 (k.window m)
  !o.outst.any (fun e => e.seq == last)

/-- The token descriptor (R180), as it stands in head bytes 32 to 39. -/
def tokenHead (mask : BitVec 128) (tag seq : BitVec 16) (m : Nat) : BitVec 384 :=
  headOf (mask.toNat + (tag.toNat + 2 ^ 16 * seq.toNat + 2 ^ 32 * m) * 2 ^ 128)

/-- The multicast mask of output channel m (R160, R200). -/
def Core.omask (k : Core) (m : Nat) : BitVec 128 :=
  let b := rCH_OMASK + 0x40 * m
  k.reg (b + 12) ++ k.reg (b + 8) ++ k.reg (b + 4) ++ k.reg b

/-- The receiver of output channel m. -/
def Core.odst (k : Core) (m : Nat) : CoreId :=
  let w := k.reg (rCH_ODST + 0x40 * m)
  coreAt (field w 10 10) (field w 20 10)

/-- A line goes out on output channel m (R181): as a token or multicast token with the next SEQ, or in mode 2 as a REDUCE
packet. -/
def K.sendOut (k : K) (m iter : Nat) (l : Line) : K :=
  let c := k.core
  let off := 0x54000 + 0x800 * field (c.reg (rCH_ODST + 0x40 * m)) 0 4
  let k1 : K := { k with core := c.count (rCH_OMSG + 0x40 * m) 1 }
  let seqd : K → K := fun k1 =>
    { k1 with core := { k1.core with outq := SMap.upd OutChan.reset k1.core.outq m (fun o =>
        { next := o.next + 1, outst := o.outst ++ [{ seq := o.next, gather := 0 }] }) } }
  let seq := (c.outq.get OutChan.reset m).next
  match c.omode m with
  | 0 => (seqd k1).sendTo (mkAddr 0 (c.odst m) off) (k.packet 3 0 off 4 1 0 (tokenHead 0 (c.mkTag iter) seq m) [l])
  | 1 => (seqd k1).sendEp (k.packet 8 0 off 4 1 0 (tokenHead (c.omask m) (c.mkTag iter) seq m) [l])
  | _ =>
    let w := c.ocfg m
    k1.sendTo (mkAddr 0 (c.odst m) 0)
      (k.packet 6 0 0 4 1 0 (headOf (field w 0 12 + field w 22 2 * 2 ^ 12 + 2 ^ 16)) [l])

/-! ### Re-injection (R226) -/

/-- A record leaves the spill area (R225). -/
def K.freeRecordAt (k : K) (r : Nat) : K :=
  let k1 := k.logicBytes (directoryOff r) (List.replicate 8 0)
  K.noteOrder { k1 with core := { k1.core with spill := k1.core.spill.filter (fun e => e.r != r) } }

/-- The oldest unbound record of a channel. -/
def Core.oldestRecord (k : Core) (n : Nat) : Option SpillRec :=
  match k.spill.filter (fun e => e.ich.toNat == n && !e.bound) with
  | [] => none
  | e :: t => some (t.foldl (fun m x => if x.order < m.order then x else m) e)

/-- Records of channel `n` that are not bound. -/
def Core.unbound (k : Core) (n : Nat) : Nat := (k.spill.filter (fun e => e.ich.toNat == n && !e.bound)).length

/-- A firing or a discard frees an entry of channel `n`: a record that waits for one may return (R226). -/
def K.fireFree (k : K) (n i : Nat) : K :=
  let k1 := k.freeQEntry n i
  { k1 with core := { k1.core with freed := k1.core.freed.set n (min (k1.core.unbound n) (k1.core.freed.get 0 n + 1)) } }

/-- The oldest record of channel `n` takes a free entry (R226): a message or token is offered again, a contribution is
combined. -/
def K.reinject (k : K) (n : Nat) : K :=
  match k.core.oldestRecord n, k.core.freeEntry n with
  | some r, some _ =>
    let l := k.logicRead (recordOff r.r)
    let k1 := l.1.freeRecordAt r.r
    let k2 : K := { k1 with core := k1.core.count rDF_REINJ 1 }
    let a : Arrival := { line := l.2, tag := r.tag, seq := r.seq, och := r.och, src := r.src, count := r.count,
                         owes := false, reinj := true, counted := r.counted }
    if r.whole then k2.placeToken n a
    else k2.contribute n a (if k.core.fedByReduce n then field (k.core.reg (rCH_IRED + 0x40 * n)) 0 12 else r.tag.toNat)
  | _, _ => k

end Sys2Proof.Machine
end

