-- ==== Sys2Proof/Machine/Vector.lean ====
section
/-! DEFINITION. The vector unit: issue into its queue and the completion of its instructions in program order (R58, R84 to R89,
R94 to R97). -/

namespace Sys2Proof.Machine

/-- A lane of a vector register. -/
def Core.lane (k : Core) (v l : Nat) : Word := SMap.get 0 (k.vregs.get [] v) l

/-- The 32 lanes of a vector register (R58). -/
def Core.vreg (k : Core) (v : VReg) : List Word := (List.range 32).map (k.lane v.toNat)

/-- A vector register written whole. -/
def Core.setV (k : Core) (v : VReg) (ws : List Word) : Core :=
  { k with vregs := k.vregs.set v.toNat (elemsOf ws) }

/-- The next register of a pair. -/
def pairReg (v : VReg) : VReg := v + 1

/-! ### Issue -/

/-- A vector instruction enters the unit's queue of 8 (R42). -/
def K.vecPush (k : K) (i : Instr) (a : DWord) (l : Line) (pc : Nat) (w : Word) : K :=
  if 8 ≤ k.core.vecQ.length then k.stall
  else
    let e : VecEntry := { insn := i, addr := a, line := l, got := none, pc := pc, word := w, tag := k.core.runTag, num := k.core.num }
    K.advance { k with core := { k.core with vecQ := k.core.vecQ ++ [e], num := k.core.num + 1 } }

/-- A vector instruction without a scalar operand. -/
def vecIssue (i : Instr) (pc : Nat) (w : Word) (k : K) : K := k.vecPush i 0 0 pc w

/-- VLD and VST: the address lies in the own scratchpad and is a multiple of 128 (R49, R58, log entry 18); of an address that is neither, the
first is reported (DESIGN CHOICE, log entry 15). -/
def vecMemIssue (i : Instr) (sa : SReg) (off : BitVec 17) (pc : Nat) (w : Word) (k : K) : K :=
  k.whenReady [sa] (fun k =>
    let a := k.core.vecAddr sa off
    if !isOwnSpad k.c a || padSize < addrOff40 a + 128 then k.execFault 2 0x55 pc pc (addr48 a)
    else if !aligned a 128 then k.execFault 2 0x52 pc pc (addr48 a)
    else k.vecPush i a 0 pc w)

def execVadd (c : CoreId) (vd va vb : VReg) (s : State) : Host.Outcome State Fault Refusal :=
  issue c (.vadd c vd va vb) s (vecIssue (.vadd c vd va vb))
def execVsub (c : CoreId) (vd va vb : VReg) (s : State) : Host.Outcome State Fault Refusal :=
  issue c (.vsub c vd va vb) s (vecIssue (.vsub c vd va vb))
def execVmul (c : CoreId) (vd va vb : VReg) (s : State) : Host.Outcome State Fault Refusal :=
  issue c (.vmul c vd va vb) s (vecIssue (.vmul c vd va vb))
def execVfma (c : CoreId) (vd va vb vc : VReg) (s : State) : Host.Outcome State Fault Refusal :=
  issue c (.vfma c vd va vb vc) s (vecIssue (.vfma c vd va vb vc))
def execVmin (c : CoreId) (vd va vb : VReg) (s : State) : Host.Outcome State Fault Refusal :=
  issue c (.vmin c vd va vb) s (vecIssue (.vmin c vd va vb))
def execVmax (c : CoreId) (vd va vb : VReg) (s : State) : Host.Outcome State Fault Refusal :=
  issue c (.vmax c vd va vb) s (vecIssue (.vmax c vd va vb))
def execVabs (c : CoreId) (vd va : VReg) (s : State) : Host.Outcome State Fault Refusal :=
  issue c (.vabs c vd va) s (vecIssue (.vabs c vd va))
def execVneg (c : CoreId) (vd va : VReg) (s : State) : Host.Outcome State Fault Refusal :=
  issue c (.vneg c vd va) s (vecIssue (.vneg c vd va))
def execVcmplt (c : CoreId) (vd va vb : VReg) (s : State) : Host.Outcome State Fault Refusal :=
  issue c (.vcmplt c vd va vb) s (vecIssue (.vcmplt c vd va vb))
def execVsel (c : CoreId) (vd va vb vc : VReg) (s : State) : Host.Outcome State Fault Refusal :=
  issue c (.vsel c vd va vb vc) s (vecIssue (.vsel c vd va vb vc))
def execVrcp (c : CoreId) (vd va : VReg) (s : State) : Host.Outcome State Fault Refusal :=
  issue c (.vrcp c vd va) s (vecIssue (.vrcp c vd va))
def execVrsq (c : CoreId) (vd va : VReg) (s : State) : Host.Outcome State Fault Refusal :=
  issue c (.vrsq c vd va) s (vecIssue (.vrsq c vd va))
def execVexp2 (c : CoreId) (vd va : VReg) (s : State) : Host.Outcome State Fault Refusal :=
  issue c (.vexp2 c vd va) s (vecIssue (.vexp2 c vd va))
def execVlog2 (c : CoreId) (vd va : VReg) (s : State) : Host.Outcome State Fault Refusal :=
  issue c (.vlog2 c vd va) s (vecIssue (.vlog2 c vd va))
def execVredsum (c : CoreId) (vd va : VReg) (s : State) : Host.Outcome State Fault Refusal :=
  issue c (.vredsum c vd va) s (vecIssue (.vredsum c vd va))
def execVredmax (c : CoreId) (vd va : VReg) (s : State) : Host.Outcome State Fault Refusal :=
  issue c (.vredmax c vd va) s (vecIssue (.vredmax c vd va))
def execVcvt (c : CoreId) (vd va : VReg) (src : BitVec 2) (dst : BitVec 4) (s : State) :
    Host.Outcome State Fault Refusal :=
  issue c (.vcvt c vd va src dst) s (vecIssue (.vcvt c vd va src dst))
def execVadd2 (c : CoreId) (vd va vb : VReg) (s : State) : Host.Outcome State Fault Refusal :=
  issue c (.vadd2 c vd va vb) s (vecIssue (.vadd2 c vd va vb))
def execVmul2 (c : CoreId) (vd va vb : VReg) (s : State) : Host.Outcome State Fault Refusal :=
  issue c (.vmul2 c vd va vb) s (vecIssue (.vmul2 c vd va vb))
def execVmova (c : CoreId) (vd : VReg) (acc p : BitVec 2) (s : State) : Host.Outcome State Fault Refusal :=
  issue c (.vmova c vd acc p) s (vecIssue (.vmova c vd acc p))
def execVmovaw (c : CoreId) (acc : BitVec 2) (va : VReg) (p : BitVec 2) (s : State) : Host.Outcome State Fault Refusal :=
  issue c (.vmovaw c acc va p) s (vecIssue (.vmovaw c acc va p))
def execVld (c : CoreId) (v : VReg) (sa : SReg) (off : BitVec 17) (s : State) : Host.Outcome State Fault Refusal :=
  issue c (.vld c v sa off) s (vecMemIssue (.vld c v sa off) sa off)
def execVst (c : CoreId) (v : VReg) (sa : SReg) (off : BitVec 17) (s : State) : Host.Outcome State Fault Refusal :=
  issue c (.vst c v sa off) s (vecMemIssue (.vst c v sa off) sa off)

/-! ### Completion -/

/-- The func field of a vector instruction (R58), for OPKIND. -/
def vecFunc (i : Instr) : Nat :=
  match i with
  | .vadd .. => 0x00
  | .vsub .. => 0x01
  | .vmul .. => 0x02
  | .vfma .. => 0x03
  | .vmin .. => 0x04
  | .vmax .. => 0x05
  | .vabs .. => 0x06
  | .vneg .. => 0x07
  | .vcmplt .. => 0x08
  | .vsel .. => 0x09
  | .vrcp .. => 0x10
  | .vrsq .. => 0x11
  | .vexp2 .. => 0x12
  | .vlog2 .. => 0x13
  | .vredsum .. => 0x18
  | .vredmax .. => 0x19
  | .vcvt .. => 0x20
  | .vadd2 .. => 0x28
  | .vmul2 .. => 0x29
  | .vmova .. => 0x30
  | .vmovaw .. => 0x31
  | _ => 0

/-- The numeric source of a queue entry. -/
def VecEntry.src (e : VecEntry) : NumSrc :=
  { vec := true, func := vecFunc e.insn, pc := e.pc, tag := e.tag, num := e.num }

/-- A lane-wise operation with the NaNs it produces: NaN results, carried when an operand lane is NaN (R94). -/
def lanes (ops : List (List Word)) (f : List Word → Word) : List Word × List (Nat × Bool) :=
  let at_ := fun l => ops.map (fun o => nth 0 o l)
  let res := (List.range 32).map (fun l => f (at_ l))
  (res, (List.range 32).filterMap (fun l =>
    if isNaN (nth 0 res l) then some (l, (at_ l).any isNaN) else none))

/-- An operation on two lanes. -/
def lane2 (f : Word → Word → Word) (ws : List Word) : Word := f (nth 0 ws 0) (nth 0 ws 1)

/-- One level of the reduction tree: neighbours in pairs (R84). -/
def treeLevel (f : Word → Word → Word) : List Word → List Word
  | a :: b :: t => f a b :: treeLevel f t
  | l => l

/-- The fixed tree of 32 lanes (R84). -/
def tree32 (f : Word → Word → Word) (ws : List Word) : Word :=
  let t := treeLevel f
  nth 0 (t (t (t (t (t ws))))) 0

/-- A reduction: lane 0 holds it, the other lanes 0 (R58, R87). -/
def reduce (f : Word → Word → Word) (ws : List Word) : List Word × List (Nat × Bool) :=
  let r := tree32 f ws
  (r :: List.replicate 31 0, if isNaN r then [(0, ws.any isNaN)] else [])

/-- The pair in a lane of a register pair. -/
def Core.lanePair (k : Core) (v : VReg) (l : Nat) : Pair :=
  { hi := k.lane v.toNat l, lo := k.lane (pairReg v).toNat l }

/-- VADD2 and VMUL2: high parts, low parts, and the NaNs produced (R92, R94). -/
def Core.pairLanes (k : Core) (va vb : VReg) (f : Pair → Pair → Pair) : List Word × List Word × List (Nat × Bool) :=
  let rs := (List.range 32).map (fun l => f (k.lanePair va l) (k.lanePair vb l))
  (rs.map (·.hi), rs.map (·.lo), (List.range 32).filterMap (fun l =>
    let r := nth { hi := 0, lo := 0 } rs l
    if isNaN r.hi then
      some (l, [k.lanePair va l, k.lanePair vb l].any (fun p => isNaN p.hi || isNaN p.lo))
    else none))

/-- The source value of a VCVT lane (R86). -/
def cvtSource (src : BitVec 2) (w : Word) : FVal :=
  match src.toNat with
  | 0 => fv w
  | 1 => ofInt w.toInt
  | 2 => fBF16.decode (w.toNat % 65536)
  | _ => fB16.decode (w.toNat % 65536)

/-- The target of a VCVT: its width and its conversion (R86). -/
def cvtTarget (dst : BitVec 4) (r : Rnd) (sat : Bool) (v : FVal) : Nat × Conv :=
  match dst.toNat with
  | 0 => (32, toFmt fB32 r sat v)
  | 1 => (16, toFmt fBF16 r sat v)
  | 2 => (16, toFmt fB16 r sat v)
  | 3 => (8, toFmt fE4M3 r sat v)
  | 4 => (8, toFmt fE5M2 r sat v)
  | 5 => (8, toInt 8 r v)
  | 6 => (32, toInt 32 r v)
  | 7 => (4, toInt 4 r v)
  | 8 => (6, toFmt fE2M3 r sat v)
  | 9 => (6, toFmt fE3M2 r sat v)
  | _ => (4, toFmt fE2M1 r sat v)

/-- Elements of a width packed densely from bit 0 of lane 0 into 32 lanes (R86). -/
def packLanes (width : Nat) (es : List Nat) : List Word :=
  let v := es.foldr (fun e n => e % 2 ^ width + 2 ^ width * n) 0
  (List.range 32).map (fun l => BitVec.ofNat 32 (v / 2 ^ (32 * l)))

/-- VCVT (R86, R90, R91, R94). -/
def K.vcvt (k : K) (e : VecEntry) (vd va : VReg) (src : BitVec 2) (dst : BitVec 4) : K :=
  let rs := k.core.roundings 32
  let cs := (List.range 32).map (fun l =>
    cvtTarget dst (nth .rne rs.2 l) k.core.satFp8 (cvtSource src (k.core.lane va.toNat l)))
  let width := match cs with
    | c :: _ => c.1
    | [] => 32
  let nans := (List.range 32).filterMap (fun l =>
    match nth (32, { bits := 0, nan := false, carried := false }) cs l with
    | (_, c) => if c.nan then some (l, c.carried) else none)
  K.settle { k with core := { k.core with rng := rs.1 } } e.src nans (fun k =>
    { k with core := k.core.setV vd (packLanes width (cs.map (·.2.bits))) })

/-- The second line of VLD is read and the register written; a refused line delivers zeros (R58, R112). -/
def K.vload (k : K) (v : VReg) (off : Nat) (first : Line) : K :=
  let b := k.readLine agVEC none (off + 64)
  let words := fun (l : Line) => (List.range 16).map (fun i => l.extractLsb' (32 * i) 32)
  { b.1 with core := b.1.core.setV v (words first ++ words b.2.1) }

/-- VST writes two lines, each by itself (R58, R112, R128). -/
def K.vstore (k : K) (e : VecEntry) (v : VReg) : K :=
  let bytes := (k.core.vreg v).flatMap (fun w => leBytes 4 w.toNat)
  let a := k.queueBytes agVEC e.num (addrOff40 e.addr) (bytes.take 64)
  (K.queueBytes a.1 agVEC e.num (addrOff40 e.addr + 64) (bytes.drop 64)).1

/-- The effect of a vector instruction at its completion. -/
def K.vecEffect (k : K) (e : VecEntry) : K :=
  let c := k.core
  let put := fun (vd : VReg) (r : List Word × List (Nat × Bool)) =>
    k.settle e.src r.2 (fun k => { k with core := k.core.setV vd r.1 })
  let quiet := fun (vd : VReg) (ws : List Word) => { k with core := c.setV vd ws }
  match e.insn with
  | .vadd _ vd va vb => put vd (lanes [c.vreg va, c.vreg vb] (lane2 add32))
  | .vsub _ vd va vb => put vd (lanes [c.vreg va, c.vreg vb] (lane2 sub32))
  | .vmul _ vd va vb => put vd (lanes [c.vreg va, c.vreg vb] (lane2 mul32))
  | .vfma _ vd va vb vc =>
    put vd (lanes [c.vreg va, c.vreg vb, c.vreg vc] (fun ws => fma32 (nth 0 ws 0) (nth 0 ws 1) (nth 0 ws 2)))
  | .vmin _ vd va vb => put vd (lanes [c.vreg va, c.vreg vb] (lane2 min32))
  | .vmax _ vd va vb => put vd (lanes [c.vreg va, c.vreg vb] (lane2 max32))
  | .vabs _ vd va => quiet vd ((c.vreg va).map abs32)
  | .vneg _ vd va => quiet vd ((c.vreg va).map neg32)
  | .vcmplt _ vd va vb =>
    quiet vd ((List.range 32).map (fun l => if less32 (c.lane va.toNat l) (c.lane vb.toNat l) then 0xFFFFFFFF else 0))
  | .vsel _ vd va vb vc =>
    quiet vd ((List.range 32).map (fun l => if c.lane vc.toNat l = 0 then c.lane vb.toNat l else c.lane va.toNat l))
  | .vrcp _ vd va => put vd (lanes [c.vreg va] (fun ws => vrcp1 k.image (nth 0 ws 0)))
  | .vrsq _ vd va => put vd (lanes [c.vreg va] (fun ws => vrsq1 k.image (nth 0 ws 0)))
  | .vexp2 _ vd va => put vd (lanes [c.vreg va] (fun ws => vexp21 k.image (nth 0 ws 0)))
  | .vlog2 _ vd va => put vd (lanes [c.vreg va] (fun ws => vlog21 k.image (nth 0 ws 0)))
  | .vredsum _ vd va => put vd (reduce add32 (c.vreg va))
  | .vredmax _ vd va => put vd (reduce max32 (c.vreg va))
  | .vcvt _ vd va src dst => k.vcvt e vd va src dst
  | .vadd2 _ vd va vb =>
    let r := c.pairLanes va vb pairAdd
    k.settle e.src r.2.2 (fun k => { k with core := (k.core.setV vd r.1).setV (pairReg vd) r.2.1 })
  | .vmul2 _ vd va vb =>
    let r := c.pairLanes va vb pairMul
    k.settle e.src r.2.2 (fun k => { k with core := (k.core.setV vd r.1).setV (pairReg vd) r.2.1 })
  | .vmova _ vd acc p =>
    let a := c.accAt acc.toNat
    let ws := (List.range 32).map (fun l => a.elems.get 0 (32 * p.toNat + l))
    let nans := (List.range 32).filterMap (fun l =>
      if a.tag != .int32 && isNaN (nth 0 ws l) then some (l, true) else none)
    put vd (ws, nans)
  | .vmovaw _ acc va p =>
    let a := c.accAt acc.toNat
    let es := (List.range 32).foldl (fun m l => SMap.set m (32 * p.toNat + l) (c.lane va.toNat l)) a.elems
    { k with core := Core.rematch { c with acc := c.acc.set acc.toNat { a with elems := es } } acc.toNat }
  | .vld _ v _ _ => k.vload v (addrOff40 e.addr) (e.got.getD 0)
  | .vst _ v _ _ => k.vstore e v
  | .qvld _ vd _ =>
    quiet vd ((List.range 32).map (fun i => if i < 16 then e.line.extractLsb' (32 * i) 32 else 0))
  | _ => k

/-- The activity counter of a vector instruction (R347). -/
def vecCounter (i : Instr) : Nat :=
  match i with
  | .vfma .. => rPWC_VFMA
  | .vrcp .. | .vrsq .. | .vexp2 .. | .vlog2 .. | .vredsum .. | .vredmax .. | .vadd2 .. | .vmul2 .. => rPWC_VLONG
  | _ => rPWC_VEC

/-- The banks of the lines a vector instruction accesses next: of a VLD its second line once the first is read. -/
def VecEntry.next (e : VecEntry) : List Nat := (if e.got.isSome then e.reads.drop 1 else e.reads.take 1) ++ e.writes

/-- The head of the queue must wait: for an accumulator (R54), for an earlier instruction that may still trap (R95), for earlier accesses to
its lines (R46), or for a fill or re-encoding that holds their banks (R109). -/
def Core.vecWaits (k : Core) (e : VecEntry) : Bool :=
  k.accWaitVec e || k.trapWaitVec e.num || k.anyHeld e.next || k.hazard e.num e.reads e.writes

/-- A cycle in which the head of the queue waits for a bank that is held (R109). -/
def Core.vecTick (k : Core) : Core :=
  match k.vecQ with
  | [] => k
  | e :: _ =>
    match e.next.find? k.padHeld with
    | some off => k.count (bankWait off) 1
    | none => k

/-- The first line of a VLD is read at its turn. -/
def K.vecFirst (k : K) (e : VecEntry) (rest : List VecEntry) : Option K :=
  match e.insn, e.got with
  | .vld .., none =>
    let a := k.readLine agVEC none (addrOff40 e.addr)
    some { a.1 with core := { a.1.core with vecQ := { e with got := some a.2.1 } :: rest } }
  | _, _ => none

/-- VECTOR_COMPLETE: the oldest vector instruction takes its effect and retires; results are written in program order (R58). A VLD takes
two cycles of its bank, one for each line, so another agent's write can fall between them (R128). -/
def execVectorComplete (c : CoreId) (s : State) : Host.Outcome State Fault Refusal :=
  .next (onLive c s (fun k =>
    match k.core.vecQ with
    | [] => k
    | e :: rest =>
      if k.core.vecWaits e then k
      else
        match k.vecFirst e rest with
        | some k1 => k1
        | none =>
          K.vecEffect { k with core := (({ k.core with vecQ := rest }).count rVEC_OPS 1).count (vecCounter e.insn) 1 } e))

end Sys2Proof.Machine
end

