-- ==== Sys2Proof/Machine/Dataflow.lean ====
section
/-! DEFINITION. Tasks and points, the life of a section, and the arrivals of tokens, contributions and credits (R181, R183, R187,
R205 to R228). -/

namespace Sys2Proof.Machine

/-! ### SEND (R181) -/

/-- A line of the own scratchpad that an instruction names: outside is kind 0x55, misaligned kind 0x52 (R181, R192). -/
def K.ownLine (k : K) (pc : Nat) (ad : DWord) (f : K → Line → K) : K :=
  if !inOwn k.c ad then k.execFault 0 0x55 pc pc (addr48 ad)
  else if !aligned ad 64 then k.misaligned pc ad
  else if k.core.padHeld (addrOff40 ad) || k.core.hazard k.core.num [addrOff40 ad] [] then k.stallBank (addrOff40 ad)
  else
    let r := k.readLine agSEQ none (addrOff40 ad)
    match r.2.2 with
    | .refused => r.1.accessError pc ad
    | _ => f r.1 r.2.1
where
  /-- The address lies in the own scratchpad. -/
  inOwn (c : CoreId) (a : DWord) : Bool := isOwnSpad c a && addrOff40 a < padSize

/-- SEND: the window is waited for before the line is read. -/
def sendBody (a b : SReg) (pc : Nat) (_w : Word) (k : K) : K :=
  k.whenReady [a, b] (fun k =>
    let m := field (k.core.sreg b) 0 4
    let iter := field (k.core.sreg b) 16 14
    let ad := k.core.sreg a
    if !k.core.ochActive m then k.accessError pc ad
    else if k.core.omode m < 2 && !k.core.windowOpen m && isOwnSpad k.c ad && addrOff40 ad < padSize && aligned ad 64 then
      k.stallOut m
    else k.ownLine pc ad (fun k l => (k.sendOut m iter l).advance))

def execSend (c : CoreId) (a b : SReg) (s : State) : Host.Outcome State Fault Refusal :=
  issue c (.send c a b) s (sendBody a b)

/-! ### Dataflow instructions (R205, R206, R209) -/

/-- The operands of the running task are freed: queue entries return their credits, records none (R209). -/
def K.freeOps (k : K) : List OperandAt → K
  | [] => k
  | .queue n i :: t => K.freeOps (k.fireFree n.toNat i) t
  | .spilled _ r :: t => K.freeOps (k.freeRecordAt r) t

/-- END. -/
def endBody (_pc : Nat) (_w : Word) (k : K) : K :=
  match k.core.running with
  | none => k
  | some r =>
    let k1 := K.freeOps { k with core := { k.core with running := none } } r.ops
    let k2 := k1.advance
    { k2 with core := { k2.core with seq := .idle } }

def execEndTask (c : CoreId) (s : State) : Host.Outcome State Fault Refusal := issue c (.endTask c) s endBody

/-- FIN adds 1 to DF_FIN.COUNT, which saturates (R205, R231). -/
def finBody (_pc : Nat) (_w : Word) (k : K) : K :=
  let v := k.core.reg rDF_FIN
  K.advance { k with core := k.core.setReg rDF_FIN (setField v 16 16 (min 65535 (field v 16 16 + 1))) }

def execFin (c : CoreId) (s : State) : Host.Outcome State Fault Refusal := issue c (.fin c) s finBody

/-- TAG and ARGS. -/
def execTagI (c : CoreId) (d : SReg) (s : State) : Host.Outcome State Fault Refusal :=
  issue c (.tagI c d) s (fun _ _ k => k.whenReady [d] (fun k =>
    K.advance { k with core := k.core.setS d (k.core.runTag.setWidth 64) }))

/-- The mask of the channels a firing consumed. -/
def Core.firingMask (k : Core) : DWord :=
  match k.running with
  | none => 0
  | some r => BitVec.ofNat 64 (bits16 (fun n => r.chans.contains n))

def execArgsI (c : CoreId) (d : SReg) (s : State) : Host.Outcome State Fault Refusal :=
  issue c (.argsI c d) s (fun _ _ k => k.whenReady [d] (fun k =>
    K.advance { k with core := k.core.setS d k.core.firingMask }))

/-- The operand line of a channel of the running firing, read where it stands (R206). -/
def K.operandLine (k : K) (n : Nat) : Option (K × Line) :=
  match k.core.running with
  | none => none
  | some r =>
    match r.ops.find? (fun o => match o with
        | .queue ich _ => ich.toNat == n
        | .spilled ich _ => ich.toNat == n) with
    | none => none
    | some (.queue ich i) => some (k.logicRead (entryOff ich.toNat i))
    | some (.spilled _ i) => some (k.logicRead (recordOff i))

/-- A channel the firing did not consume makes the instruction illegal (R205). -/
def K.withOperand (k : K) (n pc : Nat) (w : Word) (f : K → Line → K) : K :=
  match k.operandLine n with
  | none => k.execFault 0 0x50 pc pc w.toNat
  | some (k1, l) => f k1 l

def execQld (c : CoreId) (d a b : SReg) (s : State) : Host.Outcome State Fault Refusal :=
  issue c (.qld c d a b) s (fun pc w k => k.whenReady [d, a, b] (fun k =>
    k.withOperand (field (k.core.sreg a) 0 4) pc w (fun k1 l =>
      K.advance { k1 with core := k1.core.setS d (lineDWord l (field (k.core.sreg b) 0 3)) })))

/-- QVLD reads its line as it issues and writes the register in program order with the vector unit (R205). -/
def execQvld (c : CoreId) (vd : VReg) (a : SReg) (s : State) : Host.Outcome State Fault Refusal :=
  issue c (.qvld c vd a) s (fun pc w k => k.whenReady [a] (fun k =>
    if 8 ≤ k.core.vecQ.length then k.stall
    else k.withOperand (field (k.core.sreg a) 0 4) pc w (fun k1 l => k1.vecPush (.qvld c vd a) 0 l pc w)))

/-- QCP writes the operand line to the own scratchpad as agent SEQ (R205, R206). -/
def execQcp (c : CoreId) (a b : SReg) (s : State) : Host.Outcome State Fault Refusal :=
  issue c (.qcp c a b) s (fun pc w k => k.whenReady [a, b] (fun k =>
    let off := k.core.sreg b
    k.withOperand (field (k.core.sreg a) 0 4) pc w (fun k1 l =>
      if !aligned off 64 then k.misaligned pc off
      else if padSize ≤ off.toNat then k.accessError pc off
      else if k.core.padHeld off.toNat || k.core.hazard k.core.num [] [off.toNat] then k.stallBank off.toNat
      else
        let r := k1.writeBytes agSEQ none off.toNat (Line.bytes l)
        if r.2 then r.1.advance else r.1.accessError pc off)))

/-! ### Firing (R208, R210 to R212) -/

/-- The channels a firing of a unit consumes from a mask (R208). -/
def Core.consumed (k : Core) (u : Nat) (mask : BitVec 16) : List Nat :=
  let here := (List.range 16).filter (fun n => mask.getLsbD n)
  if k.unitAny u then here.take 1 else here

/-- The queue entry of a channel that the store holds for a tag. -/
def Core.inStore (k : Core) (n : Nat) (tag : BitVec 16) : Option Nat :=
  ((k.entries n).find? (fun e => e.whole && e.offered && e.tag == tag
    && !k.held.contains (BitVec.ofNat 4 n, e.k))).map (·.k)

/-- A firing takes its channels from the store's entry, which is freed unless bits remain (R208). -/
def Core.fireEntry (k : Core) (e : TmEntry) (chans : List Nat) : Core :=
  let same := fun (x : TmEntry) => x.u == e.u && x.tag == e.tag
  let left := fun (m : BitVec 16) => chans.foldl (fun m n => setField m n 1 0) m
  let st := (k.store.map (fun x => if same x then { x with mask := left x.mask, ready := false } else x)).filter
    (fun x => x.mask != 0)
  let k1 : Core := { k with store := st, readyQ := k.readyQ.filter (fun x => !same x) }
  k1.noteReady e.u.toNat e.tag

/-- The mask the store holds now for a ready entry. -/
def Core.maskOf (k : Core) (e : TmEntry) : BitVec 16 :=
  match k.storeFind e.u.toNat e.tag with
  | some x => x.mask
  | none => e.mask

/-- TASK_FIRE: the task that became ready first fires when no task runs (R208). -/
def taskFire (k : K) : K :=
  let c := k.core
  if c.df != .run || c.running.isSome || c.waiting.isSome then k
  else
    match c.readyQ.find? (fun e => !c.isPoint e.u.toNat) with
    | none => k
    | some e =>
      let u := e.u.toNat
      let chans := c.consumed u (c.maskOf e)
      let ops := chans.filterMap (fun n => (c.inStore n e.tag).map (fun i => OperandAt.queue (BitVec.ofNat 4 n) i))
      let c1 := ((c.fireEntry e chans).count rDF_FIRED 1).count (0x6110 + 0x40 * u) 1
      K.progressed { k with core := { c1 with
        running := some { u := e.u, tag := e.tag, ops := ops }, pc := c.unitEntry u, seq := .run, lent := false, idleCc := 0 } }

def execTaskFire (c : CoreId) (s : State) : Host.Outcome State Fault Refusal := .next (onLive c s taskFire)

/-- The iteration operation of a point's output (R212). -/
def iterOp (op iter : Nat) : Nat := if op = 1 then (iter + 1) % 16384 else if op = 2 then 0 else iter

/-- A point's firing: with its output enabled it waits for the window, sends the line and frees its entries; otherwise it
only consumes (R210 to R212). -/
def K.pointFire (k : K) (e : TmEntry) (chans : List Nat) (out : Nat) (en : Bool) (op : Nat) (l : Line) : K :=
  let u := e.u.toNat
  if en && !k.core.windowOpen out then k
  else
    let places := chans.filterMap (fun n => (k.core.inStore n e.tag).map (fun i => (n, i)))
    let c1 := ((k.core.fireEntry e chans).count rDF_FWD 1).count (0x6110 + 0x40 * u) 1
    let k1 : K := { k with core := c1 }
    let k2 := if en then k1.sendOut out (iterOp op (field e.tag 0 14)) l else k1
    let k3 := places.foldl (fun a p => a.fireFree p.1 p.2) k2
    K.progressed { k3 with core := { k3.core with fwd := e.u } }

/-- The line of a queue entry as it stands in the scratchpad. -/
def Core.entryLine (k : Core) (n i : Nat) : Line := Mem.readLine k.mem (entryOff n i)

/-- The output a ready firing of a point sends on, when that output is enabled (R210 to R212). -/
def Core.pointOut (k : Core) (u : Nat) : Option Nat :=
  match k.readyQ.find? (fun e => e.u.toNat == u) with
  | none => none
  | some e =>
    if k.unitKind u == 2 then (if k.uptTen u then some (k.uptOutT u) else none)
    else if k.unitKind u != 1 then none
    else
      let p :=
        if k.uptPsrc u then
          match k.inStore (k.uptDin u) e.tag with
          | none => false
          | some i => lineDWord (k.entryLine (k.uptDin u) i) (k.uptPword u) != 0
        else
          match k.inStore (k.uptPin u) e.tag with
          | none => false
          | some i => (k.entryLine (k.uptPin u) i).getLsbD 0
      if p then (if k.uptTen u then some (k.uptOutT u) else none)
      else if k.uptFen u then some (k.uptOutF u) else none

/-- A unit's point has a firing that waits for its output window (R230). -/
def Core.pointBlocked (k : Core) (u : Nat) : Bool :=
  match k.pointOut u with
  | some m => !k.windowOpen m
  | none => false

/-- The point the forwarder serves next (R212): round robin over the points with a ready firing whose window is open; a firing that
waits for its window does not hold up the others (DEDUCED, log entry 61). After reset it starts with unit 1 (DESIGN CHOICE, log entry 107). -/
def Core.forwardNext (k : Core) : Option Nat :=
  ((List.range 8).map (fun i => (k.fwd.toNat + 1 + i) % 8)).find? (fun u =>
    k.isPoint u && k.readyQ.any (fun e => e.u.toNat == u) && !k.pointBlocked u)

/-- The first ready firing of a point of the kind, when it is the forwarder's turn. -/
def Core.readyPoint (k : Core) (u kind : Nat) : Option TmEntry :=
  if k.df == .run && k.unitKind u == kind && k.forwardNext == some u then k.readyQ.find? (fun e => e.u.toNat == u) else none

/-- STEER_POINT_FIRE (R210). -/
def steerFire (u : Nat) (k : K) : K :=
  match k.core.readyPoint u 1 with
  | none => k
  | some e =>
    let c := k.core
    match c.inStore (c.uptDin u) e.tag with
    | none => k
    | some i =>
      let d := k.logicRead (entryOff (c.uptDin u) i)
      let p : K × Bool :=
        if c.uptPsrc u then (d.1, lineDWord d.2 (c.uptPword u) != 0)
        else
          match c.inStore (c.uptPin u) e.tag with
          | none => (d.1, false)
          | some j =>
            let q := d.1.logicRead (entryOff (c.uptPin u) j)
            (q.1, q.2.getLsbD 0)
      let chans := c.unitReads u
      let k1 := if p.2 then p.1.pointFire e chans (c.uptOutT u) (c.uptTen u) (c.uptItT u) d.2
        else p.1.pointFire e chans (c.uptOutF u) (c.uptFen u) (c.uptItF u) d.2
      if k1.core.readyQ == k.core.readyQ then k else k1

def execSteerPointFire (c : CoreId) (u : BitVec 3) (s : State) : Host.Outcome State Fault Refusal :=
  .next (onLive c s (steerFire u.toNat))

/-- MERGE_POINT_FIRE (R211). -/
def mergeFire (u : Nat) (k : K) : K :=
  match k.core.readyPoint u 2 with
  | none => k
  | some e =>
    let c := k.core
    let chans := c.consumed u (c.maskOf e)
    match chans with
    | [] => k
    | n :: _ =>
      match c.inStore n e.tag with
      | none => k
      | some i =>
        if c.uptTen u && !c.windowOpen (c.uptOutT u) then k
        else
          let d := k.logicRead (entryOff n i)
          d.1.pointFire e chans (c.uptOutT u) (c.uptTen u) (c.uptItT u) d.2

def execMergePointFire (c : CoreId) (u : BitVec 3) (s : State) : Host.Outcome State Fault Refusal :=
  .next (onLive c s (mergeFire u.toNat))

/-- Several offers made in one cycle: the tasks they make ready fire in ascending unit order (R208). -/
def Core.offerAll (k : Core) (l : List (Nat × Nat)) : Core :=
  let k1 := l.foldl (fun a e => a.offer e.1 e.2) k
  let old := k.readyQ.length
  { k1 with readyQ := k1.readyQ.take old ++ sorted (fun a b => decide (a.u.toNat ≤ b.u.toNat)) (k1.readyQ.drop old) }

/-- HELD_OFFER_RETRY: held offers are retried in the order they were first offered (R207). -/
def execHeldOfferRetry (c : CoreId) (s : State) : Host.Outcome State Fault Refusal :=
  .next (onLive c s (fun k =>
    if k.core.df == .run then { k with core := k.core.offerAll (k.core.held.map (fun h => (h.1.toNat, h.2))) }
    else k))

/-! ### Arrivals (R183, R184, R187, R220) -/

/-- The token descriptor of a packet. -/
def Packet.tag (p : Packet) : BitVec 16 := p.head.extractLsb' 128 16
def Packet.tseq (p : Packet) : BitVec 16 := p.head.extractLsb' 144 16
def Packet.och (p : Packet) : BitVec 4 := p.head.extractLsb' 160 4

/-- The input channel whose queue base an OFFSET is (R180). -/
def queueChannel (off : Nat) : Option Nat :=
  if 0x54000 ≤ off ∧ off < 0x5C000 ∧ off % 0x800 = 0 then some ((off - 0x54000) / 0x800) else none

/-- Arrivals are discarded while ABORTING or ABORTED (R218). -/
def Core.abDiscards (k : Core) : Bool := k.df == .aborting || k.df == .aborted

/-- TOKEN_ARRIVAL (R184, R187, R220). -/
def tokenArrive (p : Packet) (k : K) : K :=
  let c := k.core
  let n := queueChannel p.off.toNat
  let chan := n.getD 0 * 2 ^ 21
  if c.abDiscards then { k with core := c.count rDF_ABDISC 1 }
  else if field p.tag 14 2 ≠ c.epoch then
    let k1 : K := { k with core := { c.count rDF_EPDISC 1 with staleSeen := true } }
    if c.staleSeen then k1
    else k1.report 7 0x64 p.tag.toNat (c.secid * 2 ^ 32 + chan + epBits p.src)
  else
    match n with
    | none => k.report 6 0x60 p.tag.toNat (epBits p.src)
    | some n =>
      if c.df == .idle || !c.ichActive n then
        K.report { k with core := c.count (rCH_IDISC + 0x40 * n) 1 } 6 0x60 p.tag.toNat (n * 2 ^ 21 + epBits p.src)
      else
        let a : Arrival := { line := (p.lines.head?).getD 0, tag := p.tag, seq := p.tseq, och := p.och, src := p.src,
                             count := 1, owes := true, reinj := false, counted := false }
        if !c.isJunction n then k.placeToken n a
        else if c.fedByReduce n then k.contribDiscard n p.tag.toNat 1 p.src
        else k.contribute n a p.tag.toNat

def isToken (p : Packet) : Bool := p.op == 3 || p.op == 8

def execTokenArrival (c : CoreId) (s : State) : Host.Outcome State Fault Refusal :=
  .next (onArrival c s isToken tokenArrive)

/-- The reduction descriptor of a packet (R164). -/
def Packet.redid (p : Packet) : Nat := field p.head 0 12
def Packet.rop (p : Packet) : Nat := field p.head 12 2
def Packet.rsat (p : Packet) : Bool := p.head.getLsbD 14
def Packet.rcount (p : Packet) : Nat := field p.head 16 19

/-- REDUCE_ARRIVAL (R187). -/
def reduceArrive (p : Packet) (k : K) : K :=
  let c := k.core
  if c.abDiscards then { k with core := c.count rDF_ABDISC 1 }
  else
    match (List.range 16).find? (fun n => c.configured && c.ichActive n && c.isJunction n && c.fedByReduce n
        && field (c.reg (rCH_IRED + 0x40 * n)) 0 12 == p.redid) with
    | none => K.report { k with rt := k.rt.count rRT_DISCARD 1 } 6 0x61 p.redid (2 * 2 ^ 25 + epBits p.src)
    | some n =>
      if p.rop ≠ c.junctionOp n ∨ p.lines.length ≠ 1 then k.contribDiscard n p.redid 1 p.src
      else
        let k1 := k.contribute n { line := (p.lines.head?).getD 0, tag := 0, seq := 0, och := 0, src := p.src,
                                   count := p.rcount, owes := false, reinj := false, counted := false } p.redid
        { k1 with core := k1.core.noteSat n p.rsat }

def execReduceArrival (c : CoreId) (s : State) : Host.Outcome State Fault Refusal :=
  .next (onArrival c s (fun p => p.op == 6) reduceArrive)

/-- The output channel whose CH_OCRED a SIG names (R183). -/
def creditChannel (p : Packet) : Option Nat :=
  let o := p.off.toNat
  if p.op = 4 ∧ 0x5508 ≤ o ∧ o < 0x5908 ∧ (o - 0x5508) % 0x40 = 0 then some ((o - 0x5508) / 0x40) else none

/-- CREDIT_RETURN_ARRIVAL (R183): the gather count of the message rises, and at RCOUNT the message is complete. -/
def creditArrive (p : Packet) (k : K) : K :=
  let c := k.core
  let m := (creditChannel p).getD 0
  let seq : BitVec 16 := p.head.extractLsb' 0 16
  let o := c.outq.get OutChan.reset m
  if c.abDiscards then { k with core := c.count rDF_ABDISC 1 }
  else if !o.outst.any (fun e => e.seq == seq) then
    let lo := rCH_OCRET + 0x40 * m
    let c1 := c.count lo 1
    K.report { k with core := c1.setReg (lo + 4) (setField (c1.reg (lo + 4)) 31 1 1) } 6 0x62 seq.toNat
      (m * 2 ^ 21 + epBits p.src)
  else
    let rc := field (c.ocfg m) 0 19
    let l := (o.outst.map (fun e => if e.seq = seq then { e with gather := e.gather + 1 } else e)).filter
      (fun e => !(e.seq == seq && rc ≤ e.gather))
    { k with core := { c.count (rCH_OCRET + 0x40 * m) 1 with outq := c.outq.set m { o with outst := l } } }

def execCreditReturnArrival (c : CoreId) (s : State) : Host.Outcome State Fault Refusal :=
  .next (onArrival c s (fun p => (creditChannel p).isSome) creditArrive)

/-! ### The life of a section (R213 to R219) -/

/-- A command of DF_CTRL: only system packets write the register (R231). -/
def dfCommand (c : CoreId) (o : Origin) (s : State) (f : K → K × Option Nat) : State :=
  if s.alive c then
    onCoreSettled c s (fun k => if isSystem o then K.answer (f k) else k.refuse 0x09)
  else s

def execArm (c : CoreId) (o : Origin) (s : State) : Host.Outcome State Fault Refusal := .next (dfCommand c o s K.arm)
def execStart (c : CoreId) (o : Origin) (s : State) : Host.Outcome State Fault Refusal := .next (dfCommand c o s K.start)
def execDfCtrlEnd (c : CoreId) (o : Origin) (s : State) : Host.Outcome State Fault Refusal :=
  .next (dfCommand c o s K.dfEnd)
def execAbort (c : CoreId) (o : Origin) (s : State) : Host.Outcome State Fault Refusal :=
  .next (dfCommand c o s K.dfAbort)
def execClear (c : CoreId) (o : Origin) (s : State) : Host.Outcome State Fault Refusal :=
  .next (dfCommand c o s K.dfClear)

/-- Entries that arrived before RUN, in order of arrival (R207). -/
def Core.waitingOffers (k : Core) : List (Nat × Nat) :=
  let all := (List.range 16).flatMap (fun n =>
    ((k.entries n).filter (fun e => e.whole && !e.offered)).map (fun e => (e.order, n, e.k)))
  (sorted (fun a b => decide (a.1 ≤ b.1)) all).map (fun e => (e.2.1, e.2.2))

/-- Ryist sets FLT_WCTL.EN of a core whose weights it has loaded and locked, once the section boundary has applied their WTOP (R379). -/
def Core.scansOn (k : Core) (loaded : Bool) : Core := if loaded && k.wlock && decide (0 < k.wtop) then k.setWctl true else k

/-- BOUNDARY_COMPLETE (R214): re-encoding has ended, the core is in RUN and offers begin in arrival order. -/
def execBoundaryComplete (c : CoreId) (s : State) : Host.Outcome State Fault Refusal :=
  .next (onLive c s (fun k =>
    if k.core.df == .starting then
      let job := (s.slots.get SectionSlot.reset k.core.slotNo).job.isSome
      let c1 := ({ k.core.setReg rDF_NOPROG 0 with df := .run, recode := 0 } : Core).scansOn job
      { k with core := c1.offerAll c1.waitingOffers }
    else k))

/-- ABORT_COMPLETE (R214, R218): the engine and mover work of an aborting core has finished, and a re-encoding that its START began has
ended; the lead core reports kind 0x68. -/
def execAbortComplete (c : CoreId) (s : State) : Host.Outcome State Fault Refusal :=
  .next (onLive c s (fun k =>
    if k.core.df == .aborting && k.core.enginesIdle then
      K.leadReports { k with core := { k.core with df := .aborted, recode := 0 } }
    else k))

/-- ABORT_LINE_SIGNAL (R219): the abort line of the core's slot reaches it and it enters ABORTING with cause 1. -/
def execAbortLineSignal (c : CoreId) (s : State) : Host.Outcome State Fault Refusal :=
  match (s.slots.get SectionSlot.reset (s.core c).slotNo).abortLine with
  | none => .next s
  | some (_, kind, src) =>
    .next (onLive c s (fun k =>
      if k.core.abortable then { k with core := k.core.enterAbort 1 kind src } else k))

/-- The cores on which a section of slot `n` is configured (R203). -/
def State.coresOfSlot (s : State) (n : Nat) : List CoreId :=
  (s.cores.filter (fun (e : Nat × Core) => e.2.configured && e.2.slotNo == n)).map (fun (e : Nat × Core) => coreAt (e.1 % 558) (e.1 / 558))

/-- PROGRESS_PULSE (R222): when a core of the slot made progress in the interval, every core of the slot in RUN sets DF_NOPROG
to 0. -/
def execProgressPulse (slot : BitVec 6) (s : State) : Host.Outcome State Fault Refusal :=
  let e := s.slots.get SectionSlot.reset slot.toNat
  if !e.progress then .next s
  else
    let cores := (s.coresOfSlot slot.toNat).foldl (fun m c =>
      let k := SMap.get s.blankCore m (coreKey c)
      if k.df == .run then m.set (coreKey c) (k.setReg rDF_NOPROG 0) else m) s.cores
    .next { s with cores := cores, slots := s.slots.set slot.toNat { e with progress := false } }

/-! ### Deadlock and stall (R223, R226 to R228) -/

/-- Channels with a free entry and a record waiting, each re-injecting as often as it has room (R223). -/
def K.reinjectAll (k : K) : Nat → K
  | 0 => k
  | n + 1 =>
    match (List.range 16).find? (fun ch => (k.core.oldestRecord ch).isSome && (k.core.freeEntry ch).isSome) with
    | none => k
    | some ch => K.reinjectAll (k.reinject ch) n

/-- What an episode spills, in order of arrival (R223, R224): every entry of a full channel, of a full junction only the
delivered messages. -/
def Core.toSpill (k : Core) : List (Nat × Nat) :=
  let all := (List.range 16).flatMap (fun n =>
    if k.ichActive n && k.fullQueue n then
      ((k.entries n).filter (fun e => e.whole)).map (fun e => (e.order, n, e.k))
    else [])
  (sorted (fun a b => decide (a.1 ≤ b.1)) all).map (fun e => (e.2.1, e.2.2))

/-- The episode's entries are spilled one after the other, until an abort. -/
def K.spillAll (k : K) : List (Nat × Nat) → K
  | [] => k
  | e :: t => if k.core.df == .run then K.spillAll (k.spillEntry e.1 e.2) t else k

/-- DEADLOCK_DETECTION (R223). -/
def execDeadlockDetection (c : CoreId) (s : State) : Host.Outcome State Fault Refusal :=
  .next (onLive c s (fun k =>
    let co := k.core
    if co.df == .run && field (co.reg rDF_WINDOW) 0 24 ≤ (co.reg rDF_NOPROG).toNat
        && (!co.spill.isEmpty || (List.range 16).any (fun n => 0 < co.used n)) then
      let k1 := K.reinjectAll { k with core := { co with spilling := true } } 224
      let list := k1.core.toSpill
      let k2 := k1.spillAll list
      if k2.core.df != .run then k2
      else
        let re := (pairAt k1.core.regs rDF_REINJ - pairAt co.regs rDF_REINJ).toNat
        let k3 : K := { k2 with core := { k2.core.setReg rDF_NOPROG 0 with spilling := false } }
        if list.isEmpty && re == 0 then k3
        else K.report { k3 with core := k3.core.count rDF_SPILLEV 1 } 7 0x67 list.length (co.secid * 2 ^ 32 + re)
    else k))

/-- RE_INJECTION (R226): a firing or a discard has freed an entry of the channel, and its oldest unbound record takes it. -/
def execReInjection (c : CoreId) (ich : BitVec 4) (s : State) : Host.Outcome State Fault Refusal :=
  .next (onLive c s (fun k =>
    let n := ich.toNat
    let f := k.core.freed.get 0 n
    if k.core.df == .run && 0 < f && (k.core.freeEntry n).isSome then
      K.reinject { k with core := { k.core with freed := k.core.freed.set n (f - 1) } } n
    else k))

/-- STALL_LIMIT (R228): on the lead core. -/
def execStallLimit (c : CoreId) (s : State) : Host.Outcome State Fault Refusal :=
  .next (onLive c s (fun k =>
    let co := k.core
    if co.df == .run && (co.reg rDF_SECCFG).getLsbD 9
        && field (co.reg rDF_STALL) 0 16 * 1024 ≤ (co.reg rDF_NOPROG).toNat then
      (k.report 7 0x66 co.slotNo (co.secid * 2 ^ 32 + (co.reg rDF_NOPROG).toNat)).abortNow 3 0x66
    else k))

/-! ### Power lending (R196) -/

/-- A core waits: its matrix queue is empty, and it is in WAIT or has a section and no running task. -/
def Core.lendable (k : Core) : Bool :=
  k.matQ.isEmpty && (k.waiting.isSome || (k.configured && k.running.isNone))

/-- LENDING_START: after 4,800 consecutive cc of waiting. -/
def execLendingStart (c : CoreId) (s : State) : Host.Outcome State Fault Refusal :=
  .next (onLive c s (fun k =>
    if k.core.lendable && 4800 ≤ k.core.idleCc && k.core.configured then { k with core := { k.core with lent := true } }
    else k))

end Sys2Proof.Machine
end

