-- ==== Sys2Proof/Machine/Sync.lean ====
section
/-! DEFINITION. The sync unit: counters, signals, atomics, watches and waits (R189 to R196). -/

namespace Sys2Proof.Machine

/-! ### Counters (R189) -/

/-- The number of the counter a space 1 offset names as SY_CNTn_LO (R190). -/
def counterAt (off : Nat) : Option Nat :=
  if rSY_CNT ≤ off ∧ off < rSY_CNT + 0x100 ∧ off % 8 = 0 then some ((off - rSY_CNT) / 8) else none

/-- A counter set, with the watches on it evaluated (R189). -/
def K.setCounter (k : K) (n : Nat) (v : DWord) : K :=
  K.wroteCounter { k with core := { k.core with regs := setPair k.core.regs (rSY_CNT + 8 * n) v } } n

/-- SIG: a space 1 address of a counter within the grid; a signal to the own core takes effect at once (R190). -/
def sigBody (a b : SReg) (pc : Nat) (_w : Word) (k : K) : K :=
  k.whenReady [a, b] (fun k =>
    let ad := k.core.sreg a
    let v := k.core.sreg b
    match counterAt (addrOff40 ad) with
    | none => k.accessError pc ad
    | some n =>
      if addrSpace ad ≠ 1 ∨ !onGrid (addrCore ad) then k.accessError pc ad
      else if addrCore ad = k.c then (k.setCounter n (k.core.counter n + v)).advance
      else (k.sendTo ad (k.packet 4 1 (addrOff40 ad) 3 0 0 (headOf v.toNat) [])).advance)

def execSig (c : CoreId) (a b : SReg) (s : State) : Host.Outcome State Fault Refusal :=
  issue c (.sig c a b) s (sigBody a b)

/-- SIG_ARRIVAL: a SIG packet adds its payload to a counter; another target is invalid (R189, R190, R201). -/
def sigArrive (p : Packet) (k : K) : K :=
  match counterAt p.off.toNat with
  | some n => K.setCounter { k with core := k.core.count rSY_SIGS 1 } n (k.core.counter n + p.head.extractLsb' 0 64)
  | none =>
    K.report { k with core := k.core.setReg (rSY_SIGS + 4) (setField (k.core.reg (rSY_SIGS + 4)) 31 1 1) } 5 0x63
      (p.off.toNat % 65536) (epBits p.src)

def execSigArrival (c : CoreId) (s : State) : Host.Outcome State Fault Refusal :=
  .next (onArrival c s (fun p => p.op == 4 && (creditChannel p).isNone) sigArrive)

/-! ### Answers of the core's router -/

/-- An answer leaves for the source of a request (R145), like every packet of the core with the PID and SYS of its router (R170). -/
def K.reply (k : K) (p : Packet) (op : Nat) (aux : Nat) (sz len : Nat) (head : BitVec 384) (ls : List Line) : K :=
  k.sendEp { k.packet op 0 0 sz len p.txid head ls with dst := p.src, aux := BitVec.ofNat 8 aux }

/-- ERR with a code (R146), ACK for one position or with counts, and read data. -/
def K.replyErr (k : K) (p : Packet) (code : Nat) : K := k.reply p 11 code 0 0 0 []
def K.replyAck (k : K) (p : Packet) : K := k.reply p 10 0 0 0 (headOf 1) []
def K.replyData8 (k : K) (p : Packet) (sz : Nat) (v : Nat) : K := k.reply p 9 0 sz 0 (headOf v) []
def K.replyLines (k : K) (p : Packet) (ls : List Line) : K := k.reply p 9 0 (ls.length + 3) ls.length 0 ls

/-- The `n` bytes of a sub-line write in its head (R142); a multicast write's bytes 16 to 31 hold its mask, and its data stands
in the 16 bytes after it (DESIGN CHOICE, log entry 23). -/
def Packet.sub (p : Packet) (n : Nat) : DWord :=
  headPart (if p.op = 7 then p.head >>> 128 else p.head) n p.off.toNat

/-- A multicast write is answered by counts: written, passed by, refused (R163). -/
def K.replyCount (k : K) (p : Packet) (done skip refused : Nat) : K :=
  k.reply p 10 0 0 0 (headOf (done + skip * 2 ^ 20 + refused * 2 ^ 40)) []

/-! ### Atomics (R191) -/

/-- The new value of the word by AUX code. -/
def atomNew (aux : Nat) (old a b : DWord) : DWord :=
  match aux with
  | 1 => old + a
  | 2 => a
  | 3 => if old = b then a else old
  | 4 => if old.toNat < a.toNat then a else old
  | 5 => old &&& a
  | _ => old ||| a

/-- An atomic operation on an aligned word of the core's scratchpad: the old value, or an error code (R112, R191, R437). -/
def K.atomPad (k : K) (agent : Nat) (req : Option CoreId) (off aux : Nat) (a b : DWord) : K × DWord × Option Nat :=
  match k.core.refusal true off with
  | some kind => (k.spErr agent kind off 0 req, 0, some 0x07)
  | none =>
    if k.core.inWeights off then
      let old := lineDWord (k.core.scanLine (off / 64 * 64)).data (off % 64 / 8)
      let w := k.writeBytes agent req off (leBytes 8 (atomNew aux old a b).toNat)
      (w.1, old, if w.2 then none else some 0x07)
    else
      let r := k.readLine agent req off
      let old := lineDWord r.2.1 (off % 64 / 8)
      if agent = agNET ∧ r.2.2 = .bad then (r.1, old, some 0x08)
      else ((r.1.writeBytes agent req off (leBytes 8 (atomNew aux old a b).toNat)).1, old, none)

/-- An ATOM instruction (R191): wherever its word lies, it occupies a transaction slot of the sequencer; one on the core's own word is over
as it issues. -/
def atomBody (aux : Nat) (d a b : SReg) (pc : Nat) (_w : Word) (k : K) : K :=
  k.whenReady [d, a, b] (fun k =>
    let ad := k.core.sreg a
    let x := k.core.sreg b
    let y := k.core.sreg d
    if !aligned ad 8 then k.misaligned pc ad
    else if (k.core.freeSlot 0 8).isNone then k.stall
    else match addrClass k.c ad with
      | .pad off =>
        if padSize ≤ off then k.accessError pc ad
        else if k.core.padHeld off || k.core.hazard k.core.num [off] [off] then k.stallBank off
        else
          let r := k.atomPad agSEQ none off aux x y
          match r.2.2 with
          | some _ => r.1.accessError pc ad
          | none => K.advance { r.1 with core := r.1.core.setS d r.2.1 }
      | .ownReg off =>
        match counterAt off with
        | none => k.accessError pc ad
        | some n =>
          let old := k.core.counter n
          let k1 := k.setCounter n (atomNew aux old x y)
          K.advance { k1 with core := k1.core.setS d old }
      | .remote =>
        match k.core.freeSlot 0 8 with
        | none => k.stall
        | some i =>
          let k1 := K.take { k with core := if buffered ad then k.core.rlbDrop ad else k.core } i (.atom d ad pc)
          let p := k.packet 2 (addrSpace ad) (pktOff ad) 3 0 (k.core.txid i) (headOf (x.toNat + 2 ^ 64 * y.toNat)) []
          K.advance (k1.sendTo ad { p with aux := BitVec.ofNat 8 aux }))

def execAtomFadd (c : CoreId) (d a b : SReg) (s : State) : Host.Outcome State Fault Refusal :=
  issue c (.atomFadd c d a b) s (atomBody 1 d a b)
def execAtomSwap (c : CoreId) (d a b : SReg) (s : State) : Host.Outcome State Fault Refusal :=
  issue c (.atomSwap c d a b) s (atomBody 2 d a b)
def execAtomCas (c : CoreId) (d a b : SReg) (s : State) : Host.Outcome State Fault Refusal :=
  issue c (.atomCas c d a b) s (atomBody 3 d a b)
def execAtomUmax (c : CoreId) (d a b : SReg) (s : State) : Host.Outcome State Fault Refusal :=
  issue c (.atomUmax c d a b) s (atomBody 4 d a b)
def execAtomAnd (c : CoreId) (d a b : SReg) (s : State) : Host.Outcome State Fault Refusal :=
  issue c (.atomAnd c d a b) s (atomBody 5 d a b)
def execAtomOr (c : CoreId) (d a b : SReg) (s : State) : Host.Outcome State Fault Refusal :=
  issue c (.atomOr c d a b) s (atomBody 6 d a b)

/-- The logical core a request came from, as refusal messages name it; none for a T port (R138). -/
def K.requester (k : K) (p : Packet) : Option CoreId :=
  if p.src.ext then none else logOf k.skips p.src.px.toNat p.src.py.toNat

/-- ATOM_AT_HOME (R191): on a scratchpad word or a counter of the core. -/
def atomArrive (p : Packet) (k : K) : K :=
  let off := p.off.toNat
  let a : DWord := p.head.extractLsb' 0 64
  let b : DWord := p.head.extractLsb' 64 64
  if p.aux.toNat = 0 ∨ 6 < p.aux.toNat ∨ off % 8 ≠ 0 then k.replyErr p 0x0B
  else if p.space = 0 then
    if padSize ≤ off then k.replyErr p 0x06
    else
      let r := k.atomPad agNET (k.requester p) off p.aux.toNat a b
      match r.2.2 with
      | some code => r.1.replyErr p code
      | none => r.1.replyData8 p 3 r.2.1.toNat
  else
    match counterAt off with
    | none => k.replyErr p 0x09
    | some n =>
      let old := k.core.counter n
      (k.setCounter n (atomNew p.aux.toNat old a b)).replyData8 p 3 old.toNat


/-! ### Watches (R192, R193) -/

/-- The free watch entry with the lowest number. -/
def Core.freeWatch (k : Core) : Option Nat := (List.range 16).find? (fun i => (k.watches.get none i).isNone)

/-- Reserved bits of a watch request are 0 (R192). -/
def watchReserved (l : Line) : Bool :=
  let c := lineDWord l 1
  field c 23 9 == 0 && field c 56 8 == 0 && l.toNat / 2 ^ 128 == 0

/-- Why a watch request is refused (R192). -/
def Core.watchRefusal (k : Core) (l : Line) : Option Nat :=
  let w : Watch := { value := lineDWord l 0, ctrl := lineDWord l 1, sys := false }
  let cancel := w.ctrl.getLsbD 22
  if !watchReserved l || w.cond == 3 || (!cancel && k.freeWatch.isNone) then some 0x09
  else if (if w.onCounter then 31 < w.target else padSize ≤ w.target || w.target % 8 != 0) || !onGrid w.waiter then some 0x0B
  else if !w.onCounter && (k.reserved w.target || !(k.bank (bankOf w.target)).serves) then some 0x07
  else none

/-- The bits that name an entry to cancel: TARGET, TSEL, RX, RY and RCH. -/
def Watch.name (w : Watch) : DWord := w.ctrl &&& 0x00FFFFFF000FFFFF#64

/-- A watch request is registered, with its first evaluation, or cancels the entry it names (R192, R193). -/
def K.register (k : K) (l : Line) (sys : Bool) : K × Option Nat :=
  match k.core.watchRefusal l with
  | some e => (k, some e)
  | none =>
    let w : Watch := { value := lineDWord l 0, ctrl := lineDWord l 1, sys := sys }
    if w.ctrl.getLsbD 22 then
      match (List.range 16).find? (fun i => match k.core.watches.get none i with
          | some e => e.name == w.name
          | none => false) with
      | none => (k, none)
      | some i => ({ k with core := { k.core with watches := k.core.watches.set i none } }, none)
    else
      match k.core.freeWatch with
      | none => (k, some 0x09)
      | some i =>
        let k1 : K := { k with core := { k.core with watches := k.core.watches.set i (some w) } }
        let v := k1.core.watched w
        (if w.holds v then k1.fire i w v else k1, none)

/-- WATCH (R192). -/
def watchBody (d a b : SReg) (pc : Nat) (_w : Word) (k : K) : K :=
  k.whenReady [d, a, b] (fun k =>
    let there := k.core.sreg b
    k.ownLine pc (k.core.sreg a) (fun k l =>
      let done := fun (k : K) (v : Nat) => K.advance { k with core := k.core.setS d (BitVec.ofNat 64 v) }
      if addrSpace there ≠ 1 then done k 0x0B
      else if !onGrid (addrCore there) then done k 0x06
      else if addrCore there = k.c then
        let r := k.register l (field (k.rt.reg rRT_PID) 29 1 == 1)
        done r.1 (r.2.getD 0)
      else
        match k.core.freeSlot 0 8 with
        | none => k.stall
        | some i =>
          K.advance ((k.take i (.watch d (mkAddr 1 (addrCore there) rSY_WREQ) pc)).sendTo (mkAddr 1 (addrCore there) rSY_WREQ)
            (k.packet 1 1 rSY_WREQ 4 1 (k.core.txid i) 0 [l]))))

def execWatch (c : CoreId) (d a b : SReg) (s : State) : Host.Outcome State Fault Refusal :=
  issue c (.watch c d a b) s (watchBody d a b)

/-- A write of one line to SY_WREQ. -/
def isWatchRequest (p : Packet) : Bool := p.op == 1 && p.space == 1 && p.off == 0x4300 && p.sz == 4

/-- WATCH_REQUEST (R192): acknowledged or refused. -/
def execWatchRequest (c : CoreId) (s : State) : Host.Outcome State Fault Refusal :=
  .next (onArrival c s isWatchRequest (fun p k =>
    let r := k.register ((p.lines.head?).getD 0) p.sys
    match r.2 with
    | none => r.1.replyAck p
    | some e => r.1.replyErr p e))

/-! ### Replies and WAIT (R194) -/

/-- The lowest full reply channel of a mask. -/
def Core.fullReply (k : Core) (mask : BitVec 16) : Option Nat := lowestBit (k.rfull &&& mask)

/-- A WAIT takes a reply channel: its bit clears, the register receives its number, and the WAIT retires (R194, R196). -/
def K.takeReply (k : K) (d : SReg) (ch : Nat) : K :=
  K.advance { k with core := { k.core.setS d (BitVec.ofNat 64 ch) with
    rfull := setField k.core.rfull ch 1 0, waiting := none, lent := false, idleCc := 0 } }

/-- WAIT: an empty mask is an illegal instruction; with a message present it retires at once, otherwise it holds the
sequencer. -/
def waitBody (d a b : SReg) (pc : Nat) (w : Word) (k : K) : K :=
  k.whenReady [d, a, b] (fun k =>
    let mask : BitVec 16 := (k.core.sreg a).extractLsb' 0 16
    if mask = 0 then k.execFault 0 0x50 pc pc w.toNat
    else
      let k1 : K := { k with core := k.core.count rSY_WAITCYC 1 }
      match k.core.fullReply mask with
      | some ch => k1.takeReply d ch
      | none =>
        { k1 with core := { k1.core with
            seq := .stall, waiting := some { d := d, mask := mask, limit := k.core.sreg b, elapsed := 1 } } })

def execWait (c : CoreId) (d a b : SReg) (s : State) : Host.Outcome State Fault Refusal :=
  issue c (.wait c d a b) s (waitBody d a b)

/-- WAIT_EXPIRY: s[b] cc have passed without an arrival (R194). -/
def execWaitExpiry (c : CoreId) (s : State) : Host.Outcome State Fault Refusal :=
  .next (onLive c s (fun k =>
    match k.core.waiting with
    | none => k
    | some w =>
      if k.core.df == .run && w.limit != 0 && decide (w.limit.toNat ≤ w.elapsed) && (k.core.fullReply w.mask).isNone then
        K.advance { k with core := { k.core.setS w.d 0xFFFFFFFFFFFFFFFF with waiting := none, lent := false, idleCc := 0 } }
      else k))

/-- The reply channel a WMSG names (R193). -/
def replyAt (off : Nat) : Option Nat :=
  if rSY_RVAL ≤ off ∧ off < rSY_RVAL + 0x80 ∧ off % 8 = 0 then some ((off - rSY_RVAL) / 8) else none

/-- WMSG_ARRIVAL (R194). -/
def wmsgArrive (p : Packet) (k : K) : K :=
  match replyAt p.off.toNat with
  | none => k.report 5 0x63 (p.off.toNat % 65536) (epBits p.src)
  | some ch =>
    let c := if k.core.rfull.getLsbD ch then k.core.count rSY_OVERRUN 1 else k.core
    let c1 : Core := { c with
      rfull := setField c.rfull ch 1 1
      regs := (setPair c.regs (rSY_RVAL + 8 * ch) (p.head.extractLsb' 0 64)).set (rSY_RSRC + 4 * ch)
        (place 32 0 21 (epBits p.src)) }
    let k1 : K := { k with core := c1 }
    match c1.waiting with
    | some w => if w.mask.getLsbD ch then k1.takeReply w.d ch else k1
    | none => k1

def execWmsgArrival (c : CoreId) (s : State) : Host.Outcome State Fault Refusal :=
  .next (onArrival c s (fun p => p.op == 5) wmsgArrive)

end Sys2Proof.Machine
end

