-- ==== Sys2Proof/Machine/Network.lean ====
section
/-! DEFINITION. Packets in flight: injection, forwarding hop by hop, multicast, merging, the ring lines, delivery and what a router
answers (R33, R139 to R172). Buffers, arbitration and latencies are left out (log entry 22). -/

namespace Sys2Proof.Machine

/-! ### Routers -/

/-- A router's registers updated. -/
def State.onRouter (s : State) (px py : Nat) (f : Router → Router) : State := s.setRouter px py (f (s.router px py))

/-- A router or station sends a fault message; the core of its position counts it (R177, R385, R400). -/
def State.routerReport (s : State) (px py block kind detail addr : Nat) : State :=
  let m := mkMsg px py (s.cycle (fieldOfPhys px py)) block kind detail addr
  let s1 : State := { s with transit := s.transit ++ [m] }
  match logOf s.fp.skips px py with
  | none => s1
  | some c => s1.setCore c ((s1.core c).noteMsg m)

/-- A router counts and reports at once. -/
def State.routerEvent (s : State) (px py ctr kind detail addr : Nat) : State :=
  (s.onRouter px py (fun r => r.count ctr 1)).routerReport px py 10 kind detail addr

/-- An answer that a router itself sends (R33, R156, R171), with the PID and SYS of its own RT_PID, as every packet that leaves it
(R170). -/
def State.routerAnswer (s : State) (px py : Nat) (p : Packet) (op code : Nat) (head : BitVec 384) : State :=
  let q : Packet := { p with op := BitVec.ofNat 4 op, aux := BitVec.ofNat 8 code, off := 0, space := 0,
                             src := endpointAt px py, dst := p.src, sz := 0, len := 0, rclass := 0, wpy := 0,
                             head := head, lines := [], killed := false
                             sys := field ((s.router px py).reg rRT_PID) 29 1 == 1
                             pid := BitVec.ofNat 4 (field ((s.router px py).reg rRT_PID) 0 4) }
  { s with inj := s.inj ++ [{ pkt := q, addr := none, core := false }] }

/-- A request refused by a router is answered with ERR, or for a multicast write with a refused position (R163). -/
def State.routerRefuse (s : State) (px py : Nat) (p : Packet) (code : Nat) : State :=
  if p.op = 7 then s.routerAnswer px py p 10 0 (headOf (2 ^ 40)) else s.routerAnswer px py p 11 code 0

/-! ### Injection (R156, R160, R170, R172, R268) -/

/-- An answer that the source router gives its own core or T port. -/
def State.localErr (s : State) (src : Endpoint) (p : Packet) (code : Nat) : State :=
  let q : Packet := { p with op := 11, aux := BitVec.ofNat 8 code, src := src, dst := src, sz := 0, len := 0, head := 0,
                             lines := [], off := 0, space := 0, rclass := 0 }
  if src.ext then
    { s with flights := s.flights ++ [{ pkt := q, loc := .tport src.px.toNat src.py.toNat, fresh := false, cast := .single }] }
  else
    match logOf s.fp.skips src.px.toNat src.py.toNat with
    | none => s
    | some c => { s with inbox := s.inbox ++ [(c, q)] }

/-- A packet enters the mesh at its source router's port. -/
def State.launch (s : State) (p : Packet) (cast : Cast) : State :=
  let px := p.src.px.toNat
  let py := p.src.py.toNat
  { s with flights := s.flights ++ [{ pkt := p, loc := .router px py (if p.src.ext then 7 else 0), fresh := true, cast := cast }] }

/-- The flits of a packet that goes no further than its source router have still been received there (R176). -/
def State.received (s : State) (px py n : Nat) : State := s.onRouter px py (fun r => r.count rRT_FLITSIN n)

/-- No route: counted and reported (R156). -/
def State.noRoute (s0 : State) (p : Packet) (dst : Endpoint) : State :=
  let s := s0.received p.src.px.toNat p.src.py.toNat p.flits
  let s1 := s.routerEvent p.src.px.toNat p.src.py.toNat rRT_NOROUTE 0x24 p.op.toNat (epBits dst)
  if p.expectsAnswer then s1.localErr p.src p 0x04 else s1

/-- A packet with its destination: its class is chosen and it enters the mesh (R151, R156). REDUCE packets travel by mesh
(R164). -/
def State.route (s : State) (p : Packet) : State :=
  let ax := p.src.px.toNat
  let ay := p.src.py.toNat
  let bx := p.dst.px.toNat
  let bY := p.dst.py.toNat
  if s.map.deadAt bx bY then s.launch { p with rclass := 0 } .single
  else
    let xen := ((s.router ax ay).reg rRT_ROUTE).getLsbD 0 && p.op != 6
    match s.map.routeClass xen ax ay bx bY with
    | some 2 =>
      if p.op = 6 then s.noRoute p p.dst
      else s.launch { p with rclass := 2, wpy := BitVec.ofNat 10 bY } .single
    | some n => s.launch { p with rclass := BitVec.ofNat 2 n } .single
    | none => s.noRoute p p.dst

/-- The tree of a multicast packet would enter a dead field (R162). -/
def State.treeDead (s : State) (p : Packet) : Bool :=
  let ax := p.src.px.toNat
  let ay := p.src.py.toNat
  let span := maskSpan s.map p
  let lo := min ax span.1
  let hi := max ax span.2
  let cols := (List.range (span.2 - span.1 + 1)).map (fun i => span.1 + i)
  !s.map.rowOpen lo hi ay ||
    cols.any (fun x => !s.map.colOpen x (min ay (maskY0 p)) (max ay ((maskYs p).foldl max 0)))

/-- A multicast packet at its source (R160, R162). -/
def State.routeCast (s : State) (p : Packet) : State :=
  let ax := p.src.px.toNat
  let ay := p.src.py.toNat
  if !maskOk p then
    let s0 := s.received ax ay p.flits
    if p.op = 7 then s0.localErr p.src p 0x0B
    else s0.routerEvent ax ay rRT_INVAL 0x29 p.op.toNat (epBits p.src)
  else if s.treeDead p then s.noRoute p p.src
  else s.launch { p with rclass := 0, dst := noEndpoint } .source

/-- A packet at its source router: checked, resolved and sent on its way (R145, R156, R268). -/
def State.inject (s : State) (e : Sent) : State :=
  let p := e.pkt
  let ax := p.src.px.toNat
  let ay := p.src.py.toNat
  if !p.valid then (s.received ax ay p.flits).routerEvent ax ay rRT_INVAL 0x29 p.op.toNat (epBits p.src)
  else if p.multicast then s.routeCast p
  else
    match e.addr with
    | none => s.route p
    | some a =>
      match s.resolve a with
      | .dst d => s.route { p with dst := d }
      | .err code lost =>
        let s0 := s.received ax ay p.flits
        let s1 := if lost then
            s0.routerReport ax ay 10 0xC2
              (p.pid.toNat * 2 ^ 12 + p.sys.toNat * 2 ^ 11 + (s.omPlace (addrOff44 a)).t * 2 ^ 8 + 3) (addrOff44 a)
          else s0
        if p.expectsAnswer then s1.localErr p.src p code else s1

/-- PACKET_INJECTION: the oldest packet of a source that its router may inject; with the firewall closed nothing with SYS 0
leaves the core, while the router's own answers do (R172). -/
def execPacketInjection (src : Endpoint) (s : State) : Host.Outcome State Fault Refusal :=
  if !s.bu.power || s.fieldDead (fieldOfPhys src.px.toNat src.py.toNat) then .next s
  else
    let closed := !src.ext && ((s.router src.px.toNat src.py.toNat).reg rRT_PID).getLsbD 31
    match takeFirst (fun (e : Sent) => e.pkt.src == src && (!closed || e.pkt.sys || !e.core)) s.inj with
    | none => .next s
    | some (e, rest) => .next (State.inject { s with inj := rest } e)

/-! ### Forwarding (R151, R161, R165 to R167) -/

/-- A neighbouring router, with the input port by which it is reached: 1 W, 2 E, 3 S, 4 N (R139). -/
def towards (ax ay bx bY : Nat) : Option (Nat × Nat × Nat) :=
  if ax < bx then some (ax + 1, ay, 1)
  else if bx < ax then some (ax - 1, ay, 2)
  else if ay < bY then some (ax, ay + 1, 3)
  else if bY < ay then some (ax, ay - 1, 4)
  else none

/-- Where a packet goes from a router by mesh links: none where it waits there for a ramp, a relay or its delivery
(R151, R155, R156). -/
def nextHop (p : Packet) (px py : Nat) : Option (Nat × Nat × Nat) :=
  let bx := p.dst.px.toNat
  let bY := p.dst.py.toNat
  match p.rclass.toNat with
  | 1 =>
    if px / 8 = bx / 8 ∧ py / 8 = bY / 8 then towards px py bx bY
    else towards px py (8 * (px / 8) + 4) (8 * (py / 8) + 4)
  | 2 => towards px py px p.wpy.toNat
  | _ => towards px py bx bY

/-- A router forwards nothing: its field has died (R29), or the route map names it dead (R150). -/
def State.stops (s : State) (px py : Nat) : Bool := s.fieldDead (fieldOfPhys px py) || s.map.deadAt px py

/-- A packet that a dead field stops, at the last live router of its path (R33). A killed packet is not answered (R167). -/
def State.deadEnd (s : State) (p : Packet) (px py : Nat) : State :=
  if p.killed then s
  else if p.expectsAnswer then s.routerRefuse px py p 0x03
  else s.routerEvent px py rRT_DISCARD 0x23 (3 * 16 + p.op.toNat) (epBits p.src)

/-- The flights without one, or with one replaced. -/
def State.dropFlight (s : State) (f : Nat) : State := { s with flights := dropAt s.flights f }
def State.setFlight (s : State) (f : Nat) (x : Flight) : State := { s with flights := updAt (fun _ => x) s.flights f }

/-- Flits pass from one router to a neighbour (R176). -/
def State.passed (s : State) (px py n : Nat) : State := s.onRouter px py (fun r => r.count rRT_FLITSOUT n)

/-- A packet is the acknowledgement of a multicast write that merges with another at the same place: both count positions of one write,
and neither is killed (R163). -/
def Flight.mergesAck (x y : Flight) : Bool :=
  x.pkt.op == 10 && y.pkt.op == 10 && x.loc == y.loc && y.fresh && x.cast == .single && y.cast == .single && x.pkt.dst == y.pkt.dst
    && x.pkt.txid == y.pkt.txid && x.pkt.rclass == y.pkt.rclass && x.pkt.pid == y.pkt.pid && x.pkt.sys == y.pkt.sys
    && !x.pkt.killed && !y.pkt.killed

/-- The counts of two acknowledgements added (R163). -/
def addCounts (a b : BitVec 384) : BitVec 384 :=
  headOf (field a 0 20 + field b 0 20 + (field a 20 20 + field b 20 20) * 2 ^ 20 + (field a 40 20 + field b 40 20) * 2 ^ 40)

/-- Flight `f` becomes `x`, which a router has sent on; an acknowledgement that meets another of the same write on its way merges with it and
takes no flit of its own (R163). The Boolean tells whether it merged. -/
def State.sendOn (s : State) (f : Nat) (x : Flight) : State × Bool :=
  match (List.range s.flights.length).find? (fun i => i != f && (match s.flights[i]? with
      | some y => x.mergesAck y
      | none => false)) with
  | none => (s.setFlight f x, false)
  | some i =>
    ({ s with flights := dropAt (updAt (fun (y : Flight) => { y with pkt := { y.pkt with head := addCounts x.pkt.head y.pkt.head } })
        s.flights i) f }, true)

/-- A packet moves on from a router, or leaves it for the relay or the T port it has come to, or stays for the command that takes it
further. -/
def State.moveOn (s : State) (f : Nat) (x : Flight) (px py : Nat) : State :=
  match nextHop x.pkt px py with
  | none =>
    if x.pkt.rclass = 2 then (s.setFlight f { x with loc := .relay px py, fresh := true }).passed px py x.pkt.flits
    else if x.pkt.dst = { ext := true, px := BitVec.ofNat 10 px, py := BitVec.ofNat 10 py } then
      (s.setFlight f { x with loc := .tport px py, fresh := true }).passed px py x.pkt.flits
    else s.setFlight f { x with fresh := false }
  | some (qx, qy, port) =>
    if s.stops qx qy then (s.dropFlight f).deadEnd x.pkt px py
    else
      let r := s.sendOn f { x with loc := .router qx qy port, fresh := true }
      if r.2 then r.1 else r.1.passed px py x.pkt.flits

/-- A copy for a neighbour on the tree. -/
def castCopy (x : Flight) (qx qy port : Nat) (c : Cast) : Flight :=
  { x with loc := .router qx qy port, fresh := true, cast := c }

/-- The targets of a multicast packet in the part of its tree that a copy would have reached. -/
def lostTargets (m : RouteMap) (x : Flight) : Nat :=
  ((maskYs x.pkt).map (fun y => ((maskXs x.pkt).filter (fun lx =>
    let px := (physOf m.skips lx y).1
    match x.loc, x.cast with
    | .router qx _ _, .east => decide (qx ≤ px)
    | .router qx _ _, .west => decide (px ≤ qx)
    | .router qx qy _, .north => px == qx && decide (qy ≤ y)
    | .router qx qy _, .south => px == qx && decide (y ≤ qy)
    | _, _ => false)).length)).sum

/-- A copy that a stopped router cannot take is treated as R33 treats a dead target, at the last live router: of a multicast write as many
positions are refused as lie behind it, and a multicast token is discarded; both are reported (R33, R162, R163). -/
def State.deadCopy (s : State) (px py : Nat) (x : Flight) : State :=
  let n := lostTargets s.map x
  if x.pkt.killed || n == 0 then s
  else if x.pkt.op = 7 then
    (s.routerAnswer px py x.pkt 10 0 (headOf (n * 2 ^ 40))).routerReport px py 10 0x23 (3 * 16 + 7) (epBits x.pkt.src)
  else s.deadEnd x.pkt px py

/-- A multicast packet at a router of its tree: copies along the row and the column, and one for the core above when its
logical position is a target (R161). -/
def State.spread (s : State) (f : Nat) (x : Flight) (px py : Nat) : State :=
  let span := maskSpan s.map x.pkt
  let y0 := maskY0 x.pkt
  let y1 := (maskYs x.pkt).foldl max 0
  let onRow := x.cast == .source || x.cast == .east || x.cast == .west
  let inSpan := span.1 ≤ px && px ≤ span.2
  let east := if (x.cast == .source || x.cast == .east) && decide (px < span.2) then [castCopy x (px + 1) py 1 .east] else []
  let west := if (x.cast == .source || x.cast == .west) && decide (span.1 < px) then [castCopy x (px - 1) py 2 .west] else []
  let north := if ((onRow && inSpan) || x.cast == .north) && decide (py < y1) then [castCopy x px (py + 1) 3 .north] else []
  let south := if ((onRow && inSpan) || x.cast == .south) && decide (y0 < py) then [castCopy x px (py - 1) 4 .south] else []
  let here := match logOf s.map.skips px py with
    | none => []
    | some c => if maskHas x.pkt c.x.toNat c.y.toNat then
        [{ x with pkt := { x.pkt with dst := endpointAt px py }, fresh := false, cast := Cast.single }] else []
  let all := east ++ west ++ north ++ south
  let goes := fun (y : Flight) =>
    match y.loc with
    | .router qx qy _ => !s.stops qx qy
    | _ => true
  let out := all.filter goes
  let s1 := State.passed { s with flights := dropAt s.flights f ++ (out ++ here) } px py (out.length * x.pkt.flits)
  (all.filter (fun y => !goes y)).foldl (fun a y => a.deadCopy px py y) s1

/-- A merge slot that holds a REDID (R165). -/
def Router.slotFor (r : Router) (redid : Nat) : Option Nat :=
  (List.range 8).find? (fun n =>
    let w := r.reg (rRT_RED + 0x20 * n)
    w.getLsbD 31 && field w 0 12 == redid)

/-- Contributions a port has given a slot, and those it expects (R165). -/
def Router.got (r : Router) (n port : Nat) : Nat :=
  (((r.held.get [] n).filter (fun e => e.port == port)).map (fun e => e.pkt.rcount)).sum
def Router.expected (r : Router) (n port : Nat) : Nat := field (r.reg (rRT_RED + 0x20 * n + 4 + 4 * port)) 0 19

/-- The slot is invalidated, or discards what an invalidated slot receives (R166). -/
def State.mergeBad (s : State) (px py n : Nat) (p : Packet) (first : Bool) : State :=
  let held := ((s.router px py).held.get [] n).length
  let s1 := s.onRouter px py (fun r =>
    let a := r.setReg (rRT_RED + 0x20 * n) (r.reg (rRT_RED + 0x20 * n) ||| 0x40000000#32)
    { (a.count rRT_REDERR (1 + (if first then held else 0))) with held := a.held.del n })
  if first then s1.routerReport px py 10 0x27 p.redid n else s1

/-- A REDUCE packet that reaches a router with a slot for it is absorbed (R165, R166); a killed one has no effect there (R167). -/
def State.absorb (s : State) (f : Nat) (x : Flight) (px py port n : Nat) : State :=
  let r := s.router px py
  let w := r.reg (rRT_RED + 0x20 * n)
  let s1 := s.dropFlight f
  if x.pkt.killed then s1
  else if w.getLsbD 30 then s1.mergeBad px py n x.pkt false
  else if x.pkt.rop ≠ field w 28 2 ∨ x.pkt.lines.length ≠ field w 24 3 ∨ r.expected n port < r.got n port + x.pkt.rcount
  then s1.mergeBad px py n x.pkt true
  else s1.onRouter px py (fun r => { r with held := SMap.upd [] r.held n (fun l => l ++ [{ port := port, pkt := x.pkt }]) })

/-- An earlier packet of the same source, destination and VC still stands where this one does (R149, R157). -/
def overtakes (fs : List Flight) (f : Nat) (x : Flight) : Bool :=
  (fs.take f).any (fun y => y.loc == x.loc && y.cast == x.cast && y.pkt.src == x.pkt.src && y.pkt.dst == x.pkt.dst
    && y.pkt.isResponse == x.pkt.isResponse)

/-- The VC a packet uses at its place, as kind 0x20 codes it (R141, R154). Over the hop that crosses the date line it is still that of
before. -/
def Flight.vc (x : Flight) : Nat :=
  match x.loc with
  | .station _ _ _ side => (if x.pkt.isResponse then 2 else 0) + (side == .after).toNat
  | _ => x.pkt.isResponse.toNat

/-- The flits of a packet are checked where they have arrived (R167). A packet whose head fails is discarded; one with a later flit that fails
goes on as a killed packet; both are counted and reported there. A head that passes but is invalid is discarded (R145). -/
def State.checked (s : State) (f : Nat) (x : Flight) (bad : Option (Nat × BitVec 576)) (px py port block : Nat) : State × Option Packet :=
  match x.pkt.receive x.vc bad with
  | .whole p =>
    if p.valid || p.killed then (s, some p)
    else ((s.dropFlight f).routerEvent px py rRT_INVAL 0x29 p.op.toNat (epBits p.src), none)
  | .fails n =>
    let s1 := (s.onRouter px py (fun r => r.count rRT_CRCDISC 1)).routerReport px py block 0x20
      (port * 2 ^ 13 + x.vc * 2 ^ 11 + (if n = 0 then 2 ^ 10 else 0)) 0
    if n = 0 then (s1.dropFlight f, none) else (s1, some (x.pkt.kill n))

/-- The ring router of a station (R152). -/
def stationRouter (yAxis : Bool) (line pos : Nat) : Nat × Nat :=
  let st := ringStation pos
  if yAxis then (8 * line + 4, 8 * st + 4) else (8 * st + 4, 8 * line + 4)

/-- The station at which a packet leaves a ring line (R155). -/
def offStation (p : Packet) (yAxis : Bool) : Nat := if yAxis then p.dst.py.toNat / 8 else p.dst.px.toNat / 8

/-- A checked packet at a router goes on, is replicated or is absorbed. -/
def State.forward (s : State) (f : Nat) (x : Flight) (px py port : Nat) : State :=
  if x.cast ≠ .single then s.spread f x px py
  else
    match (if x.pkt.op = 6 ∧ port ≤ 4 then (s.router px py).slotFor x.pkt.redid else none) with
    | some n => s.absorb f x px py port n
    | none => s.moveOn f x px py

/-- A checked packet at a station rides to the next, or stays for its off-ramp. Behind the date line it is on the later VC (R154); a station
of a field that has died takes nothing (R29). -/
def State.ride (s : State) (f : Nat) (x : Flight) (yAxis : Bool) (line pos : Nat) (side : DateSide) : State :=
  let here := if side = .crossing then DateSide.after else side
  if pos = ringPos (offStation x.pkt yAxis) then s.setFlight f { x with loc := .station yAxis line pos here, fresh := false }
  else
    let q := (pos + 1) % 72
    let r := stationRouter yAxis line q
    if s.stops r.1 r.2 then
      let r0 := stationRouter yAxis line pos
      (s.dropFlight f).deadEnd x.pkt r0.1 r0.2
    else s.setFlight f { x with loc := .station yAxis line q (if q = 0 then .crossing else here), fresh := true }

/-- FLIT_ARRIVAL: the packet's flits are checked where they have arrived, and the packet goes on over the next link, is
replicated or is absorbed; or it stays there for its delivery, a ramp or a relay (R151 to R154, R161, R165, R167). `bad` is a flit, by
number, that a link has changed, with the bits changed. The relay's check reports the port of its router by which its flits came to it,
L (log entry 106). -/
def execFlitArrival (f : Nat) (bad : Option (Nat × BitVec 576)) (s : State) : Host.Outcome State Fault Refusal :=
  match s.flights[f]? with
  | none => .next s
  | some x =>
    if !x.fresh || overtakes s.flights f x then .next s
    else
      let go := fun (r : State × Option Packet) (next : State → Flight → State) =>
        match r.2 with
        | none => r.1
        | some p => next r.1 { x with pkt := p }
      match x.loc with
      | .router px py port =>
        let s1 := s.received px py x.pkt.flits
        .next (go (s1.checked f x bad px py port 10) (fun a y => a.forward f y px py port))
      | .station yAxis line pos side =>
        let r := stationRouter yAxis line pos
        .next (go (s.checked f x bad r.1 r.2 (if yAxis then 6 else 5) 11) (fun a y => a.ride f y yAxis line pos side))
      | .relay px py => .next (go (s.checked f x bad px py 0 10) (fun a y => a.setFlight f { y with fresh := false }))
      | .tport px py => .next (go (s.checked f x bad px py 7 10) (fun a y => a.setFlight f { y with fresh := false }))

/-- RING_ON_RAMP: a packet of an express route waiting at its ring router joins the line it needs (R148, R154, R155). -/
def execRingOnRamp (f : Nat) (s : State) : Host.Outcome State Fault Refusal :=
  match s.flights[f]? with
  | none => .next s
  | some x =>
    match x.loc with
    | .router px py _ =>
      let gx := px / 8
      let gy := py / 8
      if x.fresh || x.pkt.rclass ≠ 1 || px % 8 ≠ 4 || py % 8 ≠ 4 || overtakes s.flights f x then .next s
      else if gx ≠ x.pkt.dst.px.toNat / 8 then
        .next ((s.setFlight f { x with loc := .station false gy (ringPos gx) .before, fresh := true }).passed px py x.pkt.flits)
      else if gy ≠ x.pkt.dst.py.toNat / 8 then
        .next ((s.setFlight f { x with loc := .station true gx (ringPos gy) .before, fresh := true }).passed px py x.pkt.flits)
      else .next s
    | _ => .next s

/-- RING_OFF_RAMP: a packet at its station leaves the ring for the ring router (R148, R155). -/
def execRingOffRamp (f : Nat) (s : State) : Host.Outcome State Fault Refusal :=
  match s.flights[f]? with
  | none => .next s
  | some x =>
    match x.loc with
    | .station yAxis line pos _ =>
      if x.fresh || overtakes s.flights f x then .next s
      else
        let r := stationRouter yAxis line pos
        .next (s.setFlight f { x with loc := .router r.1 r.2 (if yAxis then 6 else 5), fresh := true })
    | _ => .next s

/-- WAYPOINT_RELAY: the relay takes the whole packet, sets RCLASS to 0 and sends it on its second leg (R156). -/
def execWaypointRelay (f : Nat) (s : State) : Host.Outcome State Fault Refusal :=
  match s.flights[f]? with
  | none => .next s
  | some x =>
    match x.loc with
    | .relay px py =>
      if x.fresh || overtakes s.flights f x then .next s
      else .next (s.moveOn f { x with pkt := { x.pkt with rclass := 0 } } px py)
    | _ => .next s

/-- REDUCE_MERGE_SEND: a slot whose ports have given what they expect folds its contributions in port order and sends one
packet (R164, R165). -/
def execReduceMergeSend (px py : BitVec 10) (slot : BitVec 3) (s : State) : Host.Outcome State Fault Refusal :=
  let x := px.toNat
  let y := py.toNat
  let n := slot.toNat
  let r := s.router x y
  let w := r.reg (rRT_RED + 0x20 * n)
  let held := r.held.get [] n
  if !w.getLsbD 31 || w.getLsbD 30 || held.isEmpty || (List.range 5).any (fun p => r.got n p != r.expected n p) then .next s
  else
    let order := (List.range 5).flatMap (fun p => held.filter (fun e => e.port == p))
    match order with
    | [] => .next s
    | e :: t =>
      let fold := t.foldl (fun (a : List (Line × Bool)) c =>
        List.zipWith (fun (l : Line × Bool) m => ((combineLine (field w 28 2) l.1 m).1,
          l.2 || (combineLine (field w 28 2) l.1 m).2)) a c.pkt.lines) (e.pkt.lines.map (fun l => (l, false)))
      let sat := order.any (fun c => c.pkt.rsat) || fold.any (·.2)
      let count := (order.map (fun c => c.pkt.rcount)).sum
      let head := headOf (field w 0 12 + field w 28 2 * 2 ^ 12 + sat.toNat * 2 ^ 14 + count * 2 ^ 16)
      let p : Packet := { e.pkt with head := head, lines := fold.map (·.1) }
      let s1 := s.onRouter x y (fun r => { r with held := r.held.del n })
      let k := s1.flights.length
      let fl : Flight := { pkt := p, loc := .router x y 0, fresh := false, cast := .single }
      .next (State.moveOn { s1 with flights := s1.flights ++ [fl] } k fl x y)

/-! ### Delivery (R33, R162, R171, R172, R342, R366) -/

/-- A posted packet that a core in reset or switched off for heat does not take (R342, R366). -/
def Packet.posted (p : Packet) : Bool := (3 ≤ p.op.toNat && p.op.toNat ≤ 6) || p.op == 8

/-- A refused or discarded packet at a position that does not serve it (R33, R162, R163). -/
def State.refuseAt (s : State) (px py : Nat) (p : Packet) (code : Nat) : State :=
  if p.multicast && maskSkip p then
    let s1 := s.onRouter px py (fun r => r.count rRT_MCSKIP 1)
    if p.op = 7 then s1.routerAnswer px py p 10 0 (headOf (2 ^ 20)) else s1
  else if p.expectsAnswer then
    let s1 := s.routerRefuse px py p code
    if p.op = 7 then s1.routerReport px py 10 0x23 (code * 16 + p.op.toNat) (epBits p.src) else s1
  else s.routerEvent px py rRT_DISCARD 0x23 (code * 16 + p.op.toNat) (epBits p.src)

/-- A register access of a packet, served by the owning router (R16, R135). SY_WREQ takes nothing but a watch request (R192). -/
def serveReg (p : Packet) (k : K) : K :=
  let off := p.off.toNat
  let request := decide (rSY_WREQ ≤ off ∧ off < rSY_WREQ + 0x40)
  let bad := (p.sz ≠ 2 && p.sz ≠ 3) || (p.sz = 2 && off % 4 ≠ 0) || (p.sz = 3 && off % 8 ≠ 0)
  let o : Origin := .packet p.sys p.pid p.src
  let ok := fun (r : K × Option Nat) =>
    match r.2 with
    | none => if p.op = 7 then r.1.replyCount p 1 0 0 else r.1.replyAck p
    | some e => if p.op = 7 then r.1.replyCount p 0 0 1 else r.1.replyErr p e
  if request then ok (k, some 0x09)
  else if p.op = 0 then
    if bad then k.replyErr p 0x0B
    else if p.sz = 2 then
      match k.readReg off with
      | (k1, some v) => k1.replyData8 p 2 (v.toNat * 2 ^ (8 * (off % 8)))
      | (k1, none) => k1.replyErr p 0x09
    else
      match k.readReg8 off with
      | (k1, some v) => k1.replyData8 p 3 v.toNat
      | (k1, none) => k1.replyErr p 0x09
  else if off = 0x01C ∧ 4 ≤ p.sz.toNat then
    ok (k.writeIdata (p.lines.flatMap (fun l => (List.range 16).map (lineWord l))))
  else if bad then ok (k, some 0x0B)
  else if p.sz = 2 then
    if rSY_CNT ≤ off ∧ off < rSY_CNT + 0x100 then ok (k, some 0x0B)
    else ok (k.writeReg off (lo32 (p.sub 4)) o)
  else ok (k.writeReg8 off (p.sub 8) o)

/-- The firewall of a position lets a packet through (R171, R172). -/
def State.admits (s : State) (px py : Nat) (p : Packet) : Bool :=
  let w := (s.router px py).reg rRT_PID
  p.sys || (!w.getLsbD 31 && !w.getLsbD 30 && field w 0 4 == p.pid.toNat)

/-- A read or write of a register that its router serves at once. -/
def Packet.plainReg (p : Packet) : Bool := p.regRequest && p.op != 2 && !isWatchRequest p

/-- A packet that a usable position takes: refused by the firewall, by a cluster switched off for heat or by a core in reset;
otherwise served or handed to the core (R171, R172, R342, R366). A register access waits behind an earlier ATOM of its source to the same
register (R135). -/
def State.handOver (s : State) (c : CoreId) (px py : Nat) (p : Packet) : State :=
  let closed := ((s.router px py).reg rRT_PID).getLsbD 31
  let off := p.off.toNat
  let heat := 2 ≤ (s.clusterAt c).heat.toNat
  let inReset := (s.core c).seq == .reset
  if !s.admits px py p then
    let s1 := s.routerEvent px py rRT_FWREF 0x25 (closed.toNat * 16 + p.pid.toNat) (epBits p.src)
    if p.expectsAnswer && !closed then s1.routerRefuse px py p 0x05 else s1
  else if p.posted && (heat || inReset) then
    let s1 := s.onRouter px py (fun r => r.count rRT_DISCARD 1)
    let cl := clusterOf px py
    let st := s.clusters.get Cluster.reset cl
    if heat && !st.heatNoted && !inReset then
      ({ s1 with clusters := s1.clusters.set cl { st with heatNoted := true } }).routerReport px py 10 0x8C cl
        (epBits p.src)
    else s1
  else if p.regRequest && ((heat && !servedHeat off) || (inReset && !servedBase off)) then s.routerRefuse px py p 0x09
  else if p.op = 2 ∧ p.space = 1 ∧ 0x8000 ≤ off ∧ off < 0xA000 then s.routerRefuse px py p (if off % 8 = 0 then 0x09 else 0x0B)
  else if inReset && !heat && p.padRequest then s.routerRefuse px py p 0x07
  else if p.plainReg && !s.inbox.any (fun e => e.1 == c && e.2.op == 2 && e.2.ordered p) then onCoreSettled c s (serveReg p)
  else { s with inbox := s.inbox ++ [(c, p)] }

/-! ### ATOM_AT_HOME (R135, R191) -/

/-- Register accesses that waited behind an ATOM are served, up to a number of them. -/
def serveWaiting (c : CoreId) : Nat → State → State
  | 0, s => s
  | n + 1, s =>
    match (eligible c Packet.plainReg [] 0 s.inbox).head? with
    | none => s
    | some i =>
      match s.inbox[i]? with
      | none => s
      | some e => serveWaiting c n (onCoreSettled c { s with inbox := s.inbox.eraseIdx i } (serveReg e.2))

/-- ATOM_AT_HOME: an atomic operation acts at its home, and register accesses that it held back follow. -/
def execAtomAtHome (c : CoreId) (s : State) : Host.Outcome State Fault Refusal :=
  let s1 := onArrival c s (fun p => p.op == 2) atomArrive
  .next (serveWaiting c s1.inbox.length s1)

end Sys2Proof.Machine
end

