-- ==== Sys2Proof/Machine/Remote.lean ====
section
/-! DEFINITION. Remote accesses to a scratchpad at their home, and the answers of transactions at the core that made them (R65,
R112, R123 to R126, R137, R145, R146, R163, R168). -/

namespace Sys2Proof.Machine

/-! ### At the home -/

/-- Why a request to a scratchpad is malformed or out of range (R13, R146): a whole line is aligned to 64, a part of one to its
size. -/
def Packet.padBad (p : Packet) : Option Nat :=
  let off := p.off.toNat
  if off % (if p.sz.toNat ≤ 3 then p.span else 64) ≠ 0 then some 0x0B
  else if padSize < off + p.span then some 0x06
  else none

/-- A remote read: its lines are read for agent NET and the data leaves, or an error does (R112, R116, R124). -/
def remoteRead (p : Packet) (k : K) : K :=
  match p.padBad with
  | some e => k.replyErr p e
  | none =>
    let off := p.off.toNat
    if p.sz.toNat ≤ 3 then
      let r := k.readLine agNET (k.requester p) off
      match r.2.2 with
      | .refused => r.1.replyErr p 0x07
      | .bad => r.1.replyErr p 0x08
      | .good =>
        r.1.replyData8 p p.sz.toNat ((linePart r.2.1 (off % 64) p.span).toNat * 2 ^ (8 * (off % 8)))
    else
      let r := k.readLines agNET (k.requester p) off (p.sz.toNat - 3)
      match r.2.2 with
      | .refused => r.1.replyErr p 0x07
      | .bad => r.1.replyErr p 0x08
      | .good => r.1.replyLines p r.2.1

/-- REMOTE_READ_ARRIVAL (R124). -/
def execRemoteReadArrival (c : CoreId) (s : State) : Host.Outcome State Fault Refusal :=
  .next (onArrival c s (fun p => p.op == 0 && p.space == 0) remoteRead)

/-- The byte enables of a run of `n` bytes of a line, from byte `a` on. -/
def runMask (a n : Nat) : DWord := BitVec.ofNat 64 ((2 ^ n - 1) * 2 ^ a)

/-- The run of bytes that byte enables name: its first byte and its length. -/
def maskRun (m : DWord) : Nat × Nat :=
  (((List.range 64).find? (fun i => m.getLsbD i)).getD 0, ((List.range 64).filter (fun i => m.getLsbD i)).length)

/-- The byte enables of a WR of one line, in bytes 16 to 23 of its head: the host's write of part of a line carries some, any other packet none
(R293, DESIGN CHOICE, log entry 30). -/
def Packet.enables (p : Packet) : DWord := if p.op = 1 && p.sz = 4 then p.head.extractLsb' 0 64 else 0

/-- The bytes a write stores, line by line: offset and bytes (R142). -/
def Packet.padBytes (p : Packet) : List (Nat × List Byte) :=
  if p.sz.toNat ≤ 3 then [(p.off.toNat, leBytes p.span (p.sub p.span).toNat)]
  else if p.enables ≠ 0 then
    let r := maskRun p.enables
    [(p.off.toNat + r.1, ((Line.bytes (nth 0 p.lines 0)).drop r.1).take r.2)]
  else (List.range (p.sz.toNat - 3)).map (fun i => (p.off.toNat + 64 * i, Line.bytes (nth 0 p.lines i)))

/-- The pending-write counts with lines added, or taken away (R123). -/
def Core.pendAdd (k : Core) (lines : List Nat) : Core :=
  { k with banks := lines.foldl (fun m off =>
      SMap.upd Bank.reset m (bankOf off) (fun b => { b with pendWr := b.pendWr + 1 })) k.banks }
def Core.pendSub (k : Core) (lines : List Nat) : Core :=
  { k with banks := lines.foldl (fun m off =>
      SMap.upd Bank.reset m (bankOf off) (fun b => { b with pendWr := b.pendWr - 1 })) k.banks }

/-- A write is answered with an error, a multicast write with a refused position (R163). -/
def K.writeErr (k : K) (p : Packet) (e : Nat) : K := if p.op = 7 then k.replyCount p 0 0 1 else k.replyErr p e

/-- A write is acknowledged (R124, R163). -/
def K.writeAck (k : K) (p : Packet) : K := if p.op = 7 then k.replyCount p 1 0 0 else k.replyAck p

/-- The first line of a write that its scratchpad refuses, with the kind (R112). -/
def Core.firstRefused (k : Core) (p : Packet) : Option (Nat × Nat) :=
  p.padLines.findSome? (fun off => (k.refusal true off).map (fun kind => (off, kind)))

/-- A write request to a scratchpad. -/
def Packet.padWrite (p : Packet) : Bool := p.space == 0 && (p.op == 1 || p.op == 7)

/-- REMOTE_WRITE_ACCEPT (R123): the write is accepted whole and its lines join the pending-write counts, or it is refused. A
killed packet that would be refused has no effect (R167). -/
def execRemoteWriteAccept (c : CoreId) (s : State) : Host.Outcome State Fault Refusal :=
  if !s.present c then .next s
  else
    match s.takeArrival c (fun q => q.padWrite && !(s.core c).anyHeld q.padLines) with
    | none => .next s
    | some (p, s1) =>
      match p.padBad, (s.core c).firstRefused p with
      | some e, _ => .next (if p.killed then s1 else onCore c s1 (fun k => k.writeErr p e))
      | none, some (off, kind) =>
        .next (if p.killed then s1
          else onCore c s1 (fun k => (k.spErr agNET kind off 0 (k.requester p)).writeErr p 0x07))
      | none, none =>
        let s2 := onCore c s1 (fun k => { k with core := k.core.pendAdd p.padLines })
        .next { s2 with accepted := s2.accepted ++ [{ core := c, pkt := p, next := 0, bad := false }] }

/-- The write of part of a line in the weights region finds the line uncorrectable and is refused (R437). -/
def Core.mergeFails (k : Core) (off : Nat) (bs : List Byte) : Bool :=
  k.inWeights off && decide (bs.length < 64) && (k.scanLine (off / 64 * 64)).bad

/-- The next line of an accepted write whose tail has come goes into its bank; with the last one the write is acknowledged, or answered with
ERR 0x07 when a line was refused (R123, R124, R437). Nothing of a killed write is written or answered (R167). -/
def remoteTail (a : Accepted) (k : K) : K :=
  match a.pkt.padBytes.drop a.next with
  | [] => k
  | (off, bs) :: rest =>
    if a.pkt.killed then { k with core := k.core.pendSub a.lines }
    else
      let k1 : K := { k with core := k.core.pendSub [off] }
      let r := k1.commitBytes agNET (k1.requester a.pkt) off bs
      if !rest.isEmpty then r.1
      else if a.bad || !r.2 then r.1.writeErr a.pkt 0x07
      else r.1.writeAck a.pkt

/-- What is left of an accepted write after that; nothing when it is over. -/
def Accepted.after (a : Accepted) (k : Core) : Option Accepted :=
  match a.pkt.padBytes.drop a.next with
  | [] => none
  | (off, bs) :: rest =>
    if a.pkt.killed || rest.isEmpty then none
    else some { a with next := a.next + 1, bad := a.bad || k.mergeFails off bs }

/-- Places of the accepted writes of a core whose next line may go into its bank: no earlier one holds a line of it, and no fill or
re-encoding its bank (R109, R127). -/
def tailsReady (c : CoreId) (k : Core) : List Nat → Nat → List Accepted → List Nat
  | _, _, [] => []
  | seen, i, a :: t =>
    if a.core = c then
      let rest := tailsReady c k (a.lines.map (· / 64) ++ seen) (i + 1) t
      match a.lines with
      | off :: _ => if seen.contains (off / 64) || k.padHeld off then rest else i :: rest
      | [] => rest
    else tailsReady c k seen (i + 1) t

/-- REMOTE_WRITE_TAIL (R123): a line of an accepted write goes into its bank. The lines of one write go in ascending order; between writes
the order is open (R130, log entry 101). -/
def execRemoteWriteTail (c : CoreId) (s : State) : Host.Outcome State Fault Refusal :=
  if !s.present c then .next s
  else
    let ready := tailsReady c (s.core c) [] 0 s.accepted
    let several := decide (1 < ready.length)
    let j := ready.getD (if several then Config.grant s.freeCtr % ready.length else 0) s.accepted.length
    match s.accepted[j]? with
    | none => .next s
    | some a =>
      let left := match a.after (s.core c) with
        | some b => s.accepted.set j b
        | none => s.accepted.eraseIdx j
      .next (onCoreSettled c { s with accepted := left, freeCtr := if several then s.freeCtr + 1 else s.freeCtr } (remoteTail a))

/-! ### At the requester -/

/-- The transaction an answer belongs to: its slot is taken and of the same generation (R168). -/
def Core.answered (k : Core) (p : Packet) : Option (Nat × SlotUse) :=
  let i := p.txid.toNat % 64
  let e := k.slots.get Slot.reset i
  if e.gen.toNat = p.txid.toNat / 64 then e.use.map (fun u => (i, u)) else none

/-- A late answer is discarded, counted and reported (R168). -/
def K.late (k : K) (p : Packet) : K :=
  K.report { k with rt := k.rt.count rRT_LATE 1 } 10 0x22 p.txid.toNat (epBits p.src)

/-- An error or a timeout of a scalar access (R49): an execution fault of the instruction at `pc`; a section that is already
aborting has none left to fault, and the fault is recorded and reported. -/
def K.answerFault (k : K) (pc : Nat) (addr : DWord) : K :=
  if k.core.abortable then k.accessError pc addr
  else K.report { k with core := (k.core.setReg rCORE_TRAP (place 32 31 1 1 ||| place 32 0 8 0x54)).setReg rCORE_TRAPPC
                            (place 32 0 14 pc) } 0 0x54 pc (addr48 addr)

/-- Loads that wait for the fetch of slot `i` (R125). -/
def Core.waitersOf (k : Core) (i : Nat) : List (Nat × SlotUse) :=
  (List.range 8).filterMap (fun j =>
    match (k.slots.get Slot.reset j).use with
    | some (.load d a n f q (some o) pc) => if o = i then some (j, .load d a n f q (some o) pc) else none
    | _ => none)

/-- A load receives its part of a fetched line and its slot is freed. -/
def Core.loadDone (k : Core) (l : Line) (e : Nat × SlotUse) : Core :=
  match e.2 with
  | .load d a n _ _ _ _ => (k.setS d (linePart l (field a 0 6) n)).freeUp e.1
  | _ => k

/-- Read data for a scalar load (R45, R125, R126, R131). -/
def K.loadData (k : K) (p : Packet) (i : Nat) (d : SReg) (a : DWord) (n : Nat) (fill acq : Bool) : K :=
  match p.lines with
  | l :: _ =>
    let c1 := (k.core.waitersOf i).foldl (fun c e => c.loadDone l e) (k.core.setS d (linePart l (field a 0 6) n))
    let c2 := if fill then c1.rlbEnter { addr := lineAddr a, line := l } else c1
    { k with core := c2.freeUp i }
  | [] =>
    let c1 := k.core.setS d (headPart p.head n (field a 0 3))
    { k with core := (if acq then c1.rlbClear else c1).freeUp i }

/-- RDRSP at the requester (R63, R125, R168, R191). -/
def readData (p : Packet) (k : K) : K :=
  match k.core.answered p with
  | some (i, .load d a n fill acq _ _) => k.loadData p i d a n fill acq
  | some (i, .atom d _ _) => { k with core := (k.core.setS d (headPart p.head 8 0)).freeUp i }
  | some (i, .mvRead _ first _) =>
    (K.mvArrived { k with core := k.core.freeUp i } first p.lines).mvGoOn
  | _ => k.late p

/-- RDRSP_ARRIVAL. -/
def execRdrspArrival (c : CoreId) (s : State) : Host.Outcome State Fault Refusal :=
  .next (onArrival c s (fun p => p.op == 9) readData)

/-- An error response or a timeout reaches the agent of a transaction: the sequencer under R49, the mover under R65. `aux` is
the error code, none for a timeout; a WATCH receives a code as its result (R192). -/
def K.answerBad (k : K) (i : Nat) (u : SlotUse) (aux : Option Byte) : K :=
  let k1 : K := { k with core := k.core.freeUp i }
  match u with
  | .load _ a _ _ _ _ pc =>
    let ws := k.core.waitersOf i
    K.answerFault { k1 with core := ws.foldl (fun c e => c.freeUp e.1) k1.core } pc a
  | .store a pc => k1.answerFault pc a
  | .atom _ a pc => k1.answerFault pc a
  | .watch d a pc =>
    match aux with
    | some e => { k1 with core := k1.core.setS d (e.setWidth 64) }
    | none => k1.answerFault pc a
  | .mvRead a _ _ => (k1.mvFail a).mvGoOn
  | .mvWrite a _ => (k1.mvFail a).mvGoOn
  | .mcWrite a _ _ _ _ => (k1.mvFail a).mvGoOn

/-- ACK at the requester: a write is done; a multicast write is done when every target has answered, and is an error when one
refused (R124, R163). -/
def writeAcked (p : Packet) (k : K) : K :=
  match k.core.answered p with
  | some (i, .store _ _) => { k with core := k.core.freeUp i }
  | some (i, .watch d _ _) => { k with core := (k.core.setS d 0).freeUp i }
  | some (i, .mvWrite _ n) => (K.mvMoved { k with core := k.core.freeUp i } n).mvGoOn
  | some (i, .mcWrite a t d sk r) =>
    let d1 := d + field p.head 0 20
    let s1 := sk + field p.head 20 20
    let r1 := r + field p.head 40 20
    if d1 + s1 + r1 < t then
      { k with core := { k.core with slots := SMap.upd Slot.reset k.core.slots i (fun e =>
          { e with use := some (.mcWrite a t d1 s1 r1) }) } }
    else if r1 = 0 then K.mvGoOn { k with core := k.core.freeUp i }
    else k.answerBad i (.mcWrite a t d1 s1 r1) (some 0x0C)
  | _ => k.late p

/-- ACK_ARRIVAL. -/
def execAckArrival (c : CoreId) (s : State) : Host.Outcome State Fault Refusal :=
  .next (onArrival c s (fun p => p.op == 10) writeAcked)

/-- ERR at the requester (R146). -/
def errArrived (p : Packet) (k : K) : K :=
  match k.core.answered p with
  | some (i, u) => k.answerBad i u (some p.aux)
  | none => k.late p

/-- ERR_ARRIVAL. -/
def execErrArrival (c : CoreId) (s : State) : Host.Outcome State Fault Refusal :=
  .next (onArrival c s (fun p => p.op == 11) errArrived)

/-- The device address of a transaction. -/
def SlotUse.addr (u : SlotUse) : DWord :=
  match u with
  | .load _ a _ _ _ _ _ => a
  | .store a _ => a
  | .atom _ a _ => a
  | .watch _ a _ => a
  | .mvRead a _ _ => a
  | .mvWrite a _ => a
  | .mcWrite a _ _ _ _ => a

/-- A load whose data comes with another slot's fetch has no request of its own (R125). -/
def SlotUse.waits (u : SlotUse) : Bool :=
  match u with
  | .load _ _ _ _ _ (some _) _ => true
  | _ => false

/-- TRANSACTION_TIMEOUT (R168): the slot's request has been out for its limit; it is counted and reported and its agent is told.
The detail and address are those of kind 0x21 (R177). -/
def execTransactionTimeout (c : CoreId) (slot : BitVec 6) (s : State) : Host.Outcome State Fault Refusal :=
  if !s.present c then .next s
  else .next (onCoreSettled c s (fun k =>
    let i := slot.toNat
    let e := k.core.slots.get Slot.reset i
    match e.use with
    | none => k
    | some u =>
      if e.age < e.limit || u.waits then k
      else
        let tx := (k.core.txid i).toNat
        let k1 := K.report { k with rt := k.rt.count rRT_TOCNT 1 } 10 0x21 tx
          (addrSpace u.addr * 2 ^ 44 + pktOff u.addr)
        k1.answerBad i u none))

end Sys2Proof.Machine
end

