-- ==== Sys2Proof/Machine/Yard.lean ====
section
/-! DEFINITION. The yard: its registers and counters, fault messages of sources outside the cores, and the floor plan, the route
map and the congestion map (R15, R29, R35, R36, R150, R174, R175, R385, R386). -/

namespace Sys2Proof.Machine

/-! ### Yard registers -/

abbrev yCK : Nat := 0x000000
abbrev yPW : Nat := 0x010000
abbrev yFC : Nat := 0x020000
abbrev ySEC : Nat := 0x030000
abbrev yBU : Nat := 0x040000
abbrev yFP : Nat := 0x050000
abbrev yFM : Nat := 0x060000
abbrev yJB : Nat := 0x070000
abbrev yOM : Nat := 0x100000
abbrev yOMX : Nat := 0x108000
abbrev yHP : Nat := 0x200000
abbrev ySL : Nat := 0x210000

/-- A row of the table of kinds: base class, escalation count, window in ms, reactions below severe and at severe as the bits
of FC_KRCT, fixed (G), withholding (W) (R402). -/
structure KindRow where
  kind : Nat
  cls : Nat
  n : Nat
  window : Nat
  base : Nat
  severe : Nat
  fixed : Bool
  gate : Bool
deriving DecidableEq, Repr

/-- Reactions by their letters' bits (R389). -/
abbrev rI : Nat := 1
abbrev rT : Nat := 2
abbrev rB : Nat := 4
abbrev rA : Nat := 8
abbrev rK : Nat := 16
abbrev rF : Nat := 32
abbrev rC : Nat := 64
abbrev rP : Nat := 128

/-- One line of the table for several kinds. -/
def kr (kinds : List Nat) (cls n window base severe : Nat) (gate : Bool) : List KindRow :=
  kinds.map (fun k => { kind := k, cls := cls, n := n, window := window, base := base, severe := severe, fixed := cls == 3,
                        gate := gate })

/-- Kinds of memory, the core and the network (R402). Where a kind does not escalate its window is 1,000 ms (DESIGN CHOICE, log
entry 24) and both sets of reactions are the one given. -/
def kindsA : List KindRow :=
  kr [0x01] 0 64 1000 0 (rI + rF) false ++ kr [0x02, 0x03] 1 2 1000 (rI + rA) (rI + rA + rF) true ++
  kr [0x04] 1 4 1000 (rI + rA) (rI + rA + rF) true ++ kr [0x05, 0x06, 0x07, 0x08] 1 0 1000 (rI + rA) (rI + rA) true ++
  kr [0x18] 0 16 1000 0 (rI + rF) false ++ kr [0x19] 1 2 1000 rI (rI + rF) true ++
  kr [0x1A, 0x1B] 1 0 1000 (rI + rA) (rI + rA) true ++ kr [0x20] 0 32 1000 0 rI true ++
  kr [0x21, 0x23, 0x24, 0x25, 0x29] 1 0 1000 rI rI true ++ kr [0x22] 0 0 1000 0 0 false ++
  kr [0x27] 1 0 1000 (rI + rA) (rI + rA) true ++ kr [0x28] 0 0 1000 rI rI false ++
  kr [0x40] 1 0 1000 rI rI true ++ kr [0x41] 1 16 1000 rI (rI + rA) true ++
  kr [0x42] 1 3 10000 (rI + rA) (rI + rA + rF) true ++ kr [0x43] 0 0 1000 0 0 false ++
  kr [0x50, 0x51, 0x52, 0x53, 0x54, 0x55] 1 0 1000 rI rI true

/-- Kinds of dataflow and channels, clocks, power and heat (R402). -/
def kindsB : List KindRow :=
  kr [0x60, 0x61, 0x62, 0x63] 1 0 1000 rI rI true ++ kr [0x64, 0x67] 0 0 1000 0 0 false ++
  kr [0x65, 0x66, 0x68] 1 0 1000 rI rI true ++ kr [0x69] 1 0 1000 rI rI false ++
  kr [0x80] 0 0 1000 rI rI false ++ kr [0x81] 0 0 1000 0 0 false ++ kr [0x82, 0x83] 2 0 1000 (rI + rP) (rI + rP) true ++
  kr [0x84] 3 0 1000 0 0 true ++ kr [0x88, 0x89] 2 0 1000 rI rI true ++ kr [0x8A] 0 10 1000 0 rI false ++
  kr [0x8B] 0 0 1000 rI rI false ++ kr [0x8C] 1 0 1000 rI rI true ++ kr [0x90, 0x92] 0 0 1000 0 0 false ++
  kr [0x91] 1 0 1000 rI rI true ++ kr [0x93] 1 0 1000 rI rI false ++ kr [0x94] 0 0 1000 rI rI false ++
  kr [0x95] 2 0 1000 (rI + rP) (rI + rP) true ++ kr [0x96] 3 0 1000 0 0 true

/-- Kinds of security, gateways and links, the collector and self-test (R402). -/
def kindsC : List KindRow :=
  kr [0xA0, 0xA1] 1 0 1000 rI rI false ++ kr [0xA2, 0xA3] 2 0 1000 rI rI false ++ kr [0xA4] 3 0 1000 0 0 true ++
  kr [0xA5] 0 0 1000 rI rI false ++ kr [0xA6] 2 0 1000 rI rI false ++ kr [0xC0] 0 16 1000 0 rI false ++
  kr [0xC1, 0xC2, 0xC5] 1 0 1000 rI rI true ++ kr [0xC3, 0xC4] 2 0 1000 (rI + rP) (rI + rP) true ++
  kr [0xC6] 0 0 1000 0 0 false ++ kr [0xC8, 0xC9] 0 0 1000 rI rI false ++ kr [0xCA, 0xCB] 1 0 1000 rI rI true ++
  kr [0xCC, 0xCD] 2 0 1000 rI rI true ++ kr [0xD0, 0xD3, 0xD5] 1 0 1000 rI rI true ++ kr [0xD1] 0 64 1000 0 rI true ++
  kr [0xD2] 2 0 1000 rI rI true ++ kr [0xD4] 0 0 1000 0 0 false ++ kr [0xE0] 1 2 10000 (rI + rA) (rI + rA + rF) true ++
  kr [0xE1] 1 0 1000 (rI + rA) (rI + rA) true ++ kr [0xE2] 2 0 1000 (rI + rF) (rI + rF) true ++
  kr [0xE3, 0xEC] 0 0 1000 0 0 false ++ kr [0xE4] 3 0 1000 0 0 true ++ kr [0xE5, 0xED] 0 0 1000 rI rI false ++
  kr [0xE6] 1 0 1000 rI rI true ++ kr [0xE7] 2 0 1000 rI rI true ++ kr [0xE8, 0xE9] 1 0 1000 rI rI false ++
  kr [0xEA] 2 0 1000 rP rP false ++ kr [0xEB] 1 0 1000 rI rI false ++ kr [0xEE] 2 0 1000 (rI + rP) (rI + rP) true ++
  kr [0xEF] 3 0 1000 0 0 true

/-- A code not listed is reserved: class notice, no reaction, fixed. -/
def noKind (k : Nat) : KindRow :=
  { kind := k, cls := 0, n := 0, window := 1000, base := 0, severe := 0, fixed := true, gate := false }

/-- The row of a kind. -/
def kindRow (k : Nat) : KindRow :=
  ((if k < 0x60 then kindsA else if k < 0xA0 then kindsB else kindsC).find? (fun r => r.kind == k)).getD (noKind k)

/-- The reset value of FC_KCFGk and FC_KRCTk (R399, R402). -/
def kcfgReset (k : Nat) : Word :=
  place 32 30 2 (kindRow k).cls ||| place 32 8 16 (kindRow k).window ||| place 32 0 8 (kindRow k).n
def krctReset (k : Nat) : Word := place 32 8 8 (kindRow k).severe ||| place 32 0 8 (kindRow k).base

/-- The reset values of DS0 to DS4. -/
def dsReset (k : Nat) : Nat := nth 0 [20, 1024, 65536, 1024, 1] k

/-- The reset value of a yard register that is not zero at reset and is not a view of other state (R175, R264, R313, R345, R346,
R361, R370, R399). -/
def yardReset (off : Nat) : Word :=
  if off = yCK + 0x004 then 0x40000000
  else if off = yPW + 0x000 then 81
  else if off = yPW + 0x004 then 36000
  else if off = yPW + 0x008 then 40000
  else if off = yPW + 0x00C then 33000
  else if off = yPW + 0x020 then 0x695F5500
  else if off = yFC + 0x008 then 2500
  else if off = yFC + 0x00C then 2
  else if off = yFC + 0x010 then 0x80000018
  else if off = yFC + 0x01C then 10
  else if yFC + 0x400 ≤ off ∧ off < yFC + 0xC00 then
    (if off % 8 = 0 then kcfgReset ((off - yFC - 0x400) / 8) else krctReset ((off - yFC - 0x400) / 8))
  else if off = yBU + 0x010 then 0xFFFFFFFF
  else if yBU + 0x040 ≤ off ∧ off < yBU + 0x074 then BitVec.ofNat 32 (dsReset ((off - yBU) % 0x20 / 4))
  else if off = yFM ∨ off = yJB + 0x004 then 1
  else if off = ySL then 0x80000000
  else if ySL + 0x1000 ≤ off ∧ off < ySL + 0x2000 ∧ off % 0x80 = 0 then 0x80400000
  else 0

/-- A stored register of the yard. -/
def State.yreg (s : State) (off : Nat) : Word := s.yregs.get (yardReset off) off

/-- The state with a stored register of the yard set. -/
def State.setYreg (s : State) (off : Nat) (v : Word) : State := { s with yregs := s.yregs.set off v }

/-- A counter pair of the yard advanced; counters do not saturate. -/
def State.ycount (s : State) (lo n : Nat) : State := { s with yregs := bump s.yregs lo n }

/-- The answer to an access. -/
def State.answer (s : State) (e : Option Nat) : State :=
  { s with resp := match e with
      | none => .done
      | some c => .err (BitVec.ofNat 8 c) }

/-! ### Fault messages of other sources (R384 to R386) -/

/-- Source codes. -/
abbrev srcTerminus : Nat := 96
abbrev srcHost : Nat := 104
abbrev srcYard : Nat := 112

/-- A message stamped with the yard cycle counter. -/
def State.report (s : State) (fld cluster core block kind detail addr : Nat) : State :=
  { s with transit := s.transit ++ [{
      stamp := lo32 s.yc, address := BitVec.ofNat 48 addr, detail := BitVec.ofNat 16 detail, kind := BitVec.ofNat 8 kind,
      block := BitVec.ofNat 5 block, core := BitVec.ofNat 6 core, cluster := BitVec.ofNat 6 cluster,
      field := BitVec.ofNat 7 fld }] }

def State.yardReport (s : State) (block kind detail addr : Nat) : State := s.report srcYard 0 0 block kind detail addr
def State.terminusReport (s : State) (t block kind detail addr : Nat) : State :=
  s.report (srcTerminus + t) 0 0 block kind detail addr
def State.hostReport (s : State) (kind detail addr : Nat) : State := s.report srcHost 0 0 19 kind detail addr
def State.fieldReport (s : State) (f block kind detail addr : Nat) : State := s.report f 0 0 block kind detail addr
def State.clusterReport (s : State) (cl block kind detail addr : Nat) : State :=
  s.report (fieldOfCluster cl) (clusterInField cl) 0 block kind detail addr

/-! ### Accesses from outside (R289 to R292, R300, R301, R392) -/

/-- The function of an origin: 0 PF, p + 1 VF. -/
def hostFn (o : Origin) : Nat :=
  match o with
  | .vf p => p.toNat + 1
  | _ => 0

/-- The registers BAR0 of VF p + 1 shows (R291). -/
def vfSees (p : Pid) (off : Nat) : Bool :=
  let n := p.toNat
  (yFP ≤ off && off < yJB) || off == yOMX || off == yJB || off == yJB + 4 ||
    (yJB + 0x8000 ≤ off && off < yJB + 0x8000 + 4 * 1296) ||
    (yJB + 0x100 + 0x40 * n ≤ off && off < yJB + 0x118 + 0x40 * n) ||
    (yJB + 0x1000 + 0x400 * n ≤ off && off < yJB + 0x1000 + 0x400 * n + 4 * 162) ||
    (yJB + 0x6000 + 0x200 * n ≤ off && off < yJB + 0x6200 + 0x200 * n) ||
    (yOMX + 0x100 ≤ off && off < yOMX + 0x100 + 4 * 384) || off == yOMX + 0x800 + 0x10 * n || off == yOMX + 0x804 + 0x10 * n

/-- A BAR access that is not served: counted, reported, and answered as given (R291, R292). -/
def State.barRefused (s : State) (ctr fn off : Nat) (r : Resp) : State :=
  { ((s.ycount (yHP + ctr) 1).hostReport 0xC9 fn off) with resp := r }

/-- A write that the safe state discards (R301). -/
def State.safeDiscard (s : State) : State := { s.ycount (yHP + 0x030) 1 with resp := .discarded }

/-- In RECOVERY BAR0 of the PF, which is there alone, serves only the BU_ block (R358). -/
def State.recoveryHides (s : State) (off : Nat) : Bool := s.bu.phase == 12 && !(decide (yBU ≤ off) && decide (off < yFP))

/-- A write to a register of yard space by its origin: the host's arrives while its link is up and passes its function's view; in
the safe state it is discarded, and Ryist does not run (R291, R292, R301, R392). -/
def yardWrite (o : Origin) (off : Nat) (s : State) (f : State → State) : State :=
  match o with
  | .pf => if !s.host.up then s else if s.recoveryHides off then s.answer (some 0x09) else if s.fc.safe then s.safeDiscard else f s
  | .vf p =>
    if !s.host.up || s.bu.phase = 12 then s
    else if s.fc.safe then s.safeDiscard
    else if s.host.tdi.get 0 p.toNat = 3 then s.barRefused 0x020 (hostFn o) off .discarded
    else if vfSees p off then f s
    else s.barRefused 0x028 (hostFn o) off .discarded
  | .ryist => if s.fc.safe then s else f s
  | .packet _ _ _ => f s
  | .own => s

/-! ### Clusters -/

def State.cluster (s : State) (cl : Nat) : Cluster := s.clusters.get Cluster.reset cl
def State.setCluster (s : State) (cl : Nat) (f : Cluster → Cluster) : State :=
  { s with clusters := SMap.upd Cluster.reset s.clusters cl f }
def State.onField (s : State) (f : Nat) (g : FieldPower → FieldPower) : State :=
  { s with fields := SMap.upd FieldPower.reset s.fields f g }
def State.onTerminus (s : State) (t : Nat) (g : Terminus → Terminus) : State :=
  { s with termini := SMap.upd Terminus.reset s.termini t g }
def State.terminus (s : State) (t : Nat) : Terminus := s.termini.get Terminus.reset t
def State.partition (s : State) (p : Pid) : Partition := s.parts.get Partition.reset p.toNat
def State.onPart (s : State) (p : Pid) (g : Partition → Partition) : State :=
  { s with parts := SMap.upd Partition.reset s.parts p.toNat g }

/-- The cluster of a core by its global index. -/
def State.clusterNo (s : State) (c : CoreId) : Nat := clusterOf (s.phys c).1 (s.phys c).2

/-- The usable cores of a cluster (R32). -/
def State.usableCores (s : State) (cl : Nat) : List CoreId :=
  (s.clusterCores cl).filter (fun c => posState s.fp c == .usable)

/-- A step on each of several cores. -/
def onCores (cs : List CoreId) (s : State) (f : K → K) : State := cs.foldl (fun a c => onCore c a f) s

/-! ### The floor plan (R35, R36) -/

/-- Logical columns of a row that are holes. -/
def FloorPlan.rowHoles (fp : FloorPlan) (f ly : Nat) : List Nat :=
  (List.range 62).filter (fun lx => fp.holes.contains (coreKey (coreAt ((f % 9) * 62 + lx) ((f / 9) * 64 + ly))))

/-- Holes of a field, and its usable positions; 0 when dead. -/
def FloorPlan.fieldHoles (fp : FloorPlan) (f : Nat) : Nat :=
  if fp.dead.contains f then 0 else ((List.range 64).map (fun ly => (fp.rowHoles f ly).length)).sum
def FloorPlan.fieldUsable (fp : FloorPlan) (f : Nat) : Nat :=
  ((fieldCores f).filter (fun c => posState fp c == .usable)).length

/-- The holes in FP_HOLES created since the last bring-up (R36). -/
def FloorPlan.newHolesShown (fp : FloorPlan) : Nat :=
  (fp.newHoles.filter (fun h => !fp.dead.contains (fieldOf (h % 558) (h / 558)))).length

/-- Isolated clusters of a field. -/
def FloorPlan.fieldIso (fp : FloorPlan) (f : Nat) : List Nat :=
  if fp.dead.contains f then [] else (List.range 64).filter (fun b => fp.isolated.contains (nth 0 (fieldClusters f) b))

/-- FP_FIELD.STATE (R36). -/
def FloorPlan.fieldState (fp : FloorPlan) (f : Nat) : Nat :=
  if fp.dead.contains f then 2 else if fp.fieldHoles f = 0 ∧ (fp.fieldIso f).isEmpty then 0 else 1

/-- FP_FIELD. -/
def FloorPlan.fieldReg (fp : FloorPlan) (f : Nat) : Word :=
  place 32 30 2 (fp.fieldState f) ||| place 32 12 12 (fp.fieldUsable f) ||| place 32 0 12 (fp.fieldHoles f)

/-- A bitmap of a list of positions. -/
def bitmap (l : List Nat) : Nat := l.foldl (fun n b => n ||| 2 ^ b) 0

/-- Failed physical cores of a row: those with a fuse skip count too (R26, R36). Keys are row keys 64 f + row. -/
def FloorPlan.failedIn (fp : FloorPlan) (key : Nat) : Nat := (fp.failed.filter (fun e => e.1 == key)).length

/-- FP_ROW. -/
def FloorPlan.rowReg (fp : FloorPlan) (f ly : Nat) : Word :=
  if fp.dead.contains f then 0
  else
    let sk := fp.skips.get [] (64 * f + ly)
    let s0 := match sk with
      | e :: _ => place 32 31 1 1 ||| flag 32 30 e.2 ||| place 32 24 6 e.1
      | [] => 0
    let s1 := match sk with
      | _ :: e :: _ => place 32 23 1 1 ||| flag 32 22 e.2 ||| place 32 16 6 e.1
      | _ => 0
    s0 ||| s1 ||| place 32 8 7 (fp.failedIn (64 * f + ly)) ||| place 32 0 6 (fp.rowHoles f ly).length

/-- FP_HOLE as 64 bits. -/
def FloorPlan.holeReg (fp : FloorPlan) (f ly : Nat) : DWord :=
  if fp.dead.contains f then 0 else BitVec.ofNat 64 (bitmap (fp.rowHoles f ly))

/-- FP_ID (R36). -/
def State.fpId (s : State) : Word := place 32 24 8 1 ||| place 32 8 8 s.fuses.termini.toNat ||| place 32 0 4 s.fuses.grade.toNat

/-- The byte image of the table that its digest covers (R36). -/
def State.fpImage (s : State) : List Byte :=
  let w := fun (v : Word) => leBytes 4 v.toNat
  let d := fun (v : DWord) => leBytes 8 v.toNat
  w s.fpId ++ (List.range 81).flatMap (fun f => w (s.fp.fieldReg f)) ++
    (List.range 81).flatMap (fun f => d (BitVec.ofNat 64 (bitmap (s.fp.fieldIso f)))) ++
    (List.range 81).flatMap (fun f => (List.range 64).flatMap (fun r => w (s.fp.rowReg f r))) ++
    (List.range 81).flatMap (fun f => (List.range 64).flatMap (fun r => d (s.fp.holeReg f r)))

/-- What the table shows at an offset from the FP_ block; none where no register stands (R36). -/
def State.fpTable (s : State) (o : Nat) : Option Word :=
  let half := fun (v : DWord) => if o % 8 = 0 then lo32 v else hi32 v
  if o % 4 ≠ 0 then none
  else if o = 0 then some s.fpId
  else if o = 4 then some s.fp.gen
  else if o = 8 then some (BitVec.ofNat 32 (((List.range 81).map s.fp.fieldUsable).sum))
  else if o = 0xC then some (BitVec.ofNat 32 (((List.range 81).map s.fp.fieldHoles).sum))
  else if o = 0x10 then some (BitVec.ofNat 32 s.fp.newHolesShown)
  else if o = 0x14 then
    some (place 32 24 7 s.fp.dead.length ||| place 32 16 7 ((List.range 81).filter (fun f => s.fp.fieldState f == 1)).length
      ||| place 32 0 13 (((List.range 81).map (fun f => (s.fp.fieldIso f).length)).sum))
  else if 0x20 ≤ o ∧ o < 0x50 then
    some (BitVec.ofNat 32 (leNat ((sha384 s.fpImage).drop (o - 0x20) |>.take 4)))
  else if 0x100 ≤ o ∧ o < 0x100 + 4 * 81 then some (s.fp.fieldReg ((o - 0x100) / 4))
  else if 0x400 ≤ o ∧ o < 0x400 + 8 * 81 then some (half (BitVec.ofNat 64 (bitmap (s.fp.fieldIso ((o - 0x400) / 8)))))
  else if 0x800 ≤ o ∧ o < 0x800 + 0x100 * 81 then some (s.fp.rowReg ((o - 0x800) / 0x100) ((o - 0x800) % 0x100 / 4))
  else if 0x5C00 ≤ o ∧ o < 0x5C00 + 0x200 * 81 then
    some (half (s.fp.holeReg ((o - 0x5C00) / 0x200) ((o - 0x5C00) % 0x200 / 8)))
  else none

/-- A register of the FP_ block: FP_ID and FP_GEN, and 0 elsewhere until bring-up has published the first table (R36). -/
def State.fpReg (s : State) (o : Nat) : Option Word :=
  if 8 ≤ o ∧ s.fp.gen = 1 then (s.fpTable o).map (fun _ => 0) else s.fpTable o

/-- The table changes: its generation advances on starting and on finishing, and the change is notified to Ryist, the PF and
every VF (R35, R36, R297). -/
def State.fpChange (s : State) (f : FloorPlan → FloorPlan) : State :=
  let fp := f s.fp
  let s1 : State := { s with fp := { fp with gen := fp.gen + 2 } }
  (List.range 17).foldl (fun a fn => a.notify fn (if fn = 0 then 1 else 9)) s1

end Sys2Proof.Machine
end

