-- ==== Sys2Proof/Machine/Outer.lean ====
section
/-! DEFINITION. Outer memory: extents, line protection, keys and their rotation, and the loss of stacks and termini (R265 to R286).
Stored lines are kept as their plain bytes with the key and epoch they were written under; what the stack itself holds follows from these
(log entry 25). -/

namespace Sys2Proof.Machine

/-! ### Partitions and extents -/

/-- JB_PCFGp and JB_PCFGp.VALID (R264). -/
def State.pcfg (s : State) (p : Pid) : Word := s.yreg (yJB + 0x100 + 0x40 * p.toNat)
def State.pvalid (s : State) (p : Pid) : Bool := (s.pcfg p).getLsbD 31

def State.extent (s : State) (k : Nat) : Extent := s.om.extents.get Extent.reset k
def State.setExtent (s : State) (k : Nat) (e : Extent) : State := { s with om := { s.om with extents := s.om.extents.set k e } }

/-- The extent of an offset (R269). -/
def extentOf (o : Nat) : Nat := o / 2 ^ 30

/-- Why an extent refuses a requester: the cause code of kind 0xC2 (R269). The refusal of a page on a lost stack stands before the
rows that serve (DEDUCED, log entry 26). -/
def State.extentRefusal (s : State) (sys : Bool) (pid : Pid) (o : Nat) : Option Nat :=
  let e := s.extent (extentOf o)
  let w := s.omPlace o
  let late := if e.zeroing then some 2 else if (s.terminus w.t).stkLost.getLsbD w.stack then some 3 else none
  match e.owner with
  | .free => some 0
  | .system => if sys then late else some 1
  | .part p => if !s.pvalid p then some 1 else if sys || p == pid then late else some 1

/-! ### Keys and lines (R271, R272, R276, R277) -/

def State.keys (s : State) (p : Pid) : KeySlots := s.om.keys.get KeySlots.reset p.toNat
def State.setKeys (s : State) (p : Pid) (k : KeySlots) : State := { s with om := { s.om with keys := s.om.keys.set p.toNat k } }

/-- The key in a slot. -/
def KeySlots.slot (k : KeySlots) (e : Bool) : Option Nat := if e then k.slot1 else k.slot0
def KeySlots.setSlot (k : KeySlots) (e : Bool) (v : Option Nat) : KeySlots :=
  if e then { k with slot1 := v } else { k with slot0 := v }

/-- The epoch a terminus writes with: the old one until it has applied a flip (R277). -/
def KeySlots.epochAt (k : KeySlots) (t : Nat) : Bool := if k.flipping && !k.applied.contains t then !k.epoch else k.epoch

/-- A fresh key's number. -/
def State.newKey (s : State) : State × Nat := ({ s with om := { s.om with nextKey := s.om.nextKey + 1 } }, s.om.nextKey)

/-- How a line written now is marked (R271). -/
def State.writeTag (s : State) (o : Nat) : LineTag :=
  match (s.extent (extentOf o)).owner with
  | .part p =>
    let k := s.keys p
    let e := k.epochAt (s.omPlace o).t
    { key := (k.slot e).getD 0, epoch := e }
  | .system => { key := s.om.sysKey.getD 0, epoch := false }
  | .free => .reset

/-- The tag of a line written with the current key, and with the retiring one. -/
def KeySlots.current (k : KeySlots) : LineTag := { key := (k.slot k.epoch).getD 0, epoch := k.epoch }
def KeySlots.retiring (k : KeySlots) : LineTag := { key := (k.slot (!k.epoch)).getD 0, epoch := !k.epoch }

/-- How the lines of an extent stand that no request has written since its last fill: as the fill left them, or an earlier one where the fill
missed them (R283). -/
def State.fillTag (s : State) (o : Nat) : LineTag :=
  let e := s.extent (extentOf o)
  let w := s.omPlace o
  match e.missed.find? (fun m => m.1 == w.t && m.2.1 == w.stack) with
  | some m => m.2.2
  | none => e.fill

/-- The sweep of a partition has passed a line (R278). -/
def State.swept (s : State) (o : Nat) : Bool :=
  match (s.extent (extentOf o)).owner with
  | .part p => (s.keys p).sweep && decide (o / 64 < (s.keys p).pos.get 0 (s.omPlace o).t)
  | _ => false

/-- How the line at an offset was written. A line that only its extent's fill has written bears the new key once the sweep has passed it. -/
def State.lineTag (s : State) (o : Nat) : LineTag :=
  match s.om.tags.find? (fun (e : Nat × LineTag) => e.1 == o / 64) with
  | some e => e.2
  | none =>
    match (s.extent (extentOf o)).owner with
    | .part p => if s.swept o && s.fillTag o == (s.keys p).retiring then (s.keys p).current else s.fillTag o
    | _ => s.fillTag o

/-- The key a line's epoch selects (R271). -/
def State.keyFor (s : State) (o : Nat) : Option Nat :=
  match (s.extent (extentOf o)).owner with
  | .part p => (s.keys p).slot (s.lineTag o).epoch
  | .system => if (s.lineTag o).epoch then none else s.om.sysKey
  | .free => none

/-- The keys a tag's number stands for: the XTS key and the MAC key (R271). -/
def LineTag.xtsKey (t : LineTag) : BitVec 512 := (Config.lineKey t.key).extractLsb' 0 512
def LineTag.macKey (t : LineTag) : BitVec 256 := (Config.lineKey t.key).extractLsb' 512 256

/-- What the stack holds of the line at an offset: its ciphertext and its sideband, the MAC in bits 55 to 0 and the epoch in bit 56
(R271). -/
def State.stackLine (s : State) (o : Nat) : Line × DWord :=
  let t := s.lineTag o
  let c := xtsLine t.xtsKey (o / 64) (Mem.readLine s.om.mem (o / 64 * 64))
  (c, (0 : BitVec 7) ++ BitVec.ofBool t.epoch ++ lineMac t.macKey c (o / 64 * 64) t.epoch)

/-- The address fields of kinds 0xC0 to 0xC2: requester, terminus, and stack or cause. -/
def omDetail (sys : Bool) (pid : Pid) (t low : Nat) : Nat := pid.toNat * 2 ^ 12 + sys.toNat * 2 ^ 11 + t * 2 ^ 8 + low

/-- The line at an offset is read and verified: `fails` of its reads deliver damaged data. A line under another key fails every
read; an empty slot answers at once (R272). The Boolean tells whether it verified. -/
def State.readOm (s : State) (sys : Bool) (pid : Pid) (o : Nat) (fails : Nat) : State × Bool :=
  let w := s.omPlace o
  let blk := yOM + 0x10000 * w.t
  let det := omDetail sys pid w.t (w.stack * 2 ^ 6)
  let bad := fun (_ : Unit) => ((s.ycount (blk + 0x028) 1).terminusReport w.t 18 0xC1 det (o / 64 * 64), false)
  match s.keyFor o with
  | none => bad ()
  | some key =>
    if key ≠ (s.lineTag o).key ∨ 2 ≤ fails then bad ()
    else if fails = 1 then ((s.ycount (blk + 0x020) 1).terminusReport w.t 18 0xC0 det (o / 64 * 64), true)
    else (s, true)

/-- Bytes stored within one line, which is marked with the key in force (R271). -/
def State.writeOm (s : State) (o : Nat) (bs : List Byte) : State :=
  { s with om := { s.om with mem := Mem.put s.om.mem o bs, tags := s.om.tags.set (o / 64) (s.writeTag o) } }

/-! ### Requests at a terminus (R269, R272, R273, R275) -/

/-- The line of a request, as a range of line indices. -/
def Packet.omLines (p : Packet) : List Nat :=
  (List.range (if p.sz.toNat ≤ 3 then 1 else p.sz.toNat - 3)).map (fun i => p.off.toNat / 64 + i)

/-- A request to space 2 that a terminus accepts. -/
def Packet.omRequest (p : Packet) : Bool := p.space == 2 && p.op.toNat ≤ 2

/-- The oldest request of a terminus that satisfies a test, no earlier one to a line of it still waiting (R273). -/
def takeOm (t : Nat) (test : Packet → Bool) (earlier : List Nat) :
    List (Nat × Packet) → Option (Packet × List (Nat × Packet))
  | [] => none
  | e :: rest =>
    let mine := e.1 = t ∧ e.2.omRequest
    if mine ∧ test e.2 ∧ !(e.2.omLines.any earlier.contains) then some (e.2, rest)
    else
      match takeOm t test (if mine then earlier ++ e.2.omLines else earlier) rest with
      | none => none
      | some (q, l) => some (q, e :: l)

/-- A terminus sends an answer, with PID and SYS of the request (R145, R170). -/
def State.termSend (s : State) (p : Packet) (op aux sz len : Nat) (head : BitVec 384) (ls : List Line) : State :=
  let q : Packet := { p with
    op := BitVec.ofNat 4 op, aux := BitVec.ofNat 8 aux, off := 0, space := 0, src := p.dst, dst := p.src,
    sz := BitVec.ofNat 3 sz, len := BitVec.ofNat 3 len, rclass := 0, wpy := 0, head := head, lines := ls, killed := false }
  { s with inj := s.inj ++ [{ pkt := q, addr := none, core := false }] }

def State.termErr (s : State) (p : Packet) (code : Nat) : State := s.termSend p 11 code 0 0 0 []
def State.termAck (s : State) (p : Packet) : State := s.termSend p 10 0 0 0 (headOf 1) []

/-- A request within one 256 B block, aligned to its size (R267); another form is malformed (R146). -/
def Packet.omFormed (p : Packet) : Bool :=
  p.off.toNat % (if p.sz.toNat ≤ 3 then p.span else 64) == 0 && p.off.toNat % 256 + p.span ≤ 256

/-- A request is taken from a terminus that is not lost and checked against the extent table (R269). -/
def omServe (t : Nat) (test : Packet → Bool) (s : State) (f : Packet → State → State) : State :=
  if (s.terminus t).lost || !s.fitted t || !s.bu.power then s
  else
    match takeOm t test [] s.tin with
    | none => s
    | some (p, rest) =>
      let s1 : State := { s with tin := rest }
      if !p.omFormed then s1.termErr p 0x0B
      else
        match s.extentRefusal p.sys p.pid p.off.toNat with
        | some cause =>
          ((s1.ycount (yOM + 0x10000 * t + 0x030) 1).terminusReport t 18 0xC2 (omDetail p.sys p.pid t cause)
            p.off.toNat).termErr p 0x0A
        | none => f p s1

/-- OM_READ (R272): every line is verified; a line that does not verify answers ERR 0x08. -/
def omRead (fails : List (BitVec 2)) (p : Packet) (s : State) : State :=
  let lines := p.omLines
  let r := (List.range lines.length).foldl (fun (a : State × Bool) i =>
    let q := a.1.readOm p.sys p.pid (64 * nth 0 lines i) (nth 0 fails i).toNat
    (q.1, a.2 && q.2)) (s, true)
  if !r.2 then r.1.termErr p 0x08
  else
    let s1 := r.1.ycount (yOM + 0x10000 * (s.omPlace p.off.toNat).t + 0x010) lines.length
    if p.sz.toNat ≤ 3 then
      s1.termSend p 9 0 p.sz.toNat 0
        (headOf (Mem.readN s.om.mem p.off.toNat p.span * 2 ^ (8 * (p.off.toNat % 8)))) []
    else s1.termSend p 9 0 p.sz.toNat lines.length 0 (lines.map (fun l => Mem.readLine s.om.mem (64 * l)))

def execOmRead (t : BitVec 3) (fails : List (BitVec 2)) (s : State) : Host.Outcome State Fault Refusal :=
  .next (omServe t.toNat (fun p => p.op == 0) s (omRead fails))

/-- OM_WHOLE_LINE_WRITE (R273). -/
def omWrite (p : Packet) (s : State) : State :=
  let s1 := (List.range p.lines.length).foldl (fun a i =>
    State.writeOm a (p.off.toNat + 64 * i) (Line.bytes (nth 0 p.lines i))) s
  (s1.ycount (yOM + 0x10000 * (s.omPlace p.off.toNat).t + 0x018) p.lines.length).termAck p

def execOmWholeLineWrite (t : BitVec 3) (s : State) : Host.Outcome State Fault Refusal :=
  .next (omServe t.toNat (fun p => p.op == 1 && 4 ≤ p.sz.toNat) s omWrite)

/-- Whole lines written by Ryist as a system requester (R256, R269): its terminus checks each against the extent table. A refused write is
counted, reported and has no effect. -/
def State.sysWrite (s : State) (o : Nat) (bs : List Byte) : State :=
  (List.range (bs.length / 64)).foldl (fun (a : State) i =>
    let q := o + 64 * i
    let t := (a.omPlace q).t
    match a.extentRefusal true 0 q with
    | some cause => (a.ycount (yOM + 0x10000 * t + 0x030) 1).terminusReport t 18 0xC2 (omDetail true 0 t cause) q
    | none => (a.writeOm q ((bs.drop (64 * i)).take 64)).ycount (yOM + 0x10000 * t + 0x018) 1) s

/-- Bytes read by Ryist as a system requester: none where a line is refused or does not verify (R256, R269, R272). -/
def State.sysRead (s : State) (o n : Nat) : Option (List Byte) :=
  let lines := (List.range ((o % 64 + n + 63) / 64)).map (fun i => 64 * (o / 64 + i))
  if lines.all (fun q => (s.extentRefusal true 0 q).isNone && s.keyFor q == some (s.lineTag q).key) then
    some ((List.range n).map (fun i => Mem.read s.om.mem (o + i)))
  else none

/-- OM_PARTIAL_WRITE (R273): a read-modify-write; a line that does not verify is left unchanged. -/
def omPartial (fails : Nat) (p : Packet) (s : State) : State :=
  let o := p.off.toNat
  let r := s.readOm p.sys p.pid (o / 64 * 64) fails
  if r.2 then
    ((r.1.writeOm o (leBytes p.span (headPart p.head p.span o).toNat)).ycount
      (yOM + 0x10000 * (s.omPlace o).t + 0x018) 1).termAck p
  else r.1.termErr p 0x08

def execOmPartialWrite (t : BitVec 3) (fails : BitVec 2) (s : State) : Host.Outcome State Fault Refusal :=
  .next (omServe t.toNat (fun p => p.op == 1 && decide (p.sz.toNat ≤ 3)) s (omPartial fails.toNat))

/-- OM_ATOM (R191, R273). -/
def omAtom (fails : Nat) (p : Packet) (s : State) : State :=
  let o := p.off.toNat
  if p.aux.toNat = 0 ∨ 6 < p.aux.toNat then s.termErr p 0x0B
  else
    let r := s.readOm p.sys p.pid (o / 64 * 64) fails
    if r.2 then
      let old : DWord := BitVec.ofNat 64 (Mem.readN s.om.mem o 8)
      let new := atomNew p.aux.toNat old (p.head.extractLsb' 0 64) (p.head.extractLsb' 64 64)
      let blk := yOM + 0x10000 * (s.omPlace o).t
      (((r.1.writeOm o (leBytes 8 new.toNat)).ycount (blk + 0x010) 1).ycount (blk + 0x018) 1).termSend p 9 0 3 0
        (headOf old.toNat) []
    else r.1.termErr p 0x08

def execOmAtom (t : BitVec 3) (fails : BitVec 2) (s : State) : Host.Outcome State Fault Refusal :=
  .next (omServe t.toNat (fun p => p.op == 2) s (omAtom fails.toNat))

/-- Requests a terminus holds: OM_STATUS.OUTST (R275, R284). -/
def State.omHeld (s : State) (t : Nat) : Nat :=
  (s.tin.filter (fun (e : Nat × Packet) => e.1 == t && e.2.omRequest)).length

/-- TERMINUS_ADMISSION_RESUME (R275): a full terminus below 4,096 requests admits whole packets again. -/
def execTerminusAdmissionResume (t : BitVec 3) (s : State) : Host.Outcome State Fault Refusal :=
  if (s.terminus t.toNat).full && decide (s.omHeld t.toNat < 4096) then
    .next (s.onTerminus t.toNat (fun e => { e with full := false }))
  else .next s

/-! ### Partition state (R237, R264, R297) -/

/-- JB_PSTATp.STATE changes: published under JB_MAPGEN and notified to the PF and the partition's VF. -/
def State.setPstate (s : State) (p : Pid) (st : Nat) : State :=
  if (s.partition p).state.toNat = st then s
  else
    let s1 := s.onPart p (fun e => { e with state := BitVec.ofNat 3 st })
    ((s1.setYreg (yJB + 4) (s1.yreg (yJB + 4) + 2)).notify 0 2).notify (p.toNat + 1) 10

/-- The jobs and resident placements of a partition that hold clusters (R264). -/
def State.jobsHolding (s : State) (p : Pid) : Nat :=
  (s.jobs.filter (fun j => j.p == p && !j.clusters.isEmpty)).length + (s.residents.filter (fun r => r.p == p)).length

/-- The partition's STATE outside a reset or a change: active while jobs are unfinished, else idle (R264). -/
def State.restPstate (s : State) (p : Pid) : Nat :=
  if !s.pvalid p then 0 else if s.jobs.any (fun j => j.p == p && j.phase != .finished) then 2 else 1

/-! ### Extents change hands (R270, R280, R283) -/

/-- A byte of OM_EXT (R285). -/
def extByte (e : Extent) : Byte :=
  match e.owner with
  | .free => 0
  | .system => 0xC0 ||| flag 8 5 e.zeroing
  | .part p => 0x80 ||| flag 8 5 e.zeroing ||| p.setWidth 8

/-- The owner a written byte names. -/
def extOwner (v : Byte) : ExtentOwner :=
  if !v.getLsbD 7 then .free else if v.getLsbD 6 then .system else .part (v.extractLsb' 0 4)

/-- The extents of a partition. -/
def State.extentsOf (s : State) (p : Pid) : List Nat :=
  (s.om.extents.filter (fun (e : Nat × Extent) => e.2.owner == .part p)).map (·.1)

/-- A zero fill joins the fills that wait, which run in ascending order; the one under way goes on (R270). -/
def joinFill (k : Nat) : List Nat → List Nat
  | [] => [k]
  | a :: t => if (a :: t).contains k then a :: t else a :: putSorted (fun x y => decide (x ≤ y)) k t

/-- A zero fill of an extent is asked for (R270). -/
def State.startFill (s : State) (k : Nat) : State :=
  let s1 := s.setExtent k { s.extent k with zeroing := true }
  { s1 with om := { s1.om with fills := joinFill k s1.om.fills } }

/-- Why a write that changes an extent's state is refused (R270). -/
def State.extWriteRefused (s : State) (o : Origin) (k : Nat) (v : Byte) : Bool :=
  let e := s.extent k
  let new := extOwner v
  o != .pf ||
    (new != e.owner &&
      (s.capacity ≤ k * 2 ^ 30
        || e.zeroing
        || (match new with
            | .part p => !s.pvalid p
            | _ => false)
        || (match e.owner with
            | .part p => 2 ≤ (s.partition p).state.toNat
            | _ => false)))

/-- An extent is given to an owner and filled, or freed (R270). -/
def State.giveExtent (s : State) (k : Nat) (new : ExtentOwner) : State :=
  let s1 := s.setExtent k { s.extent k with owner := new, zeroing := false }
  if new = .free then s1 else s1.startFill k

/-- The bytes of a word of OM_EXT with the extents they describe (R285). -/
def extBytes (w : Nat) (v : Word) : List (Nat × Byte) := (List.range 4).map (fun i => (4 * w + i, v.extractLsb' (8 * i) 8))

/-- OM_EXT_WRITE (R270, R285): the extents whose bytes change are given and filled, or freed. A word one byte of which is refused changes
nothing. -/
def omExtWrite (o : Origin) (w : Nat) (v : Word) (s : State) : State :=
  if (extBytes w v).any (fun e => s.extWriteRefused o e.1 e.2) then s.answer (some 0x09)
  else
    State.answer ((extBytes w v).foldl (fun a e =>
      if extOwner e.2 = (s.extent e.1).owner then a else a.giveExtent e.1 (extOwner e.2)) s) none

/-- A line lies on a part that is lost (R283). -/
def State.onLostPart (s : State) (o : Nat) : Bool :=
  (s.terminus (s.omPlace o).t).lost || (s.terminus (s.omPlace o).t).stkLost.getLsbD (s.omPlace o).stack

/-- The stacks that are lost, or whose terminus is, by terminus and number. -/
def State.lostParts (s : State) : List (Nat × Nat) :=
  s.fittedList.flatMap (fun t => ((List.range 3).filter (fun k =>
    (s.terminus t).lost || (s.terminus t).stkLost.getLsbD k)).map (fun k => (t, k)))

/-- The owner's key for new lines of an extent, where there is one. -/
def State.fillKey (s : State) (e : Extent) : Option LineTag :=
  match e.owner with
  | .part p => ((s.keys p).slot (s.keys p).epoch).map (fun _ => (s.keys p).current)
  | .system => some { key := s.om.sysKey.getD 0, epoch := false }
  | .free => some .reset

/-- The extent whose fill is under way: the first that waits and whose owner has a key (R270, R412). -/
def State.filling (s : State) : Option Nat := s.om.fills.find? (fun k => (s.fillKey (s.extent k)).isSome)

/-- EXTENT_ZERO_FILL_END (R270, R280, R283): the extent's lines on parts that are not lost are zero under the owner's current key; those on
lost parts stay as they were. With the last fill of a partition in reset, its state leaves 'in reset'. -/
def fillEnd (k : Nat) (s : State) : State :=
  let e := s.extent k
  match (if s.filling = some k then s.fillKey e else none) with
  | none => s
  | some tag =>
    let inside := fun (line : Nat) => decide (line / 2 ^ 24 = k) && !s.onLostPart (64 * line)
    let missed := s.lostParts.map (fun q =>
      match e.missed.find? (fun m => m.1 == q.1 && m.2.1 == q.2) with
      | some m => m
      | none => (q.1, q.2, e.fill))
    let om : OuterMem := { s.om with
      mem := s.om.mem.filter (fun (x : Nat × Byte) => !inside (x.1 / 64))
      tags := s.om.tags.filter (fun (x : Nat × LineTag) => !inside x.1)
      extents := s.om.extents.set k { e with zeroing := false, fill := tag, missed := missed }
      fills := s.om.fills.filter (· != k) }
    let s1 : State := { s with om := om }
    match e.owner with
    | .part p =>
      if (s1.partition p).state = 3 && (s1.partition p).drained && (s1.extentsOf p).all (fun j => !(s1.extent j).zeroing) then
        (s1.onPart p (fun x => { x with drained := false, resetYc := none })).setPstate p (s1.restPstate p)
      else s1
    | _ => s1

def execExtentZeroFillEnd (k : BitVec 11) (s : State) : Host.Outcome State Fault Refusal :=
  if s.bu.power then .next (fillEnd k.toNat s) else .next s

/-! ### Rotation and sweep (R277 to R280, R283) -/

/-- The retiring slot holds a key: OM_PKEYp.RETV. -/
def KeySlots.retv (k : KeySlots) : Bool := (k.slot (!k.epoch)).isSome

/-- The partition's slot 0 receives a fresh key and becomes current (R276, R280). -/
def State.createKeys (s : State) (p : Pid) : State :=
  let n := s.newKey
  n.1.setKeys p { KeySlots.reset with slot0 := some n.2 }

/-- Both slots are destroyed and the sweep stops (R280). -/
def State.destroyKeys (s : State) (p : Pid) : State := s.setKeys p KeySlots.reset

/-- A sweep is running (R277). -/
def State.sweeping (s : State) : Bool := s.om.keys.any (fun (e : Nat × KeySlots) => e.2.sweep)

/-- The generator of every fitted terminus runs (R410, R412). -/
def State.rngOk (s : State) : Bool := s.fittedList.all (fun t => !(s.terminus t).rngHalted)

/-- ROTATE (R277, R412): by the PF or the partition's VF, while no sweep is running and every generator runs. -/
def rotate (o : Origin) (p : Pid) (s : State) : State :=
  let k := s.keys p
  if (o != .pf && o != .vf p) || !s.pvalid p || k.retv || s.sweeping || !s.rngOk then s.answer (some 0x09)
  else
    let n := s.newKey
    let e := !k.epoch
    (n.1.setKeys p { k.setSlot e (some n.2) with epoch := e, flipping := true, applied := [] }).answer none

def execRotate (o : Origin) (p : Pid) (s : State) : Host.Outcome State Fault Refusal :=
  .next (yardWrite o (yOMX + 0x804 + 0x10 * p.toNat) s (rotate o p))

/-- EPOCH_FLIP_APPLIED (R277). -/
def execEpochFlipApplied (p : Pid) (t : BitVec 3) (s : State) : Host.Outcome State Fault Refusal :=
  let k := s.keys p
  if k.flipping && s.fitted t.toNat && !(s.terminus t.toNat).lost && !k.applied.contains t.toNat then
    .next (s.setKeys p { k with applied := k.applied ++ [t.toNat] })
  else .next s

/-- SWEEP_START: every terminus that is not lost has applied the flip (R277, R283). -/
def execSweepStart (p : Pid) (s : State) : Host.Outcome State Fault Refusal :=
  let k := s.keys p
  if k.flipping && s.fittedList.all (fun t => (s.terminus t).lost || k.applied.contains t) then
    .next (s.setKeys p { k with flipping := false, applied := [], sweep := true, pos := [], swerr := 0 })
  else .next s

/-- A line fails in the sweep: it is left under the tag it has, counted and reported (R278). -/
def State.sweepFails (s : State) (p : Pid) (line : Nat) : State :=
  let k := s.keys p
  let s1 : State := { s with om := { s.om with tags := s.om.tags.set line (s.lineTag (64 * line)) } }
  (s1.setKeys p { k with swerr := min 65535 (k.swerr + 1) }).terminusReport (s.omPlace (64 * line)).t 18 0xC5
    (p.toNat * 2 ^ 12 + (s.omPlace (64 * line)).t * 2 ^ 8) (64 * line)

/-- The sweep reads a line that a request has written: it verifies and, of the retiring epoch, goes over to the current slot, or it fails. -/
def State.sweepWritten (s : State) (p : Pid) (line : Nat) : State :=
  let k := s.keys p
  let t := s.lineTag (64 * line)
  if k.slot t.epoch ≠ some t.key then s.sweepFails p line
  else if t.epoch = k.epoch then s
  else { s with om := { s.om with tags := s.om.tags.set line k.current } }

/-- Lines of a partition that the sweep reads: in its extents, not in one that is being filled, on parts that are not lost (R278, R279,
R283). -/
def State.sweeps (s : State) (p : Pid) (line : Nat) : Bool :=
  let e := s.extent (line / 2 ^ 24)
  e.owner == .part p && !e.zeroing && !s.onLostPart (64 * line)

/-- The sweep of a terminus passes its lines up to one, in ascending order; the lines that only a fill has written follow its position
(R278, log entry 25). -/
def State.sweepTo (s : State) (p : Pid) (t upTo : Nat) : State :=
  let from_ := (s.keys p).pos.get 0 t
  let due := (s.om.tags.map (·.1)).filter (fun l =>
    decide (from_ ≤ l) && decide (l < upTo) && (s.omPlace (64 * l)).t == t && s.sweeps p l)
  let s1 := due.foldl (fun a l => a.sweepWritten p l) s
  let k := s1.keys p
  s1.setKeys p { k with pos := k.pos.set t (max from_ upTo) }

/-- A sweep step on one line: every line of its terminus below it has been read; it is read and verified, and goes over to the current slot,
or is counted and left (R278). -/
def State.sweepOne (s : State) (p : Pid) (o fails : Nat) : State :=
  let line := o / 64
  let t := (s.omPlace o).t
  let s1 := s.sweepTo p t line
  let r := s1.readOm false p (64 * line) fails
  let s2 := if r.2 then
      (if (s1.lineTag o).epoch = (s1.keys p).epoch then r.1
       else { r.1 with om := { r.1.om with tags := r.1.om.tags.set line (s1.keys p).current } })
    else r.1.sweepFails p line
  let k := s2.keys p
  s2.setKeys p { k with pos := k.pos.set t (line + 1) }

/-- SWEEP_LINE (R278): a terminus comes to a line it has not read yet. -/
def execSweepLine (p : Pid) (lineOff : BitVec 44) (fails : BitVec 2) (s : State) : Host.Outcome State Fault Refusal :=
  let o := lineOff.toNat / 64 * 64
  if (s.keys p).sweep && o < s.capacity && s.sweeps p (o / 64) && decide ((s.keys p).pos.get 0 (s.omPlace o).t ≤ o / 64) then
    .next (s.sweepOne p o fails.toNat)
  else .next s

/-- The sweep has passed every line: what an extent's fill left under the retiring slot is under the current one. -/
def State.sweepFills (s : State) (p : Pid) : State :=
  let k := s.keys p
  { s with om := { s.om with extents := s.om.extents.map (fun (e : Nat × Extent) =>
      if e.2.owner == .part p && e.2.fill == k.retiring then (e.1, { e.2 with fill := k.current }) else e) } }

/-- SWEEP_COMPLETE (R278, R283): every terminus has read the rest of its pages; the retiring slot is cleared, kind 0xC6 reported and the
partition's VF notified. -/
def execSweepComplete (p : Pid) (s : State) : Host.Outcome State Fault Refusal :=
  if !(s.keys p).sweep then .next s
  else
    let s1 := s.fittedList.foldl (fun a t => a.sweepTo p t (s.capacity / 64)) s
    let s2 := s1.sweepFills p
    let k := s2.keys p
    let s3 := s2.setKeys p { k.setSlot (!k.epoch) none with sweep := false, pos := [] }
    .next ((s3.terminusReport 0 18 0xC6 (p.toNat * 2 ^ 12) k.swerr).notify (p.toNat + 1) 8)

/-! ### Losses (R281, R282) -/

/-- STACK_LOST (R281). -/
def execStackLost (t : BitVec 3) (st : BitVec 2) (s : State) : Host.Outcome State Fault Refusal :=
  let e := s.terminus t.toNat
  if !s.bu.power || !s.fitted t.toNat || e.lost || st = 3 || e.stkLost.getLsbD st.toNat then .next s
  else
    let s0 : State := { s with bu := { s.bu with lostSeen := true } }
    .next ((s0.onTerminus t.toNat (fun x => { x with stkLost := x.stkLost ||| (1 <<< st.toNat) })).terminusReport t.toNat 18 0xC3
      (t.toNat * 2 ^ 8 + st.toNat * 2 ^ 6) 0)

/-- A terminus is lost (R281, R282): its requests are never answered; with terminus 0 go the host port and the yard controller. -/
def State.loseTerminus (s : State) (t cause : Nat) : State :=
  if !s.fitted t || (s.terminus t).lost then s
  else
    let s0 : State := { s with bu := { s.bu with lostSeen := true } }
    let s1 := s0.onTerminus t (fun x => { x with lost := true })
    let s2 := s1.terminusReport t 18 0xC4 (t * 2 ^ 8 + cause) 0
    if t = 0 then { s2 with host := { s2.host with up := false } } else s2

/-- TERMINUS_INTERNAL_FAILURE (R281). -/
def execTerminusInternalFailure (t : BitVec 3) (s : State) : Host.Outcome State Fault Refusal :=
  if s.bu.power then .next (s.loseTerminus t.toNat 2) else .next s

/-- YARD_POLL (R281): a terminus that misses three consecutive polls is lost. -/
def execYardPoll (answered : BitVec 8) (s : State) : Host.Outcome State Fault Refusal :=
  if !s.bu.power then .next s
  else
    .next (s.fittedList.foldl (fun a t =>
      if (a.terminus t).lost then a
      else if answered.getLsbD t then a.onTerminus t (fun x => { x with missed := 0 })
      else
        let a1 := a.onTerminus t (fun x => { x with missed := x.missed + 1 })
        if 3 ≤ (a1.terminus t).missed then a1.loseTerminus t 0 else a1) s)

end Sys2Proof.Machine
end

