-- ==== Sys2Proof/Machine/HostMem.lean ====
section
/-! DEFINITION. Host memory as space 4 shows it: IDE streams, descriptors, the TLPs of an access, and Ryist's own reads and writes of the
memory of job rings (R255, R256, R287, R294 to R296, R299, R301). -/

namespace Sys2Proof.Machine

def State.onHost (s : State) (f : HostPort → HostPort) : State := { s with host := f s.host }

/-- A TLP or message joins the port's transmit order (R294). -/
def State.transmit (s : State) (l : List OutTlp) : State := s.onHost (fun h => { h with out := h.out ++ l })

def State.stream (s : State) (n : BitVec 4) : IdeStream := s.host.streams.get IdeStream.reset n.toNat
def State.setStream (s : State) (n : BitVec 4) (x : IdeStream) : State :=
  s.onHost (fun h => { h with streams := h.streams.set n.toNat x })

/-! ### Descriptors (R295) -/

/-- A word of a descriptor. -/
def State.descWord (s : State) (set d dw : Nat) : Word := s.host.desc.get 0 ((64 * set + d) * 4 + dw)

/-- The descriptor set `set` refuses an access of `n` bytes at an offset of space 4 (R295, R300, log entry 110). -/
def State.descRefuses (s : State) (set off n : Nat) (read : Bool) : Bool :=
  let d := off / 2 ^ 34 % 64
  let w := s.descWord set d 0
  let pages := field (s.descWord set d 1) 0 23
  (set != 0 && s.host.tdi.get 0 (set - 1) == 3) || !w.getLsbD 31 || decide (pages * 4096 < off % 2 ^ 34 + n) ||
    !(if read then w.getLsbD 30 else w.getLsbD 29) || (w.getLsbD 28 && !w.getLsbD 23) ||
    (w.getLsbD 23 && !(s.stream (BitVec.ofNat 4 (field w 24 4))).secure)

/-- The host bus address of an offset of space 4. -/
def State.hostAddr (s : State) (set off : Nat) : DWord :=
  pair64 (s.descWord set (off / 2 ^ 34 % 64) 3) (s.descWord set (off / 2 ^ 34 % 64) 2) + BitVec.ofNat 64 (off % 2 ^ 34)

/-- The T bit and the IDE stream of the requests a descriptor serves. -/
def State.descTee (s : State) (set off : Nat) : Bool := (s.descWord set (off / 2 ^ 34 % 64) 0).getLsbD 28
def State.descStream (s : State) (set off : Nat) : Option (BitVec 4) :=
  let w := s.descWord set (off / 2 ^ 34 % 64) 0
  if w.getLsbD 23 then some (BitVec.ofNat 4 (field w 24 4)) else none

/-! ### TLPs (R287, R296) -/

/-- The parts of at most `size` bytes, ending at multiples of it, that the bytes from `off` fall into. -/
def splitAt (size : Nat) : Nat → Nat → Nat → List (Nat × Nat)
  | 0, _, _ => []
  | fuel + 1, off, n =>
    if n = 0 then []
    else
      let m := min n (size - off % size)
      (off, m) :: splitAt size fuel (off + m) (n - m)

/-- The memory writes that carry bytes to an offset of space 4: none above 256 B or above the Max Payload Size. -/
def State.hostWrites (s : State) (set off : Nat) (bs : List Byte) : List OutTlp :=
  (splitAt (max 1 (min 256 s.host.mps)) bs.length off bs.length).map (fun e =>
    .write (s.hostAddr set e.1) ((bs.drop (e.1 - off)).take e.2) (s.descTee set e.1) (s.descStream set e.1))

/-! ### Ryist's accesses to rings and packages (R255, R256, R295) -/

/-- Ryist reaches host memory: the link is up, the device is not in the safe state, and set 0 serves the access. -/
def State.hostReach (s : State) (a : DWord) (n : Nat) (read : Bool) : Bool :=
  s.host.up && !s.fc.safe && decide (addrOff44 a + n ≤ 2 ^ 40) && !s.descRefuses 0 (addrOff44 a) n read

/-- Ryist can store `n` bytes at a device address of space 2 or 4. -/
def State.canStore (s : State) (a : DWord) (n : Nat) : Bool := addrSpace a == 2 || s.hostReach a n false

/-- Bytes stored by Ryist: in outer memory as a system requester, or as writes to the host through set 0. -/
def State.storeAt (s : State) (a : DWord) (bs : List Byte) : State :=
  if addrSpace a = 2 then s.sysWrite (addrOff44 a) bs else s.transmit (s.hostWrites 0 (addrOff44 a) bs)

/-- Bytes that Ryist reads at a device address of space 2, or of space 4, where host memory holds `host` (log entry 48); none where they
cannot be read. -/
def State.loadAt (s : State) (a : DWord) (n : Nat) (host : List Byte) : Option (List Byte) :=
  if addrSpace a = 2 then s.sysRead (addrOff44 a) n
  else if s.hostReach a n true then some ((host ++ List.replicate n 0).take n) else none

end Sys2Proof.Machine
end

