-- ==== Sys2Proof/Machine/Resets.lean ====
section
/-! DEFINITION. The reset of a core and of a cluster, the cluster scrub, and the abort of sections by Ryist (R29, R219, R261, R364 to
R366, R369). -/

namespace Sys2Proof.Machine

/-! ### The cluster map (R36, R264) -/

/-- What JB_CLMAP and JB_PSTAT show. -/
structure MapView where
  parts : List (Nat × List Nat × List Nat × BitVec 3)
  scrubs : List (Nat × Bool)
  jobs : List (Pid × List Nat)
  residents : List (List Nat)
  isolated : List Nat
  dead : List Nat
deriving DecidableEq

def State.mapView (s : State) : MapView :=
  { parts := s.parts.map (fun (e : Nat × Partition) => (e.1, e.2.clusters, e.2.standby, e.2.state))
    scrubs := s.clusters.filterMap (fun (e : Nat × Cluster) => if e.2.scrubPend || e.2.scrubbing then some (e.1, true) else none)
    jobs := s.jobs.map (fun j => (j.p, j.clusters)), residents := s.residents.map (·.clusters)
    isolated := s.fp.isolated, dead := s.fp.dead }

/-- A step from `s` to `t`: what it changes of JB_CLMAP and JB_PSTAT is published under JB_MAPGEN, which is odd while they are written (R264);
where a part of the step has published a change of STATE, the rest goes with it. -/
def published (s t : State) : State :=
  if t.yreg (yJB + 4) ≠ s.yreg (yJB + 4) ∨ s.mapView = t.mapView then t else t.setYreg (yJB + 4) (t.yreg (yJB + 4) + 2)

/-! ### Core reset (R365, R366) -/

/-- A register that a core reset keeps: SP_, SY_ but its reply channels, CH_, PWC_ and FLT_ (R365). -/
def keptReg (off : Nat) : Bool :=
  (0x2000 ≤ off && off < 0x3000) || (0x4000 ≤ off && off < 0x4200) || (0x42C0 ≤ off && off < 0x6000) || 0xA000 ≤ off

/-- The state of a core across a core reset (R365): `seq` is RESET until its end. -/
def Core.wiped (k : Core) : Core :=
  let regs := k.regs.filter (fun (e : Nat × Word) => keptReg e.1)
  let off := fun (m : SMap Word) (base : Nat) => (List.range 16).foldl (fun (a : SMap Word) n =>
    if (k.reg (base + 0x40 * n)).getLsbD 31 then a.set (base + 0x40 * n) (k.reg (base + 0x40 * n) &&& 0x7FFFFFFF#32) else a) m
  let sec := if k.epoch = 0 then off (off regs rCH_ICFG) rCH_OCFG
    else (off (off regs rCH_ICFG) rCH_OCFG).set rDF_SECCFG (place 32 0 2 k.epoch)
  let r : Core := { Core.reset with
    regs := sec
    hiLatch := k.hiLatch.filter (fun (e : Nat × Word) => keptReg e.1)
    errAddrLatch := k.errAddrLatch, istore := k.istore, istoreErr := k.istoreErr, istoreCounted := k.istoreCounted
    mem := k.mem, flips := k.flips, crcErr := k.crcErr, banks := k.banks, scrubPos := k.scrubPos, zeroing := k.zeroing
    recode := k.recode, lineWr := k.lineWr, shWtop := k.shWtop, pwSnap := k.pwSnap, estRem := k.estRem
    slots := k.slots.map (fun (e : Nat × Slot) =>
      if e.2.use.isSome then (e.1, { e.2 with gen := e.2.gen + 1, use := none, age := 0 }) else e) }
  r.count rSP_RLBINV 1

/-- A core reset of a core (R365): its section aborts with cause 6, which reaches the slot's abort line, and its state is
cleared. A reset during a reset merges (R369). -/
def K.coreReset (k : K) : K :=
  if k.core.seq == .reset then k
  else
    let k1 := if k.core.abortable then { k with abort := some (6, 0) } else k
    { k1 with core := k.core.wiped }

/-- The end of a core reset: the core is IDLE, and a re-encoding that was running has completed (R365, R366). -/
def K.coreResetEnd (k : K) : K :=
  if k.core.seq == .reset then { k with core := { k.core with seq := .idle, recode := 0 } } else k

/-- CORE_RESET: Ryist, a reaction or a kill resets a core whose compute logic has power. -/
def execCoreReset (c : CoreId) (s : State) : Host.Outcome State Fault Refusal :=
  .next (if s.alive c then onCore c s K.coreReset else s)

/-- CORE_RESET_END (R366): the core is IDLE and takes the settings waiting for it (R361). -/
def execCoreResetEnd (c : CoreId) (s : State) : Host.Outcome State Fault Refusal :=
  .next (if s.alive c then (onCore c s K.coreResetEnd).settled c else s)

/-- A core reset carried through to its end, as larger steps hold it. -/
def K.coreResetWhole (k : K) : K := k.coreReset.coreResetEnd

/-- A core reset of a core within a larger step, if its compute logic has power. -/
def State.resetCore (s : State) (c : CoreId) : State :=
  if s.alive c then (onCore c s K.coreResetWhole).settled c else s

/-! ### Cluster reset (R366) -/

/-- A core reset of every position of the cluster; its tree restarts and its power controller is reset, so that N is 64 until the
next estimate. Of an isolated or switched-off cluster it has no effect. -/
def State.resetCluster (s : State) (cl : Nat) : State :=
  if (s.cluster cl).fuseOpen || 2 ≤ (s.cluster cl).heat.toNat then s
  else
    let s1 := (s.usableCores cl).foldl (fun a c => a.resetCore c) s
    let s2 := s1.setCluster cl (fun e =>
      { e with
        tree := true, allow := 0, holders := 0, nmax := 64, rotation := 0, est := 0, dyn := 0, issue := 0, demand := 0, lastE := 0
        lastCyc := 0 })
    onCores (s.usableCores cl) s2 (fun k => { k with core := k.core.setReg rMX_LIMIT 64 })

/-- CLUSTER_RESET (R366). -/
def execClusterReset (cl : BitVec 13) (s : State) : Host.Outcome State Fault Refusal :=
  if s.bu.power then .next (s.resetCluster cl.toNat) else .next s

/-! ### Cluster scrub (R120, R261) -/

/-- Every bank in RETAIN goes OFF, its contents lost, and the zero fill starts (R261). -/
def Core.scrubStart (k : Core) : Core :=
  let k1 := (List.range 8).foldl (fun (a : Core) b =>
    if (a.bank b).mode == .retain then
      let z := a.zeroBank b
      { z with banks := z.banks.set b { a.bank b with mode := .off, target := none, later := none } }
    else a) k
  k1.startZero

/-- The instruction store filled with illegal words (R261). -/
def Core.fillIstore (k : Core) : Core := { k with istore := [], istoreErr := [], istoreCounted := [] }

/-- The scrub ends on one core: the fill, where it has not ended by itself (R120), and the instruction store. -/
def K.scrubDone (k : K) : K :=
  let k1 := if k.core.zeroing then zeroAll k else k
  { k1 with core := k1.core.fillIstore }

/-- Every live core of the cluster is IDLE (R261). -/
def State.clusterIdle (s : State) (cl : Nat) : Bool :=
  (s.usableCores cl).all (fun c => !s.alive c || ((s.core c).df == .idle && (s.core c).seq != .reset))

/-- The positions of a cluster that a scrub reaches: those whose scratchpad has power, usable or isolated (R28, R31, R261). -/
def State.scrubbed (s : State) (cl : Nat) : List CoreId := (s.clusterCores cl).filter s.padUp

/-- CLUSTER_SCRUB: a pending scrub begins (R261). -/
def execClusterScrub (cl : BitVec 13) (s : State) : Host.Outcome State Fault Refusal :=
  let n := cl.toNat
  if s.bu.power && (s.cluster n).scrubPend && !(s.cluster n).scrubbing && s.clusterIdle n then
    .next (onCores (s.scrubbed n) (s.setCluster n (fun e => { e with scrubbing := true }))
      (fun k => { k with core := k.core.scrubStart }))
  else .next s

/-- A cluster's scrub is complete: its scratchpads are zero, its instruction stores illegal and its bit clears. -/
def State.scrubEnd (s : State) (cl : Nat) : State :=
  (onCores (s.scrubbed cl) s K.scrubDone).setCluster cl (fun e => { e with scrubPend := false, scrubbing := false })

/-- CLUSTER_SCRUB_END (R261). -/
def execClusterScrubEnd (cl : BitVec 13) (s : State) : Host.Outcome State Fault Refusal :=
  if s.bu.power && (s.cluster cl.toNat).scrubbing then .next (published s (s.scrubEnd cl.toNat)) else .next s

/-- A scrub carried through within a larger step (R367). -/
def State.scrubWhole (s : State) (cl : Nat) : State :=
  (onCores (s.scrubbed cl) s (fun k => { k with core := k.core.scrubStart })).scrubEnd cl

/-- A scrub of a cluster is requested: its bit in JB_SCRUBMAP is 1 (R261). -/
def State.askScrub (s : State) (cl : Nat) : State := s.setCluster cl (fun e => { e with scrubPend := true })

/-- JB_SCRUBMAP_WRITE: only Ryist requests a scrub (R261, R264). -/
def execJbScrubmapWrite (o : Origin) (cl : BitVec 13) (s : State) : Host.Outcome State Fault Refusal :=
  .next (yardWrite o (yJB + 0xA000 + 4 * (cl.toNat / 32)) s (fun s =>
    if isSystem o then (published s (s.askScrub cl.toNat)).answer none else s.answer (some 0x09)))

/-! ### RT_PID of a cluster's routers (R237, R260, R367) -/

/-- RT_PID of every position of a cluster is changed. -/
def State.onClusterPid (s : State) (cl : Nat) (f : Word → Word) : State :=
  (clusterPositions cl).foldl (fun a q =>
    a.onRouter q.1 q.2 (fun r => r.setReg rRT_PID (f (r.reg rRT_PID)))) s

def State.setClosed (s : State) (cl : Nat) (b : Bool) : State := s.onClusterPid cl (fun w => setField w 31 1 b.toNat)
def State.setOwner (s : State) (cl : Nat) (p : Pid) : State :=
  s.onClusterPid cl (fun w => setField (setField w 30 1 0) 0 4 p.toNat)
def State.setFree (s : State) (cl : Nat) : State := s.onClusterPid cl (fun w => setField w 30 1 1)

/-! ### Sections aborted by Ryist (R29, R219, R257) -/

/-- Merge slots of a router are cleared (R165): what they hold is gone and they are no longer valid. -/
def Router.clearMerge (r : Router) (slots : List Nat) : Router :=
  slots.foldl (fun (r : Router) n =>
    let r1 := if (r.reg (rRT_RED + 0x20 * n)).getLsbD 31 then r.setReg (rRT_RED + 0x20 * n) ((r.reg (rRT_RED + 0x20 * n)) &&& 0x3FFFFFFF#32)
      else r
    { r1 with held := r1.held.del n }) r

/-- The merge slots of a section's trees are cleared at every router they stand in (R165). -/
def State.clearMerges (s : State) (n : Nat) : State :=
  (s.slots.get SectionSlot.reset n).merges.foldl (fun a (e : Nat × Nat × Nat) => a.onRouter e.1 e.2.1 (fun r => r.clearMerge [e.2.2])) s

/-- The cores of a section receive ABORT: each that can abort enters ABORTING with cause 4, and Ryist clears the section's merge slots (R165,
R219). -/
def State.sendAbort (s : State) (n : Nat) : State :=
  onCores ((s.slots.get SectionSlot.reset n).cores.filter s.alive) (s.clearMerges n) (fun k => (k.dfAbort).1)

/-- Ryist aborts a section; one that has aborted of itself is left to its abort line. -/
def State.abortSlot (s : State) (n : Nat) : State :=
  if (s.slots.get SectionSlot.reset n).abortLine.isSome then s else s.sendAbort n

/-- The slots in use. -/
def State.usedSlots (s : State) : List Nat :=
  (List.range 64).filter (fun n => !(s.slots.get SectionSlot.reset n).cores.isEmpty)

/-- A slot is free again, and the merge slots of its section are cleared. -/
def State.freeSection (s : State) (n : Nat) : State :=
  let s1 := s.clearMerges n
  { s1 with slots := SMap.set s1.slots n SectionSlot.reset }

end Sys2Proof.Machine
end

