-- ==== Sys2Proof/Machine/Rings.lean ====
section
/-! DEFINITION. Job rings, their records and their publication, job packages and the checks on them (R197 to R199, R241 to R246, R251,
R253 to R256, R378). The index words stand in memory, in the scratchpad of a helper core or of the ring core; Ryist keeps copies. -/

namespace Sys2Proof.Machine

/-! ### Rings (R197, R244, R264) -/

/-- The registers of a ring pair. -/
def ringOff (p : Pid) (r : BitVec 3) : Nat := yJB + 0x6000 + 0x200 * p.toNat + 0x40 * r.toNat
def ringKey (p : Pid) (r : BitVec 3) : Nat := 8 * p.toNat + r.toNat
def State.ring (s : State) (p : Pid) (r : BitVec 3) : Ring := s.rings.get Ring.reset (ringKey p r)
def State.setRing (s : State) (p : Pid) (r : BitVec 3) (x : Ring) : State := { s with rings := s.rings.set (ringKey p r) x }
def State.ringEn (s : State) (p : Pid) (r : BitVec 3) : Bool := (s.yreg (ringOff p r)).getLsbD 31
def State.rsBase (s : State) (p : Pid) (r : BitVec 3) : DWord := pair64 (s.yreg (ringOff p r + 8)) (s.yreg (ringOff p r + 4))
def State.rsSize (s : State) (p : Pid) (r : BitVec 3) : Nat := (s.yreg (ringOff p r + 0xC)).toNat
def State.rcBase (s : State) (p : Pid) (r : BitVec 3) : DWord := pair64 (s.yreg (ringOff p r + 0x14)) (s.yreg (ringOff p r + 0x10))
def State.rcSize (s : State) (p : Pid) (r : BitVec 3) : Nat := (s.yreg (ringOff p r + 0x18)).toNat

/-- A device ring pair: its regions lie in space 2 (R256). -/
def State.devicePair (s : State) (p : Pid) (r : BitVec 3) : Bool := addrSpace (s.rsBase p r) == 2

/-- The ring pairs of a partition. -/
def ringNos : List (BitVec 3) := [0, 1, 2, 3, 4, 5, 6, 7]
def pidNos : List Pid := [0, 1, 2, 3, 4, 5, 6, 7, 8, 9, 10, 11, 12, 13, 14, 15]

/-- The bytes a record of `len` payload bytes occupies (R197). -/
def recSize (len : Nat) : Nat := 64 * ceilDiv (8 + len) 64

/-! ### Records (R251, R253, R378) -/

def le (n v : Nat) : List Byte := leBytes n v

/-- The rectangle of a placement entry as its bits 127 to 64. -/
def rectBits (lo hi : CoreId) : Nat :=
  lo.x.toNat + lo.y.toNat * 2 ^ 10 + hi.x.toNat * 2 ^ 20 + hi.y.toNat * 2 ^ 30

/-- KIND and payload of a record. -/
def RingRecord.payload (x : RingRecord) : Nat × List Byte :=
  match x with
  | .placement jobid fpgen mode stage clusters cores imbal pred entries =>
    (0x0101, le 8 jobid.toNat ++ le 4 fpgen.toNat ++ [mode, stage] ++ le 2 entries.length ++ le 4 clusters ++ le 4 cores ++
      le 4 imbal ++ le 4 0 ++ le 8 pred.toNat ++ entries.flatMap (fun e =>
        le 2 e.1.toNat ++ [e.2.1, 0] ++ le 4 e.2.2.1 ++ le 8 (rectBits e.2.2.2.1 e.2.2.2.2)))
  | .completion jobid status detail fcause fkind aclass flags fcore fpgen start fin rel energy pred =>
    (0x0102, le 8 jobid.toNat ++ le 2 status.toNat ++ le 2 detail.toNat ++ [fcause, fkind, aclass, flags] ++ le 4 fcore.toNat ++
      le 4 fpgen.toNat ++ le 8 start.toNat ++ le 8 fin.toNat ++ le 8 rel.toNat ++ le 8 energy.toNat ++ le 8 pred.toNat)
  | .release jobid arg withheld fkind fclass floc fstamp decided =>
    (0x0103, le 8 jobid.toNat ++ [arg, flag 8 0 withheld, fkind, fclass] ++ le 4 floc.toNat ++ le 8 fstamp.toNat ++
      le 8 decided.toNat)

/-- A record with its header, filled to whole lines (R197). -/
def RingRecord.bytes (x : RingRecord) : List Byte :=
  let b := x.payload
  let all := le 4 b.2.length ++ le 2 b.1 ++ [0, 0] ++ b.2
  all ++ List.replicate (recSize b.2.length - all.length) 0

/-! ### Index words (R197, R244, R256) -/

/-- Index word `k` of a pair's block as Ryist loads it; none where it cannot be read. -/
def State.idxLoad (s : State) (p : Pid) (r : BitVec 3) (k : Nat) : State × Option DWord :=
  match (s.ring p r).idx with
  | none => (s, none)
  | some (c, off) =>
    if s.padUp c then
      let q := (kOf s c).readLine agNET none (off + 64 * k)
      (kPut s q.1, match q.2.2 with
        | .good => some (lineDWord q.2.1 0)
        | _ => none)
    else (s, none)

/-- Index word `k` of a pair's block is stored, with the effect of a release (R198, R199). -/
def State.idxStore (s : State) (p : Pid) (r : BitVec 3) (k : Nat) (v : DWord) : State :=
  match (s.ring p r).idx with
  | none => s
  | some (c, off) =>
    if s.padUp c then onCore c s (fun q => (q.writeBytes agNET none (off + 64 * k) (leBytes 8 v.toNat)).1) else s

/-! ### Ryist's helper cores and its watch (R235, R244, R256, R292) -/

/-- The four helper clusters (R235, R264). -/
def State.helpers (s : State) : List Nat := (List.range 4).map (fun k => field (s.yreg (yJB + 0x10 + 4 * k)) 0 13)

/-- The helper core that serves a partition's rings: of the first helper cluster, in order of its positions (DESIGN CHOICE, log entry
75). -/
def State.helperCore (s : State) (p : Pid) : Option CoreId :=
  let cs := s.usableCores (field (s.yreg (yJB + 0x10)) 0 13)
  cs[p.toNat % max 1 cs.length]?

/-- The reply channel on which the watch of a pair wakes Ryist (DESIGN CHOICE, log entry 75). -/
def ringChannel (r : BitVec 3) : Nat := r.toNat

/-- The request line of a watch on an index word: COND 2, changed (R192, R199). -/
def watchLine (off : Nat) (waiter : CoreId) (ch : Nat) (v : DWord) : Line :=
  BitVec.ofNat 512 (v.toNat + 2 ^ 64 * (off + 2 * 2 ^ 20 + waiter.x.toNat * 2 ^ 32 + waiter.y.toNat * 2 ^ 42 + ch * 2 ^ 52))

/-- Ryist takes what its watch has brought, and watches submission WRIDX for a value other than the one it last read (R199, R244, R256). -/
def State.watchRing (s : State) (p : Pid) (r : BitVec 3) : State :=
  match (s.ring p r).idx, s.helperCore p with
  | some (c, off), some h =>
    let s1 := if s.padUp h then
        onCore h s (fun k => { k with core := { k.core with rfull := k.core.rfull &&& ~~~((1 : BitVec 16) <<< ringChannel r) } })
      else s
    let mine := (List.range 16).any (fun i => match (s1.core c).watches.get none i with
      | some w => w.sys && !w.onCounter && w.target == off && w.cond == 2
      | none => false)
    if s1.padUp c && !mine then onCore c s1 (fun k => (k.register (watchLine off h (ringChannel r) (s1.ring p r).subWr) true).1) else s1
  | _, _ => s

/-! ### Publication (R198, R255) -/

/-- Where a record of `need` bytes goes (R198): at its position; or first the skip marker that covers the rest of the region; none while
space is wanting. -/
inductive RingSpace where
  | here
  | skip
  | none
deriving DecidableEq, Repr

def ringSpace (size wr rd need : Nat) : RingSpace :=
  let p := wr % size
  if size - p < need then (if size - p ≤ size - (wr - rd) then .skip else .none)
  else if need ≤ size - (wr - rd) then .here else .none

/-- A skip marker of `n` bytes (R197, R198). -/
def skipMarker (n : Nat) : List Byte := le 4 (n - 8) ++ le 2 0xFFFF ++ [0, 0] ++ List.replicate 56 0

/-- Bytes are stored at the position of completion WRIDX and published: the index advances by `n`, and for a pair in space 4 the ring's vector
is raised (R198, R244, R297). -/
def State.publishAt (s : State) (p : Pid) (r : BitVec 3) (bs : List Byte) (n : Nat) : State :=
  let g := s.ring p r
  let s1 := s.storeAt (s.rcBase p r + BitVec.ofNat 64 (g.compWr.toNat % s.rcSize p r)) bs
  let w := g.compWr + BitVec.ofNat 64 n
  let s2 := (s1.setRing p r { g with compWr := w }).idxStore p r 2 w
  if s.devicePair p r then s2 else s2.notify (p.toNat + 1) r.toNat

/-- The remainder of the region is covered by a skip marker, published alone (R198). -/
def State.publishSkip (s : State) (p : Pid) (r : BitVec 3) : State :=
  let n := s.rcSize p r - (s.ring p r).compWr.toNat % s.rcSize p r
  s.publishAt p r (skipMarker n) n

/-- A record is written and published, and completions are counted (R255, R264). -/
def State.publishOne (s : State) (p : Pid) (r : BitVec 3) (x : RingRecord) : State :=
  let s1 := s.publishAt p r x.bytes x.bytes.length
  let s2 := s1.setRing p r { s1.ring p r with published := (s1.ring p r).published ++ [x] }
  match x with
  | .completion .. => (s2.ycount (yJB + 0x110 + 0x40 * p.toNat) 1).ycount (ringOff p r + 0x28) 1
  | _ => s2

/-- Ryist can write the completion region: one of space 4 through descriptor set 0. -/
def State.canPublish (s : State) (p : Pid) (r : BitVec 3) (n : Nat) : Bool :=
  s.canStore (s.rcBase p r + BitVec.ofNat 64 ((s.ring p r).compWr.toNat % s.rcSize p r)) n

/-- The records that wait are published in order as far as the ring has space; the rest goes on waiting (R255). In the safe state
nothing is published (R392). -/
def publishList (p : Pid) (r : BitVec 3) : List RingRecord → State → State
  | [], s => s.setRing p r { s.ring p r with waiting := [] }
  | x :: t, s =>
    let n := x.bytes.length
    let wait := fun (s : State) => s.setRing p r { s.ring p r with waiting := x :: t }
    let try_ := fun (s : State) => ringSpace (s.rcSize p r) (s.ring p r).compWr.toNat (s.ring p r).compRd.toNat n
    if s.fc.safe || !s.ringEn p r then wait s
    else
      match try_ s with
      | .none => wait s
      | .here => if s.canPublish p r n then publishList p r t (s.publishOne p r x) else wait s
      | .skip =>
        if !s.canPublish p r 64 then wait s
        else
          let s1 := s.publishSkip p r
          match try_ s1 with
          | .here => if s1.canPublish p r n then publishList p r t (s1.publishOne p r x) else wait s1
          | _ => wait s1

/-- Ryist loads completion RDIDX as the reader has left it: a multiple of 64 that has not passed WRIDX (R197, R198). -/
def State.loadRdidx (s : State) (p : Pid) (r : BitVec 3) : State :=
  match s.idxLoad p r 3 with
  | (s1, some v) =>
    let g := s1.ring p r
    if g.compRd.toNat ≤ v.toNat && v.toNat ≤ g.compWr.toNat && v.toNat % 64 == 0 then s1.setRing p r { g with compRd := v } else s1
  | (s1, none) => s1

/-- A record joins its ring (R255). -/
def State.pushRecord (s : State) (p : Pid) (r : BitVec 3) (x : RingRecord) : State :=
  let s1 := s.loadRdidx p r
  publishList p r ((s1.ring p r).waiting ++ [x]) s1

/-- COMPLETION_PUBLISH_RESUME (R255): the reader has advanced completion RDIDX, and waiting records follow. -/
def execCompletionPublishResume (p : Pid) (r : BitVec 3) (s : State) : Host.Outcome State Fault Refusal :=
  if s.ringEn p r then
    let s1 := s.loadRdidx p r
    .next (publishList p r (s1.ring p r).waiting s1)
  else .next s

/-! ### Submission records (R199, R246) -/

/-- Ryist accepts jobs and reads a ring: bring-up is READY, the device is not in the safe state, the pair is enabled and its
partition valid and not in reset (R244, R264, R367, R392). -/
def State.ringRead (s : State) (p : Pid) (r : BitVec 3) : Bool :=
  s.bu.phase == 10 && !s.fc.safe && s.pvalid p && s.ringEn p r && (s.partition p).state != 3

/-- A submission record as Ryist finds it: KIND, LEN and the payload. -/
structure RawRecord where
  kind : Nat
  len : Nat
  payload : List Byte
deriving DecidableEq, Repr

/-- The record at submission RDIDX, where WRIDX shows that there is one (R199). Of a region in space 4, `host` is what host memory holds
there. -/
def State.fetchRecord (s : State) (p : Pid) (r : BitVec 3) (host : List Byte) : Option (State × RawRecord) :=
  if !s.ringRead p r then none
  else
    match s.idxLoad p r 0 with
    | (_, none) => none
    | (s1, some w) =>
      let s2 := (s1.setRing p r { s1.ring p r with subWr := w }).watchRing p r
      let rd := (s2.ring p r).subRd
      if rd = w then none
      else
        let at_ := s2.rsBase p r + BitVec.ofNat 64 (rd.toNat % s2.rsSize p r)
        match s2.loadAt at_ 64 (host.take 64) with
        | none => none
        | some h =>
          let len := leNat (h.take 4)
          let n := min len (s2.rsSize p r - rd.toNat % s2.rsSize p r - 8)
          match s2.loadAt at_ (8 + n) host with
          | none => none
          | some bs => some (s2, { kind := leNat ((h.drop 4).take 2), len := len, payload := bs.drop 8 })

/-- Submission RDIDX advances by `n` bytes and is stored (R199). -/
def State.advanceRd (s : State) (p : Pid) (r : BitVec 3) (n : Nat) : State :=
  let g := s.ring p r
  let v := g.subRd + BitVec.ofNat 64 n
  (s.setRing p r { g with subRd := v }).idxStore p r 1 v

/-- The reader's index of a submission ring passes a record of `len` payload bytes (R199). -/
def State.readRecord (s : State) (p : Pid) (r : BitVec 3) (len : Nat) : State := s.advanceRd p r (recSize len)

/-- UNKNOWN_KIND_RECORD (R199, R246): a record of another KIND is passed by and ERR set; a skip marker moves the index to the region's
start. -/
def execUnknownKindRecord (p : Pid) (r : BitVec 3) (host : List Byte) (s : State) : Host.Outcome State Fault Refusal :=
  match s.fetchRecord p r host with
  | none => .next s
  | some (s1, x) =>
    if x.kind = 1 ∨ x.kind = 2 ∨ x.kind = 3 then .next s
    else if x.kind = 0xFFFF then .next (s1.advanceRd p r (s1.rsSize p r - (s1.ring p r).subRd.toNat % s1.rsSize p r))
    else .next ((s1.readRecord p r x.len).setYreg (ringOff p r) (s1.yreg (ringOff p r) ||| 0x40000000#32))

/-! ### Job packages (R241 to R243) -/

/-- "UTVASPK1" as a little-endian word. -/
def pkgMagic : BitVec 64 := 0x314B505341565455

/-- Bytes of an image as a number. -/
def numAt (bs : List Byte) (off n : Nat) : Nat := leNat ((bs.drop off).take n)

/-- A part of an image. -/
def slice (bs : List Byte) (off n : Nat) : List Byte := (bs.drop off).take n

/-- The section entry at an offset of a package (R242), with what its graph blob says. -/
def readEntry (bs : List Byte) (o : Nat) : SectionEntry :=
  let graph := Config.graphOf (slice bs (numAt bs (o + 48) 8) (numAt bs (o + 44) 4)) (slice bs o 64)
  { secid := BitVec.ofNat 16 (numAt bs o 2), stage := BitVec.ofNat 8 (numAt bs (o + 2) 1), flags := BitVec.ofNat 8 (numAt bs (o + 3) 1)
    minCores := numAt bs (o + 4) 4, maxCores := numAt bs (o + 8) 4, grain := numAt bs (o + 12) 4, work := numAt bs (o + 16) 8
    wbytes := numAt bs (o + 24) 8, codeOff := numAt bs (o + 32) 8, codeLen := numAt bs (o + 40) 4, graphLen := numAt bs (o + 44) 4
    graphOff := numAt bs (o + 48) 8, wtsOff := numAt bs (o + 56) 8
    outs := (graph.map (·.1)).getD [], blobOk := graph.isSome, dbuf := (graph.map (·.2)).getD false }

/-- A package image read (R241), with the SHA-384 of bytes 128 to LENGTH - 1. -/
def readPackage (bs : List Byte) : Package :=
  let nsec := numAt bs 12 2
  let length := numAt bs 32 8
  { magic := BitVec.ofNat 64 (numAt bs 0 8), version := BitVec.ofNat 32 (numAt bs 8 4), nsec := nsec, nstage := numAt bs 14 2
    nargs := numAt bs 16 2, zeros := (slice bs 18 6 ++ slice bs 88 40).all (· == 0), outargs := BitVec.ofNat 64 (numAt bs 24 8)
    length := length, digest := BitVec.ofNat 384 (numAt bs 40 48)
    computed := BitVec.ofNat 384 (leNat (sha384 (slice bs 128 (length - 128))))
    sections := (List.range (min nsec ((bs.length - 128) / 64))).map (fun i => readEntry bs (128 + 64 * i)), image := bs }

/-- The payload of a SUBMIT record (R246). -/
def readSubmit (x : RawRecord) : SubmitRecord :=
  { recLen := x.len, jobid := BitVec.ofNat 64 (numAt x.payload 0 8), pkg := BitVec.ofNat 64 (numAt x.payload 8 8)
    pkgLen := numAt x.payload 16 8, flags := BitVec.ofNat 32 (numAt x.payload 24 4), clusters := numAt x.payload 28 4
    args := (List.range (min 64 ((x.len - 32) / 8))).map (fun i => BitVec.ofNat 64 (numAt x.payload (32 + 8 * i) 8)) }

/-- An entry's fields lie in range (R242). -/
def entryRange (k : Package) (e : SectionEntry) : Bool :=
  1 ≤ e.minCores && e.minCores ≤ e.maxCores && e.maxCores ≤ 321408 && 1 ≤ e.grain && e.grain ≤ 4096 &&
    e.minCores % e.grain == 0 && e.maxCores % e.grain == 0 && 1 ≤ e.work && e.stage.toNat < k.nstage &&
    e.flags.toNat < 8

/-- An entry's blobs lie within the package at multiples of 64 (R242). -/
def entryInside (k : Package) (e : SectionEntry) : Bool :=
  e.codeOff % 64 == 0 && e.graphOff % 64 == 0 && e.wtsOff % 64 == 0 && e.codeOff + e.codeLen ≤ k.length &&
    e.graphOff + e.graphLen ≤ k.length && e.wtsOff + e.wbytes ≤ k.length

/-- The header's fields lie in range (R241). -/
def headerRange (k : Package) : Bool :=
  1 ≤ k.nsec && k.nsec ≤ 1024 && k.sections.length == k.nsec && 1 ≤ k.nstage && k.nstage ≤ 256 && k.nargs ≤ 64 && k.zeros &&
    k.outargs.toNat < 2 ^ k.nargs

/-- SECIDs rise strictly (R241). -/
def secidsRise : List SectionEntry → Bool
  | a :: b :: t => a.secid.toNat < b.secid.toNat && secidsRise (b :: t)
  | _ => true

/-- A device address lies in space 4, or in space 2 within the partition (R243). -/
def State.inPartition (s : State) (p : Pid) (a : DWord) (n : Nat) : Bool :=
  if addrSpace a = 4 then true
  else if addrSpace a = 2 then
    addrOff44 a + n ≤ s.capacity &&
      (List.range ((addrOff44 a + max n 1 - 1) / 2 ^ 30 + 1 - extentOf (addrOff44 a))).all (fun i =>
        (s.extent (extentOf (addrOff44 a) + i)).owner == .part p)
  else false

/-- The job of a ring that is not finished. -/
def isJob (p : Pid) (r : BitVec 3) (id : DWord) (j : Job) : Bool := j.p == p && j.r == r && j.jobid == id && j.phase != .finished

/-- The package of a SUBMIT record lies where Ryist may read it (R241, R243). -/
def State.pkgPlaced (s : State) (p : Pid) (x : SubmitRecord) : Bool := x.pkg.toNat % 64 == 0 && s.inPartition p x.pkg x.pkgLen

/-- The SUBMIT record is well formed (R243, reason 7). -/
def State.submitOk (s : State) (p : Pid) (r : BitVec 3) (x : SubmitRecord) (k : Package) : Bool :=
  x.jobid != 0 && !s.jobs.any (isJob p r x.jobid) && x.recLen == 32 + 8 * k.nargs && x.args.length == k.nargs &&
    x.pkgLen == k.length && x.flags.toNat ≤ 1 && s.pkgPlaced p x &&
    x.args.all (fun a => s.inPartition p a 1)

/-- JB_PCFGp.GUARDED (R239). -/
def State.guarded (s : State) (p : Pid) : Bool := (s.pcfg p).getLsbD 30

/-- Why a package is rejected: the DETAIL code of the first check that fails, in the order of R243; a guarded partition rejects
double-buffered stages (R381). -/
def State.pkgReject (s : State) (p : Pid) (r : BitVec 3) (x : SubmitRecord) (k : Package) : Option Nat :=
  if k.magic ≠ pkgMagic ∨ k.version ≠ 0x10000 then some 1
  else if k.digest ≠ k.computed then some 2
  else if !headerRange k || !k.sections.all (entryRange k) then some 3
  else if k.length % 64 ≠ 0 ∨ k.length < 128 + 64 * k.nsec ∨ !k.sections.all (entryInside k) then some 4
  else if !secidsRise k.sections then some 5
  else if (List.range k.nstage).any (fun g => decide (64 < (k.sections.filter (fun e => e.stage.toNat == g)).length)) then some 6
  else if !s.submitOk p r x k then some 7
  else if k.sections.any (fun e => !e.blobOk) || (s.guarded p && k.sections.any (fun e => e.dbuf)) then some 8
  else none

end Sys2Proof.Machine
end

