-- ==== Sys2Proof/Machine/Jobs.lean ====
section
/-! DEFINITION. Jobs from submission to completion, kills, and the release gate (R233 to R235, R239, R246 to R263, R375 to R383, R395). -/

namespace Sys2Proof.Machine

/-! ### The job table -/

def State.onJob (s : State) (p : Pid) (r : BitVec 3) (id : DWord) (f : Job → Job) : State :=
  { s with jobs := s.jobs.map (fun j => if isJob p r id j then f j else j) }
def State.job? (s : State) (p : Pid) (r : BitVec 3) (id : DWord) : Option Job := s.jobs.find? (isJob p r id)

/-- A job as it is read from its ring. -/
def newJob (p : Pid) (r : BitVec 3) (x : SubmitRecord) (k : Package) : Job :=
  { p := p, r := r, jobid := x.jobid, srec := x, pkg := k, phase := .waiting, staged := false, curStage := 0, clusters := [],
    layout := [], secsEnded := [], stageEnds := [], outputs := [], status := 0, detail := 0, fcause := 0xFF, fkind := 0, fcore := 0,
    kept := [], away := [], noKeep := false, reload := [], killYc := none, flags := 0, fpgen := 0, started := none, endStamp := 0,
    lastRelease := 0, energyPj := 0, converged := true, pred := 0, firstCover := none, replays := [], replaying := none, scrubbed := false }

/-- The section entry of an identifier. -/
def Job.entry? (j : Job) (secid : BitVec 16) : Option SectionEntry := j.pkg.sections.find? (fun e => e.secid == secid)

/-- The sections of a stage. -/
def Job.stageSecs (j : Job) (g : Nat) : List SectionEntry := j.pkg.sections.filter (fun e => e.stage.toNat == g)

/-- The output arguments of a package. -/
def Job.outs (j : Job) : List Nat := (List.range 64).filter (fun i => j.pkg.outargs.getLsbD i)

def Job.output (j : Job) (i : Nat) : GateState := j.outputs.get .open i

/-- The gate has decided an output (R375). -/
def GateState.decided (g : GateState) : Bool :=
  match g with
  | .open => false
  | .final _ => false
  | _ => true

/-- Every output is decided (R254). -/
def Job.allDecided (j : Job) : Bool := j.outs.all (fun i => (j.output i).decided)

/-- The slots a job's sections hold. -/
def State.jobSlots (s : State) (j : Job) : List Nat :=
  s.usedSlots.filter (fun n => (s.slots.get SectionSlot.reset n).job == some (j.p, j.r, j.jobid))

/-- The completion record of a job (R253). ACLASS is 2 where the partition is metered and every field stayed converged, else 8
(R338). -/
def State.completion (s : State) (j : Job) : RingRecord :=
  .completion j.jobid j.status j.detail j.fcause j.fkind
    (if (s.pcfg j.p).getLsbD 28 && j.converged then 2 else 8) j.flags j.fcore j.fpgen (j.started.getD 0) j.endStamp
    j.lastRelease (BitVec.ofNat 64 (j.energyPj / 1000000000)) j.pred

/-- A record without a job behind it: for a rejected SUBMIT, a KILL or an UNLOAD (R253). -/
def bareCompletion (jobid : DWord) (status detail : Nat) : RingRecord :=
  .completion jobid (BitVec.ofNat 16 status) (BitVec.ofNat 16 detail) 0xFF 0 8 0 0 0 0 0 0 0 0

/-- A job finishes: its record is published, its energy is added to its ring and partition, and it leaves the table (R254). -/
def State.finishJob (s : State) (j : Job) : State :=
  let mj := j.energyPj / 1000000000
  let s1 : State := { s with jobs := s.jobs.filter (fun x => !isJob j.p j.r j.jobid x) }
  let s2 := (s1.ycount (ringOff j.p j.r + 0x20) mj).ycount (yJB + 0x108 + 0x40 * j.p.toNat) mj
  let s3 := s2.pushRecord j.p j.r (s.completion j)
  if (s3.partition j.p).state = 3 ∨ (s3.partition j.p).state = 4 then s3 else s3.setPstate j.p (s3.restPstate j.p)

/-! ### Clusters of a partition (R235, R239, R240, R252) -/

/-- A cluster is held by a job or a resident placement. -/
def State.busyCluster (s : State) (cl : Nat) : Bool :=
  s.jobs.any (fun j => j.phase != .finished && j.clusters.contains cl) || s.residents.any (fun x => x.clusters.contains cl)

/-- A cluster can take work: neither isolated nor in a dead field, not switched off for heat, its scrub done. -/
def State.sound (s : State) (cl : Nat) : Bool :=
  !s.fp.isolated.contains cl && !(s.cluster cl).fuseOpen && !s.fp.dead.contains (fieldOfCluster cl) &&
    !s.fieldDead (fieldOfCluster cl) && (s.cluster cl).heat.toNat ≤ 1 && !(s.cluster cl).scrubPend && !(s.cluster cl).scrubbing

/-- The partition's free clusters. -/
def State.freeClusters (s : State) (p : Pid) : List Nat :=
  (s.partition p).clusters.filter (fun cl => !(s.partition p).standby.contains cl && !s.busyCluster cl && s.sound cl)

/-- Fields of JB_PCFG. -/
def cfgGuarded (v : Word) : Bool := v.getLsbD 30
def cfgPinned (v : Word) : Bool := v.getLsbD 29
def cfgStandby (v : Word) : Nat := field v 24 2 + 1
def cfgQuota (v : Word) : Nat := field v 0 13

/-- The standby clusters that replays have consumed are replaced from the partition's free clusters, those of the highest indices
first (R239, log entry 28). -/
def State.replenish (s : State) (p : Pid) : State :=
  let cfg := s.pcfg p
  if !cfgGuarded cfg then s
  else
    let need := cfgStandby cfg - (s.partition p).standby.length
    let free := s.freeClusters p
    let more := free.filter (fun cl => decide ((free.filter (fun x => cl < x)).length < need))
    s.onPart p (fun e => { e with standby := e.standby ++ more })

/-- The ring core of a partition with a device ring pair enabled (R256). -/
def State.ringCore (s : State) (p : Pid) : Option CoreId :=
  if ringNos.any (fun r => s.ringEn p r && s.devicePair p r) then
    let cls := (s.partition p).clusters.filter (fun cl => !(s.partition p).standby.contains cl)
    match cls.head? with
    | none => none
    | some first =>
      let low := cls.foldl min first
      (s.usableCores low).foldl (fun (best : Option CoreId) c =>
        match best with
        | none => some c
        | some b => if coreKey c < coreKey b then some c else some b) none
  else none

/-- A change of the floor plan that has been declared and does not show yet takes a position away (R35, R39). -/
def State.doomed (s : State) (c : CoreId) : Bool :=
  s.fp.todo.any (fun ev => match ev with
    | .hole px py => s.phys c == (px.toNat, py.toNat)
    | .isolated cl => s.clusterNo c == cl.toNat
    | .deadField f => fieldOf c.x.toNat c.y.toNat == f.toNat)

/-- The placeable positions of a set of clusters (R39, R235, R256). -/
def State.placeable (s : State) (p : Pid) (cls : List Nat) : List CoreId :=
  (cls.filter (fun cl => !s.helpers.contains cl && !(s.partition p).standby.contains cl)).flatMap (fun cl =>
    (s.usableCores cl).filter (fun c => s.ringCore p != some c && !s.doomed c))

/-! ### Allotment (R248, R249) -/

/-- The least cores of a section (R248). -/
def leastCores (e : SectionEntry) : Nat := max e.minCores (e.grain * ceilDiv (ceilDiv e.wbytes 344064) e.grain)

/-- The first shares (R249). -/
def firstShare (P W : Nat) (e : SectionEntry) : Nat :=
  min e.maxCores (max (leastCores e) (e.grain * (P * e.work / W / e.grain)))

/-- The index of the best candidate under an order; of equal ones the first. -/
def bestIndex (better : SectionEntry × Nat → SectionEntry × Nat → Bool) (ok : SectionEntry × Nat → Bool) :
    List (SectionEntry × Nat) → Nat → Option (Nat × (SectionEntry × Nat)) → Option Nat
  | [], _, best => best.map (·.1)
  | x :: t, i, best =>
    bestIndex better ok t (i + 1)
      (if ok x then
        match best with
        | none => some (i, x)
        | some b => if better x b.2 then some (i, x) else some b
       else best)

def total (l : List (SectionEntry × Nat)) : Nat := (l.map (·.2)).sum

/-- One GRAIN is taken while the shares exceed P: from the smallest WORK / n above its minimum, of equal ones the higher SECID. -/
def takeBack (P : Nat) : Nat → List (SectionEntry × Nat) → List (SectionEntry × Nat)
  | 0, l => l
  | fuel + 1, l =>
    if total l ≤ P then l
    else
      match bestIndex (fun x b => decide (x.1.work * b.2 ≤ b.1.work * x.2)) (fun x => decide (leastCores x.1 < x.2)) l 0 none with
      | none => l
      | some i => takeBack P fuel (updAt (fun x => (x.1, x.2 - x.1.grain)) l i)

/-- One GRAIN is given while one fits: to the largest WORK / n, of equal ones the lower SECID. -/
def giveMore (P : Nat) : Nat → List (SectionEntry × Nat) → List (SectionEntry × Nat)
  | 0, l => l
  | fuel + 1, l =>
    match bestIndex (fun x b => decide (b.1.work * x.2 < x.1.work * b.2))
        (fun x => decide (x.2 + x.1.grain ≤ x.1.maxCores) && decide (total l + x.1.grain ≤ P)) l 0 none with
    | none => l
    | some i => giveMore P fuel (updAt (fun x => (x.1, x.2 + x.1.grain)) l i)

/-- The cores of each section placed together, sections in order of SECID (R249). -/
def allot (P : Nat) (secs : List SectionEntry) : List (SectionEntry × Nat) :=
  let W := (secs.map (·.work)).sum
  let l := secs.map (fun e => (e, firstShare P W e))
  giveMore P P (takeBack P (total l) l)

/-- How a job can be placed on P positions with `free` section slots (R248). -/
inductive PlaceMode where
  | resident | staged | wait
deriving DecidableEq, Repr

/-- R248. -/
def placeMode (secs : List SectionEntry) (nstage P free : Nat) : PlaceMode :=
  if (secs.map leastCores).sum ≤ P ∧ secs.length ≤ free then .resident
  else if (List.range nstage).all (fun g =>
      let st := secs.filter (fun e => e.stage.toNat == g)
      decide ((st.map leastCores).sum ≤ P) && decide (st.length ≤ free)) then .staged
  else .wait

/-! ### Layouts (R233, R234, R251) -/

/-- Ryist's digest, from the image bank in use, and the floor plan's (R36, R234, R349). -/
def State.ryistDigest (s : State) : BitVec 384 := (s.bu.active.get Image.reset 2).digest
def State.fpDigest (s : State) : BitVec 384 := BitVec.ofNat 384 (leNat (sha384 s.fpImage))

/-- The free section slots, in ascending order. -/
def State.freeSlots (s : State) : List Nat := (List.range 64).filter (fun n => !s.usedSlots.contains n)

/-- What a job's placement on clusters follows from (R234). -/
def State.planKey (s : State) (j : Job) (cls : List Nat) (stage : Nat) : Config.PlanKey :=
  { ryist := s.ryistDigest, pkg := j.pkg.digest, fp := s.fpDigest, clusters := cls, free := s.freeSlots.length, stage := stage }

def coreField (c : CoreId) : Nat := fieldOf c.x.toNat c.y.toNat

/-- A field in which as many positions of a list lie. -/
def fitField (room : List CoreId) (n : Nat) : Option Nat :=
  (room.map coreField).eraseDups.find? (fun f => decide (n ≤ (room.filter (fun c => coreField c == f)).length))

/-- A section's cores lie within one field where the positions that other sections leave free in one suffice (R234). -/
def inOneField (room others cores : List CoreId) : Bool :=
  (cores.map coreField).eraseDups.length ≤ 1 || (fitField (room.filter (fun c => !others.contains c)) cores.length).isNone

/-- A layout places each section on as many distinct placeable positions as it is allotted, within one field where it fits, each in a
free slot of its own (R234). -/
def State.layoutOk (s : State) (places : List SectionPlace) (want : List (SectionEntry × Nat)) (where_ : List CoreId) : Bool :=
  let cores := places.flatMap (·.cores)
  let slots := places.map (·.slot.toNat)
  places.length == want.length &&
    (places.zip want).all (fun x => x.1.secid == x.2.1.secid && x.1.cores.length == x.2.2) &&
    cores.all where_.contains && cores.eraseDups.length == cores.length && slots.eraseDups.length == slots.length &&
    slots.all (fun n => !s.usedSlots.contains n) &&
    places.all (fun pl => inOneField where_ (cores.filter (fun c => !pl.cores.contains c)) pl.cores)

/-- Positions for sections one after the other: the first free ones of a field that has enough, else the first free ones of all. -/
def firstFits : List Nat → List CoreId → List (List CoreId)
  | [], _ => []
  | n :: t, room =>
    let cs := match fitField room n with
      | some f => (room.filter (fun c => coreField c == f)).take n
      | none => room.take n
    cs :: firstFits t (room.filter (fun c => !cs.contains c))

/-- Sections on given positions, each in the lowest slot that is free. -/
def State.placesOf (s : State) (want : List (SectionEntry × Nat)) (cores : List (List CoreId)) : List SectionPlace :=
  ((want.zip cores).zip s.freeSlots).map (fun x => { secid := x.1.1.1.secid, slot := BitVec.ofNat 6 x.2, cores := x.1.2 })

/-- Ryist's layout: the positions of its own choice, which follow from what R234 names, where they are a layout; else the first that fit
(R249, log entry 72). -/
def State.layout (s : State) (key : Config.PlanKey) (want : List (SectionEntry × Nat)) (room : List CoreId) : List SectionPlace :=
  let own := s.placesOf want (want.map (fun e => Config.sectionCores key e.1.secid.toNat))
  if s.layoutOk own want room then own else s.placesOf want (firstFits (want.map (·.2)) room)

/-- The corners of a section's bounding rectangle (R251). -/
def corners (cs : List CoreId) : CoreId × CoreId :=
  (coreAt (cs.foldl (fun n c => min n c.x.toNat) 1023) (cs.foldl (fun n c => min n c.y.toNat) 1023),
   coreAt (cs.foldl (fun n c => max n c.x.toNat) 0) (cs.foldl (fun n c => max n c.y.toNat) 0))

/-- PRED of a placement: the largest WORK / n, rounded up; and IMBAL (R251). -/
def predOf (l : List (SectionEntry × Nat)) : Nat := (l.map (fun x => ceilDiv x.1.work x.2)).foldl max 0
def imbalOf (l : List (SectionEntry × Nat)) : Nat :=
  let W := (l.map (fun x => x.1.work)).sum
  (l.map (fun x => 65536 * x.1.work * total l / (x.2 * W))).foldl max 0

/-- The placement record of what has been placed (R251). -/
def placementRecord (s : State) (j : Job) (staged : Bool) (stage nclusters : Nat) (l : List (SectionEntry × Nat))
    (places : List SectionPlace) : RingRecord :=
  .placement j.jobid s.fp.gen (flag 8 0 staged) (BitVec.ofNat 8 stage) nclusters (total l) (imbalOf l) (BitVec.ofNat 64 (predOf l))
    ((l.zip places).map (fun x => (x.1.1.secid, x.1.1.stage, x.1.2, (corners x.2.cores).1, (corners x.2.cores).2)))

/-! ### Loading (R239, R250, R256, R381) -/

/-- Words of the section's code image go into the instruction store. -/
def Core.loadCode (k : Core) (image : List Byte) (e : SectionEntry) (w : Nat × Nat × Nat) : Core :=
  (List.range (min w.2.2 (min (e.codeLen / 4 - w.2.1) (16384 - w.1)))).foldl (fun (a : Core) i =>
    { a with
      istore := a.istore.set (w.1 + i) (BitVec.ofNat 32 (numAt image (e.codeOff + 4 * (w.2.1 + i)) 4))
      istoreErr := a.istoreErr.del (w.1 + i), istoreCounted := a.istoreCounted.del (w.1 + i) }) k

/-- A register that a section's load sets (R242, R250): a range bound MX_RLO or MX_RHI, one of the CH_ block, or of the DF_ block past its
command, status and section registers; an output channel ends on a core of the job (R234). -/
def loadable (cores : List CoreId) (off : Nat) (v : Word) : Bool :=
  ((rMX_RLO ≤ off && off < rMX_RHI + 0x100) || (0x5100 ≤ off && off < 0x6000) || (0x600C ≤ off && off < 0x7000)) &&
    (!(0x5500 ≤ off && off < 0x5900 && off % 0x40 == 4) || cores.contains (coreAt (field v 10 10) (field v 20 10)))

/-- Registers of a core written by Ryist. -/
def K.ryistWrites (k : K) (l : List (Nat × Word)) : K := l.foldl (fun a e => (a.writeReg e.1 e.2 .ryist).1) k

/-- The six addresses a job receives for ring r: its two regions and the four lines of its index block (R256). -/
def State.ringAddrs (s : State) (p : Pid) (r : Nat) : List DWord :=
  match (s.ring p (BitVec.ofNat 3 r)).idx with
  | none => []
  | some (c, off) =>
    [s.rsBase p (BitVec.ofNat 3 r), s.rcBase p (BitVec.ofNat 3 r)] ++ (List.range 4).map (fun i => mkAddr 0 c (off + 64 * i))

/-- The CH_ADDR slots that the graph blob names for arguments and rings, with their addresses (R250, R256). -/
def State.addrSlots (s : State) (j : Job) (l : Config.CoreLoad) : List (Nat × DWord) :=
  l.args.filterMap (fun e => (j.srec.args[e.2]?).map (fun a => (e.1, a))) ++
    l.rings.flatMap (fun e => (s.ringAddrs j.p e.2).zipIdx.map (fun a => (e.1 + a.2, a.1)))

def K.writeSlots (k : K) (l : List (Nat × DWord)) : K :=
  (l.filter (fun e => e.1 < 32)).foldl (fun a e => (a.writeReg8 (rCH_ADDR + 8 * e.1) e.2 .ryist).1) k

/-- The share of a section's weights that one of its n cores holds, in bytes (R249, log entry 27). -/
def weightShare (e : SectionEntry) (n : Nat) : Nat := 64 * ceilDiv (ceilDiv e.wbytes n) 64

/-- The weights of the i-th core of a section. -/
def weightsOf (image : List Byte) (e : SectionEntry) (n i : Nat) : List Byte :=
  slice image (e.wtsOff + i * weightShare e n) (min (weightShare e n) (e.wbytes - i * weightShare e n))

/-- FLT_WREF and FLT_WLAST as digests. -/
def Core.digestAt (k : Core) (off : Nat) : BitVec 384 :=
  BitVec.ofNat 384 (leNat ((List.range 12).flatMap (fun i => leBytes 4 (k.reg (off + 4 * i)).toNat)))
def Core.setDigest (k : Core) (off : Nat) (d : BitVec 384) : Core :=
  (List.range 12).foldl (fun a i => a.setReg (off + 4 * i) (d.extractLsb' (32 * i) 32)) k

/-- The reference digest of a share: over its bytes and the zeros that fill the region (R379). -/
def shareDigest (bs : List Byte) : BitVec 384 :=
  BitVec.ofNat 384 (leNat (sha384 (bs ++ List.replicate (0x4000 * ceilDiv bs.length 0x4000 - bs.length) 0)))

/-- A core's share is copied to the start of its scratchpad, WTOP covers it, WLOCK is set and FLT_WREF holds its digest; the scans
are off until the section boundary (R118, R249, R250, R379). -/
def K.loadWeights (k : K) (bs : List Byte) : K :=
  let top := BitVec.ofNat 32 (ceilDiv bs.length 0x4000)
  let k1 := (k.writeReg rSP_REGION top .ryist).1
  let all := bs ++ List.replicate (64 * ceilDiv bs.length 64 - bs.length) 0
  let k2 := (List.range (all.length / 64)).foldl (fun (a : K) i => (a.writeBytes agNET none (64 * i) (slice all (64 * i) 64)).1) k1
  let k3 := (k2.writeReg rSP_REGION (top ||| 0x80000000#32) .ryist).1
  if bs.isEmpty then k3 else { k3 with core := (k3.core.setWctl false).setDigest rFLT_WREF (shareDigest bs) }

/-- The section identifier, slot and lead bit of a core, and the staged values that follow from FLAGS: NANTRAP, RANGE and CHK, the first and
the last forced in a guarded partition (R233, R239, R250, R381). -/
def K.loadConfig (k : K) (pl : SectionPlace) (fl : Byte) (g : Bool) : K :=
  let lead := pl.cores.head? == some k.c
  let c1 := k.core.setReg rDF_SECCFG (place 32 16 16 pl.secid.toNat ||| place 32 10 6 pl.slot.toNat ||| flag 32 9 lead |||
    place 32 0 2 k.core.epoch)
  { k with core := { c1 with
    shNumctl := some (setField (k.core.reg rCORE_NUMCTL) 5 1 (g || fl.getLsbD 0).toNat)
    shMxctrl := some (flag 32 2 (fl.getLsbD 1) ||| flag 32 3 (g || fl.getLsbD 2)) } }

/-- A section takes its slot and its cores are loaded: instruction store, registers, address slots, merge slots and weights; where a resident
placement is used again only the channels and arguments are rewritten (R250, R252). -/
def State.loadSection (s : State) (j : Job) (key : Config.PlanKey) (fresh : CoreId → Bool) (pl : SectionPlace) : State :=
  let e := j.entry? pl.secid
  let fl : Byte := (e.map (·.flags)).getD 0
  let cores := j.layout.flatMap (·.cores)
  let merges := (Config.mergeSlots key pl.secid.toNat).filter (fun m =>
    m.1 < 576 && m.2.1 < 576 && rRT_RED ≤ m.2.2.1 && m.2.2.1 < rRT_RED + 0x100)
  let slot : SectionSlot := { SectionSlot.reset with
    cores := pl.cores, secid := pl.secid, job := some (j.p, j.r, j.jobid)
    merges := (merges.map (fun m => (m.1, m.2.1, (m.2.2.1 - rRT_RED) / 0x20))).eraseDups }
  let s1 := merges.foldl (fun (a : State) m => a.onRouter m.1 m.2.1 (fun r => r.setReg m.2.2.1 m.2.2.2))
    { s with slots := SMap.set s.slots pl.slot.toNat slot }
  pl.cores.zipIdx.foldl (fun (a : State) ci =>
    let l := Config.coreLoad key pl.secid.toNat ci.2
    onCore ci.1 a (fun k =>
      let regs := l.regs.filter (fun w => loadable cores w.1 w.2 && (fresh ci.1 || (0x5100 ≤ w.1 && w.1 < 0x6000)))
      let k1 := ((k.loadConfig pl fl (s.guarded j.p)).ryistWrites regs).writeSlots (s.addrSlots j l)
      match e with
      | some e =>
        if fresh ci.1 then
          K.loadWeights { k1 with core := l.code.foldl (fun b w => b.loadCode j.pkg.image e w) k1.core }
            (weightsOf j.pkg.image e pl.cores.length ci.2)
        else k1
      | none => k1)) s1

def State.loadAll (s : State) (j : Job) (key : Config.PlanKey) (fresh : CoreId → Bool) (places : List SectionPlace) : State :=
  places.foldl (fun a pl => a.loadSection j key fresh pl) s

/-! ### Self-test abandonment (R395) -/

/-- A test of a cluster that Ryist needs is abandoned: a cluster reset ends it, a scrub follows where the SRAM part had begun, and
kind 0xE3 is reported. -/
def State.abandonTest (s : State) (cl : Nat) : State :=
  match (s.cluster cl).testing with
  | none => s
  | some asked =>
    let sram := (s.cluster cl).testScrub
    let s1 := (s.resetCluster cl).setCluster cl (fun e => { e with testing := none, testWait := false, testScrub := false })
    let s2 := if sram then s1.askScrub cl else s1
    let s3 := if asked then s2.setYreg (yFC + 0x18) (place 32 29 2 2 ||| place 32 0 13 cl) else s2
    s3.fieldReport (fieldOfCluster cl) 17 0xE3 cl 0

/-! ### SUBMIT and placement (R243, R246 to R252) -/

/-- The resident placements of a ring. -/
def State.residentsOf (s : State) (p : Pid) (r : BitVec 3) : List Resident := s.residents.filter (fun x => x.p == p && x.r == r)

/-- A resident placement leaves the table: its slots are free, and the job it came from retains nothing. -/
def State.removeResident (s : State) (x : Resident) : State :=
  let s1 := x.layout.foldl (fun (a : State) pl => a.freeSection pl.slot.toNat) s
  { s1 with
    residents := s1.residents.filter (fun y => y != x)
    jobs := s1.jobs.map (fun j => if j.p == x.p && j.r == x.r && j.kept == x.clusters then { j with kept := [] } else j) }

/-- A resident placement is dropped and its clusters are scrubbed (R252); the record of the job it came from, where it is not yet published,
awaits the scrubs (R254). -/
def State.dropResident (s : State) (x : Resident) : State :=
  let s1 : State := { s with
    jobs := s.jobs.map (fun j => if j.p == x.p && j.r == x.r && j.kept == x.clusters then { j with away := j.away ++ j.kept } else j) }
  x.clusters.foldl (fun a cl => a.askScrub cl) (s1.removeResident x)

/-- A SUBMIT of another digest drops the ring's resident placements, and keeps the ring's jobs of other digests from retaining theirs (R252). -/
def State.otherDigest (s : State) (p : Pid) (r : BitVec 3) (d : BitVec 384) : State :=
  let s1 := ((s.residentsOf p r).filter (fun x => x.digest != d)).foldl (fun a x => a.dropResident x) s
  { s1 with jobs := s1.jobs.map (fun j => if j.p == p && j.r == r && j.pkg.digest != d then { j with noKeep := true } else j) }

/-- The state of a partition follows its jobs, outside a reset or a change (R264). -/
def State.jobsState (s : State) (p : Pid) : State :=
  if (s.partition p).state = 3 ∨ (s.partition p).state = 4 then s else s.setPstate p (s.restPstate p)

/-- A SUBMIT is taken: its package is read and checked, and the job waits to be placed (R243, R246). Of a package in space 4, `host` is what
host memory holds. -/
def State.takeSubmit (s : State) (p : Pid) (r : BitVec 3) (x : SubmitRecord) (host : List Byte) : State :=
  let reject := fun (d : Nat) => s.pushRecord p r (bareCompletion x.jobid 4 d)
  if !s.pkgPlaced p x then reject 7
  else
    match s.loadAt x.pkg x.pkgLen host with
    | none => reject 2
    | some bs =>
      match s.pkgReject p r x (readPackage bs) with
      | some d => reject d
      | none =>
        let s1 := s.otherDigest p r (readPackage bs).digest
        State.jobsState { s1 with jobs := s1.jobs ++ [newJob p r x (readPackage bs)] } p

/-- SUBMIT (R243, R246): the record at RDIDX is a SUBMIT, which Ryist reads. A package in host memory that Ryist cannot reach now waits. -/
def execSubmit (p : Pid) (r : BitVec 3) (host pkg : List Byte) (s : State) : Host.Outcome State Fault Refusal :=
  match s.fetchRecord p r host with
  | none => .next s
  | some (s1, x) =>
    let rec_ := readSubmit x
    if x.kind ≠ 1 ∨ (s1.pkgPlaced p rec_ ∧ addrSpace rec_.pkg = 4 ∧ !s1.hostReach rec_.pkg rec_.pkgLen true) then .next s
    else .next (published s ((s1.readRecord p r x.len).takeSubmit p r rec_ pkg))

/-- UNLOAD (R246, R252). -/
def execUnload (p : Pid) (r : BitVec 3) (host : List Byte) (s : State) : Host.Outcome State Fault Refusal :=
  match s.fetchRecord p r host with
  | none => .next s
  | some (s1, x) =>
    if x.kind ≠ 3 then .next s
    else
      let id : DWord := BitVec.ofNat 64 (numAt x.payload 0 8)
      let s2 := s1.readRecord p r x.len
      let l := s2.residentsOf p r
      .next (published s ((l.foldl (fun a y => a.dropResident y) s2).pushRecord p r (bareCompletion id (if l.isEmpty then 7 else 0) 0)))

/-- A placed job is loaded: its placement record is published (R250, R251). -/
def State.placeJob (s : State) (j : Job) (staged : Bool) (cls : List Nat) (l : List (SectionEntry × Nat)) (key : Config.PlanKey)
    (places : List SectionPlace) : State :=
  let j1 : Job := { j with
    phase := .running, staged := staged, clusters := cls, layout := places, fpgen := s.fp.gen
    pred := j.pred + BitVec.ofNat 64 (predOf l)
    flags := if staged && j.srec.flags.getLsbD 0 then j.flags ||| 8 else j.flags &&& 0xF7 }
  ((s.onJob j.p j.r j.jobid (fun _ => j1)).loadAll j1 key (fun _ => true) places).pushRecord j.p j.r
    (placementRecord s j1 staged 0 cls.length l places)

/-- A resident placement of the ring with the job's digest is used again: only its channels and arguments are rewritten (R252). -/
def State.reuse (s : State) (j : Job) (x : Resident) : State :=
  let j1 : Job := { j with
    phase := .running, staged := false, clusters := x.clusters, layout := x.layout, fpgen := s.fp.gen, flags := j.flags ||| 4 }
  let s1 := s.removeResident x
  (s1.onJob j.p j.r j.jobid (fun _ => j1)).loadAll j1 (s.planKey j x.clusters 0) (fun _ => false) x.layout

/-- The job at the head of a ring. -/
def State.headJob (s : State) (p : Pid) (r : BitVec 3) : Option Job :=
  s.jobs.find? (fun j => j.p == p && j.r == r && j.phase == .waiting)

/-- A ring has a head job that Ryist may place: it is read, and none of its records waits (R247, R255). -/
def State.ringDue (s : State) (k : Nat) : Bool :=
  let p : Pid := BitVec.ofNat 4 (k / 8)
  let r : BitVec 3 := BitVec.ofNat 3 (k % 8)
  s.ringRead p r && (s.ring p r).waiting.isEmpty && (s.headJob p r).isSome

/-- The ring whose head job is next: round robin over the rings (R247), from ring 0 of partition 0 on after reset (DESIGN CHOICE, log entry
107). -/
def State.nextRing (s : State) : Option Nat := ((List.range 128).map (fun i => (s.served + 1 + i) % 128)).find? s.ringDue

/-- Ryist places a job on the clusters it has chosen, in the mode that fits; or the job waits (R248 to R251). -/
def State.placeOn (s : State) (j : Job) (cls : List Nat) : State :=
  let room := s.placeable j.p cls
  let key := s.planKey j cls 0
  match placeMode j.pkg.sections j.pkg.nstage room.length s.freeSlots.length with
  | .wait => s
  | .resident =>
    let l := allot room.length j.pkg.sections
    s.placeJob j false cls l key (s.layout key l room)
  | .staged =>
    let l := allot room.length (j.stageSecs 0)
    s.placeJob j true cls l key (s.layout key l room)

/-- The choice of clusters is one Ryist may make: as many of the partition's free ones as the job may hold (R248). -/
def State.choiceOk (s : State) (j : Job) (cls : List Nat) : Bool :=
  let free := s.freeClusters j.p
  cls.length == (if j.srec.clusters = 0 then free.length else min j.srec.clusters free.length) && cls.eraseDups.length == cls.length &&
    cls.all free.contains

/-- JOB_PLACEMENT (R247 to R251): Ryist takes the head job of the ring whose turn it is. It is placed on the clusters Ryist chooses, or uses
a resident placement again, or waits, or ends UNPLACEABLE. A test of a chosen cluster is abandoned (R395). -/
def execJobPlacement (p : Pid) (r : BitVec 3) (clusters : List (BitVec 13)) (s0 : State) : Host.Outcome State Fault Refusal :=
  if s0.nextRing ≠ some (ringKey p r) then .next s0
  else
    let s : State := { s0.replenish p with served := ringKey p r }
    match s.headJob p r with
    | none => .next s0
    | some j =>
      match (s.residentsOf p r).find? (fun x => x.digest == j.pkg.digest && j.srec.flags.getLsbD 0) with
      | some x => .next (published s0 (if x.clusters.all s.sound then s.reuse j x else s))
      | none =>
        let cls := clusters.map (·.toNat)
        if placeMode j.pkg.sections j.pkg.nstage (s.placeable p (s.partition p).clusters).length 64 = .wait then
          .next (published s0 (s.finishJob { j with status := 5 }))
        else if !s.choiceOk j cls then .next s0
        else
          let s1 := cls.foldl (fun a cl => a.abandonTest cl) s
          .next (published s0 (if cls.any (fun cl => (s.cluster cl).testScrub) then s1 else s1.placeOn j cls))

/-! ### Stages (R250, R381) -/

/-- Every section of a stage has ended. -/
def Job.stageEnded (j : Job) (g : Nat) : Bool := (j.stageSecs g).all (fun e => j.secsEnded.contains e.secid)

/-- A stage end has passed its hold (R381). -/
def Job.holdPassed (j : Job) (g : Nat) : Bool :=
  match j.stageEnds.get .open g with
  | .released _ _ => true
  | _ => false

/-- Every core of a list takes ARM, and when each has acknowledged it, START (R216, R250). The Boolean tells whether the START was
sent. -/
def State.armStart (s : State) (cs : List CoreId) : State × Bool :=
  let a := cs.foldl (fun (x : State × Bool) c =>
    if x.1.alive c then
      let r := K.arm (kOf x.1 c)
      (kPut x.1 r.1, x.2 && r.2.isNone)
    else (x.1, false)) (s, true)
  if a.2 then (onCores cs a.1 (fun k => (k.start).1), true) else a

/-- The cores of a stage's sections. -/
def Job.stageCores (j : Job) (g : Nat) : List CoreId :=
  (j.layout.filter (fun pl => (j.stageSecs g).any (fun e => e.secid == pl.secid))).flatMap (·.cores)

/-- The next stage to start: the first, or the one after a stage whose sections have all ended. In a guarded partition stage k + 2
waits for the hold of stage k (R381). -/
def Job.nextStage (j : Job) (guarded : Bool) : Option Nat :=
  match j.started with
  | none => some 0
  | some _ =>
    let g := j.curStage + 1
    if j.stageEnded j.curStage && decide (g < j.pkg.nstage) && (!guarded || g < 2 || j.holdPassed (g - 2)) then some g else none

/-- STAGE_START (R250): the stage is loaded, armed and started. In staged mode it is placed first, with a placement record of its
own (R251). A cluster under self-test holds the ARM (R395). -/
def execStageStart (p : Pid) (r : BitVec 3) (jobid : DWord) (s : State) : Host.Outcome State Fault Refusal :=
  match s.job? p r jobid with
  | none => .next s
  | some j =>
    if j.phase != .running || j.replaying.isSome || s.fc.safe || j.clusters.any (fun cl => (s.cluster cl).testing.isSome) then .next s
    else
      match j.nextStage (s.guarded p) with
      | none => .next s
      | some g =>
        let fresh := j.staged && decide (0 < g)
        let room := s.placeable p j.clusters
        let l := allot room.length (j.stageSecs g)
        let key := s.planKey j j.clusters g
        if fresh && (decide (s.freeSlots.length < l.length) || decide (room.length < total l)) then .next s
        else
          let layout := if fresh then s.layout key l room else j.layout
          let j1 : Job := { j with
            curStage := g, started := some (j.started.getD s.yc), layout := layout
            pred := if fresh then j.pred + BitVec.ofNat 64 (predOf l) else j.pred
            fpgen := if fresh then s.fp.gen else j.fpgen }
          let s1 := s.onJob p r jobid (fun _ => j1)
          let s2 := if fresh then
              (s1.loadAll j1 key (fun _ => true) layout).pushRecord p r (placementRecord s j1 true g j1.clusters.length l layout)
            else s1
          let a := s2.armStart (j1.stageCores g)
          .next (published s (if a.2 then a.1
            else (a.1.onJob p r jobid (fun _ => { j1 with curStage := j.curStage, started := j.started }))))

/-! ### The release gate (R375 to R378) -/

abbrev holdYc : Nat := 125000

/-- An output is withheld (R377, R378): its record is published, FC_WITHHELD counts it and kind 0xED is reported. -/
def State.withhold (s : State) (j : Job) (i : Nat) (f : DWord) : State :=
  let cv := j.firstCover.getD (0, 0, 0)
  let s1 := s.onJob j.p j.r j.jobid (fun x => { x with outputs := x.outputs.set i (.withheld f s.yc) })
  ((s1.ycount (yFC + 0x38) 1).yardReport 25 0xED i cv.1.toNat).pushRecord j.p j.r
    (.release j.jobid (BitVec.ofNat 8 i) true cv.1 cv.2.1 cv.2.2 f s.yc)

/-- An output is released (R377, R378). -/
def State.releaseOut (s : State) (j : Job) (i : Nat) (f : DWord) : State :=
  let s1 := s.onJob j.p j.r j.jobid (fun x => { x with outputs := x.outputs.set i (.released f s.yc), lastRelease := s.yc })
  (s1.ycount (yFC + 0x30) 1).pushRecord j.p j.r (.release j.jobid (BitVec.ofNat 8 i) false 0 0 0 f s.yc)

/-- An output is final: withheld at once where a covering message is already present (R375, R377). -/
def State.finalise (s : State) (j : Job) (i : Nat) : State :=
  if j.firstCover.isSome && !s.guarded j.p then s.withhold j i s.yc
  else s.onJob j.p j.r j.jobid (fun x => { x with outputs := x.outputs.set i (.final s.yc) })

/-- OUTPUT_DECISION (R375, R377): 125,000 yc after F the gate releases an output not withheld before. -/
def execOutputDecision (p : Pid) (r : BitVec 3) (jobid : DWord) (arg : BitVec 6) (s : State) : Host.Outcome State Fault Refusal :=
  match s.job? p r jobid with
  | none => .next s
  | some j =>
    match j.output arg.toNat with
    | .final f => if s.fc.safe || s.yc.toNat < f.toNat + holdYc then .next s else .next (s.releaseOut j arg.toNat f)
    | _ => .next s

/-! ### The end of a job (R252 to R254, R257) -/

/-- The clusters whose scrub or retention a job's record awaits (R254). -/
def Job.held (j : Job) : List Nat := j.clusters ++ j.away

/-- Every section of a job has ended: the placement stays resident, or its clusters are scrubbed (R252, R261). -/
def State.endJob (s : State) (j : Job) : State :=
  let keep := j.srec.flags.getLsbD 0 && !j.staged && decide (j.status = 0) && !j.noKeep
  let s1 := s.onJob j.p j.r j.jobid (fun x =>
    { x with phase := .ended, endStamp := s.yc, clusters := if keep then [] else x.clusters, kept := if keep then x.clusters else [] })
  if keep then
    { s1 with residents := s1.residents ++ [{ p := j.p, r := j.r, digest := j.pkg.digest, clusters := j.clusters, layout := j.layout }] }
  else j.clusters.foldl (fun a cl => a.askScrub cl) ((s.jobSlots j).foldl (fun a n => a.freeSection n) s1)

/-- The undecided outputs of a job withdrawn (R257, R260). -/
def Job.withdrawn (j : Job) : SMap GateState :=
  j.outs.foldl (fun m i => if (j.output i).decided then m else m.set i .withdrawn) j.outputs

/-- A job of a partition that is not guarded ends ABORTED (R257): its other sections are aborted, and no output is released
after that. DETAIL, FCAUSE, FKIND and FCORE are those of the section that aborted first. -/
def State.abortJob (s : State) (j : Job) (secid : BitVec 16) (cause kind : Byte) (core : Word) : State :=
  if j.phase != .running then s
  else
    let s1 := (s.jobSlots j).foldl (fun a n => a.abortSlot n) s
    let s2 := s1.onJob j.p j.r j.jobid (fun x =>
      { x with
        phase := .ended, status := 1, detail := secid, fcause := cause, fkind := kind, fcore := core, endStamp := s.yc, replaying := none
        outputs := j.withdrawn })
    j.clusters.foldl (fun a cl => a.askScrub cl) s2

def coreWord (c : CoreId) : Word := place 32 10 10 c.y.toNat ||| place 32 0 10 c.x.toNat

/-- The section of a job that has aborted, as its abort line tells: identifier, cause, kind and core (R219, R257). -/
def State.lineAbort (s : State) (j : Job) : Option (BitVec 16 × Byte × Byte × Word) :=
  (s.jobSlots j).findSome? (fun n =>
    (s.slots.get SectionSlot.reset n).abortLine.map (fun l => ((s.slots.get SectionSlot.reset n).secid, l.1, l.2.1, coreWord l.2.2)))

/-- The scrubs a job's record awaits have ended (R254). -/
def State.scrubsDone (s : State) (j : Job) : Bool := j.held.all (fun cl => !(s.cluster cl).scrubPend && !(s.cluster cl).scrubbing)

/-- Sync counters and address slots zeroed by system packets (R260). -/
def Core.zeroSync (k : Core) : Core :=
  { k with regs := k.regs.filter (fun (e : Nat × Word) =>
      !((rSY_CNT ≤ e.1 && e.1 < rSY_CNT + 0x100) || (rCH_ADDR ≤ e.1 && e.1 < rCH_ADDR + 0x100))) }

/-- The last steps of a kill (R260): counters and address slots are zeroed, the firewalls open, and the clusters return. -/
def State.killEnds (s : State) (j : Job) : State :=
  let s1 := onCores (j.clusters.flatMap s.usableCores) s (fun k => { k with core := k.core.zeroSync })
  (s.jobSlots j).foldl (fun a n => a.freeSection n) (j.clusters.foldl (fun a cl => a.setClosed cl false) s1)

/-- JOB_COMPLETION_PUBLISH (R253, R254, R260): the gate has decided every output and every cluster is scrubbed or retained; of a killed job,
its core resets are done. -/
def execJobCompletionPublish (p : Pid) (r : BitVec 3) (jobid : DWord) (s : State) : Host.Outcome State Fault Refusal :=
  match s.job? p r jobid with
  | none => .next s
  | some j =>
    if !j.allDecided || s.fc.safe || !s.scrubsDone j then .next s
    else if j.phase = .killed then
      (if j.killYc.isSome || (s.partition p).state = 3 then .next s else .next (published s ((s.killEnds j).finishJob j)))
    else if j.phase ≠ .ended then .next s
    else
      let s1 := if !j.kept.isEmpty then s else (s.jobSlots j).foldl (fun a n => a.freeSection n) s
      let held := j.outs.any (fun i => match j.output i with
        | .withheld _ _ => true
        | _ => false)
      .next (published s
        (s1.finishJob { j with status := if j.status = 0 && held then 2 else j.status, scrubbed := j.kept.isEmpty }))

/-! ### SLOT_QUIET (R217, R375, R381) -/

/-- The merge slots of a core's router are cleared (R165). -/
def K.clearMerge (k : K) : K := { k with rt := k.rt.clearMerge (List.range 8) }

/-- Outputs whose last section has ended are final; a guarded stage's end is held; the job ends with its last section (in a guarded
partition with its last hold). -/
def State.sectionEnded (s : State) (j0 : Job) (secid : BitVec 16) : State :=
  let s1 := s.onJob j0.p j0.r j0.jobid (fun x => { x with secsEnded := x.secsEnded ++ [secid] })
  match s1.job? j0.p j0.r j0.jobid with
  | none => s1
  | some j =>
    let done := fun (i : Nat) => (j.pkg.sections.filter (fun e => e.outs.contains i)).all (fun e => j.secsEnded.contains e.secid)
    let now := match j.entry? secid with
      | some e => e.outs.filter (fun i => j.outs.contains i && done i)
      | none => []
    let s2 := now.foldl (fun a i => a.finalise j i) s1
    let g := j.curStage
    let s3 := if s.guarded j.p && j.stageEnded g then
        s2.onJob j.p j.r j.jobid (fun x => { x with stageEnds := x.stageEnds.set g (.final s.yc) })
      else s2
    if !s.guarded j.p && j.pkg.sections.all (fun e => j.secsEnded.contains e.secid) then s3.endJob j else s3

/-- SLOT_QUIET (R217): every core of the slot reads QUIET; Ryist clears the section's merge slots and sends END to each core. The cores
are those configured with the slot, however they were configured. -/
def execSlotQuiet (slot : BitVec 6) (s : State) : Host.Outcome State Fault Refusal :=
  let e := s.slots.get SectionSlot.reset slot.toNat
  let cs := s.coresOfSlot slot.toNat
  if cs.isEmpty || s.fc.safe || !cs.all (fun c => s.alive c && (s.core c).quiet) then .next s
  else
    let s1 := cs.foldl (fun a c => onCoreSettled c a (fun k => (K.dfEnd k.clearMerge).1)) (s.clearMerges slot.toNat)
    match e.job.bind (fun q => s.job? q.1 q.2.1 q.2.2) with
    | none => .next (s1.freeSection slot.toNat)
    | some j => .next (published s ((if j.staged then s1.freeSection slot.toNat else s1).sectionEnded j e.secid))

/-- STAGE_HOLD_EXPIRY (R381): a guarded stage end passes its hold; with the last one the job ends. -/
def execStageHoldExpiry (p : Pid) (r : BitVec 3) (jobid : DWord) (stage : BitVec 8) (s : State) : Host.Outcome State Fault Refusal :=
  match s.job? p r jobid with
  | none => .next s
  | some j =>
    match j.stageEnds.get .open stage.toNat with
    | .final f =>
      if s.fc.safe || j.replaying.isSome || s.yc.toNat < f.toNat + holdYc then .next s
      else
        let s1 := s.onJob p r jobid (fun x => { x with stageEnds := x.stageEnds.set stage.toNat (.released f s.yc) })
        .next (published s (if stage.toNat + 1 = j.pkg.nstage && j.phase == .running then s1.endJob j else s1))
    | _ => .next s

/-! ### Kills (R259 to R263) -/

/-- Packets with SYS 0 for a core are absorbed by its closed firewall (R172); the lines that writes under way have still to bring come off
SP_PENDWR (R123). -/
def State.absorbFor (s : State) (cs : List CoreId) : State :=
  let mine := s.inbox.filter (fun (e : CoreId × Packet) => cs.contains e.1 && !e.2.sys)
  let gone := s.accepted.filter (fun a => cs.contains a.core && !a.pkt.sys)
  let s1 : State := { s with inbox := s.inbox.filter (fun (e : CoreId × Packet) => !(cs.contains e.1 && !e.2.sys))
                             accepted := s.accepted.filter (fun a => !(cs.contains a.core && !a.pkt.sys)) }
  let s2 := gone.foldl (fun (a : State) e => onCore e.core a (fun k => { k with core := k.core.pendSub e.lines })) s1
  mine.foldl (fun a e => a.routerEvent (a.phys e.1).1 (a.phys e.1).2 rRT_FWREF 0x25 (16 + e.2.pid.toNat) (epBits e.2.src)) s2

/-- Clusters are emptied: arrivals absorbed, cores reset, scratchpads and stores scrubbed, counters and address slots zeroed
(R367). -/
def State.emptyClusters (s : State) (cls : List Nat) : State :=
  let cs := cls.flatMap s.usableCores
  let s1 := cs.foldl (fun a c => a.resetCore c) (s.absorbFor cs)
  let s2 := cls.foldl (fun a cl => a.scrubWhole cl) s1
  onCores cs s2 (fun k => { k with core := k.core.zeroSync })

/-- Ryist takes a kill at K (R260, R263): a job that waits to be placed is removed; of another, outputs are withdrawn, the firewalls of its
clusters close, and every section slot receives ABORT. A placement it retained is dropped (R252). -/
def State.killStart (s : State) (j : Job) (status : Nat) : State :=
  let dead : Job := { j with
    phase := .killed, status := BitVec.ofNat 16 status, detail := 0, fcause := 0xFF, fkind := 0, fcore := 0, replaying := none
    clusters := j.clusters ++ j.kept, kept := [], outputs := j.withdrawn, killYc := some s.yc
    endStamp := if j.started.isSome && j.phase == .running then s.yc else j.endStamp }
  if j.phase = .waiting then s.finishJob dead
  else
    let s1 : State := { s with residents := s.residents.filter (fun x => !(x.p == j.p && x.r == j.r && x.clusters == j.kept)) }
    let s2 := dead.clusters.foldl (fun (a : State) cl => a.setClosed cl true) (s1.onJob j.p j.r j.jobid (fun _ => dead))
    (s.jobSlots j).foldl (fun a n => a.sendAbort n) s2

/-- The core resets of a kill, 100 µs after ABORT: 5,000 yc (R260). What the firewalls have let through before is absorbed; the clusters' scrubs
are asked for. -/
def State.killResets (s : State) (j : Job) : State :=
  let cs := j.clusters.flatMap s.usableCores
  let s1 := cs.foldl (fun (a : State) c => a.resetCore c) (s.absorbFor cs)
  (j.clusters.foldl (fun (a : State) cl => a.askScrub cl) s1).onJob j.p j.r j.jobid (fun x => { x with killYc := none })

/-- The kills whose core resets are due. -/
def State.killTick (s : State) : State :=
  if s.jobs.all (fun j => j.killYc.isNone) then s
  else
    published s ((s.jobs.filter (fun j => match j.killYc with
      | some y => decide (y.toNat + 5000 ≤ s.yc.toNat)
      | none => false)).foldl (fun (a : State) j => a.killResets j) s)

/-- KILL (R246, R247, R260, R263): the job the record names ends in its record, with status 3, which is the KILL's too; a record that names
none, or one that is being killed, ends in status 7. -/
def execKill (p : Pid) (r : BitVec 3) (host : List Byte) (s : State) : Host.Outcome State Fault Refusal :=
  match s.fetchRecord p r host with
  | none => .next s
  | some (s1, x) =>
    if x.kind ≠ 2 then .next s
    else
      let id : DWord := BitVec.ofNat 64 (numAt x.payload 0 8)
      let s2 := s1.readRecord p r x.len
      match (s2.job? p r id).filter (fun j => j.phase != .killed) with
      | none => .next (s2.pushRecord p r (bareCompletion id 7 0))
      | some j => .next (published s (s2.killStart j 3))

end Sys2Proof.Machine
end

