-- ==== Sys2Proof/Machine/Partitions.lean ====
section
/-! DEFINITION. Partitions: their configuration, ring pairs, resets and the TDI of each (R236 to R240, R245, R264, R280, R289, R300,
R367). -/

namespace Sys2Proof.Machine

/-! ### TDIs (R300) -/

def State.tdi (s : State) (p : Pid) : BitVec 2 := s.host.tdi.get 0 p.toNat
def State.setTdi (s : State) (p : Pid) (v : BitVec 2) : State := { s with host := { s.host with tdi := s.host.tdi.set p.toNat v } }

/-- The TDI is CONFIG_UNLOCKED, and bound to no stream (R299, R300). -/
def State.freeTdi (s : State) (p : Pid) : State :=
  let s1 := s.setTdi p 0
  { s1 with host := { s1.host with tdiStream := s1.host.tdiStream.del p.toNat } }

/-- The TDI is CONFIG_LOCKED or RUN. -/
def State.tdiLocked (s : State) (p : Pid) : Bool := s.tdi p == 1 || s.tdi p == 2

/-! ### The reset of a partition (R367) -/

/-- A reset begins: unfinished jobs get status 6 and their undecided outputs are withdrawn, firewalls close, extents are refused,
and span traffic of the partition is dropped. A reset during a reset merges (R369). -/
def State.startPartReset (s : State) (p : Pid) : State :=
  if !s.pvalid p || (s.partition p).state = 3 then s
  else
    let cls := (s.partition p).clusters
    let jobs := s.jobs.map (fun j => if j.p = p ∧ j.phase ≠ .finished then
        { j with
          phase := .killed, status := 6, detail := 0, fcause := 0xFF, fkind := 0, fcore := 0, replaying := none, killYc := none
          endStamp := if j.started.isSome && j.phase == .running then s.yc else j.endStamp, outputs := j.withdrawn }
      else j)
    let s1 : State := { s with
      jobs := jobs
      om := { s.om with
        extents := s.om.extents.map (fun (e : Nat × Extent) =>
          if e.2.owner == .part p then (e.1, { e.2 with zeroing := true }) else e)
        fills := s.om.fills.filter (fun k => (s.extent k).owner != .part p) }
      span := s.span.map (fun (e : Nat × SpanPort) => (e.1, { e.2 with outq := e.2.outq.filter (fun q => q.1 != p) })) }
    let s2 := cls.foldl (fun a cl => a.setClosed cl true) s1
    let s3 := s2.absorbFor (cls.flatMap s2.usableCores)
    (s3.onPart p (fun e => { e with drained := false, resetYc := some s.yc })).setPstate p 3

/-- A flit of the partition is still in the mesh, at a terminus or in a span queue (R367). -/
def State.draining (s : State) (p : Pid) : Bool :=
  s.flights.any (fun x => x.pkt.pid == p && !x.pkt.sys) || s.tin.any (fun e => e.2.pid == p && !e.2.sys) ||
    s.inj.any (fun e => e.pkt.src.ext && e.pkt.pid == p && !e.pkt.sys) ||
    s.span.any (fun (e : Nat × SpanPort) => e.2.outq.any (fun q => q.1 == p))

/-- The jobs of a reset partition end: with a record of status 6 on rings in space 4, without one on rings in space 2 (R367). -/
def State.endResetJobs (s : State) (p : Pid) : State :=
  (s.jobs.filter (fun j => j.p == p)).foldl (fun a j =>
    if a.devicePair p j.r then { a with jobs := a.jobs.filter (fun x => !isJob j.p j.r j.jobid x) } else a.finishJob j) s

/-- Slot 0 of a partition in reset is refilled while every generator runs, and the fills of its extents are queued; STATE leaves 'in reset'
where no extent has to be filled (R280, R367, R412). -/
def State.refill (s : State) (p : Pid) : State :=
  if !(s.partition p).drained || !s.rngOk || (s.keys p).slot0.isSome then s
  else
    let s1 := s.createKeys p
    if (s1.extentsOf p).isEmpty then
      (s1.onPart p (fun x => { x with drained := false })).setPstate p (s1.restPstate p)
    else (s1.extentsOf p).foldl (fun a k => a.startFill k) s1

/-- A pair's index words are zero, in memory and in Ryist's copies; records that wait go on waiting (R255, R367). -/
def State.zeroRing (s : State) (p : Pid) (r : BitVec 3) : State :=
  (List.range 4).foldl (fun (a : State) k => a.idxStore p r k 0)
    (s.setRing p r { s.ring p r with subWr := 0, subRd := 0, compWr := 0, compRd := 0 })

/-- A pair of a partition that was reset: its index block is zeroed and it is disabled (R367). -/
def State.closeRing (s : State) (p : Pid) (r : BitVec 3) : State :=
  let s1 := if s.ringEn p r then s.zeroRing p r else s
  (s1.setRing p r { s1.ring p r with idx := none }).setYreg (ringOff p r) (setField (s1.yreg (ringOff p r)) 31 1 0)

/-- A TDI that a reset of the port or its own STOP_INTERFACE returns to CONFIG_UNLOCKED does so once the keys are destroyed (R289). -/
def State.releaseTdi (s : State) (p : Pid) : State :=
  if s.host.unlock.contains p then
    let s1 := s.freeTdi p
    { s1 with host := { s1.host with unlock := s1.host.unlock.filter (· != p) } }
  else s

/-- PARTITION_DRAIN_COMPLETE (R280, R367): keys are destroyed, cores reset, clusters scrubbed, records published and ring pairs
disabled; firewalls open again, slot 0 is refilled and the extents' fills are queued. -/
def drainComplete (p : Pid) (s : State) : State :=
  let e := s.partition p
  if e.state ≠ 3 ∨ e.drained ∨ s.draining p then s
  else
    let cls := e.clusters
    let cs := cls.flatMap s.usableCores
    let eps := cs.map s.epOf
    let slots := (s.jobs.filter (fun j => j.p == p)).flatMap (fun j => s.jobSlots j)
    let s1 : State := { (s.destroyKeys p).releaseTdi p with
      inj := s.inj.filter (fun x => !eps.contains x.pkt.src), residents := s.residents.filter (fun x => x.p != p) }
    let resident := (s.residents.filter (fun x => x.p == p)).flatMap (fun x => x.layout.map (fun pl => pl.slot.toNat))
    let s2 := s1.emptyClusters cls
    let s3 := (slots ++ resident).foldl (fun a n => a.freeSection n) s2
    let s4 := s3.endResetJobs p
    let s5 := ringNos.foldl (fun (a : State) r => a.closeRing p r) s4
    let s6 := cls.foldl (fun a cl => a.setClosed cl false) s5
    (s6.onPart p (fun x => { x with drained := true, resetYc := none })).refill p

def execPartitionDrainComplete (p : Pid) (s : State) : Host.Outcome State Fault Refusal := .next (published s (drainComplete p s))

/-- PARTITION_DRAIN_LATE (R367): the drain is not complete at 60 µs; reported once. -/
def execPartitionDrainLate (p : Pid) (s : State) : Host.Outcome State Fault Refusal :=
  let e := s.partition p
  match e.resetYc with
  | none => .next s
  | some y =>
    if e.state = 3 ∧ !e.drained ∧ y.toNat + 3000 ≤ s.yc.toNat then
      .next ((s.onPart p (fun x => { x with resetYc := none })).yardReport 24 0xEB p.toNat 0)
    else .next s

/-! ### TDI errors (R300) -/

/-- A TDI enters ERROR: reported, notified to the PF, and its partition is reset. -/
def State.tdiError (s : State) (p : Pid) : State :=
  if s.tdi p = 3 then s
  else ((((s.setTdi p 3).hostReport 0xCD (p.toNat + 1) 0).notify 0 4).startPartReset p)

/-- A write that may not happen while the TDI is CONFIG_LOCKED or RUN: the PF's puts the TDI in ERROR (R300). -/
def State.lockedWrite (s : State) (o : Origin) (p : Pid) : State :=
  (if o = .pf then s.tdiError p else s).answer (some 0x09)

/-- A write of a register that a locked TDI of the partition fixes: one that would change nothing goes without effect (R300). -/
def State.fixedWrite (s : State) (o : Origin) (p : Pid) (changes : Bool) (f : State → State) : State :=
  if !s.tdiLocked p then f s else if changes then s.lockedWrite o p else s.answer none

/-- A partition reset asked for by BU_RSTCTL (R300, R364, R367, R370): only by the PF. -/
def partitionResetWrite (o : Origin) (p : Pid) (s : State) : State :=
  if o ≠ .pf then s.answer (some 0x09)
  else if s.tdiLocked p then s.lockedWrite o p
  else (published s (s.startPartReset p)).answer none

/-- PARTITION_RESET. -/
def execPartitionReset (o : Origin) (p : Pid) (s : State) : Host.Outcome State Fault Refusal :=
  if s.bu.phase ≠ 10 then .next s else .next (yardWrite o (yBU + 8) s (partitionResetWrite o p))

/-! ### Configuration (R237 to R240) -/

/-- The clusters JB_PINp names. -/
def State.pinned (s : State) (p : Pid) : List Nat :=
  (List.range 162).flatMap (fun w =>
    let v := s.yreg (yJB + 0x1000 + 0x400 * p.toNat + 4 * w)
    if v = 0 then [] else (List.range 32).filterMap (fun b => if v.getLsbD b && decide (32 * w + b < 5184) then some (32 * w + b) else none))

/-- Clusters neither isolated nor in a dead field. -/
def State.available (s : State) (cl : Nat) : Bool := !s.fp.isolated.contains cl && !s.fp.dead.contains (fieldOfCluster cl)

/-- The clusters of other partitions, present or to come. -/
def State.others (s : State) (p : Pid) : List Nat :=
  pidNos.flatMap (fun q => if q = p then [] else (s.partition q).clusters ++ (s.partition q).target)

/-- What a partition's configuration takes from the wafer. -/
def State.wants (s : State) (p : Pid) (v : Word) : Nat :=
  if !v.getLsbD 31 then 0 else if cfgPinned v then (s.pinned p).length else cfgQuota v

/-- The number of available clusters (R237). -/
def State.availableCount (s : State) : Nat :=
  5184 - s.fp.isolated.length - 64 * s.fp.dead.length + (s.fp.isolated.filter (fun cl => s.fp.dead.contains (fieldOfCluster cl))).length

/-- JB_STATUS.PMAX (R264, R405). -/
def State.pmax (s : State) : Nat := 16 - s.fuses.pmaxCut

/-- A configuration keeps the limits of R236 to R240. -/
def State.cfgOk (s : State) (p : Pid) (v : Word) : Bool :=
  let valid := fun q => if q = p then v.getLsbD 31 else s.pvalid q
  let guard := fun q => if q = p then v.getLsbD 31 && cfgGuarded v else s.pvalid q && s.guarded q
  let used := (pidNos.map (fun q => s.wants q (if q = p then v else s.pcfg q))).sum
  (!cfgPinned v || cfgGuarded v) && (pidNos.filter valid).length ≤ s.pmax && (pidNos.filter guard).length ≤ 4 &&
    used + 4 ≤ s.availableCount &&
    (!v.getLsbD 31 || cfgPinned v || (1 ≤ cfgQuota v && cfgQuota v ≤ 5180)) &&
    (!cfgPinned v || (s.pinned p).all (fun cl => !(s.others p).contains cl && !s.helpers.contains cl))

/-- The clusters a configuration gives the partition: the available named ones, or as many as QUOTA of Ryist's choice, available,
of no other partition and no helper (R237, R240). -/
def State.chosen (s : State) (p : Pid) (v : Word) (cls : List Nat) : Option (List Nat) :=
  if !v.getLsbD 31 then some []
  else if cfgPinned v then some ((s.pinned p).filter s.available)
  else if cls.length = cfgQuota v ∧ cls.eraseDups.length = cls.length ∧
      cls.all (fun cl => s.available cl && !(s.others p).contains cl && !s.helpers.contains cl) then some cls
  else none

/-- Clusters that Ryist chooses where a write of JB_PCFGp brings no choice of its own: those with the lowest global indices (DESIGN CHOICE, log
entry 28). -/
def State.pickClusters (s : State) (p : Pid) (v : Word) : List Nat :=
  ((List.range 5184).filter (fun cl => s.available cl && !(s.others p).contains cl && !s.helpers.contains cl)).take (cfgQuota v)

/-- The assignment of a partition's clusters begins: those that leave or join are scrubbed, resident placements are dropped
(R237, R252). -/
def State.assign (s : State) (p : Pid) (cls : List Nat) : State :=
  let old := (s.partition p).clusters
  let moving := old.filter (fun cl => !cls.contains cl) ++ cls.filter (fun cl => !old.contains cl)
  let s1 := (s.residents.filter (fun x => x.p == p)).foldl (fun a x => a.dropResident x) s
  let s2 := moving.foldl (fun a cl => a.askScrub cl) s1
  (s2.onPart p (fun e => { e with target := cls })).setPstate p 4

/-- JB_PCFG_WRITE (R237 to R240, R276, R280, R300). VALID is refused while a generator is halted (R412) and in SERVICE (R421). -/
def jbPcfgWrite (o : Origin) (p : Pid) (v : Word) (cls : List Nat) (s : State) : State :=
  let off := yJB + 0x100 + 0x40 * p.toNat
  let w := v &&& 0xF3001FFF#32
  if o != .pf then s.answer (some 0x09)
  else
    s.fixedWrite o p (w != s.yreg off) (fun s =>
      if 2 ≤ (s.partition p).state.toNat || !s.cfgOk p w || (w.getLsbD 31 && (!s.rngOk || s.sec.debug != 0)) then s.answer (some 0x09)
      else
        match s.chosen p w cls with
        | none => s
        | some l =>
          let was := s.pvalid p
          let s1 := s.setYreg off w
          let s2 := if w.getLsbD 31 && !was then s1.createKeys p else if was && !w.getLsbD 31 then s1.destroyKeys p else s1
          (published s (s2.assign p l)).answer none)

def execJbPcfgWrite (o : Origin) (p : Pid) (v : Word) (clusters : List (BitVec 13)) (s : State) : Host.Outcome State Fault Refusal :=
  if s.bu.phase = 10 then
    .next (yardWrite o (yJB + 0x100 + 0x40 * p.toNat) s (jbPcfgWrite o p v (clusters.map (·.toNat))))
  else .next s

/-- JB_PIN_WRITE (R237, R240, R300): a change of a valid pinned partition's names reassigns its clusters. -/
def jbPinWrite (o : Origin) (p : Pid) (w : Nat) (v : Word) (s : State) : State :=
  let off := yJB + 0x1000 + 0x400 * p.toNat + 4 * w
  if o != .pf || 162 ≤ w then s.answer (some 0x09)
  else
    s.fixedWrite o p (v != s.yreg off) (fun s =>
      if 2 ≤ (s.partition p).state.toNat then s.answer (some 0x09)
      else
        let s1 := s.setYreg off v
        if s1.pvalid p && cfgPinned (s1.pcfg p) then
          if s1.cfgOk p (s1.pcfg p) then (published s (s1.assign p ((s1.pinned p).filter s1.available))).answer none
          else s.answer (some 0x09)
        else s1.answer none)

def execJbPinWrite (o : Origin) (p : Pid) (w : Byte) (v : Word) (s : State) : Host.Outcome State Fault Refusal :=
  if s.bu.phase = 10 then
    .next (yardWrite o (yJB + 0x1000 + 0x400 * p.toNat + 4 * w.toNat) s (jbPinWrite o p w.toNat v))
  else .next s

/-- The standby clusters of a guarded partition: those with the highest global indices (R239, R240; for an unpinned partition
DESIGN CHOICE, log entry 28). -/
def standbyOf (v : Word) (cls : List Nat) : List Nat :=
  if cfgGuarded v then
    cls.filter (fun cl => decide ((cls.filter (fun x => cl < x)).length < cfgStandby v))
  else []

/-- NANTRAP is 1 on a core of a guarded partition (R98, R239). -/
def Core.forceNan (k : Core) : Core := k.setReg rCORE_NUMCTL (Sys2Proof.Machine.forceNan true (k.reg rCORE_NUMCTL))

/-- PARTITION_ASSIGNMENT_COMPLETE (R237): with every scrub done the routers take their new RT_PID, and STATE leaves changing. -/
def assignmentComplete (p : Pid) (s : State) : State :=
  let e := s.partition p
  let moving := e.clusters.filter (fun cl => !e.target.contains cl) ++ e.target.filter (fun cl => !e.clusters.contains cl)
  if e.state ≠ 4 ∨ moving.any (fun cl => (s.cluster cl).scrubPend || (s.cluster cl).scrubbing) then s
  else
    let s1 := (e.clusters.filter (fun cl => !e.target.contains cl)).foldl (fun a cl => a.setFree cl) s
    let s2 := e.target.foldl (fun a cl => a.setOwner cl p) s1
    let s3 := s2.onPart p (fun x => { x with clusters := e.target, target := [], standby := standbyOf (s.pcfg p) e.target })
    let s4 := if s.guarded p then
        onCores ((e.target.flatMap s3.usableCores).filter (fun c => !((s3.core c).reg rCORE_NUMCTL).getLsbD 5)) s3
          (fun k => { k with core := k.core.forceNan })
      else s3
    s4.setPstate p (s4.restPstate p)

def execPartitionAssignmentComplete (p : Pid) (s : State) : Host.Outcome State Fault Refusal :=
  .next (if s.bu.phase = 10 then published s (assignmentComplete p s) else s)

/-! ### Extents under a locked TDI (R270, R300) -/

/-- The partition of an owner, if its TDI is locked. -/
def State.lockedOwner (s : State) (e : ExtentOwner) : Option Pid :=
  match e with
  | .part p => if s.tdiLocked p then some p else none
  | _ => none

/-- The partitions with a locked TDI that lose or gain an extent by a word written to OM_EXT. -/
def State.lockedBy (s : State) (w : Nat) (v : Word) : List Pid :=
  ((extBytes w v).flatMap (fun e =>
    if extOwner e.2 = (s.extent e.1).owner then []
    else (s.lockedOwner (s.extent e.1).owner).toList ++ (s.lockedOwner (extOwner e.2)).toList)).eraseDups

/-- OM_EXT_WRITE (R270): a PF write that would change the extents of a locked TDI is refused and puts it in ERROR (R300). -/
def omExtPut (o : Origin) (w : Nat) (v : Word) (s : State) : State :=
  if o = .pf ∧ s.lockedBy w v ≠ [] then ((s.lockedBy w v).foldl (fun a p => a.tdiError p) s).answer (some 0x09)
  else omExtWrite o w v s

def execOmExtWrite (o : Origin) (w : BitVec 9) (v : Word) (s : State) : Host.Outcome State Fault Refusal :=
  if w.toNat < 384 then .next (yardWrite o (yOMX + 0x100 + 4 * w.toNat) s (omExtPut o w.toNat v)) else .next s

/-! ### Ring pairs (R245, R256, R264) -/

/-- A write to a partition's ring registers is the PF's or its VF's; none that would change them while its TDI is locked (R245, R300). -/
def ringWrite (o : Origin) (p : Pid) (off : Nat) (changes : Bool) (s : State) (f : State → State) : State :=
  if s.bu.phase ≠ 10 then s
  else yardWrite o off s (fun s => if o != .pf && o != .vf p then s.answer (some 0x09) else s.fixedWrite o p changes f)

/-- The regions of a pair are ones it may be enabled with (R245). -/
def State.ringRegionsOk (s : State) (p : Pid) (r : BitVec 3) : Bool :=
  let a := s.rsBase p r
  let b := s.rcBase p r
  4096 ≤ s.rsSize p r && s.rsSize p r ≤ 2 ^ 24 && 32768 ≤ s.rcSize p r && s.rcSize p r ≤ 2 ^ 24 &&
    a.toNat % 64 == 0 && b.toNat % 64 == 0 && addrSpace a == addrSpace b && s.inPartition p a (s.rsSize p r) &&
    s.inPartition p b (s.rcSize p r)

/-- The helper core and the scratchpad offset that a page of the inbox maps to (R292). -/
def pageCore (w : Word) : CoreId := coreAt (field w 0 10) (field w 10 10)
def pageOff (w : Word) (off : Nat) : Nat := field w 22 3 * 0x10000 + off % 0x10000

/-- HP_INBMAP of the page on which Ryist lays the index blocks of a partition: page p (DESIGN CHOICE, log entry 75). -/
def ringPage (p : Pid) : Nat := yHP + 0x4000 + 4 * p.toNat

/-- The page of a partition's index blocks, ORD and owned by its VF, which Ryist maps to a helper core where it is not mapped so (R292,
R293). -/
def State.mapRingPage (s : State) (p : Pid) : State :=
  let w := s.yreg (ringPage p)
  if w.getLsbD 31 && w.getLsbD 30 && field w 25 5 == p.toNat + 1 then s
  else
    match s.helperCore p with
    | none => s
    | some h => s.setYreg (ringPage p)
        (0xC0000000#32 ||| place 32 25 5 (p.toNat + 1) ||| place 32 10 10 h.y.toNat ||| place 32 0 10 h.x.toNat)

/-- The start of the activation region of a core (R111). -/
def Core.activation (k : Core) : Nat := 0x4000 * k.wtop

/-- Where the index block of a pair goes: for a pair in space 4 on its partition's page; for a device pair the first 256 B block of the ring
core's activation region that no other pair has (R244, R256). -/
def State.idxPlace (s : State) (p : Pid) (r : BitVec 3) : Option (CoreId × Nat) :=
  if s.devicePair p r then
    s.ringCore p |>.bind (fun c =>
      let used := (ringNos.filter (fun q => q != r && s.ringEn p q)).filterMap (fun q => (s.ring p q).idx)
      ((List.range 8).map (fun i => (c, (s.core c).activation + 256 * i))).find? (fun x => !used.contains x))
  else
    let w := s.yreg (ringPage p)
    if w.getLsbD 31 then some (pageCore w, pageOff w (0x100 * r.toNat)) else none

/-- RING_PAIR_ENABLE (R197, R244, R245, R256): the pair is enabled with its index words zero; JB_RIDX tells where the host finds them, and
Ryist watches submission WRIDX. Records that waited follow. -/
def ringEnable (p : Pid) (r : BitVec 3) (s : State) : State :=
  let off := ringOff p r
  if !s.pvalid p || s.ringEn p r || !s.ringRegionsOk p r then s.answer (some 0x09)
  else
    let s1 := s.setYreg off (setField (s.yreg off) 31 1 1)
    let s2 := if s.devicePair p r then s1 else s1.mapRingPage p
    let s3 := s2.setYreg (off + 0x1C) (if s.devicePair p r then 0 else BitVec.ofNat 32 (0x10000 * p.toNat + 0x100 * r.toNat))
    let s4 := s3.setRing p r { s3.ring p r with idx := s3.idxPlace p r }
    let s5 := (s4.zeroRing p r).watchRing p r
    (publishList p r (s5.ring p r).waiting s5).answer none

def execRingPairEnable (o : Origin) (p : Pid) (r : BitVec 3) (s : State) : Host.Outcome State Fault Refusal :=
  .next (ringWrite o p (ringOff p r) (!s.ringEn p r) s (ringEnable p r))

/-- RING_PAIR_DISABLE (R245): refused while jobs of the ring are unfinished. -/
def ringDisable (p : Pid) (r : BitVec 3) (s : State) : State :=
  if s.jobs.any (fun j => j.p == p && j.r == r && j.phase != .finished) then s.answer (some 0x09)
  else (s.setYreg (ringOff p r) (setField (s.yreg (ringOff p r)) 31 1 0)).answer none

def execRingPairDisable (o : Origin) (p : Pid) (r : BitVec 3) (s : State) : Host.Outcome State Fault Refusal :=
  .next (ringWrite o p (ringOff p r) (s.ringEn p r) s (ringDisable p r))

/-- RING_ERR_CLEAR (R264): a write of 1 clears ERR. -/
def ringErrClear (p : Pid) (r : BitVec 3) (s : State) : State :=
  (s.setYreg (ringOff p r) (setField (s.yreg (ringOff p r)) 30 1 0)).answer none

def execRingErrClear (o : Origin) (p : Pid) (r : BitVec 3) (s : State) : Host.Outcome State Fault Refusal :=
  .next (ringWrite o p (ringOff p r) ((s.yreg (ringOff p r)).getLsbD 30) s (ringErrClear p r))

end Sys2Proof.Machine
end

