-- ==== Sys2Proof/Machine/Plan.lean ====
section
/-! DEFINITION. The death of a field, cores lost to a job, replays of guarded jobs, and the floor plan, the route map and the
congestion map as they change in service (R27 to R36, R150, R174, R257, R258, R268, R282, R317, R318, R382, R383, R391). -/

namespace Sys2Proof.Machine

/-! ### Replays (R382, R383) -/

/-- FC_GUARD.REPLAYMAX. -/
def State.replayMax (s : State) : Nat := field (s.yreg (yFC + 0xC)) 0 4

/-- The stage a replay takes: the earliest that is running or in its hold (R382, DEDUCED, log entry 29). -/
def Job.heldStage (j : Job) : Option Nat := (List.range (j.curStage + 1)).find? (fun g => !j.holdPassed g)

/-- A replay fails and the job ends ABORTED (R383). -/
def State.endReplay (s : State) (j : Job) (g why : Nat) : State :=
  let e := (j.layout.filter (fun pl => (j.stageSecs g).any (fun x => x.secid == pl.secid))).head?
  let core := ((e.bind (fun pl => pl.cores.head?)).map coreWord).getD 0
  let id := match e with
    | some pl => pl.secid
    | none => 0
  (s.abortJob j id 4 0 core).yardReport 24 0xE6 (j.p.toNat + 16 * g) why

/-- The positions of a cluster that a job's layout uses. -/
def State.placedIn (s : State) (j : Job) (cl : Nat) : List CoreId :=
  (j.layout.flatMap (·.cores)).filter (fun c => s.clusterNo c == cl)

/-- The standby cluster a replay takes for a cluster that has failed: the lowest-indexed one with enough placeable positions
(R382). A test of it is abandoned (R383, R395). -/
def State.standbyFor (s : State) (j : Job) (cl : Nat) : Option Nat :=
  let need := (s.placedIn j cl).length
  let ok := (s.partition j.p).standby.filter (fun x => s.sound x && decide (need ≤ (s.usableCores x).length))
  match ok with
  | [] => none
  | x :: t => some (t.foldl min x)

/-- A cluster of a job is replaced by a standby cluster, and leaves the job scrubbed (R239, R257, R382). -/
def State.moveCluster (s : State) (j : Job) (cl sb : Nat) : State :=
  let s1 := (s.abandonTest sb).onPart j.p (fun e => { e with standby := e.standby.filter (· != sb) })
  (s1.onJob j.p j.r j.jobid (fun x =>
    { x with clusters := x.clusters.map (fun c => if c = cl then sb else c), away := x.away ++ [cl], flags := x.flags ||| 1 })).askScrub cl

/-- Standby clusters are taken for each failed cluster in which the job has placed cores; none where one is wanting. -/
def moveAll (j : Job) : List Nat → State → Option State
  | [], s => some s
  | cl :: t, s =>
    if !j.clusters.contains cl || (s.placedIn j cl).isEmpty then moveAll j t s
    else
      match s.standbyFor j cl with
      | none => none
      | some sb => moveAll j t (s.moveCluster j cl sb)

/-- The sections of a stage and of later stages are aborted, and what the gate held of them is open again. -/
def State.rewind (s : State) (j : Job) (g : Nat) : State :=
  let late := fun (id : BitVec 16) => match j.entry? id with
    | some e => g ≤ e.stage.toNat
    | none => false
  let s1 := ((s.jobSlots j).filter (fun n => late (s.slots.get SectionSlot.reset n).secid)).foldl (fun a n => a.abortSlot n) s
  s1.onJob j.p j.r j.jobid (fun x =>
    { x with
      replaying := some g, curStage := g, secsEnded := x.secsEnded.filter (fun id => !late id)
      stageEnds := x.stageEnds.filter (fun (e : Nat × GateState) => e.1 < g)
      outputs := (j.outs.filter (fun i => !(j.output i).decided && j.pkg.sections.any (fun e => e.outs.contains i && late e.secid))).foldl
        (fun m i => m.set i .open) x.outputs })

/-- A covering message, or the loss of cores in the clusters `lost`, asks for a replay of a guarded job (R382, R383). Messages before
the replay starts cause one replay. -/
def State.askReplay (s : State) (j : Job) (lost : List Nat) : State :=
  if j.phase != .running then s
  else
    match j.heldStage with
    | none => s
    | some g0 =>
      let g := min g0 (j.replaying.getD g0)
      if j.replaying.isNone && decide (s.replayMax ≤ j.replays.get 0 g) then s.endReplay j g 0
      else
        match moveAll j lost s with
        | none => s.endReplay j g 1
        | some s1 =>
          match s1.job? j.p j.r j.jobid with
          | none => s1
          | some j1 => s1.rewind j1 g

/-! ### Cores lost to a job (R257, R258) -/

/-- A job that has not started is placed afresh (R258). -/
def State.rePlace (s : State) (j : Job) : State :=
  let s1 := (s.jobSlots j).foldl (fun a n => a.freeSection n) s
  let s2 := s1.onJob j.p j.r j.jobid (fun x =>
    { x with phase := .waiting, clusters := [], away := x.away ++ x.clusters, layout := [], staged := false, flags := x.flags ||| 2 })
  j.clusters.foldl (fun a cl => a.askScrub cl) s2

/-- The sections of a job that a loss hits end: the job aborts, is placed afresh, or replays (R257, R258). `hit` tells which cores
are lost or have lost a route, `cause` what their sections abort with. -/
def State.loseIn (s : State) (cause : Byte) (j : Job) (hit : CoreId → Bool) (lost : List Nat) : State :=
  if j.phase != .running then s
  else
    match j.layout.filter (fun pl => !j.secsEnded.contains pl.secid && pl.cores.any hit) with
    | [] => s
    | pl :: more =>
      if j.started.isNone then s.rePlace j
      else
        let slots := (s.jobSlots j).filter (fun n => (pl :: more).any (fun x => x.secid == (s.slots.get SectionSlot.reset n).secid))
        let s1 := slots.foldl (fun a n => a.abortSlot n) s
        if s.guarded j.p then s1.askReplay j lost
        else
          let first := (s.lineAbort j).getD (pl.secid, cause, 0, ((pl.cores.find? hit).map coreWord).getD 0)
          s1.abortJob j first.1 first.2.1 first.2.2.1 first.2.2.2

/-- Every job and resident placement that a loss hits (R252, R257, R258). -/
def State.loseCores (s : State) (cause : Byte) (hit : CoreId → Bool) (lost : List Nat) : State :=
  let s1 := (s.residents.filter (fun x => x.layout.any (fun pl => pl.cores.any hit))).foldl (fun a x => a.dropResident x) s
  s.jobs.foldl (fun a j =>
    match a.job? j.p j.r j.jobid with
    | none => a
    | some j1 => a.loseIn cause j1 hit lost) s1

/-- Ryist declares a core failed (R391): its section aborts, and the change of the floor plan is due (R35, R257). A position
without logical coordinates changes nothing while the device runs (R28). -/
def State.declareFailed (s : State) (px py : Nat) : State :=
  match logOf s.fp.skips px py with
  | none => s
  | some c =>
    if s.fp.holes.contains (coreKey c) then s
    else
      let s1 : State := { s with fp := { s.fp with todo := s.fp.todo ++ [.hole (BitVec.ofNat 10 px) (BitVec.ofNat 10 py)] } }
      s1.loseCores 4 (fun x => x == c) [clusterOf px py]

/-! ### The death of a field (R29, R30, R150) -/

/-- The route map with one more field dead and the ring lines with a station in it out of service (R152). -/
def RouteMap.without (m : RouteMap) (f : Nat) : RouteMap :=
  { m with
    dead := if m.dead.contains f then m.dead else m.dead ++ [f]
    ringXOut := m.ringXOut ++ ((List.range 8).map (fun i => 8 * (f / 9) + i)).filter (fun l => !m.ringXOut.contains l)
    ringYOut := m.ringYOut ++ ((List.range 8).map (fun i => 8 * (f % 9) + i)).filter (fun l => !m.ringYOut.contains l) }

/-- Fields of the ring routers at the stations a packet passes from one cluster of a line to another, both ends included (R152, R153). -/
def ringFields (yAxis : Bool) (line a b : Nat) : List Nat :=
  (List.range (ringHops a b + 1)).map (fun i =>
    let r := stationRouter yAxis line ((ringPos a + i) % 72)
    fieldOfPhys r.1 r.2)

/-- A route of a class from one router to another enters a field (R151, R155, R156). -/
def routeEnters (f ax ay bx bY : Nat) (cls : Nat) : Bool :=
  let m : RouteMap := { RouteMap.reset with dead := [f] }
  match cls with
  | 0 => !m.meshOpen ax ay bx bY
  | 1 => (ax / 8 != bx / 8 && (ringFields false (ay / 8) (ax / 8) (bx / 8)).contains f) ||
      (ay / 8 != bY / 8 && (ringFields true (bx / 8) (ay / 8) (bY / 8)).contains f) ||
      fieldOfPhys ax ay == f || fieldOfPhys bx bY == f
  | _ => !m.wayOpen ax ay bx bY

/-- An active output channel of the core has a route in the field (R29). -/
def State.routeThrough (s : State) (f : Nat) (c : CoreId) : Bool :=
  let k := s.core c
  let a := s.phys c
  let xen := ((s.router a.1 a.2).reg rRT_ROUTE).getLsbD 0
  (List.range 16).any (fun m =>
    (k.reg (rCH_OCFG + 0x40 * m)).getLsbD 31 &&
      (if field (k.reg (rCH_OCFG + 0x40 * m)) 29 2 = 1 then
        let p : Packet := K.packet (kOf s c) 8 0 0 4 1 0 (tokenHead (k.omask m) 0 0 m) []
        State.treeDead { s with map := { s.map with dead := [f] } } p
       else
        let x := field (k.reg (rCH_OCFG + 0x40 * m)) 29 2 != 2 && xen
        let b := s.phys (k.odst m)
        match s.map.routeClass x a.1 a.2 b.1 b.2 with
        | some cls => routeEnters f a.1 a.2 b.1 b.2 cls
        | none => false))

/-- Where a packet in flight stands, by field. -/
def Loc.fieldNo (l : Loc) : Nat :=
  match l with
  | .router px py _ => fieldOfPhys px py
  | .station yAxis line pos _ => fieldOfPhys (stationRouter yAxis line pos).1 (stationRouter yAxis line pos).2
  | .relay px py => fieldOfPhys px py
  | .tport px py => fieldOfPhys px py

/-- The termini attached to a field (R22, R30). -/
def State.attached (s : State) (f : Nat) : List Nat :=
  s.fittedList.filter (fun t => (List.range 48).any (fun e => fieldOfPhys (edgeRouter t e).1 (edgeRouter t e).2 == f))

/-- A field's base logic fails (R29): its routers forward nothing, sections with a unit or a route in it abort, and the termini
attached to it are lost (R30, R281). -/
def State.fieldDies (s : State) (f : Nat) (pllLost : Bool) : State :=
  if s.fieldDead f || 81 ≤ f then s
  else
    let hit := fun (c : CoreId) => fieldOf c.x.toNat c.y.toNat == f || s.routeThrough f c
    let s1 := s.loseCores 4 hit (fieldClusters f)
    let s2 := s1.onField f (fun e => { e with dead := true, pll := e.pll && !pllLost, spine := false })
    let s3 := (fieldClusters f).foldl (fun a cl => a.setCluster cl (fun e => { e with tree := false })) s2
    let inF := fun (c : CoreId) => fieldOf c.x.toNat c.y.toNat == f
    let s4 : State := { s3 with
      flights := s3.flights.filter (fun x => x.loc.fieldNo != f)
      inj := s3.inj.filter (fun x => fieldOfPhys x.pkt.src.px.toNat x.pkt.src.py.toNat != f)
      inbox := s3.inbox.filter (fun (x : CoreId × Packet) => !inF x.1)
      accepted := s3.accepted.filter (fun (x : Accepted) => !inF x.core) }
    (s.attached f).foldl (fun a t => a.loseTerminus t 1) s4

/-! ### FLOOR_PLAN_CHANGE (R27, R35, R36) -/

/-- The table after one declared change. -/
def FloorPlan.apply (fp : FloorPlan) (ev : FloorChange) : FloorPlan :=
  match ev with
  | .hole px py =>
    let f := fieldOfPhys px.toNat py.toNat
    match logOf fp.skips px.toNat py.toNat with
    | none => fp
    | some c =>
      if fp.holes.contains (coreKey c) then fp
      else { fp with failed := fp.failed ++ [(64 * f + py.toNat % 64, px.toNat % 64)], holes := fp.holes ++ [coreKey c]
                     newHoles := fp.newHoles ++ [coreKey c] }
  | .isolated cl => if fp.isolated.contains cl.toNat then fp else { fp with isolated := fp.isolated ++ [cl.toNat] }
  | .deadField f => if fp.dead.contains f.toNat then fp else { fp with dead := fp.dead ++ [f.toNat] }

/-- Clusters isolated or in a dead field leave their partition and its standby clusters (R239, R240). -/
def State.loseClusters (s : State) : State :=
  { s with parts := s.parts.map (fun (e : Nat × Partition) =>
      (e.1, { e.2 with clusters := e.2.clusters.filter s.available, standby := e.2.standby.filter s.available
                       target := e.2.target.filter s.available })) }

/-- FLOOR_PLAN_CHANGE: a change that has been declared shows in the table, its digest and its generation, and is notified (R35); what it takes
from a section, a resident placement or a partition is gone with it (R39, R239, R240, R257). -/
def execFloorPlanChange (ev : FloorChange) (s : State) : Host.Outcome State Fault Refusal :=
  if s.bu.phase = 10 ∧ s.fp.todo.contains ev then
    .next (published s (s.fpChange (fun fp => { fp.apply ev with todo := fp.todo.filter (· != ev) })).loseClusters)
  else .next s

/-! ### ROUTE_MAP_REWRITE (R150, R152, R177, R268, R282) -/

/-- Ring lines newly out of service, as kind 0x28 names them. -/
def newlyOut (old new : RouteMap) : List Nat :=
  new.ringXOut.filter (fun l => !old.ringXOut.contains l) ++
    (new.ringYOut.filter (fun l => !old.ringYOut.contains l)).map (fun l => 128 + l)

/-- The yard writes the dead-field map, the ring map and the marks of lost termini and stacks into every live router. -/
def execRouteMapRewrite (s : State) : Host.Outcome State Fault Refusal :=
  if s.bu.phase ≠ 10 then .next s
  else
    let m := s.fp.dead.foldl (fun (m : RouteMap) f => m.without f) s.map
    let m1 : RouteMap := { m with
      lostTermini := s.fittedList.filter (fun t => (s.terminus t).lost)
      lostStacks := s.fittedList.flatMap (fun t =>
        ((List.range 3).filter (fun k => (s.terminus t).stkLost.getLsbD k)).map (fun k => (t, k))) }
    .next ((newlyOut s.map m1).foldl (fun a d => a.yardReport 24 0x28 d 0) { s with map := m1 })

/-! ### CONGESTION_MAP_PUBLISH (R174, R175) -/

/-- The blocked cycles of a cluster's 64 routers since the last map. -/
def State.clusterBlocked (s : State) (cl : Nat) : Nat := ((clusterPositions cl).map (fun p => (s.router p.1 p.2).blocked)).sum

/-- The value published of a cluster. -/
def State.congestion (s : State) (cl : Nat) : Nat :=
  if s.fp.dead.contains (fieldOfCluster cl) then 0 else min 255 (256 * s.clusterBlocked cl / 15360000)

/-- The clusters in which a router was blocked since the last map. -/
def State.blockedClusters (s : State) : List Nat :=
  ((s.routers.filter (fun (e : Nat × Router) => e.2.blocked != 0)).map (fun (e : Nat × Router) =>
    clusterOf (e.1 % 576) (e.1 / 576))).eraseDups

/-- The manager publishes one byte per cluster from the blocked cycles of its 64 routers in the interval, and the count starts anew. -/
def execCongestionMapPublish (s : State) : Host.Outcome State Fault Refusal :=
  if s.bu.phase ≠ 10 then .next s
  else
    let off := fun (cl : Nat) => yFM + 0x1000 + 0x40 * fieldOfCluster cl + 4 * (clusterInField cl / 4)
    let cleared := s.yregs.filter (fun (e : Nat × Word) => e.1 < yFM + 0x1000 || yFM + 0x1000 + 0x40 * 81 ≤ e.1)
    let s0 : State := { s with
      yregs := cleared
      routers := s.routers.map (fun (e : Nat × Router) => (e.1, { e.2 with blocked := 0 })) }
    let s1 := s.blockedClusters.foldl (fun a cl =>
      a.setYreg (off cl) (setField (a.yreg (off cl)) (8 * (clusterInField cl % 4)) 8 (s.congestion cl))) s0
    let s2 := (s1.setYreg (yFM + 8) (lo32 s.yc)).setYreg (yFM + 0xC) (hi32 s.yc)
    .next (s2.setYreg yFM (s.yreg yFM + (if (s.yreg yFM).getLsbD 0 then 1 else 2)))

end Sys2Proof.Machine
end

