-- ==== Sys2Proof/Machine/YardView.lean ====
section
/-! DEFINITION. What a read of a yard register returns (R15, R16, R36, R175, R264, R284, R285, R312, R313, R345, R346, R370, R399,
R423). -/

namespace Sys2Proof.Machine

/-! ### Helpers -/

/-- Word w of a bitmap of numbered flags. -/
def bitWord (w n : Nat) (f : Nat → Bool) : Word :=
  BitVec.ofNat 32 (bitmap ((List.range 32).filter (fun b => decide (32 * w + b < n) && f (32 * w + b))))

/-- A word of four bytes. -/
def byteWord (w : Nat) (f : Nat → Byte) : Word := f (4 * w + 3) ++ f (4 * w + 2) ++ f (4 * w + 1) ++ f (4 * w)

/-- The offset is word `k` of a table of `n` words from `base`. -/
def inTable (o base n : Nat) : Option Nat :=
  if base ≤ o ∧ o < base + 4 * n ∧ (o - base) % 4 = 0 then some ((o - base) / 4) else none

/-- An offset at which the register block stores a word. -/
def storedAt (offs : List Nat) (o : Nat) : Bool := offs.contains o

def State.fieldPower (s : State) (f : Nat) : FieldPower := s.fields.get FieldPower.reset f
def State.liveField (s : State) (f : Nat) : Bool := !(s.fieldPower f).dead && !s.fp.dead.contains f

/-! ### Clocks, power and heat -/

/-- CK_STATUS (R319 to R322). -/
def State.ckStatus (s : State) : Word :=
  flag 32 31 (!s.ck.lead) ||| flag 32 30 s.ck.leadLock ||| flag 32 29 s.ck.switching.isSome ||| flag 32 28 s.ck.yardRo |||
    flag 32 27 s.ck.retPend

def State.ckReg (s : State) (o : Nat) : Option Word :=
  if o = 0 then some s.ckStatus
  else if o = 0x10 then some (lo32 s.yc)
  else if o = 0x14 then some (hi32 s.yc)
  else if storedAt [0x4, 0x40, 0x44, 0x48, 0x4C] o then some (s.yreg (yCK + o))
  else match inTable o 0x20 3, inTable o 0x30 3, inTable o 0x1000 162 with
    | some w, _, _ => some (bitWord w 81 (fun f => (s.fieldPower f).pll))
    | _, some w, _ => some (bitWord w 81 (fun f => (s.fieldPower f).spine))
    | _, _, some w => some (bitWord w 5184 (fun cl => (s.cluster cl).tree))
    | _, _, _ => none

/-- A field has converged, or diverged (R332). -/
def FieldPower.conv (f : FieldPower) : Bool := 64 ≤ f.okRun
def FieldPower.bad (f : FieldPower) : Bool := 64 ≤ f.badRun

/-- PW_FVOLT: the fuse trim, 750 mV where none is given (R327, log entry 5). -/
def State.fvolt (s : State) (f : Nat) : Nat := s.fuses.fvolt.get 750 f

/-- Live fields that have not converged. -/
def State.notConverged (s : State) : Nat :=
  ((List.range 81).filter (fun f => s.liveField f && !(s.fieldPower f).conv)).length

/-- PW_STATUS: GUARD and VINERR are stored. -/
def State.pwStatus (s : State) : Word :=
  flag 32 31 (s.notConverged == 0) ||| (s.yreg yPW &&& 0x60000000#32) ||| place 32 0 7 s.notConverged

/-- The cluster in PW_CLSEL. -/
def State.clsel (s : State) : Cluster := s.cluster (field (s.yreg (yPW + 0x24)) 0 13)

/-- A byte of PW_CLSTATE. -/
def State.clstate (s : State) (cl : Nat) : Byte :=
  let e := s.cluster cl
  let cs := s.usableCores cl
  place 8 6 2 e.heat.toNat ||| flag 8 5 (e.fuseOpen || s.fp.isolated.contains cl) |||
    flag 8 4 (cs.any (fun c => decide (((s.core c).reg rMX_LIMIT).toNat < 64))) ||| flag 8 3 (cs.any (fun c => (s.core c).lent))

/-- A byte of PW_CLTEMP: °C + 40, limited to the byte. -/
def State.cltemp (s : State) (cl : Nat) : Byte :=
  let t := (s.cluster cl).temp + 40
  if t < 0 then 0 else if 255 < t then 255 else BitVec.ofNat 8 t.toNat

/-- B_c in mW, with the thermal shift (R334). -/
def Cluster.budgetMw (e : Cluster) : Nat := e.baseUw / 2 ^ e.shift / 1000

def State.pwReg (s : State) (o : Nat) : Option Word :=
  let c := s.clsel
  if o = 0 then some s.pwStatus
  else if storedAt [0x4, 0x8, 0xC, 0x10, 0x14, 0x18, 0x1C, 0x20, 0x24, 0x30, 0x34, 0x38, 0x3C] o then some (s.yreg (yPW + o))
  else if o = 0x28 then some (place 32 16 16 (min 65535 c.budgetMw) ||| place 32 10 3 c.shift ||| place 32 0 7 c.nmax)
  else if o = 0x2C then some (place 32 16 13 (min 4096 c.allow) ||| place 32 0 7 c.holders)
  else if o = 0x40 then some (BitVec.ofNat 32 c.budgetMw)
  else match inTable o 0x1000 324, inTable o 0x2000 9, inTable o 0x4000 1296, inTable o 0x6000 1296 with
    | some i, _, _, _ =>
      let f := i / 4
      some (match i % 4 with
        | 0 => s.yreg (yPW + o)
        | 1 => BitVec.ofNat 32 (s.fvolt f)
        | 2 => flag 32 31 (s.fieldPower f).conv ||| flag 32 30 (s.fieldPower f).bad ||| place 32 0 18 (s.fieldPower f).factor
        | _ => BitVec.ofNat 32 (min 65535 (s.fieldPower f).staticDw))
    | _, some _, _, _ => some (s.yreg (yPW + o))
    | _, _, some w, _ => some (byteWord w s.clstate)
    | _, _, _, some w => some (byteWord w s.cltemp)
    | _, _, _, _ => none

/-! ### Fault collection -/

/-- FAULT_N is asserted (R393). -/
def State.faultPin (s : State) : Bool :=
  s.fc.safe || s.fc.fnrx || s.bu.phase.toNat ≤ 1 || s.bu.phase = 11

/-- FC_STATUS. -/
def State.fcStatus (s : State) : Word :=
  flag 32 31 s.fc.safe ||| flag 32 30 s.fc.grave ||| flag 32 29 s.faultPin ||| flag 32 28 s.fc.fnrx

/-- FC_GATE.HOLDING: outputs and stage ends in hold. -/
def State.holding (s : State) : Nat :=
  let held := fun (g : GateState) => match g with
    | .final _ => true
    | _ => false
  (s.jobs.map (fun j => (j.outputs.filter (fun (e : Nat × GateState) => held e.2)).length +
    (j.stageEnds.filter (fun (e : Nat × GateState) => held e.2)).length)).sum

/-- A log entry as its 32 bytes (R399). -/
def LogEntry.bits (e : LogEntry) : BitVec 256 :=
  let w : BitVec 32 := flag 32 16 e.gate ||| place 32 8 8 e.react.toNat ||| place 32 0 2 e.cls.toNat
  (0 : BitVec 32) ++ w ++ e.stamp ++ Msg.bits e.msg

def State.fcReg (s : State) (o : Nat) : Option Word :=
  if o = 0 then some s.fcStatus
  else if o = 8 then some (place 32 16 16 s.holding ||| place 32 0 16 2500)
  else if o = 0x14 ∨ o = 0x20 then some 0
  else if storedAt ([0xC, 0x10, 0x18, 0x1C, 0x24] ++ (List.range 12).map (fun i => 0x30 + 4 * i)) o then some (s.yreg (yFC + o))
  else match inTable o 0x60 4, inTable o 0x400 512, inTable o 0x1000 512, inTable o 0x8000 8192 with
    | some w, _, _, _ => some (match s.fc.graveMsg with
        | some m => (Msg.bits m).extractLsb' (32 * w) 32
        | none => 0)
    | _, some _, _, _ => some (s.yreg (yFC + o))
    | _, _, some _, _ => some (s.yreg (yFC + o))
    | _, _, _, some w => some (match s.fc.log.find? (fun (e : Nat × LogEntry) => e.1 == w / 8) with
        | some e => (LogEntry.bits e.2).extractLsb' (32 * (w % 8)) 32
        | none => 0)
    | _, _, _, _ => none

/-! ### Security -/

/-- The identity public key: 97 bytes that depend on the fuse SEED (R410, R411); a free value, zero before bring-up has derived
it. -/
def State.idPub (s : State) : BitVec 776 :=
  if s.sec.idKnown then Config.identityKey else 0

/-- SEC_STATUS. -/
def State.secStatus (s : State) : Word :=
  flag 32 31 s.rngOk ||| flag 32 30 s.fuses.secboot ||| flag 32 29 s.fuses.factClosed ||| flag 32 28 s.fuses.dbglock |||
    flag 32 27 s.fuses.seedSet ||| place 32 8 2 (BitVec.toNat s.sec.debug) |||
    place 32 0 8 (bitmap ((List.range 8).filter (fun t => (s.terminus t).rngHalted)))

/-- A rollback counter (R406). -/
def State.svn (s : State) (kind : Nat) : Nat := s.fuses.svn.get 0 kind

def State.secReg (s : State) (o : Nat) : Option Word :=
  if o = 0 then some s.secStatus
  else if o = 4 then some (byteWord 0 (fun i => BitVec.ofNat 8 (s.svn (i + 1))))
  else if o = 8 then some (place 32 0 8 (s.svn 5))
  else if o = 0x104 then some 0
  else if storedAt [0x100, 0x110, 0x114, 0x118, 0x11C, 0x120, 0x124, 0x128, 0x12C] o then some (s.yreg (ySEC + o))
  else match inTable o 0x10 12, inTable o 0x40 25, inTable o 0xB0 4, inTable o 0x1000 1024 with
    | some w, _, _, _ => some (s.fuses.rootDig.extractLsb' (32 * w) 32)
    | _, some w, _, _ => some (s.idPub.extractLsb' (32 * w) 32)
    | _, _, some w, _ => some (s.fuses.serial.extractLsb' (32 * w) 32)
    | _, _, _, some w => if w % 16 ≤ 12 then some (s.yreg (ySEC + o)) else none
    | _, _, _, _ => none

/-! ### Bring-up -/

/-- BU_STATUS. -/
def State.buStatus (s : State) : Word :=
  place 32 28 4 s.bu.phase.toNat ||| flag 32 27 s.bu.warm ||| flag 32 26 s.fc.grave ||| flag 32 25 s.bu.bank

def State.buReg (s : State) (o : Nat) : Option Word :=
  if o = 0 then some s.buStatus
  else if o = 4 then some (flag 32 4 s.bu.lastWarm ||| place 32 0 4 s.bu.lastCause.toNat)
  else if o = 8 ∨ o = 0x20 ∨ o = 0x100 then some 0
  else if o = 0xC then some (bitWord 0 16 (fun p => (s.partition (BitVec.ofNat 4 p)).state == 3))
  else if o = 0x10 then some s.bu.scrAge
  else if o = 0x1C then some (place 32 0 6 s.bu.slotPins.toNat)
  else if o = 0x24 then some (flag 32 31 s.bu.mixed ||| flag 32 30 s.bu.saving.isSome ||| place 32 0 7 s.bu.front)
  else if o = 0x104 then some (place 32 28 4 s.bu.updState.toNat ||| place 32 0 8 s.bu.updReason.toNat)
  else if storedAt [0x14, 0x18, 0x108, 0x10C, 0x110] o then some (s.yreg (yBU + o))
  else match inTable o 0x28 3, inTable o 0x40 5, inTable o 0x60 5 with
    | some w, _, _ => some (bitWord w 81 s.bu.dspend.contains)
    | _, some _, _ => some (s.yreg (yBU + o))
    | _, _, some _ => some (s.yreg (yBU + o))
    | _, _, _ => none

/-! ### The fabric manager -/

def State.fmReg (s : State) (o : Nat) : Option Word :=
  let line := fun (out : List Nat) w => if s.bu.phase = 10 then bitWord w 72 (fun j => !out.contains j) else 0
  if storedAt [0, 8, 0xC] o then some (s.yreg (yFM + o))
  else match inTable o 0x20 3, inTable o 0x30 3, inTable o 0x1000 1296 with
    | some w, _, _ => some (line s.map.ringXOut w)
    | _, some w, _ => some (line s.map.ringYOut w)
    | _, _, some _ => some (s.yreg (yFM + o))
    | _, _, _ => none

/-! ### Jobs -/

/-- The partition a cluster belongs to. -/
def State.ownerOf (s : State) (cl : Nat) : Option Pid := pidNos.find? (fun p => (s.partition p).clusters.contains cl)

/-- A byte of JB_CLMAP. -/
def State.clmap (s : State) (cl : Nat) : Byte :=
  let scrub := flag 8 5 ((s.cluster cl).scrubPend || (s.cluster cl).scrubbing)
  let busy := flag 8 4 (s.busyCluster cl)
  if s.helpers.contains cl || !s.available cl then place 8 6 2 3 ||| scrub ||| busy
  else match s.ownerOf cl with
    | some p => place 8 6 2 (if (s.partition p).standby.contains cl then 2 else 1) ||| scrub ||| busy ||| p.setWidth 8
    | none => scrub ||| busy

/-- JB_STATUS. -/
def State.jbStatus (s : State) : Word :=
  flag 32 31 (s.bu.phase == 10 && !s.fc.safe) ||| place 32 26 5 s.pmax ||| place 32 21 5 (pidNos.filter s.pvalid).length |||
    place 32 18 3 (pidNos.filter (fun p => s.pvalid p && s.guarded p)).length ||| place 32 0 7 (64 - s.usedSlots.length)

/-- JB_PSTATp. -/
def State.pstat (s : State) (p : Pid) : Word :=
  let e := s.partition p
  place 32 29 3 e.state.toNat ||| place 32 16 13 e.clusters.length ||| place 32 13 3 (min 4 (e.standby.filter s.sound).length) |||
    place 32 0 7 (min 64 (s.jobsHolding p))

def State.jbReg (s : State) (o : Nat) : Option Word :=
  if o = 0 then some s.jbStatus
  else if o = 4 then some (s.yreg (yJB + 4))
  else match inTable o 0x10 4, inTable o 0x100 256, inTable o 0x1000 4096, inTable o 0x6000 2048, inTable o 0x8000 1296,
      inTable o 0xA000 162 with
    | some _, _, _, _, _, _ => some (s.yreg (yJB + o))
    | _, some i, _, _, _, _ =>
      if i % 16 = 1 then some (s.pstat (BitVec.ofNat 4 (i / 16))) else if i % 16 ≤ 5 then some (s.yreg (yJB + o)) else none
    | _, _, some i, _, _, _ => if i % 256 < 162 then some (s.yreg (yJB + o)) else none
    | _, _, _, some i, _, _ => if i % 16 < 12 then some (s.yreg (yJB + o)) else none
    | _, _, _, _, some w, _ => some (byteWord w s.clmap)
    | _, _, _, _, _, some w =>
      some (bitWord w 5184 (fun cl => (s.cluster cl).scrubPend || (s.cluster cl).scrubbing))
    | _, _, _, _, _, _ => none

/-! ### Outer memory -/

/-- A byte of OM_EXT by extent, 0 beyond the capacity; a VF sees only its own (R285, R291). -/
def State.extView (s : State) (o : Origin) (k : Nat) : Byte :=
  let e := s.extent k
  if s.capacity ≤ k * 2 ^ 30 then 0
  else match o with
    | .vf p => if e.owner == .part p then extByte e else 0
    | _ => extByte e

/-- OM_PKEYp. -/
def State.pkey (s : State) (p : Pid) : Word :=
  let k := s.keys p
  flag 32 31 (k.slot k.epoch).isSome ||| flag 32 30 k.retv ||| flag 32 29 k.epoch ||| flag 32 28 k.sweep |||
    place 32 0 16 k.swerr

/-- A register of terminus t's block. -/
def State.omReg (s : State) (org : Origin) (t o : Nat) : Option Word :=
  let common := t = 0
  let own : Option Word :=
    if o = 0 then
      some (flag 32 31 (s.fitted t) ||| flag 32 30 (s.terminus t).lost ||| place 32 16 3 (s.terminus t).stkLost.toNat |||
        place 32 0 13 (min 4096 (s.omHeld t)))
    else if storedAt ((List.range 12).map (fun i => 0x10 + 4 * i)) o then some (s.yreg (yOM + 0x10000 * t + o))
    else none
  if !s.fitted t then some 0
  else if !common then own
  else if o = 0x8000 then some (BitVec.ofNat 32 (s.capacity / 2 ^ 30))
  else match inTable o 0x8100 384, inTable o 0x8800 64 with
    | some w, _ => some (byteWord w (s.extView org))
    | _, some i => if i % 4 = 0 then some (s.pkey (BitVec.ofNat 4 (i / 4))) else if i % 4 = 1 then some 0 else none
    | _, _ => own

/-! ### Host port and span links -/

/-- The parts of host reads whose tags are in use (R296). -/
def State.tagsOut (s : State) : List ReadPart := (s.host.reads.flatMap (·.parts)).filter (fun x => !x.done)

/-- HP_LINK. -/
def State.hpLink (s : State) : Word :=
  flag 32 31 s.host.up ||| place 32 28 3 s.host.fail.toNat ||| place 32 8 5 s.host.width ||| place 32 0 2 s.host.rate.toNat

def State.hpReg (s : State) (o : Nat) : Option Word :=
  if o = 0 then some s.hpLink
  else if o = 4 then
    some (flag 32 31 s.fc.safe ||| bitWord 0 16 (fun n => (s.host.streams.get IdeStream.reset n).secure))
  else if o = 8 then some (BitVec.ofNat 32 (((List.range 16).map (fun p => (s.host.tdi.get 0 p).toNat * 4 ^ p)).sum))
  else if o = 0xC then some (BitVec.ofNat 32 s.tagsOut.length)
  else if storedAt ((List.range 10).map (fun i => 0x20 + 4 * i)) o then some (s.yreg (yHP + o))
  else match inTable o 0x4000 4096 with
    | some _ => some (s.yreg (yHP + o))
    | none => none

/-- A span port. -/
def State.spanPort (s : State) (n : Nat) : SpanPort := s.span.get SpanPort.reset n
def State.onPort (s : State) (n : Nat) (f : SpanPort → SpanPort) : State :=
  { s with span := SMap.upd SpanPort.reset s.span n f }

/-- A port is fitted when its terminus is (R302). -/
def State.portFitted (s : State) (n : Nat) : Bool := n < 32 && s.fitted (n / 4)

def State.slReg (s : State) (o : Nat) : Option Word :=
  if o = 0 then some (s.yreg ySL)
  else match inTable o 0x1000 1024, inTable o 0x4000 512 with
    | some i, _ =>
      let n := i / 32
      let e := s.spanPort n
      if 20 ≤ i % 32 then none
      else if !s.portFitted n then some 0
      else some (match i % 32 with
        | 1 => place 32 29 3 e.state.toNat ||| flag 32 28 e.kepoch ||| place 32 0 12 e.rtt.toNat
        | 2 => lo32 e.txctr
        | 3 => hi32 e.txctr
        | _ => s.yreg (ySL + o))
    | _, some i => if i % 8 < 6 then some (s.yreg (ySL + o)) else none
    | _, _ => none

/-! ### The whole of yard space -/

/-- What a 4-byte read at a yard offset returns to its reader; none at an unassigned offset (R15, R16). -/
def State.yardReg (s : State) (org : Origin) (off : Nat) : Option Word :=
  if off % 4 ≠ 0 then none
  else if off < yPW then s.ckReg off
  else if off < yFC then s.pwReg (off - yPW)
  else if off < ySEC then s.fcReg (off - yFC)
  else if off < yBU then s.secReg (off - ySEC)
  else if off < yFP then s.buReg (off - yBU)
  else if off < yFM then s.fpReg (off - yFP)
  else if off < yJB then s.fmReg (off - yFM)
  else if off < 0x080000 then s.jbReg (off - yJB)
  else if yOM ≤ off ∧ off < 0x180000 then s.omReg org ((off - yOM) / 0x10000) ((off - yOM) % 0x10000)
  else if yHP ≤ off ∧ off < ySL then s.hpReg (off - yHP)
  else if ySL ≤ off ∧ off < 0x220000 then s.slReg (off - ySL)
  else none

/-- Yard registers that are the _LO of a pair (R16). -/
def yardPair (off : Nat) : Bool :=
  let t := fun (base n : Nat) => decide (base ≤ off) && decide (off < base + 8 * n) && off % 8 == base % 8
  t (yCK + 0x10) 1 || t (yCK + 0x40) 2 || t (yPW + 0x30) 2 || t (yFC + 0x30) 6 || t (yFC + 0x1000) 256 || t (ySEC + 0x110) 4 ||
    off == yBU + 0x108 || off == yFM + 8 || t (yFP + 0x400) 81 || t (yFP + 0x5C00) 5184 ||
    (yJB + 0x100 ≤ off && off < yJB + 0x500 && (off % 0x40 == 0x08 || off % 0x40 == 0x10)) ||
    (yJB + 0x6000 ≤ off && off < yJB + 0x8000 &&
      (off % 0x40 == 0x04 || off % 0x40 == 0x10 || off % 0x40 == 0x20 || off % 0x40 == 0x28)) ||
    (yOM ≤ off && off < 0x180000 && 0x10 ≤ off % 0x10000 && off % 0x10000 < 0x40 && off % 8 == 0) || t (yHP + 0x20) 5 ||
    (ySL + 0x1000 ≤ off && off < ySL + 0x2000 && 0x08 ≤ off % 0x80 && off % 0x80 < 0x50 && off % 8 == 0) ||
    (ySL + 0x4000 ≤ off && off < ySL + 0x4800 && (off % 0x20 == 0x08 || off % 0x20 == 0x10))

/-- A read of 4 bytes: a _LO latches its _HI, which the next read of the _HI returns (R16). -/
def State.yardRead (s : State) (org : Origin) (off : Nat) : State × Option Word :=
  match s.yardReg org off with
  | none => (s, none)
  | some v =>
    if yardPair off then
      match s.yardReg org (off + 4) with
      | some h => ({ s with yHiLatch := s.yHiLatch.set (off + 4) h }, some v)
      | none => (s, some v)
    else if yardPair (off - 4) ∧ (s.yHiLatch.any (fun (e : Nat × Word) => e.1 == off)) then
      ({ s with yHiLatch := s.yHiLatch.del off }, some (s.yHiLatch.get 0 off))
    else (s, some v)

end Sys2Proof.Machine
end

