-- ==== Sys2Proof/Machine/Registers.lean ====
section
/-! DEFINITION. Reads and writes of registers by every kind of sender (R13, R16, R17, R135, R171, R245, R264, R291, R306, R312, R313,
R333, R361, R370, R390, R399, R423). -/

namespace Sys2Proof.Machine

/-! ### Registers of a core by a sender outside it -/

/-- Where an access to a core's register block ends: served; refused with a code; or taken by the firewall, with the absorbed bit. -/
inductive Reach where
  | served
  | refused (code : Nat)
  | firewall (absorbed : Bool) (pid : Pid) (src : Endpoint)
deriving DecidableEq, Repr

/-- What the firewall of the owning router does with an access (R171, R172); Ryist's accesses and a core's own pass. -/
def Router.firewall (r : Router) (o : Origin) : Option Reach :=
  match o with
  | .packet false p src =>
    let w := r.reg rRT_PID
    if w.getLsbD 31 then some (.firewall true p src)
    else if w.getLsbD 30 || field w 0 4 != p.toNat then some (.firewall false p src)
    else none
  | _ => none

/-- An access to a core's register block reaches its registers: the position serves it (R33), its firewall lets the sender through
(R171, R172), and the block is served in reset and while switched off for heat (R342, R366). -/
def State.reach (s : State) (c : CoreId) (off : Nat) (o : Origin) : Reach :=
  let q := s.phys c
  let heat := 2 ≤ (s.clusterAt c).heat.toNat
  let inReset := (s.core c).seq == .reset
  if !onGrid c then .refused 0x06
  else if s.fieldDead (fieldOf c.x.toNat c.y.toNat) || s.posOf c == .dead then .refused 0x03
  else if s.posOf c == .hole && !(0x8000 ≤ off && off < 0xA000) then .refused 0x01
  else if s.posOf c == .isolated && !(0x8000 ≤ off && off < 0xA000) then .refused 0x02
  else
    match (s.router q.1 q.2).firewall o with
    | some r => r
    | none => if (heat && !servedHeat off) || (inReset && !servedBase off) then .refused 0x09 else .served

/-- An access to a core's register by a sender. The host has no path to it but Ryist's. The router counts and reports what its
firewall refuses or absorbs (R171, R172). -/
def State.coreAccess (s : State) (c : CoreId) (off : Nat) (o : Origin) (f : K → K) : State :=
  match o with
  | .pf => s
  | .vf _ => s
  | _ =>
    if !s.bu.power then s
    else
      match s.reach c off o with
      | .served => onCoreSettled c s f
      | .refused e => s.answer (some e)
      | .firewall absorbed p src =>
        let q := s.phys c
        let s1 := s.routerEvent q.1 q.2 rRT_FWREF 0x25 (16 * absorbed.toNat + p.toNat) (epBits src)
        if absorbed then { s1 with resp := .none } else s1.answer (some 0x05)

/-- A write of a register of a core. -/
def State.coreWrite (s : State) (c : CoreId) (off : Nat) (o : Origin) (v : Word) : State :=
  s.coreAccess c off o (fun k => K.answer (k.writeReg off v o))

/-- An access to a register is 4 bytes at a multiple of 4, or 8 bytes at a multiple of 8 (R16). -/
def regAligned (off size : Nat) : Bool := (size == 4 && off % 4 == 0) || (size == 8 && off % 8 == 0)

def dataSize (d : RegData) : Nat :=
  match d with
  | .four _ => 4
  | .eight _ => 8
  | .other n => n

/-- A write of a register of a core, or of two at once (R16). -/
def State.coreWriteData (s : State) (c : CoreId) (off : Nat) (o : Origin) (d : RegData) : State :=
  if rSY_WREQ ≤ off ∧ off < rSY_WREQ + 0x40 then s.coreAccess c off o (fun k => k.refuse 0x09)
  else if !regAligned off (dataSize d) then s.coreAccess c off o (fun k => k.refuse 0x0B)
  else match d with
    | .four v => s.coreWrite c off o v
    | .eight v => s.coreAccess c off o (fun k => K.answer (k.writeReg8 off v o))
    | .other _ => s

/-- The answer of a register read. -/
def K.readAnswer (r : K × Option Word) : K :=
  { r.1 with resp := match r.2 with
      | some v => .value (v.setWidth 64)
      | none => .err 0x09 }

/-- A read of a register of a core. -/
def State.coreRead (s : State) (c : CoreId) (off : Nat) (o : Origin) : State :=
  s.coreAccess c off o (fun k => K.readAnswer (k.readReg off))

/-- The answer of an 8-byte read. -/
def K.readAnswer8 (r : K × Option DWord) : K :=
  { r.1 with resp := match r.2 with
      | some v => .value v
      | none => .err 0x09 }

/-- A read of `size` bytes of the registers of a core (R16). -/
def State.coreReadSize (s : State) (c : CoreId) (off : Nat) (o : Origin) (size : Nat) : State :=
  if rSY_WREQ ≤ off ∧ off < rSY_WREQ + 0x40 then s.coreAccess c off o (fun k => k.refuse 0x09)
  else if !regAligned off size then s.coreAccess c off o (fun k => k.refuse 0x0B)
  else if size = 4 then s.coreRead c off o
  else s.coreAccess c off o (fun k => K.readAnswer8 (k.readReg8 off))

/-! ### Register commands of a core (R16, R47, R59, R73, R76, R91, R122, R137, R360, R379) -/

/-- CORE_IDATA_WRITE (R47): 1 to 64 words in one write. -/
def execCoreIdataWrite (c : CoreId) (o : Origin) (words : List Word) (s : State) : Host.Outcome State Fault Refusal :=
  .next (s.coreAccess c 0x01C o (fun k =>
    if words.isEmpty || 64 < words.length then k.refuse 0x0B else K.answer (k.writeIdata words)))

/-- VEC_SRSEED_HI_WRITE (R59, R91). -/
def execVecSrseedHiWrite (c : CoreId) (o : Origin) (v : Word) (s : State) : Host.Outcome State Fault Refusal :=
  .next (s.coreWrite c 0x180C o v)

/-- The registers whose access is SH (R360). -/
def shadowed (off : Nat) : Bool := off == rCORE_NUMCTL || off == rMX_CTRL || off == rMX_CKCFG || off == rSP_REGION

/-- SH_REGISTER_WRITE (R360). -/
def execShRegisterWrite (c : CoreId) (o : Origin) (off : BitVec 16) (v : Word) (s : State) :
    Host.Outcome State Fault Refusal :=
  if shadowed off.toNat then .next (s.coreWrite c off.toNat o v) else .next s

/-- Reads that clear (R73, R76, R137). -/
def execSpErrinfoRead (c : CoreId) (o : Origin) (s : State) : Host.Outcome State Fault Refusal :=
  .next (s.coreRead c rSP_ERRINFO o)
def execMvErrRead (c : CoreId) (o : Origin) (s : State) : Host.Outcome State Fault Refusal :=
  .next (s.coreRead c rMV_ERR o)
def execCoreIstoreErrRead (c : CoreId) (o : Origin) (s : State) : Host.Outcome State Fault Refusal :=
  .next (s.coreRead c rCORE_ISTORE_ERR o)

/-- FLT_WCTL_WRITE (R379, R400). -/
def execFltWctlWrite (c : CoreId) (o : Origin) (v : Word) (s : State) : Host.Outcome State Fault Refusal :=
  .next (s.coreWrite c rFLT_WCTL o v)

/-- SP_BANKPWR written with one bank's field changed. -/
def bankWrite (c : CoreId) (o : Origin) (bank : Nat) (m : Nat) (s : State) : State :=
  s.coreWrite c rSP_BANKPWR o (setField ((s.core c).reg rSP_BANKPWR) (2 * bank) 2 m)

def execBankpwrOn (c : CoreId) (o : Origin) (bank : BitVec 3) (s : State) : Host.Outcome State Fault Refusal :=
  .next (bankWrite c o bank.toNat 0 s)
def execBankpwrRetain (c : CoreId) (o : Origin) (bank : BitVec 3) (s : State) : Host.Outcome State Fault Refusal :=
  .next (bankWrite c o bank.toNat 1 s)
def execBankpwrOff (c : CoreId) (o : Origin) (bank : BitVec 3) (s : State) : Host.Outcome State Fault Refusal :=
  .next (bankWrite c o bank.toNat 2 s)

/-! ### Writes of yard registers without a command of their own -/

/-- The writer is the physical function or Ryist. -/
def pfOrRyist (o : Origin) : Bool := o == .pf || isSystem o

/-- Where a write of a yard register without behaviour of its own may land: the value it stores, an error, or nothing. -/
inductive Landing where
  | store (v : Word)
  | refuse
  | ignore
deriving DecidableEq, Repr

def allow (b : Bool) (v : Word) : Landing := if b then .store v else .refuse

/-- FC_KCFGk and FC_KRCTk (R390): the class never below its reset value; the kinds of fixed reactions and the reserved codes ignore
writes. -/
def kindLanding (o : Origin) (k : Nat) (cfg : Bool) (v : Word) : Landing :=
  if !pfOrRyist o then .refuse
  else if (kindRow k).fixed then .ignore
  else if !cfg then .store (v &&& 0xFFFF#32)
  else if field v 30 2 < (kindRow k).cls then .refuse
  else .store (setField (v &&& 0xC0FFFFFF#32) 8 16 (max 1 (field v 8 16)))

/-- BU_DSk: the range of item k (R361). -/
def dsRange (k : Nat) : Nat × Nat :=
  match k with
  | 0 => (1, 1000)
  | 1 => (64, 1630)
  | 2 => (4096, 16777215)
  | 3 => (1, 65535)
  | _ => (0, 1)
def dsLanding (s : State) (o : Origin) (k : Nat) (v : Word) : Landing :=
  if o ≠ .pf ∨ s.bu.mixed then .refuse
  else .store (BitVec.ofNat 32 (clampNat (dsRange k).1 (dsRange k).2 (field v 0 24)))

/-- A page of HP_INBMAP that a locked TDI owns may not change (R300). -/
def State.pageLocked (s : State) (w : Word) : Bool :=
  let n := field w 25 5
  w.getLsbD 31 && 1 ≤ n && n ≤ 16 && s.tdiLocked (BitVec.ofNat 4 (n - 1))

/-- A window may name the port, and the remote space, that a write gives it (R306). -/
def State.windowOk (s : State) (w : Nat) (i : Nat) (v : Word) : Bool :=
  let T := s.fittedList.length
  let base := ySL + 0x4000 + 0x20 * w
  let ctrl := s.yreg base
  match i with
  | 0 => field v 10 3 == nth 0 s.fittedList (w % T) &&
      (field v 28 2 != 2 || field (s.yreg (base + 0xC)) 28 4 == 0)
  | 3 => field v 28 4 == 0 || (field v 28 4 == 2 && field ctrl 28 2 != 2)
  | _ => true

/-- The landing of a write at an offset of yard space. -/
def State.landing (s : State) (o : Origin) (off : Nat) (v : Word) : Landing :=
  if off = yPW + 0x24 then allow (pfOrRyist o) (v &&& 0x1FFF#32)
  else if off = yFC + 0xC then allow (pfOrRyist o) (v &&& 0xF#32)
  else if off = yFC + 0x10 then allow (pfOrRyist o) (setField (v &&& 0x80000000#32) 0 16 (max 1 (field v 0 16)))
  else if off = yFC + 0x1C then allow (pfOrRyist o) (v &&& 0xFFFF#32)
  else if yFC + 0x400 ≤ off ∧ off < yFC + 0xC00 then kindLanding o ((off - yFC - 0x400) / 8) (off % 8 == 0) v
  else if off = ySEC + 0x100 then allow (o == .pf) (v &&& 1#32)
  else if ySEC + 0x1000 ≤ off ∧ off < ySEC + 0x2000 then
    allow (o == .pf) (if off % 0x40 = 0x30 then v &&& 0x80000000#32 else v)
  else if yBU + 0x40 ≤ off ∧ off < yBU + 0x54 then dsLanding s o ((off - yBU - 0x40) / 4) v
  else if off = yBU + 0x108 ∨ off = yBU + 0x10C ∨ off = yBU + 0x110 then allow (o == .pf) v
  else if yJB + 0x6000 ≤ off ∧ off < yJB + 0x8000 then
    let i := off % 0x40
    if i ≤ 0x18 then allow (!(s.yreg (off - i)).getLsbD 31) v else .refuse
  else if yHP + 0x4000 ≤ off ∧ off < yHP + 0x8000 then
    (if !isSystem o then .refuse else if s.pageLocked v || s.pageLocked (s.yreg off) then .refuse
     else .store (v &&& 0xFFCFFFFF#32))
  else if ySL + 0x4000 ≤ off ∧ off < ySL + 0x4800 then
    let i := (off - ySL - 0x4000) % 0x20 / 4
    if !isSystem o then .refuse
    else if !s.windowOk ((off - ySL - 0x4000) / 0x20) i v then .ignore
    else .store (if i = 0 then v &&& 0xF0001FFF#32 else if i = 1 then v &&& 0x7FFFFF#32 else v)
  else if (yPW ≤ off ∧ off < yFP) ∨ (yJB ≤ off ∧ off < 0x180000) then .refuse
  else .ignore

/-- What a landing does. -/
def State.land (s : State) (off : Nat) (l : Landing) : State :=
  match l with
  | .store w => (s.setYreg off w).answer none
  | .refuse => s.answer (some 0x09)
  | .ignore => s.answer none

/-- A write of a yard register without behaviour of its own (R16). Ring registers have the owners and the lock of R245 and R300: one that
would change a locked TDI's puts the TDI in ERROR where it is the PF's. -/
def State.yardStore (s : State) (o : Origin) (off : Nat) (v : Word) : State :=
  if yJB + 0x6000 ≤ off ∧ off < yJB + 0x8000 then
    let p : Pid := BitVec.ofNat 4 ((off - yJB - 0x6000) / 0x200)
    let l := s.landing o off v
    let changes := match l with
      | .store w => w != s.yreg off
      | _ => false
    if o != .pf && o != .vf p then s.answer (some 0x09) else s.fixedWrite o p changes (fun s => s.land off l)
  else s.land off (s.landing o off v)

end Sys2Proof.Machine
end

