-- ==== Sys2Proof/Machine/Host.lean ====
section
/-! DEFINITION. The host port: its link, the resets that come through it, the inbox window and the host memory window (R287 to R297,
R301, R312, R314). -/

namespace Sys2Proof.Machine

/-! ### The link (R288, R289) -/

/-- A reset of the port: every valid partition is reset, every IDE stream and DOE exchange ends, and every TDI returns to
CONFIG_UNLOCKED, at once where no key is left to destroy, else with its partition's drain (R289). -/
def State.unlockTdi (s : State) (p : Pid) : State :=
  let busy := s.pvalid p && (s.partition p).state == 3 && !(s.partition p).drained
  if busy then (if s.host.unlock.contains p then s else s.onHost (fun h => { h with unlock := h.unlock ++ [p] }))
  else s.freeTdi p

def State.resetAllParts (s : State) : State := pidNos.foldl (fun a p => a.startPartReset p) s

/-- The IDE streams and DOE exchanges end (R289): of each secure stream the PF is told while the link is up (R297), and the scalars of the
exchanges are gone with them (R411). -/
def State.endStreams (s : State) : State :=
  let s1 := (s.host.streams.filter (fun (e : Nat × IdeStream) => e.2.secure)).foldl (fun (a : State) _ => a.notify 0 4) s
  let s2 : State := { s1 with sec := { s1.sec with
    scalars := s1.sec.scalars - (s.host.streams.filter (fun (e : Nat × IdeStream) => e.2.exch.isSome)).length } }
  s2.onHost (fun h => { h with streams := [], debugNonce := none })

/-- The MSI-X table and the pending bits of a function are as after reset (R290, log entry 109). -/
def HostPort.clearMsix (h : HostPort) (fn : Nat) : HostPort :=
  { h with
    msixTab := h.msixTab.filter (fun (e : Nat × Word) => e.1 / 64 != fn)
    msixPend := h.msixPend.filter (fun e => e.1.toNat != fn) }

/-- A reset of the port: every valid partition is reset, every IDE stream and DOE exchange ends, and every TDI returns to CONFIG_UNLOCKED. -/
def State.portReset (s : State) : State :=
  let s1 := s.resetAllParts.endStreams.onHost (fun h => (List.range 17).foldl HostPort.clearMsix h)
  pidNos.foldl (fun a p => a.unlockTdi p) s1

/-- The largest payload and the largest read request that the host allows, as powers of two from 128 B (R287, log entry 109). -/
def mpsOf (k : BitVec 2) : Nat := 128 * 2 ^ min 2 k.toNat
def mrrsOf (k : BitVec 3) : Nat := 128 * 2 ^ min 5 k.toNat

/-- LINK_TRAINING_COMPLETE (R287, R288): the port enters L0 at the highest common width and rate, or records why not. The host's settings of
payload and read request sizes come with the link. -/
def execLinkTrainingComplete (flitMode : Bool) (width : Nat) (rate mps : BitVec 2) (mrrs : BitVec 3) (s : State) :
    Host.Outcome State Fault Refusal :=
  if !s.bu.power || !s.host.training || (s.terminus 0).lost then .next s
  else
    let fail := if !flitMode then 1 else if rate = 0 then 2 else if width < 4 then 3 else 0
    let w := if 16 ≤ width then 16 else if 8 ≤ width then 8 else 4
    if fail ≠ 0 then .next (s.onHost (fun h => { h with training := false, fail := BitVec.ofNat 3 fail, width := 0, rate := 0 }))
    else
      let s1 := s.onHost (fun h =>
        { h with training := false, up := true, fail := 0, width := w, rate := rate, mps := mpsOf mps, mrrs := mrrsOf mrrs })
      let s2 := if w = 16 ∧ rate = 3 then s1 else s1.hostReport 0xC8 (256 * w + rate.toNat) 0
      .next (s2.notify 0 4)

/-- LINK_TRAINING_RETRY (R288): a port that failed to reach L0 trains again. -/
def execLinkTrainingRetry (s : State) : Host.Outcome State Fault Refusal :=
  if s.bu.power && !s.host.up && s.host.fail != 0 && !(s.terminus 0).lost then
    .next (s.onHost (fun h => { h with training := true }))
  else .next s

/-- A device read that has no answer yet receives ERR 0x0A. -/
def State.hostAnswerErr (s : State) (r : HostRead) : State := if r.answered then s else s.termErr r.req 0x0A

/-- The link leaves L0 (R289). -/
def State.linkFalls (s : State) : State :=
  let s1 := s.host.reads.foldl (fun (a : State) r => a.hostAnswerErr r) s
  let s2 := (s1.ycount (yHP + 0x040) 1).onHost (fun h =>
    { h with up := false, training := true, width := 0, rate := 0, reads := [] })
  (s2.hostReport 0xC8 0 0).portReset

/-- LINK_DOWN (R289). -/
def execLinkDown (s : State) : Host.Outcome State Fault Refusal :=
  if s.host.up then .next (published s s.linkFalls) else .next s

/-- HOT_RESET and FLR_PF (R289). -/
def execHotReset (s : State) : Host.Outcome State Fault Refusal :=
  if s.host.up then .next (published s s.portReset) else .next s
def flrPf (s : State) : State := published s s.portReset
def execFlrPf (s : State) : Host.Outcome State Fault Refusal := if s.host.up then .next (flrPf s) else .next s

/-- FLR_VF (R289). -/
def execFlrVf (p : Pid) (s : State) : Host.Outcome State Fault Refusal :=
  if s.host.up then
    .next (published s (((s.startPartReset p).unlockTdi p).onHost (fun h => h.clearMsix (p.toNat + 1))))
  else .next s

/-! ### IDE integrity (R299) -/

/-- The partitions whose TDI is bound to a stream. -/
def State.boundTo (s : State) (n : BitVec 4) : List Pid :=
  pidNos.filter (fun p => (s.host.tdiStream.any (fun (e : Nat × BitVec 4) => e.1 == p.toNat && e.2 == n)))

/-- A stream enters Insecure: every TDI bound to it enters ERROR (R299, R419). -/
def State.insecure (s : State) (n : BitVec 4) : State :=
  let was := (s.stream n).secure
  let s1 := s.setStream n { s.stream n with secure := false, keyed := false }
  let s2 := (s1.boundTo n).foldl (fun a p => a.tdiError p) s1
  if was then s2.notify 0 4 else s2

/-- A TLP of the host arrives: one that fails the integrity check of a secure stream is discarded and reported, and the stream enters
Insecure (R299). -/
def State.tlpCheck (s : State) (t : Tlp) (f : State → State) : State :=
  match (if t.good then none else t.stream.filter (fun n => (s.stream n).secure)) with
  | some n => { (published s ((s.hostReport 0xCC n.toNat 0).insecure n)) with resp := .discarded }
  | none => f s

/-! ### The inbox window (R292, R293) -/

/-- HP_INBMAP of the page of an offset. -/
def State.inboxPage (s : State) (off : Nat) : Word := s.yreg (yHP + 0x4000 + 4 * (off / 0x10000))

/-- An access is served (R292). -/
def State.inboxServed (s : State) (fn : BitVec 5) (off : Nat) (tbit : Bool) (stream : Option (BitVec 4)) : Bool :=
  let w := s.inboxPage off
  let tdi := if fn = 0 then 0 else s.host.tdi.get 0 (fn.toNat - 1)
  let bound := match stream with
    | some n => tbit && (s.stream n).secure && s.host.tdiStream.any (fun (e : Nat × BitVec 4) => e.1 + 1 == fn.toNat && e.2 == n)
    | none => false
  w.getLsbD 31 && field w 25 5 == fn.toNat && tdi != 3 && (tdi != 2 || bound)

/-- The parts of a host write, one for each line it touches: scratchpad offset and bytes (R293). -/
def lineParts (off : Nat) (bs : List Byte) : List (Nat × List Byte) :=
  (splitAt 64 bs.length off bs.length).map (fun e => (e.1, slice bs (e.1 - off) e.2))

/-- A part of a line that the head of a packet can carry (R142, R143). -/
def headSized (off n : Nat) : Bool := (n == 1 || n == 2 || n == 4 || n == 8) && off % n == 0

/-- The WR of a host write to one line (R292, R293): a system packet of terminus 0 with the owning partition's PID. A part of a line that no
head can carry goes as the line with byte enables (log entry 30). -/
def inboxPacket (w : InboxWr) : Packet :=
  let n := w.data.length
  let q : Packet :=
    { op := 1, aux := 0, off := BitVec.ofNat 44 w.off, space := 0, src := tEndpoint 0 (w.off / 256 % 48), dst := noEndpoint
      sz := 0, len := 0, txid := w.id, rclass := 0, wpy := 0, sys := true, pid := BitVec.ofNat 4 (w.fn.toNat - 1), head := 0, lines := []
      killed := false }
  if headSized w.off n then
    { q with sz := (if n = 8 then 3 else if n = 4 then 2 else if n = 2 then 1 else 0)
             head := headOf (leNat w.data * 2 ^ (8 * (w.off % 8))) }
  else
    { q with off := BitVec.ofNat 44 (w.off / 64 * 64), sz := 4, len := 1
             head := if n = 64 then 0 else headOf (runMask (w.off % 64) n).toNat
             lines := [Line.ofBytes (List.replicate (w.off % 64) 0 ++ w.data)] }

/-- The RD of one line of a helper core for a host read. -/
def inReadPacket (fn : BitVec 5) (id : Byte) (off : Nat) : Packet :=
  { op := 0, aux := 0, off := BitVec.ofNat 44 off, space := 0, src := tEndpoint 0 (off / 256 % 48), dst := noEndpoint
    sz := 4, len := 0, txid := id, rclass := 0, wpy := 0, sys := true, pid := BitVec.ofNat 4 (fn.toNat - 1), head := 0, lines := []
    killed := false }

/-- The writes of a function that may go are sent, in order: an ORD write only with every earlier one of its function acknowledged
(R293). -/
def pumpInbox (fn : BitVec 5) : List InboxWr → Bool → List InboxWr × List Sent
  | [], _ => ([], [])
  | w :: t, earlier =>
    if w.fn ≠ fn then
      let r := pumpInbox fn t earlier
      (w :: r.1, r.2)
    else if w.sent then
      let r := pumpInbox fn t true
      (w :: r.1, r.2)
    else if w.ord && earlier then (w :: t, [])
    else
      let r := pumpInbox fn t true
      ({ w with sent := true } :: r.1, { pkt := inboxPacket w, addr := some (mkAddr 0 w.core w.off), core := false } :: r.2)

/-- Host reads that wait for no write any more are sent: a packet for each line. -/
def pumpReads : List InRead → List InRead × List Sent
  | [] => ([], [])
  | x :: t =>
    let r := pumpReads t
    if x.sent || !x.after.isEmpty then (x :: r.1, r.2)
    else
      ({ x with sent := true } :: r.1,
        x.parts.zipIdx.map (fun e =>
          let off := x.off / 64 * 64 + 64 * e.2
          { pkt := inReadPacket x.fn e.1.1 off, addr := some (mkAddr 0 x.core off), core := false }) ++ r.2)

/-- What may go of a function's accesses to the inbox goes. -/
def State.pump (s : State) (fn : BitVec 5) : State :=
  let r := pumpInbox fn s.host.inbox false
  let q := pumpReads s.host.inReads
  { s with host := { s.host with inbox := r.1, inReads := q.1 }, inj := s.inj ++ r.2 ++ q.2 }

/-- Transaction numbers of terminus 0 that are free. -/
def State.freeIds (s : State) : List Byte :=
  ((List.range 256).map (fun i => (BitVec.ofNat 8 i : Byte))).filter (fun i =>
    !s.host.inbox.any (fun w => w.id == i) && !s.host.inReads.any (fun x => x.parts.any (fun q => q.1 == i)) &&
    !(List.range 4).any (fun n => (s.spanPort n).inbound.any (fun e => e.id == i)))

/-- An access to the inbox that is not served. -/
def State.inboxRefused (s : State) (fn : BitVec 5) (off : Nat) (r : Resp) : State := s.barRefused 0x020 fn.toNat off r

/-- INBOX_WRITE (R292, R293, R299, R301): one WR for each line it touches, in the order of the lines. It waits while terminus 0 has too few
transaction numbers free. -/
def inboxWrite (fn : BitVec 5) (off : BitVec 28) (data : List Byte) (tlp : Tlp) (s : State) : State :=
  if s.fc.safe then s.safeDiscard
  else if !s.inboxServed fn off.toNat tlp.tbit tlp.stream then s.inboxRefused fn off.toNat .discarded
  else
    let w := s.inboxPage off.toNat
    let parts := lineParts (pageOff w off.toNat) data
    let ids := s.freeIds
    if ids.length < parts.length then s
    else
      let new := (parts.zip ids).map (fun x =>
        ({ id := x.2, fn := fn, core := pageCore w, off := x.1.1, data := x.1.2, ord := w.getLsbD 30, sent := false } : InboxWr))
      { (State.pump { s with host := { s.host with inbox := s.host.inbox ++ new } } fn) with resp := .done }

/-- A function of the device. -/
def isFn (fn : BitVec 5) : Bool := fn.toNat ≤ 16

/-- An access of the host of `n` bytes stays within a block of 4 KiB, as every TLP does (PRESUMED, log entry 109). -/
def oneTlp (off n : Nat) : Bool := 1 ≤ n && off % 4096 + n ≤ 4096

def execInboxWrite (fn : BitVec 5) (off : BitVec 28) (data : List Byte) (tlp : Tlp) (s : State) : Host.Outcome State Fault Refusal :=
  if s.host.up && isFn fn && oneTlp off.toNat data.length then .next (s.tlpCheck tlp (inboxWrite fn off data tlp)) else .next s

/-- INBOX_ORD_RELEASE (R293). -/
def execInboxOrdRelease (fn : BitVec 5) (s : State) : Host.Outcome State Fault Refusal :=
  if s.bu.power && !(s.terminus 0).lost then .next (s.pump fn) else .next s

/-- A read of a BAR completes: its completion joins the transmit order (R294). -/
def State.complete (s : State) (fn : Nat) (r : Resp) : State := { s.transmit [.completion (BitVec.ofNat 5 fn) r] with resp := r }

/-- INBOX_READ (R292, R293, R299, R301): a read of the helper core by system packets, sent once every earlier inbox write of the function is
acknowledged; it completes when all its lines are there. -/
def inboxRead (fn : BitVec 5) (off : BitVec 28) (len : Nat) (tlp : Tlp) (s : State) : State :=
  let ones := Resp.bytes (List.replicate len 0xFF)
  if s.fc.safe then s.complete fn.toNat ones
  else if !s.inboxServed fn off.toNat tlp.tbit tlp.stream then
    (s.inboxRefused fn off.toNat ones).transmit [.completion fn ones]
  else
    let w := s.inboxPage off.toNat
    let o := pageOff w off.toNat
    let n := (o % 64 + len + 63) / 64
    let ids := s.freeIds
    if ids.length < n then s
    else
      let x : InRead :=
        { fn := fn, core := pageCore w, off := o, len := len, parts := (ids.take n).map (fun i => (i, none))
          after := (s.host.inbox.filter (fun w => w.fn == fn)).map (·.id), sent := false }
      { (State.pump { s with host := { s.host with inReads := s.host.inReads ++ [x] } } fn) with resp := .none }

def execInboxRead (fn : BitVec 5) (off : BitVec 28) (len : Nat) (tlp : Tlp) (s : State) : Host.Outcome State Fault Refusal :=
  if s.host.up && isFn fn && oneTlp off.toNat len then .next (s.tlpCheck tlp (inboxRead fn off len tlp)) else .next s

/-- The acknowledgement of a write to the inbox, or its refusal: its number is free, and what waited for it may go (R293). -/
def State.inboxAcked (s : State) (w : InboxWr) (rest : List InboxWr) : State :=
  let reads := s.host.inReads.map (fun (x : InRead) => { x with after := x.after.filter (· != w.id) })
  State.pump { s with host := { s.host with inbox := rest, inReads := reads } } w.fn

/-- The lines of a host read, from its first byte on. -/
def InRead.bytes (x : InRead) : List Byte := slice (x.parts.flatMap (fun e => Line.bytes (e.2.getD 0))) (x.off % 64) x.len

/-- A line of a host read arrives; all bits are set where it was refused or does not verify (DESIGN CHOICE, log entry 30). With the last line
the read completes, unless the link is down. -/
def State.inboxLine (s : State) (x : InRead) (p : Packet) : State :=
  let l : Line := if p.op = 9 then nth 0 p.lines 0 else BitVec.allOnes 512
  let y : InRead := { x with parts := x.parts.map (fun e => if e.1 = p.txid then (e.1, some l) else e) }
  if y.parts.all (fun e => e.2.isSome) then
    let s1 := s.onHost (fun h => { h with inReads := h.inReads.filter (· != x) })
    if s.host.up then s1.complete x.fn.toNat (.bytes y.bytes) else s1
  else s.onHost (fun h => { h with inReads := h.inReads.map (fun z => if z = x then y else z) })

/-! ### The host memory window (R295, R296) -/

/-- The fields of a word of a descriptor. -/
def descFields (dw : Nat) (v : Word) : Word :=
  match dw with
  | 0 => v &&& 0xFF800000#32
  | 1 => v &&& 0x7FFFFF#32
  | _ => v

/-- Words of a descriptor written in one access (R295, R300, R301): set 0 by Ryist; set p + 1 by the PF or VF p + 1 while the TDI is not locked. -/
def descriptorPuts (o : Origin) (set d : Nat) (ws : List (Nat × Word)) (s : State) : State :=
  let l := ws.map (fun e => (e.1, descFields e.1 e.2))
  let go := fun (s : State) => (s.onHost (fun h =>
    { h with desc := l.foldl (fun (a : SMap Word) e => a.set ((64 * set + d) * 4 + e.1) e.2) h.desc })).answer none
  let p : Pid := BitVec.ofNat 4 (set - 1)
  let mine := match o with
    | .ryist => set == 0
    | .pf => set != 0
    | .vf q => set == q.toNat + 1
    | _ => false
  if 16 < set || !mine then s.answer (some 0x09)
  else if set = 0 then go s
  else s.fixedWrite o p (l.any (fun e => e.2 != s.descWord set d e.1)) go

/-- A word of a descriptor written through BAR4, or by Ryist. -/
def descriptorWrite (o : Origin) (set : BitVec 5) (d : BitVec 6) (dw : BitVec 2) (v : Word) (s : State) : State :=
  match o with
  | .ryist => if s.fc.safe then s else descriptorPuts o set.toNat d.toNat [(dw.toNat, v)] s
  | .pf =>
    if !s.host.up || s.bu.phase = 12 then s
    else if s.fc.safe then s.safeDiscard
    else descriptorPuts o set.toNat d.toNat [(dw.toNat, v)] s
  | .vf q =>
    if !s.host.up || s.bu.phase = 12 then s
    else if s.fc.safe then s.safeDiscard
    else if s.tdi q = 3 then s.barRefused 0x020 (hostFn o) (16 * d.toNat + 4 * dw.toNat) .discarded
    else descriptorPuts o set.toNat d.toNat [(dw.toNat, v)] s
  | _ => s

def execDescriptorWrite (o : Origin) (set : BitVec 5) (d : BitVec 6) (dw : BitVec 2) (v : Word) (s : State) :
    Host.Outcome State Fault Refusal :=
  if s.bu.power then .next (descriptorWrite o set d dw v s) else .next s

/-- The descriptor set of a request (R295). -/
def Packet.descSet (p : Packet) : Nat := if p.sys then 0 else p.pid.toNat + 1

/-- The bytes a write to space 4 carries. -/
def Packet.dataBytes (p : Packet) : List Byte :=
  if p.sz.toNat ≤ 3 then leBytes p.span (headPart p.head p.span p.off.toNat).toNat
  else p.lines.flatMap Line.bytes

/-- The first `n` tags that are free (R296). -/
def State.freeTags (s : State) (n : Nat) : List (BitVec 14) :=
  let used := s.tagsOut.map (·.tag)
  (((List.range 4097).map (fun i => (BitVec.ofNat 14 i : BitVec 14))).filter (fun t => !used.contains t)).take n

/-- 4,096 tags are in use: terminus 0 admits no further request to space 4 (R296). -/
def State.tagsFull (s : State) : Bool := decide (4096 ≤ s.tagsOut.length)

/-- The memory reads that a read request becomes: none above 256 B or above the host's Max Read Request Size. -/
def State.readParts (s : State) (p : Packet) : List (Nat × Nat) :=
  splitAt (max 1 (min 256 s.host.mrrs)) p.span p.off.toNat p.span

/-- There are tags for a request. -/
def State.tagsFor (s : State) (p : Packet) : Bool :=
  p.op != 0 || decide (s.tagsOut.length + (s.readParts p).length ≤ 4096)

/-- A read request is issued: each part under a tag of its own. -/
def issueRead (p : Packet) (s : State) : State :=
  let parts := s.readParts p
  let set := p.descSet
  let l := (parts.zip (s.freeTags parts.length)).map (fun x =>
    (({ tag := x.2, haddr := s.hostAddr set x.1.1, len := x.1.2, data := [], done := false } : ReadPart),
      OutTlp.read x.2 (s.hostAddr set x.1.1) x.1.2 (s.descTee set x.1.1) (s.descStream set x.1.1)))
  (s.onHost (fun h => { h with
    reads := h.reads ++ [{ req := p, set := BitVec.ofNat 5 set, answered := false, parts := l.map (·.1) }] })).transmit (l.map (·.2))

/-- A refusal or error at space 4 is counted (R312). -/
def State.dmaErr (s : State) : State := s.ycount (yHP + 0x038) 1

/-- SPACE4_REQUEST (R289, R295, R296, R301): a request to space 4 is checked and issued. With the link down, or in the safe state, it is
answered with ERR 0x0A. -/
def space4 (p : Packet) (s : State) : State :=
  if p.op = 2 ∨ p.op = 7 ∨ p.op = 8 then s.termErr p 0x0B
  else if 2 ^ 40 ≤ p.off.toNat then s.termErr p 0x06
  else if !p.omFormed then s.termErr p 0x0B
  else if !s.host.up || s.fc.safe then s.termErr p 0x0A
  else if s.descRefuses p.descSet p.off.toNat p.span (p.op == 0) then
    (s.dmaErr.hostReport 0xCA (p.descSet + 32 * (p.off.toNat / 2 ^ 34)) p.off.toNat).termErr p 0x0A
  else if p.op = 0 then issueRead p s
  else (s.transmit (s.hostWrites p.descSet p.off.toNat p.dataBytes)).termAck p

/-- The oldest request to space 4 at terminus 0; a read waits for tags. -/
def execSpace4Request (s : State) : Host.Outcome State Fault Refusal :=
  if !s.bu.power || (s.terminus 0).lost then .next s
  else
    match takeFirst (fun (e : Nat × Packet) => e.1 == 0 && e.2.space == 4 && (e.2.op.toNat ≤ 2 || e.2.multicast)) s.tin with
    | none => .next s
    | some (e, rest) => if s.tagsFor e.2 then .next (space4 e.2 { s with tin := rest }) else .next s

/-- The read a tag belongs to, with the reads that remain. -/
def State.readOf (s : State) (tag : BitVec 14) : Option (HostRead × List HostRead) :=
  takeFirst (fun (r : HostRead) => r.parts.any (fun x => !x.done && x.tag == tag)) s.host.reads

/-- A tag is free again, with the data that came under it. -/
def HostRead.close (r : HostRead) (tag : BitVec 14) (data : List Byte) : HostRead :=
  { r with parts := r.parts.map (fun x => if !x.done && x.tag == tag then { x with data := data, done := true } else x) }

/-- The reads outstanding with one of them changed: it leaves with its last tag. -/
def State.keepRead (s : State) (r : HostRead) (rest : List HostRead) : State :=
  s.onHost (fun h => { h with reads := if r.parts.all (fun x => x.done) then rest else rest ++ [r] })

/-- A read whose parts have all come is answered with its data. -/
def State.hostData (s : State) (r : HostRead) : State :=
  let p := r.req
  let bs := r.parts.flatMap (fun x => x.data)
  if p.sz.toNat ≤ 3 then
    s.termSend p 9 0 p.sz.toNat 0 (headOf (leNat (bs.take p.span) * 2 ^ (8 * (p.off.toNat % 8)))) []
  else
    s.termSend p 9 0 p.sz.toNat (p.sz.toNat - 3) 0 ((List.range (p.sz.toNat - 3)).map (fun i => Line.ofBytes (slice bs (64 * i) 64)))

/-- A completion for a read: `status` 0 successful, 1 UR, 2 CA, 3 poisoned. The first error answers the requester; what comes under the
request's other tags is then discarded. -/
def hostCompletion (tag : BitVec 14) (status : BitVec 2) (data : List Byte) (s : State) : State :=
  match s.readOf tag with
  | none => s
  | some (r, rest) =>
    if status = 0 then
      let n := match r.parts.find? (fun x => !x.done && x.tag == tag) with
        | some x => x.len
        | none => 0
      let r1 := r.close tag ((data ++ List.replicate n 0).take n)
      let s1 := s.keepRead r1 rest
      if !r1.answered && r1.parts.all (fun x => x.done) then s1.hostData r1 else s1
    else
      let s1 := s.hostAnswerErr r
      let s2 := s1.keepRead { r.close tag [] with answered := true } rest
      s2.dmaErr.hostReport 0xCB (r.set.toNat + 32 * (status.toNat - 1)) r.req.off.toNat

/-- HOST_COMPLETION_ARRIVAL (R296, R299). A completion for a tag that is free is discarded. -/
def execHostCompletionArrival (tag : BitVec 14) (status : BitVec 2) (data : List Byte) (tlp : Tlp) (s : State) :
    Host.Outcome State Fault Refusal :=
  if s.host.up then .next (s.tlpCheck tlp (hostCompletion tag status data)) else .next s

/-- COMPLETION_TIMEOUT (R296): the tag is free after 1 ms; the request has no answer of terminus 0 any more. -/
def execCompletionTimeout (tag : BitVec 14) (s : State) : Host.Outcome State Fault Refusal :=
  match s.readOf tag with
  | none => .next s
  | some (r, rest) =>
    .next ((s.keepRead { r.close tag [] with answered := true } rest).dmaErr.hostReport 0xCB (r.set.toNat + 32 * 3) r.req.off.toNat)

end Sys2Proof.Machine
end

