-- ==== Sys2Proof/Machine/Doe.lean ====
section
/-! DEFINITION. The DOE mailbox: reports, IDE key agreement, TDISP and the debug unlock (R298 to R301, R411 to R421). Keys, nonces and
signatures are free values (log entry 4). -/

namespace Sys2Proof.Machine

/-! ### Messages (R417) -/

/-- A message of the vendor protocol. -/
def doeMsg (code : Nat) (payload : List Byte) : Resp :=
  .bytes ([BitVec.ofNat 8 code, 1] ++ leBytes 2 payload.length ++ payload)

/-- An ERROR answer; a refusal or failed check is counted and reported (R419). -/
def State.doeError (s : State) (code fn err hint : Nat) : State :=
  let s1 := if err = 1 then s else (s.ycount (ySEC + 0x120) 1).yardReport 23 0xA5 (code + 256 * fn) err
  { s1 with resp := doeMsg 0xFE (leBytes 1 err ++ leBytes 2 hint) }

/-- A fresh random value of at most 96 bytes: its bits, least significant byte first. -/
def State.draw (s : State) (n : Nat) : State × List Byte :=
  ({ s with freeCtr := s.freeCtr + 1 }, leBytes n (Config.randomBits s.freeCtr).toNat)

/-- The mailbox of a function takes a request: with the link up at READY; in RECOVERY the PF's takes report requests alone; in the
safe state other requests are answered with code 6 (R301, R417). -/
def doeOpen (s : State) (fn : BitVec 5) (code : Nat) (f : State → State) : State :=
  if !s.host.up then s
  else if s.bu.phase = 12 then (if fn = 0 ∧ code = 1 then f s else s)
  else if s.bu.phase ≠ 10 then s
  else if s.fc.safe && !(fn = 0 && code = 1) then s.doeError code fn.toNat 6 0
  else f s

/-! ### The report (R413 to R416) -/

/-- The image entry of kind `k`. -/
def State.imageEntry (s : State) (k : Nat) : List Byte :=
  let a := s.bu.active.get Image.reset k
  let pend := if s.bu.updState = 4 ∨ s.bu.updState = 6 then s.bu.updKinds.find? (fun e => e.1.toNat == k) else none
  let bank := if k = 5 then (s.nvm.dirs.get BootDir.reset 0).tcbank else s.bu.bank
  let st : Byte := flag 8 0 (pend.isSome && s.bu.updState == 4) ||| flag 8 1 (pend.isSome && s.bu.updState == 6) ||| flag 8 2 bank
  let v := match pend with
    | some e => (e.2.1, e.2.2)
    | none => (0, 0)
  [BitVec.ofNat 8 k, st, 0, 0] ++ leBytes 4 a.version.toNat ++ leBytes 4 v.1.toNat ++ [0, 0, 0, 0] ++
    leBytes 48 a.digest.toNat ++ leBytes 48 v.2.toNat

/-- The partition entry of p. -/
def State.partEntry (s : State) (p : Pid) : List Byte :=
  let k := s.keys p
  let cfg := s.pcfg p
  let st := s.pstat p
  leBytes 1 (field st 29 3) ++
    [flag 8 0 (cfg.getLsbD 31) ||| flag 8 1 (cfg.getLsbD 30) ||| flag 8 2 (cfg.getLsbD 29) ||| flag 8 3 (cfg.getLsbD 28)] ++
    leBytes 1 (s.host.tdi.get 0 p.toNat).toNat ++
    [flag 8 0 (k.slot k.epoch).isSome ||| flag 8 1 k.retv ||| flag 8 2 k.epoch ||| flag 8 3 k.sweep] ++
    leBytes 2 (field st 16 13) ++ leBytes 1 (field st 13 3) ++ [0] ++ leBytes 2 (s.extentsOf p).length ++ [0, 0] ++
    leBytes 4 (s.yreg (yJB + 4)).toNat

/-- LAYOUTDIG (R414). -/
def State.layoutDigest (s : State) : List Byte :=
  sha384 ((List.range 5184).map (fun cl => s.clmap cl &&& 0xCF) ++
    (List.range (s.capacity / 2 ^ 30)).map (fun k => extByte (s.extent k) &&& 0xDF))

/-- Bytes 0 to 1,215 of a report for a function. -/
def State.reportBody (s : State) (fn : BitVec 5) (nonce : BitVec 384) : List Byte :=
  let flags : Byte := flag 8 0 s.fc.safe ||| flag 8 1 (s.bu.phase == 12) ||| flag 8 2 s.bu.warm ||| flag 8 3 s.fc.grave |||
    flag 8 4 s.bu.mixed ||| flag 8 5 (1 ≤ s.bu.updState.toNat && s.bu.updState.toNat ≤ 3)
  leBytes 8 0x3130545052315848 ++ leBytes 4 0x10000 ++ leBytes 4 1216 ++ leBytes 16 s.fuses.serial.toNat ++
    leBytes 16 s.fuses.part.toNat ++ leBytes 1 s.fuses.grade.toNat ++ [s.fuses.termini, flags] ++ leBytes 1 fn.toNat ++
    leBytes 4 (BitVec.toNat s.sec.debug) ++ leBytes 8 s.yc.toNat ++ leBytes 48 nonce.toNat ++ leBytes 97 s.idPub.toNat ++
    List.replicate 15 0 ++ (List.range 5).flatMap (fun i => s.imageEntry (i + 1)) ++ leBytes 48 s.fuses.rootDig.toNat ++
    (List.range 5).map (fun i => BitVec.ofNat 8 (s.svn (i + 1))) ++
    [flag 8 0 s.fuses.secboot ||| flag 8 1 s.fuses.factClosed ||| flag 8 2 s.fuses.dbglock ||| flag 8 3 s.fuses.seedSet] ++
    leBytes 1 s.pmax ++ List.replicate 9 0 ++ leBytes 4 s.fp.gen.toNat ++
    leBytes 4 (((List.range 81).map s.fp.fieldUsable).sum) ++ sha384 s.fpImage ++
    pidNos.flatMap (fun p => if fn = 0 ∨ fn.toNat = p.toNat + 1 then s.partEntry p else List.replicate 16 0) ++
    s.layoutDigest ++ List.replicate 8 0

/-- The retry hint during a commit: the whole milliseconds that remain of its 40 ms, at least 1 (R416). -/
def State.commitHint (s : State) : Nat :=
  max 1 (ceilDiv (2000000 - (s.yc.toNat - s.bu.commitStart.toNat)) 50000)

/-- GET_REPORT (R413, R416, R417). -/
def getReport (fn : BitVec 5) (nonce : BitVec 384) (s : State) : State :=
  if s.bu.committing then s.doeError 1 fn.toNat 1 s.commitHint
  else
    let d := s.draw 96
    { d.1.ycount (ySEC + 0x110) 1 with resp := doeMsg 0x81 (s.reportBody fn nonce ++ d.2) }

def execGetReport (fn : BitVec 5) (nonce : BitVec 384) (s : State) : Host.Outcome State Fault Refusal :=
  .next (doeOpen s fn 1 (getReport fn nonce))

/-! ### IDE keys (R412, R418, R419) -/

/-- A function may key a stream: the PF one that no locked TDI is bound to, a VF its own TDI's (R419). -/
def State.mayKey (s : State) (fn : BitVec 5) (n : BitVec 4) : Bool :=
  if fn = 0 then !(s.boundTo n).any (fun p => s.tdiLocked p)
  else (s.boundTo n).any (fun p => p.toNat + 1 == fn.toNat)

/-- KEY_EXCHANGE: refused in SERVICE (R421) and while terminus 0's generator is halted (R412). A second exchange replaces the
first. -/
def keyExchange (fn : BitVec 5) (n : BitVec 4) (s : State) : State :=
  if s.sec.debug = 1 ∨ !s.mayKey fn n then s.doeError 2 fn.toNat 2 0
  else if (s.terminus 0).rngHalted then s.doeError 2 fn.toNat 4 0
  else
    let a := s.draw 96
    let b := a.1.draw 1
    let c := b.1.draw 96
    let s1 := c.1.setStream n { c.1.stream n with exch := some s.freeCtr, exchFn := fn }
    let s2 : State := { s1 with sec := { s1.sec with scalars := s1.sec.scalars + (if (s.stream n).exch.isSome then 0 else 1) } }
    { s2 with resp := doeMsg 0x82 (a.2 ++ b.2 ++ c.2) }

def execKeyExchange (fn : BitVec 5) (n : BitVec 4) (_qh : BitVec 776) (_nonce : BitVec 384) (s : State) :
    Host.Outcome State Fault Refusal :=
  .next (doeOpen s fn 2 (keyExchange fn n))

/-- KEY_SET (R299, R418, R419): with GO the keys are installed and the stream is secure; the scalar is destroyed. Without an exchange
it receives code 2. -/
def keySet (fn : BitVec 5) (n : BitVec 4) (go : Bool) (s : State) : State :=
  let x := s.stream n
  if !s.mayKey fn n || x.exch.isNone || x.exchFn != fn then s.doeError 3 fn.toNat 2 0
  else if !go then { s with resp := doeMsg 0x83 [] }
  else
    let s1 := s.setStream n { x with secure := true, keyed := true, exch := none }
    let s2 : State := { s1 with sec := { s1.sec with scalars := s1.sec.scalars - 1 } }
    { (s2.ycount (ySEC + 0x118) 1).notify 0 4 with resp := doeMsg 0x83 [] }

def execKeySet (fn : BitVec 5) (n : BitVec 4) (go : Bool) (s : State) : Host.Outcome State Fault Refusal :=
  .next (doeOpen s fn 3 (keySet fn n go))

/-- KEY_STOP (R419): the keys are destroyed, the stream is Insecure and every TDI bound to it enters ERROR. -/
def keyStop (fn : BitVec 5) (n : BitVec 4) (s : State) : State :=
  if !s.mayKey fn n then s.doeError 4 fn.toNat 2 0
  else { s.insecure n with resp := doeMsg 0x83 [] }

def execKeyStop (fn : BitVec 5) (n : BitVec 4) (s : State) : Host.Outcome State Fault Refusal :=
  .next (doeOpen s fn 4 (keyStop fn n))

/-- EPHEMERAL_SCALAR_EXPIRY (R411): a scalar is destroyed 1 s after its generation, and with it the exchange. -/
def execEphemeralScalarExpiry (n : BitVec 4) (s : State) : Host.Outcome State Fault Refusal :=
  let x := s.stream n
  if x.exch.isNone then .next s
  else
    let s1 := s.setStream n { x with exch := none }
    .next { s1 with sec := { s1.sec with scalars := s1.sec.scalars - 1 } }

/-! ### TDISP (R300) -/

/-- Codes of TDISP requests, and of the ERROR answer (PRESUMED, log entry 31). -/
abbrev tdispLock : Byte := 0x83
abbrev tdispStart : Byte := 0x86
abbrev tdispStop : Byte := 0x87

/-- A TDISP response: its code and the state of the TDI. -/
def tdispAnswer (s : State) (p : Pid) (code : Byte) : State :=
  { s with resp := doeMsg 0x85 [code, (s.tdi p).setWidth 8] }

/-- A TDISP request: LOCK binds the TDI to a stream, START runs it, STOP returns it to CONFIG_UNLOCKED with a reset of its partition.
Out of ERROR it returns once that reset has ended. Another request changes no state; a request in the wrong state is answered with
an error. -/
def tdisp (p : Pid) (req : Byte) (n : BitVec 4) (s : State) : State :=
  let st := s.tdi p
  if req = tdispLock then
    if st = 0 then
      let s1 := s.setTdi p 1
      tdispAnswer (s1.onHost (fun h => { h with tdiStream := h.tdiStream.set p.toNat n })) p 0x03
    else tdispAnswer s p 0x7F
  else if req = tdispStart then
    if st = 1 then tdispAnswer (s.setTdi p 2) p 0x06 else tdispAnswer s p 0x7F
  else if req = tdispStop then
    if st = 3 ∧ (s.partition p).state = 3 then tdispAnswer s p 0x7F
    else
      let s1 := if st = 3 ∨ st = 0 then s.freeTdi p else (s.startPartReset p).unlockTdi p
      tdispAnswer (published s s1) p 0x07
  else tdispAnswer s p (req &&& 0x7F)

def execTdisp (p : Pid) (req : Byte) (n : BitVec 4) (s : State) : Host.Outcome State Fault Refusal :=
  .next (doeOpen s (BitVec.ofNat 5 (p.toNat + 1)) 5 (tdisp p req n))

/-! ### Debug (R421) -/

/-- DEBUG_NONCE: a fresh 48-byte nonce replaces the one before it. -/
def debugNonce (fn : BitVec 5) (s : State) : State :=
  if (s.terminus 0).rngHalted then s.doeError 6 fn.toNat 4 0
  else
    let d := s.draw 48
    { d.1.onHost (fun h => { h with debugNonce := some s.freeCtr }) with resp := doeMsg 0x86 d.2 }

def execDebugNonce (fn : BitVec 5) (s : State) : Host.Outcome State Fault Refusal :=
  .next (doeOpen s fn 6 (debugNonce fn))

/-- The nonce a DEBUG_NONCE gave. -/
def nonceOf (n : Nat) : BitVec 384 := (Config.randomBits n).extractLsb' 0 384

/-- DEBUG_UNLOCK: a good token through the PF moves the device to SERVICE and resets every valid partition. -/
def debugUnlock (fn : BitVec 5) (serial : BitVec 128) (nonce : BitVec 384) (want : Byte) (sigOk : Bool) (s : State) : State :=
  let fresh := match s.host.debugNonce with
    | some n => nonceOf n == nonce
    | none => false
  if fn ≠ 0 ∨ pidNos.any (fun p => s.tdiLocked p) then s.doeError 7 fn.toNat 2 0
  else if !sigOk || !fresh || s.fuses.dbglock || serial != s.fuses.serial || want != 1 then
    (s.doeError 7 fn.toNat 5 0).yardReport 23 0xA2 (want.toNat % 4 + 4) 0
  else
    let s1 : State := { s with sec := { s.sec with debug := 1 } }
    { s1.resetAllParts with resp := doeMsg 0x83 [] }

def execDebugUnlock (fn : BitVec 5) (serial : BitVec 128) (nonce : BitVec 384) (want : Byte) (sigOk : Bool) (s : State) :
    Host.Outcome State Fault Refusal :=
  .next (doeOpen s fn 7 (debugUnlock fn serial nonce want sigOk))

/-- DEBUG_PORT_ACCESS (R421): refused and reported in CLOSED. In SERVICE and FACTORY it is served; what is done through it is not
described (log entry 32). -/
def execDebugPortAccess (want : BitVec 2) (s : State) : Host.Outcome State Fault Refusal :=
  if !s.bu.power then .next s
  else if s.sec.debug = 0 then .next { s.yardReport 23 0xA2 want.toNat 0 with resp := .err 0x09 }
  else .next { s with resp := .done }

/-- DBGLOCK (R422): a PF write with the key blows the fuse; one in SERVICE or with another key is discarded. -/
def fuseCtlWrite (o : Origin) (v : Word) (s : State) : State :=
  if o ≠ .pf then s.answer (some 0x09)
  else if s.sec.debug = 1 ∨ field v 24 8 ≠ 0xD7 then { s with resp := .discarded }
  else if v.getLsbD 0 then ({ s with fuses := { s.fuses with dbglock := true } } : State).answer none
  else s.answer none

def execDbglock (o : Origin) (v : Word) (s : State) : Host.Outcome State Fault Refusal :=
  if s.bu.power then .next (yardWrite o (ySEC + 0x104) s (fuseCtlWrite o v)) else .next s

/-- FUSE_COMPARE (R406): the copies of the fuses are compared; a disagreement is reported. -/
def execFuseCompare (differs : Option (BitVec 9)) (s : State) : Host.Outcome State Fault Refusal :=
  if !s.bu.power then .next s
  else match differs with
    | none => .next s
    | some w => .next (s.yardReport 23 0xA4 w.toNat 0)

/-- RNG_HEALTH_TEST (R410, R412): a failure halts the generator and is reported; a pass lets it resume, and refills of key slots that
waited for it are made. -/
def execRngHealthTest (t : BitVec 3) (failure : Option (BitVec 2)) (s : State) : Host.Outcome State Fault Refusal :=
  let n := t.toNat
  if !s.bu.power || !s.fitted n || (s.terminus n).lost then .next s
  else match failure with
    | some c =>
      let s1 := s.onTerminus n (fun e => { e with rngHalted := true })
      .next ((s1.ycount (ySEC + 0x128) 1).yardReport 23 0xA3 (c.toNat + 16 * n) 0)
    | none =>
      let s1 := s.onTerminus n (fun e => { e with rngHalted := false })
      .next (pidNos.foldl (fun a p => if (a.partition p).state = 3 then a.refill p else a) s1)

end Sys2Proof.Machine
end

