-- ==== Sys2Proof/Machine/Clocks.lean ====
section
/-! DEFINITION. The reference and its switching, field PLLs, seams and cluster trees (R311, R316 to R325, R345). -/

namespace Sys2Proof.Machine

def State.onCk (s : State) (f : Clocks → Clocks) : State := { s with ck := f s.ck }

/-- The lane of the clock lead, as kinds 0x80 and 0x81 name it. -/
def State.leadLane (s : State) : Nat := field (s.yreg ySL) 2 5 + 32 * field (s.yreg ySL) 0 2
def State.leadPort (s : State) : Nat := field (s.yreg ySL) 2 5

/-- CK_REFCTL.HOLD and AUTORET. -/
def State.refHold (s : State) : Bool := (s.yreg (yCK + 4)).getLsbD 31
def State.autoRet (s : State) : Bool := (s.yreg (yCK + 4)).getLsbD 30

/-- The reference is to be taken from the clock lead (R319). -/
def State.wantsLead (s : State) : Bool :=
  (s.yreg ySL).getLsbD 31 && s.ck.leadLock && !s.refHold && !s.ck.lossInForce

/-- A switch starts where the source in use is not the one R319 names and none is in progress (R321). -/
def State.settleRef (s : State) : State :=
  if s.ck.switching.isNone && s.wantsLead != s.ck.lead then s.onCk (fun c => { c with switching := some s.wantsLead }) else s

/-- The lead is lost: counted and reported, and the reference leaves it (R320). A loss during a switch waits for its end (R322). -/
def State.leadLost (s : State) : State :=
  let s1 := s.onCk (fun c => { c with leadLock := false, lossInForce := true, retPend := false })
  if s.ck.switching.isSome then s1.onCk (fun c => { c with pendingLoss := c.pendingLoss || c.lead || c.switching == some true })
  else if s.ck.lead then (((s1.ycount (yCK + 0x48) 1).yardReport 21 0x80 s.leadLane 0)).settleRef
  else s1

/-- CLOCK_LEAD_LOSS (R320). -/
def execClockLeadLoss (s : State) : Host.Outcome State Fault Refusal := if s.bu.power then .next s.leadLost else .next s

/-- REFERENCE_SWITCH_END (R321, R322): the first edge of the new source. -/
def execReferenceSwitchEnd (s : State) : Host.Outcome State Fault Refusal :=
  match s.ck.switching with
  | none => .next s
  | some t =>
    let s1 := (s.ycount (yCK + 0x40) 1).onCk (fun c => { c with lead := t, switching := none, pendingLoss := false })
    let s2 := if s.ck.pendingLoss then (s1.ycount (yCK + 0x48) 1).yardReport 21 0x80 s.leadLane 0 else s1
    .next s2.settleRef

/-- LEAD_LOCK_REGAINED (R322): with AUTORET the 100 ms of the return begin. -/
def execLeadLockRegained (s : State) : Host.Outcome State Fault Refusal :=
  if !s.bu.power || s.ck.leadLock || !(s.yreg ySL).getLsbD 31 then .next s
  else
    let ret := s.autoRet && !s.refHold
    .next (s.onCk (fun c => { c with leadLock := true, retPend := ret, retStart := if ret then s.yc else c.retStart }))

/-- REFERENCE_RETURN (R322): 100 ms of stable lock have passed; the return is reported. -/
def execReferenceReturn (s : State) : Host.Outcome State Fault Refusal :=
  if s.ck.retPend && s.ck.leadLock && s.autoRet && !s.refHold && s.ck.switching.isNone &&
      decide (s.ck.retStart.toNat + 5000000 ≤ s.yc.toNat) then
    let s1 := s.onCk (fun c => { c with retPend := false, lossInForce := false })
    .next ((s1.yardReport 21 0x81 s.leadLane 0).settleRef)
  else .next s

/-- LOCAL_OSCILLATOR_FAILURE (R322). -/
def execLocalOscillatorFailure (s : State) : Host.Outcome State Fault Refusal :=
  if s.bu.power && !s.ck.yardRo then .next ((s.onCk (fun c => { c with yardRo := true })).yardReport 21 0x84 0 0) else .next s

/-- CK_REFCTL_WRITE (R321, R322, R345): by the PF or Ryist. HOLD cleared lets the reference return at once. -/
def ckRefctlWrite (o : Origin) (v : Word) (s : State) : State :=
  if !pfOrRyist o then s.answer (some 0x09)
  else
    let w := v &&& 0xC0000000#32
    let s1 := s.setYreg (yCK + 4) w
    let s2 := if s.refHold && !w.getLsbD 31 && s.ck.leadLock then s1.onCk (fun c => { c with lossInForce := false, retPend := false })
      else if w.getLsbD 31 || !w.getLsbD 30 then s1.onCk (fun c => { c with retPend := false })
      else s1
    s2.settleRef.answer none

def execCkRefctlWrite (o : Origin) (v : Word) (s : State) : Host.Outcome State Fault Refusal :=
  if s.bu.power then .next (yardWrite o (yCK + 4) s (ckRefctlWrite o v)) else .next s

/-- SL_CLKLEAD_WRITE (R311, R319, R321): by Ryist. A new lane, or EN cleared, takes the reference to the local oscillator; the new
lane's lock is regained first. -/
def slClkleadWrite (o : Origin) (v : Word) (s : State) : State :=
  if !isSystem o then s.answer (some 0x09)
  else
    let w := v &&& 0x8000007F#32
    let s1 := s.setYreg ySL w
    let s2 := if w = s.yreg ySL then s1 else s1.onCk (fun c => { c with leadLock := false, lossInForce := true, retPend := false })
    s2.settleRef.answer none

def execSlClkleadWrite (o : Origin) (v : Word) (s : State) : Host.Outcome State Fault Refusal :=
  if s.bu.power then .next (yardWrite o ySL s (slClkleadWrite o v)) else .next s

/-! ### Field PLLs and seams (R317, R318) -/

/-- A field is in service: alive, of a powered module past the lock of its PLL. -/
def State.inService (s : State) (f : Nat) : Bool := s.bu.power && s.liveField f && decide (f < 81)

/-- FIELD_PLL_LOSS. -/
def execFieldPllLoss (f : BitVec 7) (s : State) : Host.Outcome State Fault Refusal :=
  if s.inService f.toNat then .next ((s.fieldDies f.toNat true).fieldReport f.toNat 14 0x82 f.toNat 0) else .next s

/-- SEAM_MARGIN_EXHAUSTED. -/
def execSeamMarginExhausted (f : BitVec 7) (side : BitVec 2) (s : State) : Host.Outcome State Fault Refusal :=
  if s.inService f.toNat then
    .next ((s.fieldDies f.toNat false).fieldReport f.toNat 15 0x83 (f.toNat + 128 * side.toNat) 0)
  else .next s

/-! ### Cluster trees (R324, R325) -/

/-- CLUSTER_TREE_WAKE (R325): an access that reaches a compute-wafer block of the core starts its cluster's tree, and the spine;
PWC_WAKE counts the wait. -/
def execClusterTreeWake (c : CoreId) (s : State) : Host.Outcome State Fault Refusal :=
  let cl := s.clusterNo c
  let f := fieldOf c.x.toNat c.y.toNat
  if !s.alive c || (s.cluster cl).tree then .next s
  else
    let wait := if (s.fieldPower f).spine then 48 else 144
    let s1 := (s.setCluster cl (fun e => { e with tree := true })).onField f (fun e => { e with spine := true })
    .next (onCore c s1 (fun k => { k with core := k.core.count rPWC_WAKE wait }))

/-- CLUSTER_TREE_STOP (R324): no core of the cluster is busy or waits; the spine stops with the field's last tree. -/
def execClusterTreeStop (cl : BitVec 13) (s : State) : Host.Outcome State Fault Refusal :=
  let n := cl.toNat
  let f := fieldOfCluster n
  if !(s.cluster n).tree || (s.usableCores n).any (fun c => (s.core c).df != .idle || (s.core c).waiting.isSome) then .next s
  else
    let s1 := s.setCluster n (fun e => { e with tree := false })
    .next (if (fieldClusters f).any (fun x => (s1.cluster x).tree) then s1 else s1.onField f (fun e => { e with spine := false }))

end Sys2Proof.Machine
end

