-- ==== Sys2Proof/Machine/Span.lean ====
section
/-! DEFINITION. Span links (R302 to R311, R313, R314, R396, R420): packets and flits as bytes, requests to space 5, what arrives over the cable,
and the states of a port. -/

namespace Sys2Proof.Machine

/-! ### Ports -/

/-- The registers of a port. -/
def spanOff (n : Nat) : Nat := ySL + 0x1000 + 0x80 * n
def State.spanCtrl (s : State) (n : Nat) : Word := s.yreg (spanOff n)
def portTerm (n : Nat) : Nat := n / 4

/-- A port's message comes from its terminus. -/
def State.portReport (s : State) (n kind detail addr : Nat) : State := s.terminusReport (portTerm n) 20 kind detail addr

/-- A port changes state: notified to the PF (R297). -/
def State.setPort (s : State) (n st : Nat) : State :=
  if (s.spanPort n).state.toNat = st then s else (s.onPort n (fun e => { e with state := BitVec.ofNat 3 st })).notify 0 3

/-- The port works: fitted, powered, its terminus not lost and the device not in the safe state (R392). -/
def State.portLive (s : State) (n : Nat) : Bool := s.portFitted n && s.bu.power && !(s.terminus (portTerm n)).lost && !s.fc.safe

/-- The session keys of a port are destroyed (R411). -/
def SpanPort.forget (e : SpanPort) : SpanPort :=
  { e with txKey := none, rxKey := none, rxOld := none, rekeying := false, rxctr := none, keyFail := false, recal := false }

/-- The port discards every packet it queues, has begun or holds (R305). -/
def SpanPort.clear (e : SpanPort) : SpanPort :=
  { e.forget with outq := [], txBuf := [], rxBuf := [], held := [], badAt := [], lastSeq := none, xoffRx := 0, xoffTx := 0 }

/-- The clock lead rides on the port. -/
def State.isLeadPort (s : State) (n : Nat) : Bool := s.leadPort == n && (s.yreg ySL).getLsbD 31

/-! ### Packets as bytes (R307, R308) -/

/-- A sub-line write has a head block. -/
def SpanPacket.hasHead (q : SpanPacket) : Bool := q.op == 1 && decide (q.sz.toNat ≤ 3)

/-- The header's first 16 bytes, which are the additional data. -/
def SpanPacket.aad (q : SpanPacket) : List Byte :=
  leBytes 8 q.pctr.toNat ++
    [q.op ++ BitVec.ofBool q.vc ++ BitVec.ofNat 3 q.lines.length, BitVec.ofBool q.kepoch ++ BitVec.ofBool q.sys ++ q.mode ++ q.rpid] ++
    leBytes 2 q.stxid.toNat ++ [q.sz.setWidth 8, q.aux, 0, 0]

/-- What is encrypted: the rest of the header, the head block and the lines. -/
def SpanPacket.body (q : SpanPacket) : List Byte :=
  leBytes 8 q.addr.toNat ++ leBytes 8 q.extra.toNat ++ (if q.hasHead then leBytes 64 q.head.toNat else []) ++ q.lines.flatMap Line.bytes

/-- The IV: the salt, then PCTR. -/
def spanIv (key : BitVec 288) (pctr : List Byte) : List Byte := leBytes 4 (key.extractLsb' 256 32).toNat ++ pctr

/-- The packet as it goes over the cable. -/
def SpanPacket.seal (key : BitVec 288) (q : SpanPacket) : List Byte :=
  let ks := roundKeys (key.extractLsb' 0 256)
  let iv := spanIv key (q.aad.take 8)
  let ct := gcmCrypt ks iv q.body
  q.aad ++ ct ++ gcmTag ks iv q.aad ct

/-- The length of the packet that begins with these bytes, none while they do not yet tell it, 0 where they begin no packet (R307). -/
def spanLength (bs : List Byte) : Option Nat :=
  if bs.length < 13 then none
  else
    let b8 := nth 0 bs 8
    let op := (b8 >>> 4).toNat
    let len := (b8 &&& 7#8).toNat
    if (op == 0 || op == 1 || op == 9 || op == 10 || op == 11) && len ≤ 4 then
      some (48 + (if op = 1 ∧ (nth 0 bs 12 &&& 7#8).toNat ≤ 3 then 64 else 0) + 64 * len)
    else some 0

/-- The packet whose header begins with `aad` and whose encrypted part is `b` in the clear. -/
def spanFields (aad b : List Byte) : SpanPacket :=
  let b8 := nth 0 aad 8
  let b9 := nth 0 aad 9
  let op := b8.extractLsb' 4 4
  let sz : BitVec 3 := (nth 0 aad 12).setWidth 3
  let head := op == 1 && decide (sz.toNat ≤ 3)
  { pctr := BitVec.ofNat 64 (leNat (aad.take 8)), op := op, vc := b8.getLsbD 3, kepoch := b9.getLsbD 7, sys := b9.getLsbD 6
    mode := b9.extractLsb' 4 2, rpid := b9.extractLsb' 0 4, stxid := BitVec.ofNat 16 (leNat ((aad.drop 10).take 2)), sz := sz
    aux := nth 0 aad 13, addr := BitVec.ofNat 64 (leNat (b.take 8)), extra := BitVec.ofNat 64 (leNat ((b.drop 8).take 8))
    head := if head then BitVec.ofNat 64 (leNat ((b.drop 16).take 8)) else 0
    lines := (List.range (b8 &&& 7#8).toNat).map (fun i => Line.ofBytes ((b.drop ((if head then 80 else 16) + 64 * i)).take 64)) }

/-- The packet that these bytes are under a key, none where the tag fails. -/
def spanOpen (key : BitVec 288) (bs : List Byte) : Option SpanPacket :=
  let aad := bs.take 16
  let n := bs.length - 32
  let ct := (bs.drop 16).take n
  let ks := roundKeys (key.extractLsb' 0 256)
  let iv := spanIv key (aad.take 8)
  if gcmTag ks iv aad ct != bs.drop (16 + n) then none else some (spanFields aad (gcmCrypt ks iv ct))

/-! ### Flits (R303) -/

/-- One byte of the CRC-32. -/
def crc32Byte (crc : BitVec 32) (b : Byte) : BitVec 32 :=
  (List.range 8).foldl (fun r _ => if r.getLsbD 31 then (r <<< 1) ^^^ 0x04C11DB7#32 else r <<< 1) (crc ^^^ ((b.setWidth 32) <<< 24))

/-- CRC-32, polynomial 0x04C11DB7; the initial value and the order of the bits are those of R114's CRC-16 (DESIGN CHOICE, log entry
112). -/
def crc32 (bs : List Byte) : BitVec 32 := bs.foldl crc32Byte 0xFFFFFFFF

/-- A flit's bytes 0 to 251. -/
def SpanFlit.bytes (f : SpanFlit) : List Byte :=
  leBytes 4 (f.type ++ f.xoff ++ f.fseq ++ f.first ++ (0 : Byte)).toNat ++ f.payload

/-- The flit as it goes over the cable. -/
def SpanFlit.word (f : SpanFlit) : BitVec 2048 := BitVec.ofNat 2048 (leNat (f.bytes ++ leBytes 4 (crc32 f.bytes).toNat))

/-- What a flit carries, and whether its CRC holds. -/
def spanFlitOf (w : BitVec 2048) : SpanFlit × Bool :=
  let bs := leBytes 256 w.toNat
  ({ type := w.extractLsb' 29 3, xoff := w.extractLsb' 27 2, fseq := w.extractLsb' 16 11, first := w.extractLsb' 8 8
     payload := (bs.drop 4).take 248 }, w.extractLsb' 2016 32 == crc32 (bs.take 252))

/-! ### Sending (R303, R304, R307, R308) -/

/-- The oldest packet that may start goes into bytes, under the next PCTR (R304, R308). -/
def SpanPort.startOne (e : SpanPort) : Option (List Byte × SpanPort) :=
  match e.txKey, takeFirst (fun (q : Pid × SpanPacket) => !e.xoffRx.getLsbD (if q.2.vc then 1 else 0)) e.outq with
  | some key, some (q, rest) =>
    if e.txctr.toNat < 2 ^ 47 then
      some (SpanPacket.seal (Config.spanKey key) { q.2 with pctr := e.txctr, kepoch := e.kepoch },
        { e with outq := rest, txctr := e.txctr + 1, rekeying := e.rekeying || e.txctr + 1 == 0x400000000000 })
    else none
  | _, _ => none

/-- Packets end to end until the bytes fill a flit. -/
def SpanPort.fillFlit : Nat → List Byte → SpanPort → List Byte × SpanPort
  | 0, bs, e => (bs, e)
  | n + 1, bs, e =>
    if 248 ≤ bs.length then (bs, e)
    else match e.startOne with
      | none => (bs, e)
      | some r => SpanPort.fillFlit n (bs ++ r.1) r.2

/-- The next flit of a port that is UP: data where it has any, else idle; XOFF rides in every flit. What follows the last packet of a flit
is bytes of ones, which begin no packet (DESIGN CHOICE, log entry 112). -/
def SpanPort.nextFlit (e : SpanPort) : SpanPort :=
  if e.state = 3 then
    let n := e.txBuf.length
    let r := SpanPort.fillFlit 6 e.txBuf { e with txBuf := [] }
    let f : SpanFlit := {
      type := if r.1.isEmpty then 0 else 1, xoff := e.xoffTx, fseq := e.txSeq
      first := if n < r.1.length ∧ n < 248 then BitVec.ofNat 8 n else 255
      payload := if r.1.isEmpty then List.replicate 248 0 else r.1.take 248 ++ List.replicate (248 - r.1.length) 0xFF }
    { r.2 with txBuf := r.1.drop 248, txSeq := e.txSeq + 1, sent := some f }
  else e

/-- A flit leaves a port; at a PCTR of 2^46 new keys are asked for (R308). -/
def State.sendFlit (s : State) (n : Nat) : State :=
  let e := s.spanPort n
  let s1 := s.onPort n SpanPort.nextFlit
  if e.nextFlit.rekeying && !e.rekeying then s1.portReport n 0xD4 n 0 else s1

/-- A packet is queued for a port; it takes its PCTR as it leaves (R308). -/
def State.queueSpan (s : State) (n : Nat) (pid : Pid) (q : SpanPacket) : State :=
  s.onPort n (fun e => { e with outq := e.outq ++ [(pid, q)] })

/-! ### Requests to space 5 (R306, R307, R310) -/

/-- Registers of a window. -/
def winOff (w : Nat) : Nat := ySL + 0x4000 + 0x20 * w

/-- A window refuses a request (R306). -/
def State.windowRefuses (s : State) (w : Nat) (p : Packet) : Bool :=
  let c := s.yreg (winOff w)
  !c.getLsbD 31 || (!p.sys && (field c 0 4 != p.pid.toNat || c.getLsbD 30)) ||
    (s.yreg (winOff w + 4)).toNat * 4096 ≤ p.off.toNat % 2 ^ 34 || 2 ≤ p.op.toNat ||
    (p.op == 0 && field c 28 2 != 0) || (s.spanPort (field c 8 5)).state != 3

/-- The next STXID that no transaction of the port uses. -/
def SpanPort.freeStx (e : SpanPort) : BitVec 16 :=
  (((List.range 1025).map (fun i => e.nextStx + BitVec.ofNat 16 i)).find? (fun x => !e.trans.any (fun t => t.1 == x))).getD e.nextStx

/-- A request passes the window to its port. -/
def spanSend (w : Nat) (p : Packet) (s : State) : State :=
  let c := s.yreg (winOff w)
  let n := field c 8 5
  let mode := field c 28 2
  let e := s.spanPort n
  let stx := e.freeStx
  let q : SpanPacket := {
    pctr := 0, op := p.op, vc := false, kepoch := false, sys := p.sys, mode := BitVec.ofNat 2 mode
    rpid := BitVec.ofNat 4 (field c 4 4), stxid := stx, aux := 0, sz := p.sz
    addr := pair64 (s.yreg (winOff w + 12)) (s.yreg (winOff w + 8)) + BitVec.ofNat 64 (p.off.toNat % 2 ^ 34)
    extra := if mode = 0 then 0 else pair64 (s.yreg (winOff w + 20)) (s.yreg (winOff w + 16))
    head := p.head.extractLsb' 0 64, lines := p.lines }
  (s.onPort n (fun e => { e with trans := e.trans ++ [(stx, p)], nextStx := stx + 1 })).queueSpan n p.pid q

/-- The port of a request's window tracks as many transactions as it can (R310). -/
def State.spanFull (s : State) (p : Packet) : Bool :=
  decide (1024 ≤ (s.spanPort (field (s.yreg (winOff (p.off.toNat / 2 ^ 34 % 64))) 8 5)).trans.length)

/-- SPAN_REQUEST: the oldest request to space 5 at a terminus is checked and queued for its port; it waits while the port tracks 1,024
transactions. Requests of a partition in reset are discarded (R367). R306 gives bits 43 to 40 of an offset no meaning in space 5; they are
ignored (DESIGN CHOICE, log entry 69). -/
def execSpanRequest (t : BitVec 3) (s : State) : Host.Outcome State Fault Refusal :=
  if !s.bu.power || (s.terminus t.toNat).lost then .next s
  else
    match takeFirst (fun (e : Nat × Packet) => e.1 == t.toNat && e.2.space == 5 && !e.2.isResponse) s.tin with
    | none => .next s
    | some (e, rest) =>
      let p := e.2
      let w := p.off.toNat / 2 ^ 34 % 64
      let n := field (s.yreg (winOff w)) 8 5
      let s1 : State := { s with tin := rest }
      if !p.omFormed then .next (s1.termErr p 0x0B)
      else if s.windowRefuses w p || s.fc.safe then
        .next (((s1.ycount (spanOff n + 0x38) 1).terminusReport t.toNat 20 0xD3 (n + 64 * w) (p.off.toNat % 2 ^ 40)).termErr p 0x0A)
      else if !p.sys && (s.partition p.pid).state == 3 then .next s1
      else if s.spanFull p then .next s
      else .next (spanSend w p s1)

/-! ### Requests and answers that arrive (R309, R310) -/

/-- An answer goes back over the link (R309). -/
def State.spanReply (s : State) (n : Nat) (r : SpanPacket) (op aux : Nat) (head : DWord) (lines : List Line) : State :=
  if (s.spanPort n).state = 3 ∨ (s.spanPort n).state = 4 then
    s.queueSpan n r.rpid { r with op := BitVec.ofNat 4 op, vc := true, mode := 0, aux := BitVec.ofNat 8 aux, head := head, lines := lines
                                  extra := 0 }
  else s

/-- A packet that a terminus injects for a request from the link (R309). A write of whole lines has no data in its head. -/
def spanPacketIn (t : Nat) (id : Byte) (r : SpanPacket) (op off sz len : Nat) (head : BitVec 384) (lines : List Line) : Packet :=
  { op := BitVec.ofNat 4 op, aux := 0, off := BitVec.ofNat 44 off, space := BitVec.ofNat 4 (addrSpace r.addr)
    src := tEndpoint t (addrOff40 r.addr / 256 % 48), dst := noEndpoint, sz := BitVec.ofNat 3 sz, len := BitVec.ofNat 3 len, txid := id
    rclass := 0, wpy := 0, sys := r.sys, pid := r.rpid, head := head, lines := lines, killed := false }

def State.sendFrom (s : State) (p : Packet) (a : DWord) : State := { s with inj := s.inj ++ [{ pkt := p, addr := some a, core := false }] }

/-- A request passes the inbound check (R309); while its partition is in reset it is refused (R367). -/
def State.inboundOk (s : State) (n : Nat) (r : SpanPacket) : Bool :=
  let c := s.spanCtrl n
  if r.sys then c.getLsbD 30 else c.getLsbD r.rpid.toNat && (s.partition r.rpid).state != 3

/-- A request from the link is served (R309). -/
def State.spanServe (s : State) (n : Nat) (id : Byte) (r : SpanPacket) : State :=
  let t := portTerm n
  if !s.inboundOk n r then
    ((s.ycount (spanOff n + 0x38) 1).portReport n 0xD3 (n + 32) (r.addr.toNat % 2 ^ 40)).spanReply n r 11 0x0A 0 []
  else if r.mode = 2 then
    let s1 := r.lines.foldl (fun (a : State) l =>
      a.sendFrom (spanPacketIn t 0 r 6 0 4 1 (headOf (field r.extra 0 12 + field r.extra 12 2 * 2 ^ 12 + 2 ^ 16)) [l])
        (r.addr &&& 0xFFFFFF0000000000#64)) s
    s1.spanReply n r 10 0 0 []
  else
    let p := spanPacketIn t id r r.op.toNat (pktOff r.addr) r.sz.toNat r.lines.length (if r.lines.isEmpty then headOf r.head.toNat else 0)
      r.lines
    (s.onPort n (fun e => { e with inbound := e.inbound ++ [{ id := id, pkt := r, left := 1, sig := r.mode == 1, bad := none }] })).sendFrom
      p r.addr

/-- An answer from the link reaches its requester (R310); a late one is discarded. The data of a sub-line read stands in the first bytes of
the one line that carries it (DESIGN CHOICE, log entry 112). -/
def State.spanAnswer (s : State) (n : Nat) (r : SpanPacket) : State :=
  match takeFirst (fun (x : BitVec 16 × Packet) => x.1 == r.stxid) (s.spanPort n).trans with
  | none => s
  | some (x, rest) =>
    let s1 := s.onPort n (fun e => { e with trans := rest })
    match r.op.toNat with
    | 9 =>
      if x.2.sz.toNat ≤ 3 then s1.termSend x.2 9 0 x.2.sz.toNat 0 (headOf (field (nth 0 r.lines 0) 0 64)) []
      else s1.termSend x.2 9 0 x.2.sz.toNat r.lines.length 0 r.lines
    | 10 => s1.termAck x.2
    | _ => s1.termErr x.2 r.aux.toNat

/-- Transaction numbers of a terminus that are free. -/
def State.spanIds (s : State) (t : Nat) : List Byte :=
  if t = 0 then s.freeIds
  else ((List.range 256).map (fun i => (BitVec.ofNat 8 i : Byte))).filter (fun i =>
    !(List.range 4).any (fun k => (s.spanPort (4 * t + k)).inbound.any (fun e => e.id == i)))

/-! ### Flits received (R303, R304, R305, R308) -/

/-- Flits that a packet takes up. -/
def SpanPacket.flits (q : SpanPacket) : Nat := (q.aad.length + q.body.length + 16 + 247) / 248

/-- XOFF for requests is set at 512 flits held and cleared at 256; answers are never held (R304). -/
def SpanPort.flow (e : SpanPort) : SpanPort :=
  let n := (e.held.map SpanPacket.flits).sum
  let off := decide (512 ≤ n) || (e.xoffTx.getLsbD 0 && decide (256 < n))
  { e with xoffTx := if e.recal || e.state == 4 then 3 else if off then 1 else 0 }

/-- Requests held are served, oldest first, while the terminus has a transaction number free. -/
def State.spanPump : Nat → Nat → State → State
  | 0, _, s => s
  | k + 1, n, s =>
    match (s.spanPort n).held, s.spanIds (portTerm n) with
    | q :: rest, id :: _ => State.spanPump k n ((s.onPort n (fun e => { e with held := rest })).spanServe n id q)
    | _, _ => s

/-- What a port holds moves on, and its XOFF follows. -/
def State.spanFlow (s : State) (n : Nat) : State := (State.spanPump (s.spanPort n).held.length n s).onPort n SpanPort.flow

/-- The key that KEPOCH selects for receiving, with the counter seen under it: the present one, or before the first packet under it the one
before (R308). -/
def SpanPort.keyOf (e : SpanPort) (epoch : Bool) : Option (Nat × Option DWord) :=
  if epoch = e.kepoch then e.rxKey.map (fun k => (k, e.rxctr)) else e.rxOld

/-- A whole packet of the port: authenticated, its PCTR compared, then held or matched (R308). -/
def State.spanTake (s : State) (n : Nat) (bs : List Byte) : State :=
  let e := s.spanPort n
  let epoch := (nth 0 bs 9).getLsbD 7
  let pctr : DWord := BitVec.ofNat 64 (leNat (bs.take 8))
  let fail := fun (old : Nat) => (s.ycount (spanOff n + 0x30) 1).portReport n 0xD2 (n + 32 * old) (pctr.toNat % 2 ^ 48)
  match (e.keyOf epoch).bind (fun k => (spanOpen (Config.spanKey k.1) bs).map (fun r => (k.2, r))) with
  | none => fail 0
  | some (seen, r) =>
    if (match seen with
        | some c => decide (pctr.toNat ≤ c.toNat)
        | none => false) then fail 1
    else
      let s1 := s.onPort n (fun e =>
        if epoch = e.kepoch then { e with rxctr := some pctr, rxOld := none }
        else { e with rxOld := e.rxOld.map (fun k => (k.1, some pctr)) })
      if r.vc then s1.spanAnswer n r else s1.onPort n (fun e => { e with held := e.held ++ [r] })

/-- The whole packets at the front of bytes that begin with a packet, and the bytes of one begun. -/
def cutPackets : Nat → List Byte → List (List Byte) × List Byte
  | 0, _ => ([], [])
  | n + 1, bs =>
    match spanLength bs with
    | none => ([], bs)
    | some len =>
      if len = 0 then ([], [])
      else if bs.length < len then ([], bs)
      else
        let r := cutPackets n (bs.drop len)
        (bs.take len :: r.1, r.2)

/-- The packets that a data flit completes, and the bytes of one begun: what stands before FIRST belongs to the packet begun in earlier
flits; where that was discarded, or was none, it is skipped (R303). -/
def SpanFlit.packets (f : SpanFlit) (begun : List Byte) : List (List Byte) × List Byte :=
  let none' := f.first == 255
  let b := begun ++ (if none' then f.payload else f.payload.take f.first.toNat)
  let r : List (List Byte) × List Byte :=
    if begun.isEmpty then ([], [])
    else match spanLength b with
      | none => ([], if none' then b else [])
      | some len => if len = 0 then ([], []) else if len ≤ b.length then ([b.take len], []) else ([], if none' then b else [])
  if none' then r
  else
    let q := cutPackets 7 (f.payload.drop f.first.toNat)
    (r.1 ++ q.1, q.2)

/-- More uncorrectable codewords than UCLIM allows arrived within a millisecond, 50,000 cycles of the yard clock (R305). -/
def State.overUclim (s : State) (n : Nat) : Bool :=
  decide (field (s.spanCtrl n) 16 8 < ((s.spanPort n).badAt.filter (fun c => decide ((s.yc - c).toNat < 50000))).length)

/-- A port goes DOWN and back to TRAINING: it discards its packets and its keys are destroyed; a clock lead on it is lost (R305, R320,
R411). -/
def State.portDown (s : State) (n cause : Nat) : State :=
  let s1 := (s.setPort n 5).onPort n SpanPort.clear
  let s2 := (s1.portReport n 0xD0 (n + 32 * cause) 0).setPort n 1
  if s.isLeadPort n then s2.leadLost else s2

/-- A flit that fails is counted and reported, with every packet that has a byte in it discarded (R303). -/
def State.flitFails (s : State) (n : Nat) (f : SpanFlit) (unc : Bool) : State :=
  let s1 := (s.ycount (spanOff n + (if unc then 0x20 else 0x28)) 1).onPort n (fun e =>
    { e with
      rxBuf := [], lastSeq := e.lastSeq.map (· + 1)
      badAt := if unc then e.badAt.filter (fun c => decide ((s.yc - c).toNat < 50000)) ++ [s.yc] else e.badAt })
  let s2 := s1.portReport n 0xD1 (n + (if unc then 32 else 0)) f.fseq.toNat
  if s2.overUclim n then s2.portDown n 1 else s2

/-- A flit that passes: a gap in FSEQ counts lost flits; the peer's XOFF holds; data is taken in UP alone (R303, R304, R305). -/
def State.flitTaken (s : State) (n : Nat) (f : SpanFlit) : State :=
  let e := s.spanPort n
  let gap : BitVec 11 := match e.lastSeq with
    | some q => f.fseq - q - 1
    | none => 0
  let begun := if gap = 0 then e.rxBuf else []
  let data := f.type == 1 && e.state == 3
  let r := if data then f.packets begun else ([], begun)
  let s1 := s.onPort n (fun e => { e with
    lastSeq := some f.fseq, lost := e.lost + gap.toNat, rxBuf := r.2, xoffRx := if e.recal || e.state == 4 then 3 else f.xoff })
  (r.1.foldl (fun a b => a.spanTake n b) s1).spanFlow n

/-- SPAN_FLIT_RECEIVE (R303, R304, R305, R308, R309): a flit arrives, with what the decoder of its codeword found. A flit that fails is
discarded, counted and reported; the link never retransmits. -/
def execSpanFlitReceive (port : BitVec 5) (flit : BitVec 2048) (unc : Bool) (corrected : Nat) (s : State) :
    Host.Outcome State Fault Refusal :=
  let n := port.toNat
  let st := (s.spanPort n).state
  if !s.portLive n || (st != 2 && st != 3 && st != 4) then .next s
  else
    let f := spanFlitOf flit
    let s1 := (s.ycount (spanOff n + 0x10) 1).ycount (spanOff n + 0x18) corrected
    if unc || !f.2 then .next (s1.flitFails n f.1 unc) else .next (s1.flitTaken n f.1)

/-- An answer from the mesh to a request that a terminus injected for a port (R309). -/
def State.spanBack (s : State) (n : Nat) (e : SpanIn) (p : Packet) : State :=
  let drop := fun (a : State) => a.onPort n (fun q => { q with inbound := q.inbound.filter (fun x => x.id != e.id) })
  match p.op.toNat with
  | 9 => (drop s).spanReply n e.pkt 9 0 0 (if p.sz.toNat ≤ 3 then [(p.head.extractLsb' 0 64).setWidth 512] else p.lines)
  | 10 =>
    if e.sig then s.onPort n (fun q => { q with inbound := q.inbound.map (fun x => if x.id = e.id then { x with left := 0 } else x) })
    else (drop s).spanReply n e.pkt 10 0 0 []
  | _ => (drop s).spanReply n e.pkt 11 p.aux.toNat 0 []

/-- SPAN_SIGNAL_SEND (R309): once every line of a MODE 1 write is acknowledged, the SIG adds their number to the counter at EXTRA and
ACK returns. -/
def execSpanSignalSend (port : BitVec 5) (s : State) : Host.Outcome State Fault Refusal :=
  let n := port.toNat
  if !s.portLive n then .next s
  else
    match takeFirst (fun (e : SpanIn) => e.sig && e.left == 0) (s.spanPort n).inbound with
    | none => .next s
    | some (e, rest) =>
      let s1 := s.onPort n (fun q => { q with inbound := rest })
      let r : SpanPacket := { e.pkt with addr := e.pkt.extra }
      let count := max 1 e.pkt.lines.length
      .next ((s1.sendFrom (spanPacketIn (portTerm n) 0 r 4 (pktOff r.addr) 3 0 (headOf count) []) r.addr).spanReply n e.pkt 10 0 0 [])

/-- SPAN_TRANSACTION_TIMEOUT (R310). -/
def execSpanTransactionTimeout (port : BitVec 5) (stxid : BitVec 16) (s : State) : Host.Outcome State Fault Refusal :=
  let n := port.toNat
  match takeFirst (fun (x : BitVec 16 × Packet) => x.1 == stxid) (s.spanPort n).trans with
  | none => .next s
  | some (_, rest) =>
    .next (((s.onPort n (fun e => { e with trans := rest })).ycount (spanOff n + 0x48) 1).portReport n 0xD5 n stxid.toNat)

/-! ### States of a port (R305, R396, R420) -/

/-- SPAN_PORT_DOWN (R305): a lane has lost lock, or uncorrectable codewords exceed UCLIM. -/
def execSpanPortDown (port : BitVec 5) (lockLost : Bool) (s : State) : Host.Outcome State Fault Refusal :=
  let n := port.toNat
  let st := (s.spanPort n).state.toNat
  if s.portLive n && decide (2 ≤ st) && decide (st ≤ 4) && (lockLost || s.overUclim n) then
    .next (s.portDown n (if lockLost then 0 else 1))
  else .next s

/-- SPAN_TRAINING_COMPLETE (R304, R305). -/
def execSpanTrainingComplete (port : BitVec 5) (rtt : BitVec 12) (s : State) : Host.Outcome State Fault Refusal :=
  let n := port.toNat
  if s.portLive n && (s.spanPort n).state == 1 then
    .next ((s.onPort n (fun e => { e with rtt := rtt, keyFail := false })).setPort n 2)
  else .next s

/-- The digest of the peer's identity is permitted (R420). -/
def State.peerOk (s : State) (d : BitVec 384) : Bool :=
  (s.yreg (ySEC + 0x100)).getLsbD 0 ||
    (List.range 64).any (fun i => (s.yreg (ySEC + 0x1030 + 0x40 * i)).getLsbD 31 &&
      (List.range 12).all (fun w => s.yreg (ySEC + 0x1000 + 0x40 * i + 4 * w) == d.extractLsb' (32 * w) 32))

/-- KEYING_COMPLETE (R412, R420): the peers' reports are checked and session keys agreed; the port is UP. A failed check leaves it in
KEYING until the retry. -/
def execKeyingComplete (port : BitVec 5) (sigOk rootOk flagsOk closed : Bool) (peerDigest : BitVec 384) (s : State) :
    Host.Outcome State Fault Refusal :=
  let n := port.toNat
  let e := s.spanPort n
  if !s.portLive n || e.state != 2 || e.keyFail then .next s
  else if (s.terminus (portTerm n)).rngHalted || s.sec.debug != 0 then .next (s.onPort n (fun e => { e with keyFail := true }))
  else if !(sigOk && rootOk && flagsOk && closed && s.peerOk peerDigest) then
    .next (((s.onPort n (fun e => { e with keyFail := true })).ycount (ySEC + 0x120) 1).yardReport 23 0xA5 (3 + 256 * n + 2 ^ 13) 0)
  else
    let s1 : State := { s with freeCtr := s.freeCtr + 2 }
    let s2 := s1.onPort n (fun e => { e with
      txKey := some s.freeCtr, rxKey := some (s.freeCtr + 1), rxOld := none, txctr := 0, rxctr := none, rekeying := false })
    .next ((s2.ycount (ySEC + 0x118) 1).setPort n 3)

/-- KEYING_RETRY (R412, R420): 100 ms after a failure the port tries again. -/
def execKeyingRetry (port : BitVec 5) (s : State) : Host.Outcome State Fault Refusal :=
  let n := port.toNat
  if s.portLive n && (s.spanPort n).state == 2 then .next (s.onPort n (fun e => { e with keyFail := false })) else .next s

/-- SPAN_REKEY (R308): new keys are agreed, and KEPOCH flips; the counters of both directions start again (DEDUCED, log entry 34). The key
before is accepted until the first packet under the new one. -/
def execSpanRekey (port : BitVec 5) (s : State) : Host.Outcome State Fault Refusal :=
  let n := port.toNat
  let e := s.spanPort n
  if s.portLive n && e.state == 3 && e.rekeying && !(s.terminus (portTerm n)).rngHalted then
    let s1 : State := { s with freeCtr := s.freeCtr + 2 }
    .next ((s1.onPort n (fun e => { e with
      kepoch := !e.kepoch, txKey := some s.freeCtr, rxKey := some (s.freeCtr + 1), rxOld := e.rxKey.map (fun k => (k, e.rxctr))
      txctr := 0, rxctr := none, rekeying := false })).ycount (ySEC + 0x118) 1)
  else .next s

/-- SPAN_PORT_EN_WRITE (R305, R313, R320): by Ryist; the write lands whole, and EN takes the port to DISABLED, or from it to
TRAINING. -/
def spanPortEnWrite (o : Origin) (n : Nat) (v : Word) (s : State) : State :=
  if !isSystem o then s.answer (some 0x09)
  else if !s.portFitted n then s.answer none
  else
    let s1 := s.setYreg (spanOff n) (v &&& 0xC0FFFFFF#32)
    let st := (s.spanPort n).state
    if !v.getLsbD 31 then
      let s2 := (s1.setPort n 0).onPort n SpanPort.clear
      (if s.isLeadPort n && st != 0 then s2.leadLost else s2).answer none
    else (if st = 0 then s1.setPort n 1 else s1).answer none

def execSpanPortEnWrite (o : Origin) (port : BitVec 5) (v : Word) (s : State) : Host.Outcome State Fault Refusal :=
  if s.bu.power then .next (yardWrite o (spanOff port.toNat) s (spanPortEnWrite o port.toNat v)) else .next s

/-! ### Recalibration (R322, R396) -/

/-- SPAN_RECALIBRATION: a port in UP, when it is due or asked for, sends RECAL and both ends set XOFF; one port of a terminus at a
time. The reference leaves a port that carries the clock lead first. -/
def execSpanRecalibration (port : BitVec 5) (s : State) : Host.Outcome State Fault Refusal :=
  let n := port.toNat
  let e := s.spanPort n
  let due := e.recalReq || field (s.yreg (yFC + 0x1C)) 0 16 != 0
  let other := (List.range 4).any (fun k =>
    let q := s.spanPort (4 * portTerm n + k)
    4 * portTerm n + k != n && (q.recal || q.state == 4))
  if !s.portLive n || e.state != 3 || e.recal || !due || other then .next s
  else if s.isLeadPort n && (s.ck.lead || s.ck.switching.isSome) then
    .next ((s.onCk (fun c => { c with leadLock := false, lossInForce := true, retPend := false })).settleRef)
  else
    .next (s.onPort n (fun e => { e with recal := true, xoffTx := 3, xoffRx := 3 }))

/-- A write of FC_RREQ (R396, R399): by the PF or Ryist. -/
def fcRreqWrite (o : Origin) (n : Nat) (s : State) : State :=
  if !pfOrRyist o then s.answer (some 0x09)
  else if s.portFitted n then (s.onPort n (fun e => { e with recalReq := true })).answer none
  else s.answer none

def execFcRreqWrite (o : Origin) (port : BitVec 5) (s : State) : Host.Outcome State Fault Refusal :=
  if s.bu.power then .next (yardWrite o (yFC + 0x20) s (fcRreqWrite o port.toNat)) else .next s

/-- RECAL_ACK (R396): the lanes retrain. -/
def execRecalAck (port : BitVec 5) (s : State) : Host.Outcome State Fault Refusal :=
  let n := port.toNat
  if s.portLive n && (s.spanPort n).state == 3 && (s.spanPort n).recal then .next (s.setPort n 4) else .next s

/-- RECAL_END (R396): 12 µs later the lanes resume. -/
def execRecalEnd (port : BitVec 5) (s : State) : Host.Outcome State Fault Refusal :=
  let n := port.toNat
  if s.portLive n && (s.spanPort n).state == 4 then
    let s1 := s.onPort n (fun e => { e with recal := false, recalReq := false, xoffTx := 0, xoffRx := 0, lastSeq := none })
    .next ((s1.setPort n 3).portReport n 0xEC n 0)
  else .next s

end Sys2Proof.Machine
end

