-- ==== Sys2Proof/Machine/Power.lean ====
section
/-! DEFINITION. Power and heat: regulators and shorts, measurement and estimation, the budget and the limiter, the thermal stages (R326
to R346). -/

namespace Sys2Proof.Machine

/-! ### Loss of a cluster's compute power (R31, R328, R329, R341) -/

/-- A core whose compute power is gone: in reset, and of its registers only SP_, PWC_ and FLT_ keep their contents; its weights scan is
disabled (R31, R341, R379). -/
def Core.powerLost (k : Core) : Core :=
  let r := k.wiped
  let keep := fun (e : Nat × Word) => (0x2000 ≤ e.1 && e.1 < 0x3000) || 0xA000 ≤ e.1
  { r with regs := SMap.set (r.regs.filter keep) rFLT_WCTL 0, hiLatch := r.hiLatch.filter keep }

/-- The compute power of a core goes: a section on it aborts with cause 6 (R341, R365). -/
def K.powerLost (k : K) : K :=
  let k1 := k.coreReset
  { k1 with core := k1.core.powerLost }

/-- Packets that cores of a cluster have not taken yet meet the state their position now has (R33, R342). -/
def State.redeliver (s : State) (cs : List CoreId) : State :=
  let mine := s.inbox.filter (fun (e : CoreId × Packet) => cs.contains e.1)
  mine.foldl (fun a e =>
    let q := a.phys e.1
    if a.posOf e.1 == .isolated then a.refuseAt q.1 q.2 e.2 0x02 else a.handOver e.1 q.1 q.2 e.2)
    { s with inbox := s.inbox.filter (fun (e : CoreId × Packet) => !cs.contains e.1) }

/-- A cluster's power switch opens for good; one switched off for heat has its switch open already (R329, R330). -/
def State.openSwitch (s : State) (cl : Nat) : State :=
  let cs := s.usableCores cl
  let s1 := (cs.filter s.alive).foldl (fun a c => onCore c a K.powerLost) s
  s1.setCluster cl (fun e =>
    { e with fuseOpen := true, heat := 0, shift := 0, tree := false, testing := none, testWait := false, testScrub := false })

/-- A switch of the cluster can still open. -/
def State.closedSwitch (s : State) (cl : Nat) : Bool :=
  !(s.cluster cl).fuseOpen && !s.fp.isolated.contains cl && s.liveField (fieldOfCluster cl)

/-- RAIL_SHORT (R329, R330): the fuse trips and the cluster is isolated. -/
def execRailShort (cl : BitVec 13) (peak : BitVec 16) (s : State) : Host.Outcome State Fault Refusal :=
  let n := cl.toNat
  if !s.bu.power || !s.closedSwitch n || 2 ≤ (s.cluster n).heat.toNat then .next s
  else
    let cs := s.usableCores n
    .next (published s ((((s.openSwitch n).loseCores 4 cs.contains [n]).clusterReport n 12 0x88 n peak.toNat).redeliver cs))

/-- FIELD_REGULATOR_FAILURE (R328): every cluster of the field is isolated. -/
def execFieldRegulatorFailure (f : BitVec 7) (s : State) : Host.Outcome State Fault Refusal :=
  let n := f.toNat
  let cls := (fieldClusters n).filter s.closedSwitch
  if !s.bu.power || 81 ≤ n || cls.isEmpty then .next s
  else
    let hit := fun (c : CoreId) => cls.contains (s.clusterNo c)
    let s1 := ((cls.foldl (fun a cl => a.openSwitch cl) s).loseCores 4 hit cls).fieldReport n 22 0x89 n 0
    .next (published s (s1.redeliver (cls.flatMap s.usableCores)))

/-- ROW_REGULATOR_FAILURE (R328): the nine fields of the row die; their PLLs stand on the yard rail (R326). -/
def execRowRegulatorFailure (row : BitVec 4) (s : State) : Host.Outcome State Fault Refusal :=
  let r := row.toNat
  let fs := (List.range 9).map (fun i => 9 * r + i)
  if !s.bu.power || 9 ≤ r || fs.all s.fieldDead then .next s
  else .next (published s ((fs.foldl (fun a f => a.fieldDies f false) s).yardReport 22 0x95 r 0))

/-! ### The estimate of a cluster (R331, R335) -/

/-- Events of the estimator: counter and weight in 0.01 pJ at 0.75 V (R331). The first five are matrix issue cycles. -/
def estWeights : List (Nat × Nat) :=
  [(rPWC_MXC, 4875), (rPWC_MXC + 0x08, 5625), (rPWC_MXC + 0x10, 6667), (rPWC_MXC + 0x18, 3500), (rPWC_MXC + 0x20, 3833),
   (rPWC_VEC, 2800), (rPWC_VFMA, 4000), (rPWC_VLONG, 8400), (rPWC_MVL, 900), (rPWC_DGB, 5760), (rPWC_SEQ, 210)]

/-- The counters an estimate reads: those of the weights, and the cycles MX_LIMIT withheld. -/
def Core.pwCounters (k : Core) : List Nat :=
  estWeights.map (fun w => (pairAt k.regs w.1).toNat) ++ [(pairAt k.regs rMX_THROTTLE).toNat]

/-- What each has counted since the last estimate; a counter that a reset has cleared since counts from 0. -/
def Core.pwDelta (k : Core) : List Nat :=
  (List.range 12).map (fun i =>
    let v := nth 0 k.pwCounters i
    let o := nth 0 k.pwSnap i
    if v < o then v else v - o)

/-- Weighted sum of the first `n` events. -/
def weighted (d : List Nat) (n : Nat) : Nat := ((estWeights.zip d).take n |>.map (fun e => e.1.2 * e.2)).sum

/-- Energy scaled by the square of a field voltage in mV (R327, R331). -/
def scaleV (mv e : Nat) : Nat := e * mv * mv / 562500

/-- The core's raw share joins PWC_EST, and the counters start again (R338). -/
def Core.estimated (k : Core) (mv static : Nat) : Core :=
  let e := k.estRem + scaleV mv (weighted k.pwDelta 11) + static
  { k.count rPWC_EST (e / 100000) with estRem := e % 100000, pwSnap := k.pwCounters }

/-- Powered physical cores of a cluster: those of its usable positions while its switch is closed (R28, R31, R341). -/
def State.poweredCores (s : State) (cl : Nat) : Nat :=
  if (s.cluster cl).fuseOpen || 2 ≤ (s.cluster cl).heat.toNat then 0 else (s.usableCores cl).length

/-- One core's share of its field's static energy over 4 µs, in 0.01 pJ: 0.1 W over 4 µs are 400,000 pJ (R331). -/
def State.staticShare (s : State) (f : Nat) : Nat :=
  let w := (s.fieldPower f).staticDw
  if w = 0 then 0 else w * 40000000 / ((fieldClusters f).map s.poweredCores).sum

/-- A cluster is one whose cores hold no budget: a helper or a standby cluster (R334). -/
def State.noBudget (s : State) (cl : Nat) : Bool :=
  s.helpers.contains cl || pidNos.any (fun p => (s.partition p).standby.contains cl)

/-- A core holds a budget: a section is configured on it (R334). -/
def Core.holder (k : Core) : Bool := k.df != .idle

/-- A list turned to start at a place. -/
def turned {α : Type} (l : List α) (n : Nat) : List α := l.drop n ++ l.take n

/-- A of R335: issue cycles per 64 cc for the cluster, from its budget and its mean issue energy per issue cycle. -/
def Cluster.allowance (e : Cluster) : Nat :=
  let b := e.baseUw / 2 ^ e.shift
  if e.lastCyc = 0 ∨ e.lastE = 0 then 64 * b / (24 * 6667) else 64 * b * e.lastCyc / (24 * e.lastE)

/-- N of the i-th of k holders (R335). -/
def limitOf (a k i : Nat) : Nat := min 64 (max 1 (a / k + (if i < a % k then 1 else 0)))

/-- The cluster's controller sets MX_LIMIT.N of its holders that are not lending, in the order (py, px) from the rotation point (R335). -/
def State.limitCluster (s : State) (cl : Nat) : State :=
  let e := s.cluster cl
  let hs := if s.noBudget cl then [] else
    (s.usableCores cl).filter (fun c => (s.core c).holder && !(s.core c).lent && s.alive c)
  let k := hs.length
  let a := e.allowance
  let order := turned hs (e.rotation % k)
  let ns := (List.range k).map (limitOf a k)
  let s1 := (order.zip ns).foldl (fun (x : State) p =>
    onCore p.1 x (fun q => { q with core := q.core.setReg rMX_LIMIT (BitVec.ofNat 32 p.2) })) s
  s1.setCluster cl (fun e => { e with allow := a, holders := k, nmax := if k = 0 then e.nmax else ns.foldl max 0 })

/-- A job holds the cluster until its scrub has ended, also one that it has left (R254). -/
def State.holdsPower (s : State) (j : Job) (cl : Nat) : Bool :=
  (j.phase == .running && j.clusters.contains cl) || (j.held.contains cl && ((s.cluster cl).scrubPend || (s.cluster cl).scrubbing))

/-- Energy of a cluster goes to the jobs that hold it: calibrated where the partition is metered (R338). -/
def State.addEnergy (s : State) (cl metered raw : Nat) : State :=
  let conv := (s.fieldPower (fieldOfCluster cl)).conv
  { s with jobs := s.jobs.map (fun j =>
      if s.holdsPower j cl then
        { j with energyPj := j.energyPj + (if (s.pcfg j.p).getLsbD 28 then metered else raw), converged := j.converged && conv }
      else j) }

/-- The estimate of one cluster, and the limits that follow from it (R331, R335). -/
def State.estimate (s : State) (cl : Nat) : State :=
  let f := fieldOfCluster cl
  let mv := s.fvolt f
  let share := s.staticShare f
  let cs := (s.usableCores cl).filter (fun c => s.cores.any (fun (e : Nat × Core) => e.1 == coreKey c) || share != 0)
  let ds := cs.map (fun c => (s.core c).pwDelta)
  let static := share * s.poweredCores cl
  let dynRaw := scaleV mv ((ds.map (fun d => weighted d 11)).sum)
  let k := (s.fieldPower f).factor
  let dyn := k * dynRaw / 65536
  let mat := k * scaleV mv ((ds.map (fun d => weighted d 5)).sum) / 65536
  let cyc := (ds.map (fun d => (d.take 5).sum)).sum
  let held := (ds.map (fun d => nth 0 d 11)).sum
  let s1 := onCores cs s (fun q => { q with core := q.core.estimated mv (if s.alive q.c then share else 0) })
  let s2 := s1.setCluster cl (fun e =>
    { e with
      est := e.est + (dyn + static) / 100, dyn := e.dyn + dyn / 100, issue := e.issue + mat / 100
      demand := e.demand + (mat + (if cyc = 0 then held * 6667 else held * mat / cyc)) / 100
      lastE := mat, lastCyc := cyc, rotation := (e.rotation + 1) % 64 })
  (s2.addEnergy cl ((dyn + static) / 100) ((dynRaw + static) / 100)).limitCluster cl

/-- CLUSTER_ESTIMATE: every 9,600 cc (R331, R335). -/
def execClusterEstimate (cl : BitVec 13) (s : State) : Host.Outcome State Fault Refusal :=
  let n := cl.toNat
  if s.bu.phase ≠ 10 ∨ 5184 ≤ n ∨ !s.closedSwitch n then .next s else .next (s.estimate n)

/-! ### Measurement, calibration and budgets (R331 to R337) -/

/-- One field's factor after an interval: M, Ê and D in pJ (R332); in units of 2^-16, rounded toward zero. -/
def newFactor (k m e d : Nat) : Nat :=
  if d = 0 ∨ 20 * d < m then k
  else clampNat 0x8000 0x20000 ((k : Int) + Int.tdiv ((k : Int) * ((m : Int) - (e : Int))) (16 * (d : Int))).toNat

/-- The distance of two energies. -/
def apart (m e : Nat) : Nat := (m - e) + (e - m)

/-- A field's reading (R331, R332): its power is published, its factor updated, and a divergence reported when it has lasted 64
intervals. -/
def State.measureField (s : State) (r : FieldReading) : State :=
  let f := r.field.toNat
  if 81 ≤ f || !s.liveField f then s
  else
    let m := r.measured * 1000
    let e := ((fieldClusters f).map (fun cl => (s.cluster cl).est)).sum
    let d := ((fieldClusters f).map (fun cl => (s.cluster cl).dyn)).sum
    let s1 := s.setYreg (yPW + 0x1000 + 0x10 * f) (BitVec.ofNat 32 (min 65535 (r.measured / 10000)))
    let s2 := s1.onField f (fun x =>
      { x with
        staticDw := r.static, factor := newFactor x.factor m e d
        okRun := if 100 * apart m e ≤ m then min 64 (x.okRun + 1) else 0
        badRun := if m < 10 * apart m e then min 64 (x.badRun + 1) else 0 })
    if (s2.fieldPower f).bad && !(s.fieldPower f).bad then s2.fieldReport f 22 0x94 f (s2.fieldPower f).factor else s2

/-- A row regulator's reading: published, and each cluster's share given to the jobs that hold it (R331, R338). -/
def State.measureRow (s : State) (r nj : Nat) : State :=
  let s1 := s.setYreg (yPW + 0x2000 + 4 * r) (BitVec.ofNat 32 (min 65535 (nj / 10000)))
  { s1 with jobs := s1.jobs.map (fun j =>
      { j with energyPj := j.energyPj +
          (j.held.eraseDups.filter (fun cl => cl / 576 == r && s.holdsPower j cl)).length * (nj * 1000 / 576) }) }

/-- The cores that hold a budget, each with its cluster (R334). -/
def State.holderCores (s : State) : List (Nat × CoreId) :=
  s.cores.filterMap (fun (e : Nat × Core) =>
    let c := coreAt (e.1 % 558) (e.1 / 558)
    if e.2.holder && s.alive c && !s.noBudget (s.clusterNo c) then some (s.clusterNo c, c) else none)

/-- The level L of R334 for clusters given as (want, holders): those below it are taken whole. -/
def waterLevel : Nat → Nat → List (Nat × Nat) → Nat
  | 0, _, _ => 0
  | fuel + 1, pool, l =>
    let lev := pool / (l.map (·.2)).sum
    let low := l.filter (fun e => decide (e.1 ≤ lev * e.2))
    let high := l.filter (fun e => decide (lev * e.2 < e.1))
    if low.isEmpty || high.isEmpty then lev else waterLevel fuel (pool - (low.map (·.1)).sum) high

/-- A cluster's part of the pool before the thermal shift, in µW (R334): `e` its quarter share, `w` its want, `sum` the sum of all
wants and `lev` the level L. -/
def budgetOf (pool H sum lev h e w : Nat) : Nat :=
  if sum ≤ pool then w + (pool - sum) * h / H else max e (min w (lev * h))

/-- Every cluster budget (R334). -/
def State.setBudgets (s : State) (pool : Nat) : State :=
  let hs := s.holderCores
  let H := hs.length
  let cls := (hs.map (·.1)).eraseDups
  let count := fun (cl : Nat) => (hs.filter (fun e => e.1 == cl)).length
  let quarter := fun (cl : Nat) => pool * count cl / (4 * H)
  let want := fun (cl : Nat) => max (quarter cl) ((s.cluster cl).demand * 105 / 10000)
  let sum := (cls.map want).sum
  let lev := waterLevel (cls.length + 1) pool (cls.map (fun cl => (want cl, count cl)))
  let s1 : State := { s with clusters := s.clusters.map (fun (e : Nat × Cluster) => (e.1, { e.2 with baseUw := 0 })) }
  cls.foldl (fun a cl =>
    (a.setCluster cl (fun e => { e with baseUw := budgetOf pool H sum lev (count cl) (quarter cl) (want cl) })).limitCluster cl) s1

/-- PW_CAPSUS, PW_CAPPK and PW_POOLCAP. -/
def State.capsus (s : State) : Nat := field (s.yreg (yPW + 4)) 0 16
def State.cappk (s : State) : Nat := field (s.yreg (yPW + 8)) 0 16
def State.poolcap (s : State) : Nat := field (s.yreg (yPW + 0xC)) 0 16

/-- The pool, in W (R333, R337): `input` and `issue` are those of the last interval. -/
def poolOf (cap capsus cappk input issue : Nat) : Nat :=
  let excess : Int := (input - capsus : Nat)
  let other : Int := (input : Int) - issue
  let cut : Int := if cappk < input then 2 * excess else 0
  (min (cap : Int) (capsus - other - excess - cut)).toNat

/-- The peak guard (R337): an interval above PW_CAPPK sets it, counts and is reported; ten intervals without excess clear it. -/
def State.peakGuard (s : State) (input : Nat) : State :=
  if s.cappk < input then
    let s1 := ((s.setYreg yPW (setField (s.yreg yPW) 30 1 1)).ycount (yPW + 0x38) 1).yardReport 22 0x8B 0 (min 65535 input)
    { s1 with pw := { s1.pw with guardRun := 0 } }
  else if (s.yreg yPW).getLsbD 30 then
    let run := if s.capsus < input then 0 else s.pw.guardRun + 1
    let s1 : State := { s with pw := { s.pw with guardRun := run } }
    if 10 ≤ run then s1.setYreg yPW (setField (s.yreg yPW) 30 1 0) else s1
  else s

/-- The readings of one interval, in W and mV, and per field and row. -/
def powerMeasurement (input vin : Nat) (fields : List FieldReading) (rows : List Nat) (s : State) : State :=
  let badV := vin < 45600 || 50400 < vin
  let s1 := ((s.setYreg (yPW + 0x14) (BitVec.ofNat 32 (min 65535 input))).setYreg (yPW + 0x1C) (BitVec.ofNat 32 (min 65535 vin)))
  let s2 := s1.setYreg yPW (setField (s1.yreg yPW) 29 1 badV.toNat)
  let s3 := if badV then s2.yardReport 22 0x8A 0 (min 65535 vin) else s2
  let mj := s3.pw.tenths + input
  let s4 : State := { s3.ycount (yPW + 0x30) (mj / 10) with pw := { s3.pw with tenths := mj % 10 } }
  let s5 := fields.foldl (fun a r => a.measureField r) s4
  let s6 := (List.range (min 9 rows.length)).foldl (fun a r => a.measureRow r (nth 0 rows r)) s5
  let issue := (s6.clusters.map (fun (e : Nat × Cluster) => e.2.issue)).sum / 100000000
  let pool := poolOf s6.poolcap s6.capsus s6.cappk input issue
  let s7 := (s6.setYreg (yPW + 0x18) (BitVec.ofNat 32 (min 65535 (input - issue)))).setYreg (yPW + 0x10) (BitVec.ofNat 32 pool)
  let s8 := (s7.peakGuard input).setBudgets (pool * 1000000)
  { s8 with clusters := s8.clusters.map (fun (e : Nat × Cluster) => (e.1, { e.2 with est := 0, dyn := 0, issue := 0, demand := 0 })) }

/-- POWER_MEASUREMENT: every 100 µs (R331 to R337). -/
def execPowerMeasurement (input vin : Nat) (fields : List FieldReading) (rows : List Nat) (s : State) :
    Host.Outcome State Fault Refusal :=
  if s.bu.phase ≠ 10 then .next s else .next (powerMeasurement input vin fields rows s)

/-! ### Heat (R339 to R343) -/

/-- Fields of PW_THR, in °C. -/
def State.thrT2 (s : State) : Int := field (s.yreg (yPW + 0x20)) 24 8
def State.thrT1 (s : State) : Int := field (s.yreg (yPW + 0x20)) 16 8
def State.thrTR (s : State) : Int := field (s.yreg (yPW + 0x20)) 8 8

/-- A cluster is switched off for heat (R341). -/
def State.heatOff (s : State) (cl : Nat) : State :=
  let cs := s.usableCores cl
  let s1 := (cs.filter s.alive).foldl (fun a c => onCore c a K.powerLost) s
  let s2 := s1.setCluster cl (fun e =>
    { e with tree := false, heat := 2, shift := 0, heatNoted := false, belowTr := 0, testing := none, testWait := false
             testScrub := false })
  ((s2.loseCores 6 cs.contains [cl]).clusterReport cl 12 0x91 cl (s2.cltemp cl).toNat).redeliver cs

/-- A sensor's reading is possible (R339). -/
def readable (t : Int) : Bool := decide (-40 ≤ t) && decide (t ≤ 150)

/-- The byte of a temperature: °C + 40. -/
def tempByte (t : Int) : Nat := min 255 (t + 40).toNat

/-- A base-wafer sensor is sampled (R339, R343): its failure, and its reaching T2 + 10 °C, are reported. -/
def State.sampleBase (s : State) (f : Nat) (t : Int) : State :=
  if 81 ≤ f || !s.liveField f then s
  else if !readable t then
    if (s.fieldPower f).baseBad then s
    else (s.onField f (fun x => { x with baseBad := true })).fieldReport f 13 0x93 0x1FFF f
  else
    let s1 := s.onField f (fun x => { x with baseT := t })
    if s.thrT2 + 10 ≤ t ∧ (s.fieldPower f).baseT < s.thrT2 + 10 then s1.fieldReport f 13 0x96 f (tempByte t) else s1

/-- A cluster's reading acts on its thermal stage (R340 to R343). -/
def State.heatStep (s : State) (cl : Nat) : State :=
  let e := s.cluster cl
  if e.fuseOpen then s
  else if s.thrT2 ≤ e.temp ∧ e.heat ≠ 2 then s.heatOff cl
  else if e.heat = 0 ∧ s.thrT1 ≤ e.temp then
    ((s.setCluster cl (fun e => { e with heat := 1, shift := 1 })).clusterReport cl 12 0x90 cl (s.cltemp cl).toNat).limitCluster cl
  else if e.heat = 2 then
    let n := if e.temp ≤ s.thrTR then e.belowTr + 1 else 0
    s.setCluster cl (fun e => { e with belowTr := min 200 n, heat := if 200 ≤ n then 3 else 2 })
  else s

/-- A cluster's sensor is sampled; a failed one gives way to its field's base-wafer sensor plus 10 °C (R339). -/
def State.sampleCluster (s : State) (cl : Nat) (t : Int) : State :=
  if 5184 ≤ cl || !s.liveField (fieldOfCluster cl) then s
  else
    let e := s.cluster cl
    let fails := !readable t && !e.sensorBad
    let bad := e.sensorBad || fails
    let v := if bad then (s.fieldPower (fieldOfCluster cl)).baseT + 10 else t
    let s1 := s.setCluster cl (fun e => { e with temp := v, sensorBad := bad })
    (if fails then s1.clusterReport cl 13 0x93 cl 0 else s1).heatStep cl

/-- THERMAL_SAMPLE: every 2,500 yc (R339). -/
def execThermalSample (clusters : List (BitVec 13 × Int)) (bases : List (BitVec 7 × Int)) (s : State) :
    Host.Outcome State Fault Refusal :=
  if s.bu.phase ≠ 10 then .next s
  else
    .next (published s
      (clusters.foldl (fun a e => a.sampleCluster e.1.toNat e.2) (bases.foldl (fun a e => a.sampleBase e.1.toNat e.2) s)))

/-- THERMAL_SHIFT_UPDATE: each 100 µs in stage 1 (R340). -/
def execThermalShiftUpdate (cl : BitVec 13) (s : State) : Host.Outcome State Fault Refusal :=
  let n := cl.toNat
  let e := s.cluster n
  if e.heat ≠ 1 then .next s
  else if s.thrT1 ≤ e.temp then .next ((s.setCluster n (fun e => { e with shift := min 6 (e.shift + 1) })).limitCluster n)
  else if e.temp < s.thrT1 - 3 then
    .next ((s.setCluster n (fun e => { e with shift := e.shift - 1, heat := if e.shift ≤ 1 then 0 else 1 })).limitCluster n)
  else .next s

/-- HEAT_RETURN (R343, R359): a returning cluster's microcode has been rewritten and its cores are IDLE. -/
def execHeatReturn (cl : BitVec 13) (s : State) : Host.Outcome State Fault Refusal :=
  let n := cl.toNat
  if (s.cluster n).heat ≠ 3 || s.fc.safe || !s.liveField (fieldOfCluster n) then .next s
  else
    let s1 := s.setCluster n (fun e => { e with heat := 0, tree := true, belowTr := 0 })
    let s2 := (s1.usableCores n).foldl (fun a c => (onCore c a K.coreResetEnd).settled c) s1
    .next (s2.clusterReport n 12 0x92 n (s.cltemp n).toNat)

/-! ### PW_CAPSUS and PW_THR (R333, R340, R346) -/

/-- A write of PW_CAPSUS: only by the PF; a value out of range takes the nearer limit. -/
def capsusWrite (o : Origin) (v : Word) (s : State) : State :=
  if o = .pf then (s.setYreg (yPW + 4) (BitVec.ofNat 32 (clampNat 10000 36000 (field v 0 16)))).answer none
  else s.answer (some 0x09)

def execPwCapsusWrite (o : Origin) (v : Word) (s : State) : Host.Outcome State Fault Refusal :=
  if !s.bu.power then .next s else .next (yardWrite o (yPW + 4) s (capsusWrite o v))

/-- Thresholds that may be written: TR < T1 < T2 ≤ 110 °C (R340). -/
def thrOk (v : Word) : Bool := field v 8 8 < field v 16 8 && field v 16 8 < field v 24 8 && field v 24 8 ≤ 110

/-- A write of PW_THR: by the PF or Ryist. -/
def thrWrite (o : Origin) (v : Word) (s : State) : State :=
  if pfOrRyist o && thrOk v then (s.setYreg (yPW + 0x20) (v &&& 0xFFFFFF00#32)).answer none else s.answer (some 0x09)

def execPwThrWrite (o : Origin) (v : Word) (s : State) : Host.Outcome State Fault Refusal :=
  if !s.bu.power then .next s else .next (yardWrite o (yPW + 0x20) s (thrWrite o v))

end Sys2Proof.Machine
end

