-- ==== Sys2Proof/Machine/Screens.lean ====
section
/-! DEFINITION. The screens of bring-up and what the repair analysis makes of the memories (R356, R357). -/

namespace Sys2Proof.Machine

/-- The key of a physical core's row, and its column within its field. -/
def rowPlace (e : BitVec 10 × BitVec 10) : Nat × Nat :=
  (64 * fieldOfPhys e.1.toNat e.2.toNat + e.2.toNat % 64, e.1.toNat % 64)

/-! ### The SRAM screen (step 4a) -/

/-- Supply points of the screen in mV: nine cold, three warm. -/
def sramPoints (warm : Bool) : List Nat := if warm then [700, 800, 900] else (List.range 9).map (fun i => 700 + 25 * i)

/-- The rows that fail a pattern at a point. -/
def failsAt (l : List SramFault) (mv : Nat) (p : SramPattern) : List RowRepair :=
  (l.filter (fun e => e.mv == mv && e.pattern == p && decide (e.mem.toNat < 9))).map (fun e =>
    .sram (rowPlace (e.px, e.py)) e.mem.toNat e.row)

/-- The fail bitmap: the rows that fail a pattern at any point. -/
def sramBitmap (warm : Bool) (l : List SramFault) : List RowRepair :=
  ((sramPoints warm).flatMap (fun mv => failsAt l mv .march ++ failsAt l mv .checkerboard)).eraseDups

/-- Spare rows of a core's memory: 4 of a bank, 2 of the instruction store. -/
def sramSpares (mem : Nat) : Nat := if mem < 8 then 4 else 2

/-- The memory of a core that a repaired row stands in. -/
def RowRepair.sramOf (e : RowRepair) : Option ((Nat × Nat) × Nat) :=
  match e with
  | .sram c m _ => some (c, m)
  | .dram _ _ _ => none

/-- A core's memory needs more spare rows than it has: for the rows replaced before and those of the bitmap. -/
def overSpares (rows : List RowRepair) (c : Nat × Nat) (m : Nat) : Bool :=
  decide (sramSpares m < (rows.filter (fun e => e.sramOf == some (c, m))).length)

/-- Cores that the SRAM screen fails. -/
def sramFailed (rows : List RowRepair) : List (Nat × Nat) :=
  ((rows.filterMap RowRepair.sramOf).filter (fun e => overSpares rows e.1 e.2)).map (·.1) |>.eraseDups

/-! ### The DRAM screen and the confirmation of stacks (steps 8 and 9) -/

/-- The screen runs the test: 48 pattern sets, and retention at 2, 4 and 8 times the nominal refresh interval. -/
def testRuns (t : DramTest) : Bool :=
  match t with
  | .pattern n => decide (n.toNat < 48)
  | .retention f => f == 2 || f == 4 || f == 8

/-- What the screen finds of a stack. -/
def dramFails (l : List DramFault) (t k : Nat) : List DramFault :=
  l.filter (fun e => e.terminus.toNat == t && e.stack.toNat == k && testRuns e.test)

/-- Spare rows that the failing rows of a stack take, with those that fail in their place when the tests are run again. -/
def sparesTaken (l : List DramFault) : Nat :=
  ((l.map (·.row)).eraseDups.map (fun r => 1 + ((l.filter (fun e => e.row == r)).map (·.again)).foldl max 0)).sum

/-- A stack is lost: a line fails retention at twice the interval, or its rows need more spares than it has. -/
def stackFails (kept : List RowRepair) (l : List DramFault) (t k : Nat) : Bool :=
  let f := dramFails l t k
  let before := kept.filter (fun e => match e with
    | .dram a b _ => a == t && b == k
    | .sram _ _ _ => false)
  !f.isEmpty && (f.any (fun e => e.test == .retention 2) || decide (Config.stackSpares < before.length + sparesTaken f))

/-- The rows of a stack replaced. -/
def stackRows (l : List DramFault) (t k : Nat) : List RowRepair :=
  (((dramFails l t k).map (·.row)).eraseDups).map (fun r => .dram t k r)

/-- The stacks of the module. -/
def stackNos : List (Nat × Nat) := (List.range 8).flatMap (fun t => (List.range 3).map (fun k => (t, k)))

/-- The stacks that the cold screen loses, and the rows it replaces in the others; a warm start runs no DRAM screen. -/
def stacksLost (warm : Bool) (kept : List RowRepair) (l : List DramFault) : List (Nat × Nat) :=
  if warm || l.isEmpty then [] else stackNos.filter (fun e => stackFails kept l e.1 e.2)
def stacksRepaired (warm : Bool) (kept : List RowRepair) (l : List DramFault) : List RowRepair :=
  if warm || l.isEmpty then [] else (stackNos.filter (fun e => !stackFails kept l e.1 e.2)).flatMap (fun e => stackRows l e.1 e.2)

end Sys2Proof.Machine
end

