-- ==== Sys2Proof/Machine/BringUp.lean ====
section
/-! DEFINITION. Bring-up, updates of images, device-wide settings, the reset of the whole device and the loss of power (R349 to R363,
R368, R369, R405 to R409, R428, R429). -/

namespace Sys2Proof.Machine

/-! ### Copies of records (R350, R351) -/

/-- The copy in force of two: the one with the higher sequence number among those that are valid, of equal ones copy 0. -/
def pickCopy (ok : List Bool) (seq : Nat → DWord) : Option Nat :=
  match nth true ok 0, nth true ok 1 with
  | false, false => none
  | true, false => some 0
  | false, true => some 1
  | true, true => if (seq 0).toNat < (seq 1).toNat then some 1 else some 0

def Nvm.last (n : Nvm) (rec : Nat) : Nat := n.lastRead.get 0 rec
def Nvm.read (n : Nvm) (rec copy : Nat) : Nvm := { n with lastRead := n.lastRead.set rec copy }

/-- A settings record is written to the copy that was not read last (R351). -/
def Nvm.saveSettings (n : Nvm) (r : SMap Word) : Nvm :=
  let old := n.last 1
  { n with settings := n.settings.set (1 - old) ((n.settings.get (0, []) old).1 + 1, r), lastRead := n.lastRead.set 1 (1 - old) }

def Nvm.dir (n : Nvm) (copy : Nat) : BootDir := n.dirs.get BootDir.reset copy
def Nvm.bank (n : Nvm) (b : Bool) : SMap Image := if b then n.bank1 else n.bank0
def Nvm.tc (n : Nvm) (b : Bool) : Image := if b then n.tc1 else n.tc0

/-! ### Images (R353, R358, R408, R409) -/

/-- The security version number of an image's version. -/
def svnOf (v : Word) : Nat := field v 24 8

/-- A rollback counter admits a version. -/
def State.svnOk (s : State) (kind : Nat) (v : Word) : Bool := decide (s.svn kind ≤ svnOf v) && decide (svnOf v ≤ 64)

def State.image (s : State) (b : Bool) (kind : Nat) : Image := (s.nvm.bank b).get Image.reset kind

/-- The check of one image before control passes to it; a failure is reported, and stops the image where SECBOOT is set (R407,
R409). -/
def State.checkImage (s : State) (okDigest : Bool) (b : Bool) (kind : Nat) : State × Bool :=
  let v := (s.image b kind).version
  if !okDigest then
    ((s.yardReport 23 0xA0 (kind + 16) 0).yardReport 27 0xE8 (kind + 8 * b.toNat) 0, !s.fuses.secboot)
  else if !s.svnOk kind v then
    ((s.yardReport 23 0xA1 kind (svnOf v + 256 * s.svn kind)).yardReport 27 0xE8 (kind + 8 * b.toNat) 0, !s.fuses.secboot)
  else (s, true)

/-- The four images of a bank. -/
def State.checkBank (s : State) (found : BringUpFindings) (b : Bool) : State × Bool :=
  [1, 2, 3, 4].foldl (fun (a : State × Bool) kind =>
    let r := a.1.checkImage (nth true found.imagesOk (4 * b.toNat + kind - 1)) b kind
    (r.1, a.2 && r.2)) (s, true)

/-- The directory copy the device boots from: the newest valid one, or the other where it names the other bank; none is RECOVERY
(R350, R358, R409). -/
def State.boot (s : State) (found : BringUpFindings) : State × Option Nat :=
  match pickCopy found.dirOk (fun c => (s.nvm.dir c).seq) with
  | none => (s, none)
  | some c =>
    let r := s.checkBank found (s.nvm.dir c).bank
    if r.2 then (r.1, some c)
    else if nth true found.dirOk (1 - c) && (s.nvm.dir (1 - c)).bank != (s.nvm.dir c).bank then
      let q := r.1.checkBank found (s.nvm.dir (1 - c)).bank
      (q.1, if q.2 then some (1 - c) else none)
    else (r.1, none)

/-! ### Device-wide settings (R361, R362) -/

def State.dsCur (s : State) (k : Nat) : Word := s.yreg (yBU + 0x60 + 4 * k)

/-- The five values in force for the next field. -/
def State.dsItems (s : State) : SMap Word := (List.range 5).map (fun k => (k, s.dsCur k))

/-- The yard writes the five items into a field's cores and routers; each takes effect under R361. -/
def State.writeField (s : State) (f : Nat) (ds : SMap Word) : State :=
  let s1 := (fieldPositions f).foldl (fun a q =>
    let r := a.router q.1 q.2
    let a1 := if r.reg rRT_TIMEOUT = ds.get 20 0 then a else a.setRouter q.1 q.2 (r.setReg rRT_TIMEOUT (ds.get 20 0))
    match logOf a.fp.skips q.1 q.2 with
    | none => a1.routeItem q.1 q.2 (ds.get 1 4)
    | some c => if posState a.fp c == .usable then a1 else a1.routeItem q.1 q.2 (ds.get 1 4)) s
  let cs := (fieldCores f).filter (fun c => posState s.fp c == .usable)
  let s2 := cs.foldl (fun a c =>
    let k := a.core c
    if k.reg rSP_SCRUB = ds.get 1024 1 then a else a.setCore c (k.setReg rSP_SCRUB (ds.get 1024 1))) s1
  let s3 : State := { s2 with bu := { s2.bu with fieldDs := s2.bu.fieldDs.set f ds } }
  cs.foldl (fun a c => a.takeItems c) s3

/-- A write to a register of the BU_ block that only the PF may write (R370). -/
def buWrite (o : Origin) (off : Nat) (s : State) (f : State → State) : State :=
  if s.bu.phase ≠ 10 ∧ s.bu.phase ≠ 12 then s
  else yardWrite o (yBU + off) s (fun s => if o = .pf then f s else s.answer (some 0x09))

/-- APPLY: a pass begins (R362). -/
def State.applyPass (s : State) : State :=
  if s.bu.mixed then s.answer (some 0x09)
  else
    let s1 := (List.range 5).foldl (fun a k => a.setYreg (yBU + 0x60 + 4 * k) (s.yreg (yBU + 0x40 + 4 * k))) s
    let live := (List.range 81).filter (fun f => !s.fp.dead.contains f)
    State.answer { s1 with bu := { s1.bu with mixed := true, front := 0, dspend := live } } none

def execApply (o : Origin) (s : State) : Host.Outcome State Fault Refusal :=
  if s.bu.phase ≠ 10 then .next s else .next (buWrite o 0x20 s State.applyPass)

/-- FIELD_SETTINGS_WRITE: the next field is written; the bits of dead fields clear at once (R362). -/
def execFieldSettingsWrite (s : State) : Host.Outcome State Fault Refusal :=
  let f := s.bu.front
  if s.bu.phase ≠ 10 || !s.bu.mixed || 81 ≤ f then .next s
  else
    let s1 : State := { s with bu := { s.bu with front := f + 1 } }
    if s.liveField f then .next ((s1.writeField f s.dsItems).passProgress f)
    else
      let rest := s.bu.dspend.filter (· != f)
      let s2 : State := { s1 with bu := { s1.bu with dspend := rest } }
      .next (if rest.isEmpty then ({ s2 with bu := { s2.bu with mixed := false } }).notify 0 5 else s2)

/-- The registers a settings record holds, by yard offset (R352). -/
def savedRegs : List Nat :=
  [yCK + 4, yPW + 4, yPW + 0x20] ++ (List.range 5).map (fun k => yBU + 0x60 + 4 * k) ++
    (List.range 16).map (fun p => yJB + 0x100 + 0x40 * p) ++
    (List.range 16).flatMap (fun p => (List.range 162).map (fun w => yJB + 0x1000 + 0x400 * p + 4 * w)) ++
    [ySL] ++ (List.range 32).map (fun n => ySL + 0x1000 + 0x80 * n)

/-- The record as the registers stand; a register at its reset value is left out. Of CK_REFCTL it holds AUTORET. -/
def State.settingsNow (s : State) : SMap Word :=
  savedRegs.filterMap (fun off =>
    let v := if off = yCK + 4 then s.yreg off &&& 0x40000000#32 else s.yreg off
    if v = yardReset off then none else some (off, v))

/-- SAVE (R362): the record is being written; refused during a pass. -/
def State.startSave (s : State) : State :=
  if s.bu.mixed then s.answer (some 0x09) else State.answer { s with bu := { s.bu with saving := some s.settingsNow } } none

def execSave (o : Origin) (s : State) : Host.Outcome State Fault Refusal :=
  if s.bu.phase ≠ 10 then .next s else .next (buWrite o 0x20 s State.startSave)

/-- A write of BU_DSCTL: both bits at once are refused, since a pass refuses SAVE and SAVE comes before no pass (DESIGN CHOICE, log entry
111). -/
def dsctlWrite (o : Origin) (v : Word) (s : State) : State :=
  if o ≠ .pf || s.bu.phase != 10 then s.answer (some 0x09)
  else match v.getLsbD 31, v.getLsbD 30 with
    | true, true => s.answer (some 0x09)
    | true, false => s.applyPass
    | false, true => s.startSave
    | false, false => s.answer none

/-- SETTINGS_RECORD_WRITTEN (R351, R362). -/
def execSettingsRecordWritten (s : State) : Host.Outcome State Fault Refusal :=
  match s.bu.saving with
  | none => .next s
  | some r => .next { s with nvm := s.nvm.saveSettings r, bu := { s.bu with saving := none } }

/-! ### Updates (R353) -/

def State.setUpd (s : State) (st reason : Nat) : State :=
  { s with bu := { s.bu with updState := BitVec.ofNat 4 st, updReason := BitVec.ofNat 8 reason } }

/-- STAGE: refused while reading, verifying, writing or committing. -/
def State.stageUpd (s : State) : State :=
  let st := s.bu.updState.toNat
  if st = 1 ∨ st = 2 ∨ st = 3 ∨ st = 5 then s.answer (some 0x09) else (s.setUpd 1 0).answer none

def execStage (o : Origin) (s : State) : Host.Outcome State Fault Refusal := .next (buWrite o 0x100 s State.stageUpd)

/-- The images of a package go into the bank that is not named in force (R353). -/
def State.writeImages (s : State) (kinds : List (BitVec 3 × Word × BitVec 384)) (raise : Byte) : State :=
  let n := kinds.foldl (fun (n : Nvm) e =>
    let i : Image := { version := e.2.1, digest := e.2.2, raise := raise.getLsbD e.1.toNat }
    let tcb := (n.dir (n.last 0)).tcbank
    if e.1 = 5 then (if tcb then { n with tc0 := i } else { n with tc1 := i })
    else if s.bu.bank then { n with bank0 := n.bank0.set e.1.toNat i }
    else { n with bank1 := n.bank1.set e.1.toNat i }) s.nvm
  { s with nvm := n, bu := { s.bu with updKinds := kinds, updRaise := raise } }

/-- The first image of a package that a rollback counter refuses. -/
def State.refusedImage (s : State) (kinds : List (BitVec 3 × Word × BitVec 384)) : Option (BitVec 3 × Word × BitVec 384) :=
  kinds.find? (fun e => !s.svnOk e.1.toNat e.2.1)

/-- UPDATE_STAGED (R353, R409): the package has been read, verified and written, or its handling has failed for the given reason. -/
def execUpdateStaged (result : Byte) (kinds : List (BitVec 3 × Word × BitVec 384)) (raise : Byte) (s : State) :
    Host.Outcome State Fault Refusal :=
  let st := s.bu.updState.toNat
  if !s.bu.power || st = 0 || 4 ≤ st then .next s
  else if 2 ^ 25 < (s.yreg (yBU + 0x110)).toNat then .next (s.setUpd 7 4)
  else if result = 2 then .next ((s.setUpd 7 2).yardReport 23 0xA0 8 0)
  else if result ≠ 0 ∧ result ≠ 3 then .next (s.setUpd 7 result.toNat)
  else
    match s.refusedImage kinds with
    | some e => .next ((s.setUpd 7 3).yardReport 23 0xA1 (e.1.toNat + 8) (svnOf e.2.1 + 256 * s.svn e.1.toNat))
    | none => .next (if result = 3 then s.setUpd 7 3 else (s.writeImages kinds raise).setUpd 4 0)

/-- COMMIT: accepted in state staged only; it takes 40 ms. -/
def State.commitUpd (s : State) : State :=
  if s.bu.updState ≠ 4 then s.answer (some 0x09)
  else State.answer { s.setUpd 5 0 with bu := { (s.setUpd 5 0).bu with committing := true, commitStart := s.yc } } none

def execCommit (o : Origin) (s : State) : Host.Outcome State Fault Refusal := .next (buWrite o 0x100 s State.commitUpd)

/-- CANCEL: accepted while reading, verifying, writing, staged or failed. -/
def State.cancelUpd (s : State) : State :=
  let st := s.bu.updState.toNat
  if st = 0 ∨ 5 ≤ st ∧ st ≠ 7 then s.answer (some 0x09)
  else State.answer { s.setUpd 0 0 with bu := { (s.setUpd 0 0).bu with updKinds := [], updRaise := 0 } } none

def execCancel (o : Origin) (s : State) : Host.Outcome State Fault Refusal := .next (buWrite o 0x100 s State.cancelUpd)

/-- A write of BU_UPDCTL, by its CMD; 0 is discarded (R353, R370). -/
def updctlWrite (o : Origin) (v : Word) (s : State) : State :=
  if o ≠ .pf || (s.bu.phase != 10 && s.bu.phase != 12) then s.answer (some 0x09)
  else match field v 0 2 with
    | 1 => s.stageUpd
    | 2 => s.commitUpd
    | 3 => s.cancelUpd
    | _ => s.answer none

/-- The directory a commit writes: it names the banks the staged images stand in. -/
def State.newDir (s : State) : BootDir :=
  let d := s.nvm.dir (s.nvm.last 0)
  let img := s.bu.updKinds.any (fun e => e.1 != 5)
  let tc := s.bu.updKinds.any (fun e => e.1 == 5)
  { seq := d.seq + 1, bank := if img then !s.bu.bank else d.bank, tcbank := if tc then !d.tcbank else d.tcbank }

/-! ### Whole-device reset (R355, R364, R368, R369) -/

/-- The device cleared for a bring-up: what persists is the fuses, the NVM and what the yard rail holds (R355, R368). The keys of outer
memory are gone, and its lines with them. -/
def State.cleared (s : State) (bu : BringUp) (debug : BitVec 2) : State :=
  { State.reset with
    pending := s.pending, freeCtr := s.freeCtr, resp := s.resp, cc := s.cc, nvm := s.nvm, fuses := s.fuses
    fp := { FloorPlan.reset with
      skips := s.fp.skips
      failed := s.fp.failed ++ s.fp.todo.filterMap (fun e => match e with
        | .hole px py => some (64 * fieldOfPhys px.toNat py.toNat + py.toNat % 64, px.toNat % 64)
        | _ => none) }
    om := { OuterMem.reset with nextKey := s.om.nextKey }
    bu := bu
    sec := { Security.reset with debug := debug } }

/-- What the yard keeps of bring-up over a whole-device reset. -/
def BringUp.kept (b : BringUp) (cause : BitVec 4) (warm : Bool) : BringUp :=
  { BringUp.reset with
    power := true, phase := 1, warm := warm, lastCause := cause, lastWarm := warm, scrAge := b.scrAge
    graveSeen := b.graveSeen, lostSeen := b.lostSeen, raiseDue := b.raiseDue, slotPins := b.slotPins }

/-- A whole-device reset may be warm (R355). -/
def State.warmOk (s : State) : Bool := decide (s.bu.scrAge.toNat < 86400) && !s.bu.graveSeen && !s.bu.lostSeen

/-- A whole-device reset: everything is lost and bring-up begins at step 1, which POWER_ON then runs. SERVICE is left only by a cold one
(R421). -/
def State.deviceReset (s : State) (cause : BitVec 4) (cold : Bool) : State :=
  let warm := !cold && s.warmOk
  s.cleared (s.bu.kept cause warm) (if warm then s.sec.debug else 0)

/-- A whole-device reset is asked for: refused while a grave fault is latched; it waits for the end of a commit (R353, R368, R369). -/
def State.askDeviceReset (s : State) (cause : BitVec 4) (cold : Bool) : State :=
  if s.fc.grave then s.answer (some 0x09)
  else if s.bu.committing then State.answer { s with bu := { s.bu with pendingReset := some (cause, cold) } } none
  else (s.deviceReset cause cold).answer none

/-- WHOLE_DEVICE_RESET: by BU_RSTCTL (cause 1, the PF's), or a fault reaction (cause 2). -/
def execWholeDeviceReset (cause : BitVec 4) (cold : Bool) (s : State) : Host.Outcome State Fault Refusal :=
  if !s.bu.power || s.bu.phase.toNat < 10 then .next s
  else if cause = 1 then .next (yardWrite .pf (yBU + 8) s (fun s => s.askDeviceReset cause cold))
  else if cause = 2 ∧ s.bu.phase = 10 then .next (s.askDeviceReset cause cold)
  else .next s

/-- A write of BU_RSTCTL (R364, R370): one without the key, or of level 0, is discarded. -/
def rstctlWrite (o : Origin) (v : Word) (s : State) : State :=
  if o ≠ .pf || (s.bu.phase != 10 && s.bu.phase != 12) then s.answer (some 0x09)
  else if field v 24 8 ≠ 0x5A then s.answer none
  else match field v 22 2 with
    | 1 => (if s.bu.phase = 10 ∧ field v 0 13 < 5184 then s.resetCluster (field v 0 13) else s).answer none
    | 2 => if s.bu.phase = 10 then partitionResetWrite o (BitVec.ofNat 4 (field v 0 4)) s else s.answer none
    | 3 => s.askDeviceReset 1 (v.getLsbD 21)
    | _ => s.answer none

/-- COMMIT_COMPLETE: both directory copies are written, the state is committed; the new test content is in force (R353). A reset that
waits begins, and in RECOVERY a cold one (R358). -/
def execCommitComplete (s : State) : Host.Outcome State Fault Refusal :=
  if !s.bu.committing || s.yc.toNat < s.bu.commitStart.toNat + 2000000 then .next s
  else
    let d := s.newDir
    let n : Nvm := { s.nvm with dirs := (s.nvm.dirs.set 0 d).set 1 d }
    let tc := s.bu.updKinds.any (fun e => e.1 == 5)
    let s1 : State := { s.setUpd 6 0 with
      nvm := n
      bu := { (s.setUpd 6 0).bu with
        committing := false, pendingReset := none, raiseDue := true
        active := if tc then s.bu.active.set 5 (n.tc d.tcbank) else s.bu.active } }
    if s.bu.phase = 12 then .next (s1.deviceReset 3 true)
    else
      match s.bu.pendingReset with
      | some (cause, cold) => .next (s1.deviceReset cause cold)
      | none => .next s1

/-! ### Power (R328, R428, R429) -/

/-- The regulators shut down: nothing but the fuses and the NVM is left. Of a commit under way one copy may stand (R353). -/
def State.powerGone (s : State) (enable : Bool) : State :=
  let n : Nvm := if s.bu.committing then { s.nvm with dirs := s.nvm.dirs.set (1 - s.nvm.last 0) s.newDir } else s.nvm
  let b : BringUp := { BringUp.reset with
    enable := enable, lastCause := s.bu.lastCause, lastWarm := s.bu.lastWarm, raiseDue := s.bu.raiseDue || s.bu.committing }
  let s1 := s.cleared b 0
  { s1 with nvm := n, fp := FloorPlan.reset, resp := .none }

/-- ENABLE_DEASSERT. -/
def execEnableDeassert (s : State) : Host.Outcome State Fault Refusal :=
  .next (if s.bu.power then s.powerGone false else { s with bu := { s.bu with enable := false } })

/-- POWER_LOSS. -/
def execPowerLoss (s : State) : Host.Outcome State Fault Refusal := .next (if s.bu.power then s.powerGone s.bu.enable else s)

/-! ### Bring-up (R354 to R359) -/

/-- The skips of a row after the repair analysis (R26): those of the fuses and of the repair record keep their slots; free slots go to
the lowest-numbered failed columns. -/
def repairRow (fuse rec failing : List Nat) : List (Nat × Bool) :=
  let base := ((fuse.map (fun c => (c, false))) ++ (rec.filter (fun c => !fuse.contains c)).map (fun c => (c, true))).take 2
  let more := ((List.range 64).filter (fun c => failing.contains c && !base.any (fun e => e.1 == c))).take (2 - base.length)
  let all := base ++ more.map (fun c => (c, true))
  (List.range 64).filterMap (fun c => all.find? (fun e => e.1 == c))

/-- Every failed physical core: of the fuses, of the repair record, found in service and those that fail this bring-up (R26, R357). -/
def State.failing (s : State) (rec : SMap (List (Nat × Bool))) (now : List (Nat × Nat)) : List (Nat × Nat) :=
  (s.fuses.skips.flatMap (fun (e : Nat × List Nat) => e.2.map (fun c => (e.1, c))) ++
    rec.flatMap (fun (e : Nat × List (Nat × Bool)) => e.2.map (fun c => (e.1, c.1))) ++ s.fp.failed ++ now).eraseDups

/-- The skips of every row. -/
def State.newSkips (s : State) (rec : SMap (List (Nat × Bool))) (all : List (Nat × Nat)) : SMap (List (Nat × Bool)) :=
  ((all.map (·.1)).eraseDups).foldl (fun (m : SMap (List (Nat × Bool))) key =>
    m.set key (repairRow (s.fuses.skips.get [] key) ((rec.get [] key).map (·.1))
      ((all.filter (fun e => e.1 == key)).map (·.2)))) []

/-- The logical position of a physical core by row key and column. -/
def holeAt (skips : SMap (List (Nat × Bool))) (e : Nat × Nat) : Option Nat :=
  let f := e.1 / 64
  (logCol ((skips.get [] e.1).map (·.1)) e.2).map (fun lx => coreKey (coreAt ((f % 9) * 62 + lx) ((f / 9) * 64 + e.1 % 64)))

/-- Why bring-up halts: the step in which the finding falls and its code (R358, R371). -/
def State.haltReason (s : State) (found : BringUpFindings) : Option (Nat × Nat) :=
  if !found.yardOk then some (1, 1)
  else if 2 < found.deadFields.eraseDups.length then some (3, 2)
  else if found.deadFields.any (fun f => (s.attached f.toNat).contains 0) then some (3, 3)
  else if found.lostTermini.contains 0 then some (4, 0)
  else none

/-- The helper clusters Ryist reserves are four, available ones (R235). -/
def helpersOk (found : BringUpFindings) : Bool :=
  found.helpers.length == 4 && found.helpers.eraseDups.length == 4 &&
    found.helpers.all (fun cl => decide (cl.toNat < 5184) && !found.deadFields.any (fun f => f.toNat == fieldOfCluster cl.toNat))

/-- The settings record is applied (R352): an item it does not hold has its reset value. -/
def State.applySettings (s : State) (r : SMap Word) : State :=
  let s1 := r.foldl (fun a (e : Nat × Word) => a.setYreg e.1 e.2) s
  (List.range 5).foldl (fun a k =>
    let v := r.get (BitVec.ofNat 32 (dsReset k)) (yBU + 0x60 + 4 * k)
    (a.setYreg (yBU + 0x40 + 4 * k) v).setYreg (yBU + 0x60 + 4 * k) v) s1

/-- A span port enabled by its settings trains (R305, R352). -/
def State.trainPorts (s : State) : State :=
  (List.range 32).foldl (fun a n =>
    if a.portFitted n && !(a.terminus (n / 4)).lost && (a.yreg (ySL + 0x1000 + 0x80 * n)).getLsbD 31 then
      a.onPort n (fun e => { e with state := 1 })
    else a) s

/-- The clusters a partition of the settings record gets: those it pins, or the lowest of those free, as many as its quota
(DESIGN CHOICE, log entry 35). -/
def State.bootClusters (s : State) (p : Pid) (v : Word) : List Nat :=
  if cfgPinned v then (s.pinned p).filter s.available
  else ((List.range 5184).filter (fun cl => s.available cl && !(s.others p).contains cl && !s.helpers.contains cl)).take (cfgQuota v)

/-- A partition of the settings record is set up before READY (R237, R239, R352); one whose configuration cannot be kept is not
valid. -/
def State.bootPartition (s : State) (p : Pid) : State :=
  let off := yJB + 0x100 + 0x40 * p.toNat
  let v := s.pcfg p
  if !v.getLsbD 31 then s
  else if !s.cfgOk p v then s.setYreg off (setField v 31 1 0)
  else
    let cls := s.bootClusters p v
    let s1 := (s.createKeys p).onPart p (fun e => { e with clusters := cls, standby := standbyOf v cls, state := 1 })
    cls.foldl (fun a cl => a.setOwner cl p) s1

/-- The fields after step 2: PLLs locked, CORE_CYCLE cleared, factors at 1.0 (R73, R332, R354). -/
def bootFields (cc : DWord) (dead : List Nat) : SMap FieldPower :=
  (List.range 81).map (fun f =>
    (f, if dead.contains f then { FieldPower.reset with dead := true }
        else { FieldPower.reset with pll := true, spine := true, base := cc }))

/-- Rollback counters advance at the first READY after a commit, for the images that carry RAISE (R409). -/
def State.raiseCounters (s : State) : State :=
  if !s.bu.raiseDue then s
  else
    let svn := s.bu.active.foldl (fun (m : SMap Nat) (e : Nat × Image) =>
      if e.2.raise then m.set e.1 (max (m.get 0 e.1) (svnOf e.2.version)) else m) s.fuses.svn
    { s with fuses := { s.fuses with svn := svn }, bu := { s.bu with raiseDue := false } }

/-- Steps 1 to 9 from the directory copy the device boots from, to READY (R354 to R359). -/
def State.bringUpReady (s : State) (found : BringUpFindings) (copy : Nat) : State :=
  let d := s.nvm.dir copy
  let rep := pickCopy found.repairOk (fun c => (s.nvm.repair.get RepairRec.reset c).seq)
  let rec_ : RepairRec := match rep with
    | some c => s.nvm.repair.get RepairRec.reset c
    | none => RepairRec.reset
  let bitmap_ := sramBitmap s.bu.warm found.sram
  let sram := rec_.rows ++ bitmap_
  let now := (sramFailed sram ++ found.failedCores.map rowPlace).eraseDups
  let repaired := bitmap_.filter (fun e => match e.sramOf with
    | some (c, m) => !overSpares sram c m
    | none => false)
  let lostK := (found.lostStacks.map (fun e => (e.1.toNat, e.2.toNat)) ++ stacksLost s.bu.warm rec_.rows found.dram).eraseDups
  let all := s.failing rec_.skips now
  let skips := s.newSkips rec_.skips all
  let dead := (found.deadFields.map (·.toNat)).eraseDups
  let fp : FloorPlan := { FloorPlan.reset with
    gen := 2, skips := skips, failed := all, holes := (all.filterMap (holeAt skips)).eraseDups, dead := dead }
  let lostT := (found.lostTermini.map (·.toNat)).filter s.fitted
  let map0 : RouteMap := { RouteMap.reset with
    skips := skips, lostTermini := lostT, lostStacks := lostK }
  let scr := pickCopy found.screenOk (fun c => (s.nvm.screen.get (0, true) c).1)
  let n1 : Nvm := { s.nvm with
    repair := s.nvm.repair.set (1 - rep.getD 1) {
      seq := rec_.seq + 1, skips := skips.map (fun (e : Nat × List (Nat × Bool)) => (e.1, e.2.filter (·.2)))
      rows := rec_.rows ++ repaired ++ stacksRepaired s.bu.warm rec_.rows found.dram }
    screen := s.nvm.screen.set (1 - scr.getD 1) ((s.nvm.screen.get (0, true) (scr.getD 0)).1 + 1, !s.bu.warm || scr.isSome)
    lastRead := (s.nvm.lastRead.set 2 (1 - rep.getD 1)).set 3 (1 - scr.getD 1) }
  let s1 : State := { s with
    fp := fp
    map := dead.foldl (fun (m : RouteMap) f => m.without f) map0
    fields := bootFields s.cc dead
    termini := (List.range 8).map (fun t =>
      (t, { Terminus.reset with lost := lostT.contains t
                                stkLost := BitVec.ofNat 3 (bitmap ((lostK.filter (fun e => e.1 == t)).map (·.2))) }))
    om := { s.om with sysKey := some s.om.nextKey, nextKey := s.om.nextKey + 1 }
    nvm := n1
    bu := { s.bu with
      phase := 10, bank := d.bank
      active := [1, 2, 3, 4].map (fun k => (k, s.image d.bank k)) ++ [(5, s.nvm.tc d.tcbank)]
      scrAge := if !s.bu.warm then 0 else if scr.isNone then 0xFFFFFFFF else s.bu.scrAge
      graveSeen := s.bu.graveSeen && s.bu.warm, lostSeen := s.bu.lostSeen && s.bu.warm } }
  let s2 := (s1.setYreg (yBU + 0x14) (BitVec.ofNat 32 found.durationMs)).setYreg (yBU + 0x18)
    (place 32 16 16 repaired.length ||| place 32 0 16 now.length)
  let s3 := (found.helpers.zip (List.range 4)).foldl (fun a e =>
    (a.setYreg (yJB + 0x10 + 4 * e.2) (BitVec.ofNat 32 e.1.toNat)).onClusterPid e.1.toNat (fun w => setField w 29 1 1)) s2
  let s4 := if rep.isNone then s3.yardReport 27 0xE9 1 0 else s3
  let s5 := if scr.isNone then s4.yardReport 27 0xE9 2 0 else s4
  let usual := (List.range 5).all (fun k => (s5.dsCur k).toNat == dsReset k)
  let s6 := if usual then s5 else ((List.range 81).filter s5.liveField).foldl (fun a f => a.writeField f s5.dsItems) s5
  let s7 := pidNos.foldl (fun a p => a.bootPartition p) s6
  (s7.trainPorts.raiseCounters).setYreg (yJB + 4) 2

/-- Bring-up from step 1: the checks of the images, the settings record, then READY, HALTED or RECOVERY. -/
def State.bringUp (s0 : State) (found : BringUpFindings) : State :=
  let r := s0.boot found
  let s : State := { r.1 with
    host := { r.1.host with training := true }, sec := { r.1.sec with idKnown := true }
    bu := { r.1.bu with slotPins := found.slotPins } }
  match r.2 with
  | none => { s with bu := { s.bu with phase := 12 } }
  | some c =>
    let n := s.nvm.read 0 c
    let set := pickCopy found.settingsOk (fun c => (n.settings.get (0, []) c).1)
    let s1 : State := { s with nvm := { n with lastRead := n.lastRead.set 1 (set.getD 0) } }
    let s2 := match set with
      | some k => s1.applySettings (n.settings.get (0, []) k).2
      | none => (s1.applySettings []).yardReport 27 0xE9 0 0
    match s.haltReason found with
    | some (ph, why) => { s2 with bu := { s2.bu with phase := 11 } }.yardReport 27 0xEA (ph + 16 * why) 0
    | none => s2.bringUpReady found c

/-- POWER_ON: the input rises, and bring-up runs cold; after a whole-device reset it runs as that reset has left it (R354, R355, R428).
`found` holds what its tests find and what Ryist reserves. -/
def execPowerOn (found : BringUpFindings) (s : State) : Host.Outcome State Fault Refusal :=
  if !helpersOk found || (s.bu.power && s.bu.phase != 1) then .next s
  else if s.bu.power then .next (s.bringUp found)
  else
    let b : BringUp := { BringUp.reset with power := true, phase := 1, raiseDue := s.bu.raiseDue }
    .next ((s.cleared b 0).bringUp found)

end Sys2Proof.Machine
end

