-- ==== Sys2Proof/Machine/Faults.lean ====
section
/-! DEFINITION. Weights scans, signal boxes, the device collector with its reactions, the safe state, replays and self-test (R71, R372 to
R396, R402). -/

namespace Sys2Proof.Machine

/-! ### The weights scan (R71, R379, R380) -/

/-- FLT_WCTL.EN. -/
def Core.scanEn (k : Core) : Bool := (k.reg rFLT_WCTL).getLsbD 31

/-- The low half of FLT_WSCANS. -/
def Core.scans16 (k : Core) : Nat := (k.reg rFLT_WSCANS).toNat % 65536

/-- A scan starts. One that has not ended by then is abandoned, marked and reported (R380). -/
def K.scanStart (k : K) : K :=
  let k1 := if k.core.scan.isSome then
      K.report { k with core := k.core.setReg rFLT_WSTAT (k.core.reg rFLT_WSTAT ||| 0x40000000#32) } 4 0xE1 k.core.scans16 0
    else k
  { k1 with core := { k1.core with scan := some { next := 0, lines := [] } } }

/-- Ryist has reloaded the weights of a core in a replay that has restarted: it runs one scan at once (R382). -/
def State.scansAtOnce (s : State) (c : CoreId) : Bool := s.jobs.any (fun j => j.replaying.isNone && j.reload.contains c)

/-- WEIGHTS_SCAN_START: with EN set, whenever CORE_CYCLE mod 2,400,000 is 0; at once on a core whose weights a replay has reloaded (R380,
R382). -/
def execWeightsScanStart (c : CoreId) (s : State) : Host.Outcome State Fault Refusal :=
  let k0 := kOf s c
  let once := s.scansAtOnce c
  if s.alive c && k0.core.scanEn && (k0.cyc.toNat % 2400000 == 0 || once) then
    let s1 := onCore c s K.scanStart
    .next (if once then { s1 with jobs := s1.jobs.map (fun j =>
      if j.replaying.isNone then { j with reload := j.reload.filter (· != c) } else j) } else s1)
  else .next s

/-- The scan reads its next line, as it stands (R71). -/
def K.scanLine (k : K) (x : Scan) : K :=
  let r := k.readLine agMV none (64 * x.next)
  { r.1 with core := { r.1.core.count rMV_DGBYTES 64 with scan := some { next := x.next + 1, lines := r.2.1 :: x.lines } } }

/-- A cycle of a scan: one line, unless its bank is held (R71, R109). -/
def K.scanCycle (k : K) : K :=
  match k.core.scan with
  | none => k
  | some x =>
    if k.core.wtop * 256 ≤ x.next then k
    else if k.core.mvHeld (64 * x.next) then { k with core := k.core.count (bankWait (64 * x.next)) 1 }
    else k.scanLine x

/-- The lines a scan has still to read. -/
def K.scanRest : Nat → K → K
  | 0, k => k
  | n + 1, k =>
    match k.core.scan with
    | none => k
    | some x => K.scanRest n (k.scanLine x)

/-- A scan ends: its digest is kept, counted and compared with the reference. -/
def K.scanEnd (k : K) (d : BitVec 384) : K :=
  let c1 := { k.core.setDigest rFLT_WLAST d with scan := none }
  let c2 := (c1.count rFLT_WSCANS 1).count rPWC_DGB (shaBlocks (c1.wtop * 16384))
  if c2.digestAt rFLT_WREF = d then
    { k with core := c2.setReg rFLT_WSTAT (c2.reg rFLT_WSTAT &&& 0x7FFFFFFF#32) }
  else
    K.report { k with core := c2.setReg rFLT_WSTAT (c2.reg rFLT_WSTAT ||| 0x80000000#32) } 4 0xE0 c2.scans16 (field d 0 48)

/-- The digest of the lines a scan has read (R71). -/
def Scan.digest (x : Scan) : BitVec 384 := BitVec.ofNat 384 (leNat (sha384 (x.lines.reverse.flatMap Line.bytes)))

/-- WEIGHTS_SCAN_END (R71, R380): the lines not yet read are read now, and the scan ends; a bank that is held holds it too. -/
def execWeightsScanEnd (c : CoreId) (s : State) : Host.Outcome State Fault Refusal :=
  .next (onLive c s (fun k =>
    match k.core.scan with
    | none => k
    | some x =>
      let left := k.core.wtop * 256 - x.next
      if (List.range left).any (fun i => k.core.mvHeld (64 * (x.next + i))) then k
      else
        let k1 := K.scanRest left k
        match k1.core.scan with
        | none => k1
        | some y => k1.scanEnd y.digest))

/-! ### Kinds in force (R388, R390, R402) -/

def State.kcfg (s : State) (k : Nat) : Word := s.yreg (yFC + 0x400 + 8 * k)
def State.krct (s : State) (k : Nat) : Word := s.yreg (yFC + 0x404 + 8 * k)
def State.kclass (s : State) (k : Nat) : Nat := field (s.kcfg k) 30 2

/-! ### Signal boxes (R384, R387) -/

def State.box (s : State) (f : Nat) : SignalBox := s.boxes.get SignalBox.reset f
def State.setBox (s : State) (f : Nat) (b : SignalBox) : State := { s with boxes := s.boxes.set f b }

/-- A queue without its oldest message of base class notice. -/
def State.dropNotice (s : State) (q : List Msg) : Option (List Msg) :=
  (takeFirst (fun m => s.kclass m.kind.toNat == 0) q).map (·.2)

/-- Kind 0xE7 of a field's box. -/
def State.lostMsg (s : State) (f : Nat) : Msg :=
  { stamp := lo32 s.yc, address := BitVec.ofNat 48 (s.yreg (yFC + 0x40)).toNat, detail := BitVec.ofNat 16 f, kind := 0xE7
    block := 16, core := 0, cluster := 0, field := BitVec.ofNat 7 f }

/-- A message arrives at its field's box. -/
def State.boxTake (s : State) (f : Nat) (m : Msg) : State :=
  let b := s.box f
  if b.queue.length < 256 then s.setBox f { b with queue := b.queue ++ [m] }
  else
    let s1 := s.ycount (yFC + 0x40) 1
    if s.kclass m.kind.toNat = 0 then s1
    else
      match s.dropNotice b.queue with
      | some q => s1.setBox f { b with queue := q ++ [m] }
      | none => if b.lostSlot.isSome then s1 else s1.setBox f { b with lostSlot := some (s1.lostMsg f) }

/-- SIGNAL_BOX_RECEIVE: the oldest message of a source in the field reaches its box. A silent box takes none. -/
def execSignalBoxReceive (f : BitVec 7) (s : State) : Host.Outcome State Fault Refusal :=
  if !s.bu.power || 81 ≤ f.toNat then .next s
  else
    match takeFirst (fun m => m.field == f) s.transit with
    | none => .next s
    | some (m, rest) =>
      let s1 : State := { s with transit := rest }
      .next (if (s.box f.toNat).silent then s1 else s1.boxTake f.toNat m)

/-! ### Where a message points (R376, R385, R389) -/

/-- The cluster a message of a field's source names. -/
def Msg.clusterNo (m : Msg) : Nat := nth 0 (fieldClusters m.field.toNat) m.cluster.toNat

/-- The physical position a message of a field's source names. -/
def Msg.place (m : Msg) : Nat × Nat :=
  ((m.clusterNo % 72) * 8 + m.core.toNat % 8, (m.clusterNo / 72) * 8 + m.core.toNat / 8)

/-- The core at a message's location, for the blocks of a core. -/
def State.msgCore (s : State) (m : Msg) : Option CoreId :=
  if m.field.toNat < 81 ∧ m.block.toNat ≤ 9 then logOf s.fp.skips m.place.1 m.place.2 else none

/-- The location of a message in a release record. -/
def msgLoc (m : Msg) : Word := BitVec.ofNat 32 (field (Msg.bits m) 0 24)

/-- The partition that the detail of a terminus or host-port kind names (R286, R314). -/
def msgPid (m : Msg) : Option Nat :=
  let k := m.kind.toNat
  if k = 0xC1 ∨ k = 0xC2 then (if m.detail.getLsbD 11 then none else some (field m.detail 12 4))
  else if k = 0xC5 then some (field m.detail 12 4)
  else if k = 0xCA ∨ k = 0xCB ∨ k = 0xCD then (if field m.detail 0 5 = 0 then none else some (field m.detail 0 5 - 1))
  else none

/-- A window of the partition uses the port. -/
def State.portOf (s : State) (p : Pid) (n : Nat) : Bool :=
  (List.range 64).any (fun w =>
    let c := s.yreg (winOff w)
    c.getLsbD 31 && field c 8 5 == n && field c 0 4 == p.toNat)

/-- A message covers a job (R376): its kind carries attribute W and its location, or what it reports, concerns the job. -/
def State.covers (s : State) (m : Msg) (j : Job) : Bool :=
  let k := m.kind.toNat
  let held := j.clusters ++ (s.partition j.p).standby
  (kindRow k).gate &&
    (if k = 0xC3 ∨ k = 0xC4 then true
     else if 0xD0 ≤ k ∧ k ≤ 0xD5 then s.portOf j.p (field m.detail 0 5)
     else if m.field.toNat = 112 then true
     else if m.field.toNat < 81 then
       (if m.block.toNat ≤ 13 then held.contains m.clusterNo || s.helpers.contains m.clusterNo
        else held.any (fun cl => fieldOfCluster cl == m.field.toNat))
     else msgPid m == some j.p.toNat)

/-! ### Counting, classes and the log (R388, R399) -/

/-- The least recently updated entry leaves. -/
def dropOldest (l : List CountEntry) : List CountEntry :=
  match l with
  | [] => []
  | e :: t =>
    let low := t.foldl (fun n x => min n x.used) e.used
    match takeFirst (fun x => x.used == low) l with
    | some (_, r) => r
    | none => l

/-- The event counts for its source; the second part is the count it reaches. -/
def State.countEvent (s : State) (m : Msg) : State × Nat :=
  let loc : BitVec 24 := (Msg.bits m).extractLsb' 0 24
  let now := (s.yreg (yFC + 0x24)).toNat
  match takeFirst (fun (e : CountEntry) => e.kind == m.kind && e.loc == loc) s.fc.counts with
  | some (e, rest) =>
    let late := field (s.kcfg m.kind.toNat) 8 16 * 50000 < s.yc.toNat - e.first.toNat
    let e1 : CountEntry := { e with first := if late then s.yc else e.first, count := if late then 1 else e.count + 1, used := now }
    ({ s with fc := { s.fc with counts := rest ++ [e1] } }, e1.count)
  | none =>
    let e1 : CountEntry := { kind := m.kind, loc := loc, first := s.yc, count := 1, used := now }
    if s.fc.counts.length < 4096 then ({ s with fc := { s.fc with counts := s.fc.counts ++ [e1] } }, 1)
    else
      let s1 := s.ycount (yFC + 0x48) 1
      ({ s1 with fc := { s1.fc with counts := dropOldest s.fc.counts ++ [e1] } }, 1)

/-- The class of an event (R388, R390). -/
def State.classOf (s : State) (m : Msg) (count : Nat) : Nat :=
  let k := m.kind.toNat
  let n := field (s.kcfg k) 0 8
  if k = 0x91 ∧ s.helpers.contains m.detail.toNat then 3
  else if k = 0xC4 ∧ field m.detail 8 3 = 0 then 3
  else if s.kclass k ≤ 1 ∧ n ≠ 0 ∧ n ≤ count then 2
  else s.kclass k

/-- The reactions of an event: none beside the safe state for a grave one (R389). -/
def State.reactOf (s : State) (m : Msg) (cls : Nat) : Nat :=
  if cls = 3 then 0 else if cls = 2 then field (s.krct m.kind.toNat) 8 8 else field (s.krct m.kind.toNat) 0 8

/-- The ring of the NVM fault log holds 9 MiB of 32-byte entries. -/
abbrev nvmLogMax : Nat := 294912

/-- Severe and grave messages go to the NVM log too, at most 64 in a second. -/
def State.logNvm (s : State) (m : Msg) : State :=
  let sec : DWord := BitVec.ofNat 64 (s.yc.toNat / 50000000)
  let n := if s.fc.nvmSecond = sec then s.fc.nvmThisSecond else 0
  if n < 64 then
    let l := s.nvm.faultLog ++ [m]
    { s with fc := { s.fc with nvmSecond := sec, nvmThisSecond := n + 1 }
             nvm := { s.nvm with faultLog := l.drop (l.length - nvmLogMax) } }
  else s.ycount (yFC + 0x50) 1

/-- The message is logged and counted by kind. -/
def State.logMsg (s : State) (m : Msg) (cls react : Nat) : State :=
  let n := (s.yreg (yFC + 0x24)).toNat
  let e : LogEntry := { msg := m, stamp := s.yc, cls := BitVec.ofNat 2 cls, react := BitVec.ofNat 8 react
                        gate := (kindRow m.kind.toNat).gate }
  let s1 : State := { s with fc := { s.fc with log := SMap.set s.fc.log (n % 1024) e } }
  let s2 := (s1.setYreg (yFC + 0x24) (BitVec.ofNat 32 (n + 1))).ycount (yFC + 0x1000 + 8 * m.kind.toNat) 1
  if 2 ≤ cls then s2.logNvm m else s2

/-! ### The safe state (R392) -/

/-- A grave event: latched, with its message where it is the first; every spine and tree stops. -/
def State.enterSafe (s : State) (m : Msg) : State :=
  { s with
    fc := { s.fc with safe := true, grave := true, graveMsg := s.fc.graveMsg.orElse (fun _ => some m) }
    bu := { s.bu with graveSeen := true }
    fields := s.fields.map (fun (e : Nat × FieldPower) => (e.1, { e.2 with spine := false }))
    clusters := s.clusters.map (fun (e : Nat × Cluster) => (e.1, { e.2 with tree := false })) }

/-! ### Reactions (R389, R391) -/

/-- Ryist's record of the section of a job to abort first: its identifier, cause, kind and core (R253, R257). Where none has aborted yet, the
section at the core `c` that the message came from, else the first. -/
def State.firstAbort (s : State) (j : Job) (c : Option CoreId) : BitVec 16 × Byte × Byte × Word :=
  match s.lineAbort j with
  | some a => a
  | none =>
    match c.bind (fun x => (j.layout.find? (fun pl => pl.cores.contains x)).map (fun pl => (pl.secid, x))) with
    | some q => (q.1, 4, 0, coreWord q.2)
    | none => ((j.layout.head?.map (·.secid)).getD 0, 4, 0, 0)

/-- Reaction A: the sections of every job the message covers abort. A guarded job replays instead (R382). -/
def State.reactA (s : State) (m : Msg) : State :=
  s.jobs.foldl (fun a j =>
    if s.covers m j && j.phase == .running && j.started.isSome && !s.guarded j.p then
      let r := a.firstAbort j (s.msgCore m)
      ((a.abortJob j r.1 r.2.1 r.2.2.1 r.2.2.2).notify (j.p.toNat + 1) 11)
    else a) s

/-- Reaction K: every job the message covers is killed, unless it is being killed already (R260, R263). -/
def State.reactK (s : State) (m : Msg) : State :=
  s.jobs.foldl (fun a j =>
    match a.job? j.p j.r j.jobid with
    | some x => if s.covers m j && x.phase != .waiting && x.phase != .killed then a.killStart x 3 else a
    | none => a) s

/-- Reaction T: an execution fault of the core with the message's kind; the message itself is its report (R49, DEDUCED, log entry
36). -/
def K.trap (k : K) (kind : Nat) : K :=
  let c := (k.core.setReg rCORE_TRAP (place 32 31 1 1 ||| place 32 0 8 kind)).setReg rCORE_TRAPPC (place 32 0 14 k.core.pc)
  let k1 := K.abortNow { k with core := c } 0 kind
  { k1 with core := { k1.core with seq := .trapped } }

/-- Reaction B: block reset. -/
def State.reactB (s : State) (m : Msg) : State :=
  let b := m.block.toNat
  if m.field.toNat < 81 ∧ b ≤ 9 then
    match s.msgCore m with
    | some c => s.resetCore c
    | none => s
  else if m.field.toNat < 81 ∧ b ≤ 13 then s.resetCluster m.clusterNo
  else if b = 20 ∧ s.portFitted (field m.detail 0 5) ∧ (s.spanPort (field m.detail 0 5)).state ≠ 0 then
    let n := field m.detail 0 5
    (s.onPort n SpanPort.clear).setPort n 1
  else s

/-- Every reaction but C, in the order of the bits. -/
def State.react (s : State) (m : Msg) (r : Nat) : State :=
  let bit := fun (i : Nat) => r / 2 ^ i % 2 == 1
  let s1 := if bit 0 then s.notify 0 0 else s
  let s2 := if bit 1 then
      match s.msgCore m with
      | some c => onLive c s1 (fun k => k.trap m.kind.toNat)
      | none => s1
    else s1
  let s3 := if bit 3 then s2.reactA m else s2
  let s4 := if bit 4 then s3.reactK m else s3
  let s5 := if bit 2 then s4.reactB m else s4
  let s6 := if bit 5 ∧ (s.msgCore m).isSome then s5.declareFailed m.place.1 m.place.2 else s5
  if bit 7 then { s6 with fc := { s6.fc with fnrx := true } } else s6

/-! ### What a message tells Ryist beside its reactions (R35, R253, R257, R376, R377, R382, R394) -/

/-- Changes of the floor plan that a message makes due (R35). -/
def State.dueChanges (s : State) (m : Msg) : List FloorChange :=
  let k := m.kind.toNat
  if k = 0x88 then [.isolated (m.detail.setWidth 13)]
  else if k = 0x89 then
    ((fieldClusters m.detail.toNat).filter (fun cl => (s.cluster cl).fuseOpen)).map (fun cl => .isolated (BitVec.ofNat 13 cl))
  else if k = 0x82 ∨ k = 0x83 ∨ k = 0xEE then [.deadField (m.detail.setWidth 7)]
  else if k = 0x95 then (List.range 9).map (fun i => .deadField (BitVec.ofNat 7 (9 * field m.detail 0 4 + i)))
  else []

/-- A change already shown in the table. -/
def FloorPlan.shows (fp : FloorPlan) (e : FloorChange) : Bool :=
  match e with
  | .hole _ _ => false
  | .isolated cl => fp.isolated.contains cl.toNat
  | .deadField f => fp.dead.contains f.toNat

def State.noteChanges (s : State) (m : Msg) : State :=
  let more := (s.dueChanges m).filter (fun e => !s.fp.todo.contains e && !s.fp.shows e)
  { s with fp := { s.fp with todo := s.fp.todo ++ more } }

/-- A section's abort reaches Ryist, who clears its merge slots: the job of a partition that is not guarded ends (R165, R253, R257), and the VF
is told. -/
def State.sectionAborted (s : State) (m : Msg) : State :=
  match s.msgCore m with
  | none => s
  | some c =>
    match s.usedSlots.find? (fun n => (s.slots.get SectionSlot.reset n).cores.contains c) with
    | none => s
    | some n =>
      match (s.slots.get SectionSlot.reset n).job with
      | none => s
      | some (p, r, id) =>
        let s1 := (s.clearMerges n).notify (p.toNat + 1) 11
        match s1.job? p r id with
        | none => s1
        | some j =>
          if s1.guarded p then s1
          else s1.abortJob j (BitVec.ofNat 16 (field m.address 32 16)) (BitVec.ofNat 8 (field m.detail 0 3))
            (BitVec.ofNat 8 (field m.detail 8 8)) (BitVec.ofNat 32 (field m.address 0 20))

/-- The window of a job (R377): from its first START until its last output is decided. -/
def Job.window (j : Job) : Bool := j.started.isSome && (j.phase == .running || (j.phase == .ended && !j.allDecided))

/-- A covering message: a guarded job replays the stage it falls on; otherwise the outputs whose hold it falls in are withheld, and
those that become final later (R375, R377, R382). -/
def State.coverJob (s : State) (m : Msg) (cls : Nat) (j : Job) : State :=
  if s.guarded j.p && j.heldStage.isSome && j.phase == .running then s.askReplay j []
  else
    let s1 := s.onJob j.p j.r j.jobid (fun x =>
      { x with firstCover := x.firstCover.orElse (fun _ => some (m.kind, BitVec.ofNat 8 cls, (msgLoc m))) })
    match s1.job? j.p j.r j.jobid with
    | none => s1
    | some j1 =>
      j1.outs.foldl (fun a i =>
        match j1.output i with
        | .final f => if s.yc.toNat ≤ f.toNat + holdYc then a.withhold j1 i f else a
        | _ => a) s1

/-- Every job in its window that the message covers. -/
def State.coverAll (s : State) (m : Msg) (cls : Nat) : State :=
  s.jobs.foldl (fun a j =>
    match a.job? j.p j.r j.jobid with
    | none => a
    | some j1 => if s.covers m j && j1.window then a.coverJob m cls j1 else a) s

/-- A core's weights are to be reloaded by the next replay of its job (R382). -/
def State.noteReload (s : State) (c : CoreId) : State :=
  { s with jobs := s.jobs.map (fun j =>
      if j.layout.any (fun pl => pl.cores.contains c) && !j.reload.contains c then { j with reload := j.reload ++ [c] } else j) }

/-- What Ryist does on a message besides its reactions: a weights mismatch drops a resident placement (R380); a core that failed its
self-test is declared failed (R394). -/
def State.ryistHears (s : State) (m : Msg) : State :=
  let k := m.kind.toNat
  if k = 0x68 then s.sectionAborted m
  else if k = 0xE0 ∨ k = 0xE1 then
    match s.msgCore m with
    | some c =>
      let s1 := s.noteReload c
      if k = 0xE0 then (s1.residents.filter (fun x => x.layout.any (fun pl => pl.cores.contains c))).foldl (fun a x => a.dropResident x) s1
      else s1
    | none => s
  else if k = 0xE2 then
    let cl := m.detail.toNat
    let i := field m.address 0 6
    s.declareFailed ((cl % 72) * 8 + i % 8) ((cl / 72) * 8 + i / 8)
  else s

/-- The device collector applies a message. In the safe state it goes on counting and logging (R392). -/
def State.collect (s : State) (m : Msg) : State :=
  let e := s.countEvent m
  let cls := s.classOf m e.2
  let r := if s.fc.safe then 0 else s.reactOf m cls
  let s1 := e.1.logMsg m cls r
  if s.fc.safe then s1
  else if cls = 3 then (s1.noteChanges m).enterSafe m
  else
    let s2 := (s1.noteChanges m).coverAll m cls
    let s3 := (s2.ryistHears m).react m r
    if r / 64 % 2 = 1 ∧ s.bu.phase = 10 then
      (if s3.bu.committing then { s3 with bu := { s3.bu with pendingReset := some (2, false) } } else s3.deviceReset 2 false)
    else s3

/-- FAULT_MESSAGE_ARRIVAL: the oldest message of a signal box, the one of its reserved slot first, or of a source that reports
directly reaches the device collector (R384, R387, R389). -/
def execFaultMessageArrival (src : BitVec 7) (s : State) : Host.Outcome State Fault Refusal :=
  if !s.bu.power then .next s
  else if src.toNat < 81 then
    let b := s.box src.toNat
    if b.silent then .next s
    else
      match b.lostSlot, b.queue with
      | some m, _ => .next (published s ((s.setBox src.toNat { b with lostSlot := none }).collect m))
      | none, m :: t => .next (published s ((s.setBox src.toNat { b with queue := t }).collect m))
      | none, [] => .next s
  else
    match takeFirst (fun m => m.field == src) s.transit with
    | none => .next s
    | some (m, rest) => .next (published s (State.collect { s with transit := rest } m))

/-- A message the collector raises of itself. -/
def State.ownMsg (s : State) (fld block kind detail addr : Nat) : Msg :=
  { stamp := lo32 s.yc, address := BitVec.ofNat 48 addr, detail := BitVec.ofNat 16 detail, kind := BitVec.ofNat 8 kind
    block := BitVec.ofNat 5 block, core := 0, cluster := 0, field := BitVec.ofNat 7 fld }

/-- SIGNAL_BOX_SILENT (R373, R387): three missed heartbeats; the field's base logic has failed. -/
def execSignalBoxSilent (f : BitVec 7) (s : State) : Host.Outcome State Fault Refusal :=
  let n := f.toNat
  if !s.bu.power || 81 ≤ n || (s.box n).silent || s.fieldDead n then .next s
  else
    let s1 := (s.setBox n { SignalBox.reset with silent := true }).fieldDies n false
    .next (published s (s1.collect (s1.ownMsg n 16 0xEE n 0)))

/-- YARD_CONTROLLER_STOPPED (R373). -/
def execYardControllerStopped (s : State) : Host.Outcome State Fault Refusal :=
  if !s.bu.power then .next s else .next (s.collect (s.ownMsg srcYard 24 0xEF 0 0))

/-- COLLECTOR_DISAGREEMENT (R373, R392): the safe state at once. -/
def execCollectorDisagreement (off : BitVec 12) (s : State) : Host.Outcome State Fault Refusal :=
  if !s.bu.power then .next s else .next (s.collect (s.ownMsg srcYard 26 0xE4 0 off.toNat))

/-- A write of FC_STATUS: FNRX is cleared by a 1; ignored in the safe state (R393, R399). -/
def fcStatusWrite (v : Word) (s : State) : State :=
  State.answer (if v.getLsbD 28 && !s.fc.safe then { s with fc := { s.fc with fnrx := false } } else s) none

/-- FNRX_CLEAR (R393): a write of 1. -/
def execFnrxClear (o : Origin) (s : State) : Host.Outcome State Fault Refusal :=
  if !s.bu.power then .next s else .next (yardWrite o yFC s (fcStatusWrite 0x10000000))

/-! ### REPLAY_RESTART (R382, R383) -/

/-- Positions for a section whose cores may have been lost: a core that is still placeable keeps its place in the order, another takes the
next of `free` (R382). -/
def refit (room : List CoreId) : List CoreId → List CoreId → Option (List CoreId × List CoreId)
  | [], free => some ([], free)
  | c :: t, free =>
    if room.contains c then (refit room t free).map (fun r => (c :: r.1, r.2))
    else match free with
      | [] => none
      | x :: rest => (refit room t rest).map (fun r => (x :: r.1, r.2))

/-- The sections of a layout one after the other. -/
def refitAll (room : List CoreId) : List SectionPlace → List CoreId → Option (List SectionPlace)
  | [], _ => some []
  | pl :: t, free =>
    match refit room pl.cores free with
    | none => none
    | some r => (refitAll room t r.2).map (fun l => { pl with cores := r.1 } :: l)

/-- The layout of a replay: units on cores that are gone move to free positions, those of a cluster without a unit first, which is the standby
cluster taken for them (R239, R382, log entry 29). -/
def State.movedLayout (s : State) (j : Job) : Option (List SectionPlace) :=
  let room := s.placeable j.p j.clusters
  let used := j.layout.flatMap (·.cores)
  let free := room.filter (fun c => !used.contains c)
  let empty := fun (c : CoreId) => !used.any (fun x => s.clusterNo x == s.clusterNo c)
  refitAll room j.layout (free.filter empty ++ free.filter (fun c => !empty c))

/-- The cores whose weights the restart reloads: those flagged, and those that take a moved unit (R382). -/
def reloaded (j : Job) (layout : List SectionPlace) : List CoreId :=
  let used := j.layout.flatMap (·.cores)
  (layout.flatMap (·.cores)).filter (fun c => j.reload.contains c || !used.contains c)

/-- Every core of a list that answers is IDLE, so that it can be loaded. -/
def State.allIdle (s : State) (cs : List CoreId) : Bool := cs.all (fun c => (s.core c).df == .idle)

/-- The sections of a stage of a job in staged mode are no longer placed: a later stage has taken their place. -/
def Job.unplaced (j : Job) (g : Nat) : Bool :=
  j.staged && !(j.stageSecs g).all (fun e => j.layout.any (fun pl => pl.secid == e.secid))

/-- REPLAY_RESTART: the units of lost cores have moved, weights are reloaded, and the stage is armed and started; in staged mode a stage
that has left its place is placed again (R251, R382). -/
def execReplayRestart (p : Pid) (r : BitVec 3) (jobid : DWord) (s : State) : Host.Outcome State Fault Refusal :=
  match s.job? p r jobid with
  | none => .next s
  | some j =>
    match j.replaying with
    | none => .next s
    | some g =>
      if s.fc.safe || j.phase != .running || j.clusters.any (fun cl => (s.cluster cl).testing.isSome) then .next s
      else
        let anew := j.unplaced g
        let s0 := if anew then (s.jobSlots j).foldl (fun a x => a.freeSection x) s else s
        let room := s0.placeable p j.clusters
        let l := allot room.length (j.stageSecs g)
        let key := s0.planKey j j.clusters g
        let fits := decide (l.length ≤ s0.freeSlots.length) && decide (total l ≤ room.length)
        match (if anew then (if fits then some (s0.layout key l room) else none) else s0.movedLayout j) with
        | none => .next s
        | some layout =>
          let again := if anew then layout.flatMap (·.cores) else reloaded j layout
          let places := layout.filter (fun pl => !j.secsEnded.contains pl.secid)
          if !s0.allIdle (places.flatMap (·.cores)) then .next s
          else
            let n := j.replays.get 0 g + 1
            let j1 : Job := { j with layout := layout, replaying := none, curStage := g, replays := j.replays.set g n, fpgen := s.fp.gen
                                     reload := again }
            let s1 := (s0.onJob p r jobid (fun _ => j1)).loadAll j1 key again.contains places
            let s2 := if anew then s1.pushRecord p r (placementRecord s j1 true g j1.clusters.length l layout) else s1
            let a := s2.armStart (j1.stageCores g)
            if a.2 then .next (published s ((a.1.ycount (yFC + 0x58) 1).yardReport 24 0xE5 (p.toNat + 16 * g) n))
            else .next s

/-! ### Self-test (R394, R395) -/

/-- FC_TCTL.EN. -/
def State.testsOn (s : State) : Bool := (s.yreg (yFC + 0x10)).getLsbD 31

/-- A cluster is idle for testing (R395). -/
def State.testIdle (s : State) (cl : Nat) : Bool :=
  decide (cl < 5184) && (s.usableCores cl).all (fun c => (s.core c).df == .idle && (s.core c).seq != .reset) &&
    !s.helpers.contains cl && !s.fp.isolated.contains cl && !(s.cluster cl).fuseOpen && (s.cluster cl).heat.toNat ≤ 1 &&
    !(s.cluster cl).scrubPend && !(s.cluster cl).scrubbing && s.liveField (fieldOfCluster cl) &&
    (fieldClusters (fieldOfCluster cl)).all (fun x => (s.cluster x).testing.isNone)

/-- A test starts: the logic part, and the SRAM part where no placement holds the cluster. -/
def State.startTest (s : State) (cl : Nat) (asked : Bool) : State :=
  s.setCluster cl (fun e => { e with testing := some asked, testWait := false, testScrub := !s.busyCluster cl })

/-- CLUSTER_SELF_TEST: a scheduled test of an idle cluster, or one asked for that has waited for it. -/
def execClusterSelfTest (cl : BitVec 13) (s : State) : Host.Outcome State Fault Refusal :=
  let n := cl.toNat
  if s.bu.phase ≠ 10 || s.fc.safe || !s.testIdle n then .next s
  else if (s.cluster n).testWait then .next (s.startTest n true)
  else if s.testsOn then .next (s.startTest n false)
  else .next s

/-- FC_TREQ_WRITE: by the PF or Ryist; the test starts at once, or waits for the cluster. -/
def fcTreqWrite (o : Origin) (cl : Nat) (s : State) : State :=
  if !pfOrRyist o then s.answer (some 0x09)
  else
    let s1 := s.setYreg (yFC + 0x18) (place 32 31 1 1 ||| place 32 29 2 (field (s.yreg (yFC + 0x18)) 29 2) ||| place 32 0 13 cl)
    (if s1.testIdle cl then s1.startTest cl true else s1.setCluster cl (fun e => { e with testWait := true })).answer none

def execFcTreqWrite (o : Origin) (cl : BitVec 13) (s : State) : Host.Outcome State Fault Refusal :=
  if s.bu.phase ≠ 10 then .next s else .next (yardWrite o (yFC + 0x14) s (fcTreqWrite o cl.toNat))

/-- SELF_TEST_END (R394): every core is reset and, after the SRAM part, the cluster is scrubbed; each failing core that holds a logical
position is reported. -/
def execSelfTestEnd (cl : BitVec 13) (failing : List (BitVec 6 × Byte)) (s : State) : Host.Outcome State Fault Refusal :=
  let n := cl.toNat
  match (s.cluster n).testing with
  | none => .next s
  | some asked =>
    if s.fc.safe then .next s
    else
      let f := fieldOfCluster n
      let bad := failing.filter (fun e =>
        (logOf s.fp.skips ((n % 72) * 8 + e.1.toNat % 8) ((n / 72) * 8 + e.1.toNat / 8)).isSome)
      let s1 := (s.usableCores n).foldl (fun a c => a.resetCore c) s
      let s2 := if (s.cluster n).testScrub then s1.askScrub n else s1
      let s3 := s2.setCluster n (fun e => { e with testing := none, testScrub := false })
      let s4 := bad.foldl (fun a e => a.fieldReport f 17 0xE2 n (e.1.toNat + 256 * e.2.toNat)) s3
      .next (published s
        (if asked then s4.setYreg (yFC + 0x18) (place 32 29 2 (if bad.isEmpty then 0 else 1) ||| place 32 0 13 n) else s4))

end Sys2Proof.Machine
end

