-- ==== Sys2Proof/Machine/Access.lean ====
section
/-! DEFINITION. The registers of yard space, of BAR0 and of BAR4 as every kind of sender reads and writes them (R15, R16, R17, R264, R285,
R290, R291, R295, R300, R301, R358). -/

namespace Sys2Proof.Machine

/-! ### Writes of yard registers (R15, R16) -/

/-- Ryist's scrub requests: every bit set asks for one (R261, R264). -/
def State.scrubmapPut (s : State) (o : Origin) (w : Nat) (v : Word) : State :=
  if isSystem o then
    (published s (((List.range 32).filter (fun b => v.getLsbD b && decide (32 * w + b < 5184))).foldl
      (fun a b => a.askScrub (32 * w + b)) s)).answer none
  else s.answer (some 0x09)

/-- JB_RCFGpr: EN as it is written, which may be refused, and ERR cleared by a 1 (R245, R264). -/
def State.ringCfgPut (s : State) (o : Origin) (p : Pid) (r : BitVec 3) (v : Word) : State :=
  let en := v.getLsbD 31 != s.ringEn p r
  let clears := v.getLsbD 30 && (s.yreg (ringOff p r)).getLsbD 30
  if s.bu.phase ≠ 10 ∨ (o != .pf && o != .vf p) then s.answer (some 0x09)
  else
    s.fixedWrite o p (en || clears) (fun s =>
      let s1 := if en then (if v.getLsbD 31 then ringEnable p r s else ringDisable p r s) else s.answer none
      match s1.resp with
      | .err _ => s1
      | _ => if clears then ringErrClear p r s1 else s1)

/-- OM_PKCTLp (R277, R285). -/
def State.pkctlPut (s : State) (o : Origin) (p : Pid) (v : Word) : State :=
  if v.getLsbD 0 then rotate o p s else s.answer (if o != .pf && o != .vf p then some 0x09 else none)

/-- A word written to a register of yard space by a sender whose access has reached it: registers with behaviour of their own act as their
commands do. Where only Ryist, the physical function or a virtual function may write, another's write is refused (R16, R264, R285). -/
def State.yardPut (s : State) (o : Origin) (off : Nat) (v : Word) : State :=
  if (s.yardReg o off).isNone then s.answer (some 0x09)
  else if off = yCK + 4 then ckRefctlWrite o v s
  else if off = yPW + 4 then capsusWrite o v s
  else if off = yPW + 0x20 then thrWrite o v s
  else if off = yFC then fcStatusWrite v s
  else if off = yFC + 0x14 then fcTreqWrite o (field v 0 13) s
  else if off = yFC + 0x20 then fcRreqWrite o (field v 0 5) s
  else if off = ySEC + 0x104 then fuseCtlWrite o v s
  else if off = yBU + 8 then rstctlWrite o v s
  else if off = yBU + 0x20 then dsctlWrite o v s
  else if off = yBU + 0x100 then updctlWrite o v s
  else if off = ySL then slClkleadWrite o v s
  else if ySL + 0x1000 ≤ off ∧ off < ySL + 0x2000 ∧ off % 0x80 = 0 then spanPortEnWrite o ((off - ySL - 0x1000) / 0x80) v s
  else if yJB + 0x100 ≤ off ∧ off < yJB + 0x500 ∧ off % 0x40 = 0 then
    let p : Pid := BitVec.ofNat 4 ((off - yJB - 0x100) / 0x40)
    if s.bu.phase = 10 then jbPcfgWrite o p v (s.pickClusters p v) s else s.answer (some 0x09)
  else if yJB + 0x1000 ≤ off ∧ off < yJB + 0x5000 then
    let i := off - yJB - 0x1000
    if s.bu.phase = 10 then jbPinWrite o (BitVec.ofNat 4 (i / 0x400)) (i % 0x400 / 4) v s else s.answer (some 0x09)
  else if yJB + 0x6000 ≤ off ∧ off < yJB + 0x8000 ∧ off % 0x40 = 0 then
    let i := off - yJB - 0x6000
    s.ringCfgPut o (BitVec.ofNat 4 (i / 0x200)) (BitVec.ofNat 3 (i % 0x200 / 0x40)) v
  else if yJB + 0xA000 ≤ off ∧ off < yJB + 0xA288 then s.scrubmapPut o ((off - yJB - 0xA000) / 4) v
  else if yOMX + 0x100 ≤ off ∧ off < yOMX + 0x700 then omExtPut o ((off - yOMX - 0x100) / 4) v s
  else if yOMX + 0x800 ≤ off ∧ off < yOMX + 0x900 ∧ off % 0x10 = 4 then
    s.pkctlPut o (BitVec.ofNat 4 ((off - yOMX - 0x800) / 0x10)) v
  else s.yardStore o off v

/-- The last access was refused. -/
def State.refused (s : State) : Bool :=
  match s.resp with
  | .err _ => true
  | _ => false

/-- A write of 8 bytes lands whole or not at all (R16, R17): neither half takes effect where one of them is refused. -/
def State.yardPut8 (s : State) (o : Origin) (off : Nat) (v : DWord) : State :=
  let a := s.yardPut o off (lo32 v)
  let h := s.yardPut o (off + 4) (hi32 v)
  if a.refused then a
  else if h.refused then h
  else
    let b := a.yardPut o (off + 4) (hi32 v)
    if b.refused then { s with resp := b.resp } else b

/-- The registers an access covers are there (R16). -/
def State.yardHas (s : State) (o : Origin) (off size : Nat) : Bool :=
  (s.yardReg o off).isSome && (size == 4 || (s.yardReg o (off + 4)).isSome)

/-- A read of 4 or 8 bytes (R16): of 8 bytes the halves of one instant. -/
def State.yardTake (s : State) (o : Origin) (off size : Nat) : State × Option DWord :=
  let a := s.yardRead o off
  if size = 4 then (a.1, a.2.map (fun v => v.setWidth 64))
  else
    let b := State.yardRead a.1 o (off + 4)
    match a.2, b.2 with
    | some l, some h => (b.1, some (pair64 h l))
    | _, _ => (s, none)

/-- A write of yard space that its sender's path has let through. -/
def State.yardData (s : State) (o : Origin) (off : Nat) (d : RegData) : State :=
  match d with
  | .four v => s.yardPut o off v
  | .eight v => s.yardPut8 o off v
  | .other _ => s.answer (some 0x0B)

/-! ### The MSI-X table and the pending bits of a function (R290, R297, log entry 109) -/

/-- The vectors of a function. -/
def msixVectors (fn : Nat) : Nat := if fn = 0 then 8 else 16

/-- A word of the MSI-X table, by its offset in BAR0. -/
def msixAt (fn off : Nat) : Option Nat :=
  if 0x3F00000 ≤ off ∧ off < 0x3F00000 + 16 * msixVectors fn ∧ off % 4 = 0 then some ((off - 0x3F00000) / 4) else none

/-- A word of the pending bits. -/
def State.msixPba (s : State) (fn off : Nat) : Option Word :=
  if off = 0x3F01000 then some (bitWord 0 16 (fun i => s.host.msixPend.contains (BitVec.ofNat 5 fn, BitVec.ofNat 4 i)))
  else if off = 0x3F01004 then some 0 else none

def State.msixReg (s : State) (fn off : Nat) : Option Word :=
  match msixAt fn off with
  | some i => some (s.msixWord fn (i / 4) (i % 4))
  | none => s.msixPba fn off

/-- A word of the MSI-X table is written; a vector that is pending is sent when its mask is cleared. -/
def State.msixPut (s : State) (fn off : Nat) (v : Word) : State :=
  match msixAt fn off with
  | none => s.answer none
  | some i =>
    let w := match i % 4 with
      | 0 => v &&& 0xFFFFFFFC#32
      | 3 => v &&& 1#32
      | _ => v
    let e : BitVec 5 × BitVec 4 := (BitVec.ofNat 5 fn, BitVec.ofNat 4 (i / 4))
    let s1 := s.onHost (fun h => { h with msixTab := h.msixTab.set (64 * fn + i) w })
    let s2 := if i % 4 = 3 ∧ w = 0 ∧ s.host.msixPend.contains e ∧ !s.fc.safe then
        (s1.onHost (fun h => { h with msixPend := h.msixPend.filter (· != e) })).msixSend fn (i / 4)
      else s1
    s2.answer none

/-! ### BAR0 (R290, R291, R300, R301, R358) -/

/-- The function of a host's access. -/
def hostOf (o : Origin) : Option Nat :=
  match o with
  | .pf => some 0
  | .vf p => some (p.toNat + 1)
  | _ => none

/-- The function is a VF whose TDI is in ERROR: none of its accesses is served (R292, R300). -/
def State.inError (s : State) (o : Origin) : Bool :=
  match o with
  | .vf p => s.tdi p == 3
  | _ => false

/-- A register that the view of the function shows (R291). -/
def barSees (o : Origin) (off : Nat) : Bool :=
  match o with
  | .vf p => vfSees p off
  | _ => true

/-- Registers stand at every word of an access to BAR0 (R16, R291); in RECOVERY only those of the BU_ block (R358). -/
def State.barHas (s : State) (o : Origin) (fn off size : Nat) : Bool :=
  if 0x220000 ≤ off then (s.msixReg fn off).isSome && (size == 4 || (s.msixReg fn (off + 4)).isSome)
  else s.yardHas o off size && !s.recoveryHides off

/-- A write of the host to BAR0, past the checks. -/
def State.bar0Put (s : State) (o : Origin) (fn off : Nat) (d : RegData) : State :=
  if 0x220000 ≤ off then
    match d with
    | .four v => s.msixPut fn off v
    | .eight v => (s.msixPut fn off (lo32 v)).msixPut fn (off + 4) (hi32 v)
    | .other _ => s
  else if barSees o off && (dataSize d == 4 || barSees o (off + 4)) then s.yardData o off d
  else s.barRefused 0x028 fn off .discarded

/-- A write of BAR0: discarded and counted in the safe state; discarded where the TDI is in ERROR, where the size or the place is wrong, and
outside the function's view (R291, R292, R301). -/
def State.bar0Write (s : State) (o : Origin) (fn off : Nat) (d : RegData) : State :=
  if s.fc.safe then s.safeDiscard
  else if s.inError o then s.barRefused 0x020 fn off .discarded
  else if !regAligned off (dataSize d) || !s.barHas o fn off (dataSize d) then { s with resp := .discarded }
  else s.bar0Put o fn off d

/-- A word that a VF's access reads: 0 outside its view. -/
def State.viewRead (s : State) (o : Origin) (off : Nat) : State × Word :=
  if barSees o off then ((s.yardRead o off).1, (s.yardRead o off).2.getD 0) else (s, 0)

/-- A read of yard space through BAR0; a VF's outside its view is counted and reported (R291). -/
def State.bar0Take (s : State) (o : Origin) (fn off size : Nat) : State × DWord :=
  let a := s.viewRead o off
  let b := State.viewRead a.1 o (off + 4)
  let r : State × DWord := if size = 4 then (a.1, a.2.setWidth 64) else (b.1, pair64 b.2 a.2)
  if barSees o off && (size == 4 || barSees o (off + 4)) then r else (State.barRefused r.1 0x028 fn off .none, r.2)

/-- All bits set, of an access's size. -/
def onesOf (size : Nat) : Resp := .value (if size = 4 then 0xFFFFFFFF else BitVec.allOnes 64)

/-- A read of BAR0 (R291, R292, R301). -/
def State.bar0Read (s : State) (o : Origin) (fn off size : Nat) : State :=
  if s.inError o then (s.barRefused 0x020 fn off .none).complete fn (onesOf size)
  else if !regAligned off size || !s.barHas o fn off size then s.complete fn .ur
  else if 0x220000 ≤ off then
    let l := (s.msixReg fn off).getD 0
    s.complete fn (.value (if size = 4 then l.setWidth 64 else pair64 ((s.msixReg fn (off + 4)).getD 0) l))
  else State.complete (s.bar0Take o fn off size).1 fn (.value (s.bar0Take o fn off size).2)

/-! ### BAR4 (R290, R295, R300, R301) -/

/-- The descriptor set, the descriptor and the word that an offset of BAR4 names (R295). -/
def bar4At (o : Origin) (off : Nat) : Option (Nat × Nat × Nat) :=
  let i := off % 0x1000
  let set := match o with
    | .vf p => if off < 0x1000 then some (p.toNat + 1) else none
    | _ => if off / 0x1000 ≤ 16 then some (off / 0x1000) else none
  if i < 0x400 then set.map (fun n => (n, i / 16, i % 16 / 4)) else none

/-- The words that an access to BAR4 covers. -/
def bar4Words (off : Nat) (d : RegData) : List (Nat × Word) :=
  match d with
  | .four v => [(off % 16 / 4, v)]
  | .eight v => [(off % 16 / 4, lo32 v), (off % 16 / 4 + 1, hi32 v)]
  | .other _ => []

/-- A write of BAR4. -/
def State.bar4Write (s : State) (o : Origin) (fn off : Nat) (d : RegData) : State :=
  if s.fc.safe then s.safeDiscard
  else if s.inError o then s.barRefused 0x020 fn off .discarded
  else
    match bar4At o off with
    | some (set, n, _) =>
      if s.bu.phase = 12 ∨ !regAligned off (dataSize d) then { s with resp := .discarded } else descriptorPuts o set n (bar4Words off d) s
    | none => { s with resp := .discarded }

/-- A read of BAR4: all bits set in the safe state (R301). -/
def State.bar4Read (s : State) (o : Origin) (fn off size : Nat) : State :=
  if s.fc.safe then s.complete fn (onesOf size)
  else if s.inError o then (s.barRefused 0x020 fn off .none).complete fn (onesOf size)
  else
    match bar4At o off with
    | some (set, n, w) =>
      if s.bu.phase = 12 ∨ !regAligned off size then s.complete fn .ur
      else
        let l := s.descWord set n w
        s.complete fn (.value (if size = 4 then l.setWidth 64 else pair64 (s.descWord set n (w + 1)) l))
    | none => s.complete fn .ur

/-! ### REGISTER_WRITE and PAIR_LO_READ (R16, R291) -/

/-- An access of the host arrives: while the link is up, and in RECOVERY the physical function's alone (R289, R358). -/
def State.fromHost (s : State) (o : Origin) (tlp : Tlp) (f : Nat → State → State) : State :=
  match hostOf o with
  | some fn => if !s.host.up || (fn != 0 && s.bu.phase == 12) then s else s.tlpCheck tlp (f fn)
  | none => s

/-- Ryist's own access, or that of a packet that terminus 0 hands on; Ryist does not run in the safe state (R392). -/
def State.fromWafer (s : State) (o : Origin) (f : State → State) : State :=
  match o with
  | .ryist => if s.fc.safe then s else f s
  | .packet _ _ _ => f s
  | _ => s

/-- An access to yard space by a sender inside the device. -/
def State.waferWrite (s : State) (o : Origin) (off : Nat) (d : RegData) : State :=
  if 2 ^ 24 ≤ off then s.answer (some 0x06)
  else if !regAligned off (dataSize d) then s.answer (some 0x0B)
  else if !s.yardHas o off (dataSize d) then s.answer (some 0x09)
  else s.yardData o off d

def State.waferRead (s : State) (o : Origin) (off size : Nat) : State :=
  if 2 ^ 24 ≤ off then s.answer (some 0x06)
  else if !regAligned off size then s.answer (some 0x0B)
  else
    match s.yardTake o off size with
    | (s1, some v) => { s1 with resp := .value v }
    | (s1, none) => s1.answer (some 0x09)

/-- A write of a register by its sender. -/
def registerWrite (t : RegTarget) (o : Origin) (d : RegData) (tlp : Tlp) (s : State) : State :=
  match t with
  | .core c off => s.coreWriteData c off.toNat o d
  | .yard off =>
    if (hostOf o).isSome then s.fromHost o tlp (fun fn s => s.bar0Write o fn off.toNat d)
    else s.fromWafer o (fun s => s.waferWrite o off.toNat d)
  | .bar4 off => s.fromHost o tlp (fun fn s => s.bar4Write o fn off.toNat d)

/-- REGISTER_WRITE: a write lands whole, is ignored or discarded, or is refused. -/
def execRegisterWrite (t : RegTarget) (o : Origin) (d : RegData) (tlp : Tlp) (s : State) : Host.Outcome State Fault Refusal :=
  if s.bu.power then .next (registerWrite t o d tlp s) else .next s

/-- A read of registers by its sender. -/
def registerRead (t : RegTarget) (o : Origin) (size : Nat) (tlp : Tlp) (s : State) : State :=
  match t with
  | .core c off => s.coreReadSize c off.toNat o size
  | .yard off =>
    if (hostOf o).isSome then s.fromHost o tlp (fun fn s => s.bar0Read o fn off.toNat size)
    else s.fromWafer o (fun s => s.waferRead o off.toNat size)
  | .bar4 off => s.fromHost o tlp (fun fn s => s.bar4Read o fn off.toNat size)

/-- PAIR_LO_READ: a read of a register; one of a _LO latches its _HI, for the next read of the _HI. -/
def execPairLoRead (t : RegTarget) (o : Origin) (size : Nat) (tlp : Tlp) (s : State) : Host.Outcome State Fault Refusal :=
  if s.bu.power then .next (registerRead t o size tlp s) else .next s

end Sys2Proof.Machine
end

