-- ==== Sys2Proof/Machine/Delivery.lean ====
section
/-! DEFINITION. The delivery of packets: to a position, or by a T port to a terminus; accesses to yard space by packet; answers that a
terminus waits for (R13, R15, R16, R33, R144, R167, R171, R275, R293, R296, R309, R310). -/

namespace Sys2Proof.Machine

/-! ### Yard space by packet (R13, R15, R16) -/

/-- The answer to a packet as the last access left it. -/
def State.answerAs (s : State) (p : Packet) : State :=
  match s.resp with
  | .err e => s.termErr p e.toNat
  | _ => s.termAck p

/-- A packet for yard space at terminus 0 (R13, R16): reads and writes of 4 and 8 bytes. What it is answered with goes to its sender. -/
def space3 (p : Packet) (s0 : State) : State :=
  let off := p.off.toNat
  let o : Origin := .packet p.sys p.pid p.src
  let keep := fun (s : State) => { s with resp := s0.resp }
  if 2 ^ 24 ≤ off then s0.termErr p 0x06
  else if (p.sz ≠ 2 ∧ p.sz ≠ 3) ∨ off % p.span ≠ 0 ∨ 2 ≤ p.op.toNat then s0.termErr p 0x0B
  else if !s0.yardHas o off p.span then s0.termErr p 0x09
  else if p.op = 0 then
    match s0.yardTake o off p.span with
    | (s, some v) => s.termSend p 9 0 p.sz.toNat 0 (headOf (v.toNat * 2 ^ (8 * (off % 8)))) []
    | (s, none) => s.termErr p 0x09
  else
    let w : DWord := p.head.extractLsb' 0 64
    keep ((s0.yardData o off (if p.sz = 2 then .four (BitVec.ofNat 32 (w.toNat / 2 ^ (8 * (off % 8)))) else .eight w)).answerAs p)

/-! ### Answers that arrive at a terminus (R293, R309) -/

/-- The span request an answer belongs to. -/
def State.spanOwner (s : State) (t : Nat) (id : Byte) : Option (Nat × SpanIn) :=
  ((List.range 4).map (fun k => 4 * t + k)).findSome? (fun n =>
    ((s.spanPort n).inbound.find? (fun e => e.id == id)).map (fun e => (n, e)))

/-- An answer at a terminus: for a write of the inbox, which is then acknowledged; for a line of a host read; or for a request of a span port.
A late one is discarded. -/
def State.termAnswered (s : State) (t : Nat) (p : Packet) : State :=
  let other := match s.spanOwner t p.txid with
    | some (n, e) => s.spanBack n e p
    | none => s
  if t ≠ 0 then other
  else
    match takeFirst (fun (w : InboxWr) => w.id == p.txid && w.sent) s.host.inbox with
    | some (w, rest) => s.inboxAcked w rest
    | none =>
      match s.host.inReads.find? (fun x => x.sent && x.parts.any (fun q => q.1 == p.txid && q.2.isNone)) with
      | some x => s.inboxLine x p
      | none => other

/-- The terminus can take no further request of this kind: outer memory's places are full (R275), every tag of the host port is in use (R296),
or the port of the request's window tracks as many transactions as it can (R310). The packet waits in the mesh. -/
def State.termHolds (s : State) (t : Nat) (p : Packet) : Bool :=
  (p.omRequest && (s.terminus t).full) || (p.space == 4 && t == 0 && !p.isResponse && s.tagsFull) ||
    (p.space == 5 && !p.isResponse && s.spanFull p)

/-! ### PACKET_DELIVERY (R33, R144, R167, R171, R275) -/

/-- A packet leaves the mesh at a T port. A lost terminus takes it and never answers (R282). -/
def State.atTerminus (s : State) (t : Nat) (p : Packet) : State :=
  if (s.terminus t).lost || p.killed then s
  else if p.isResponse then s.termAnswered t p
  else if p.space = 3 then (if t = 0 then space3 p s else s.termErr p 0x06)
  else
    let s1 : State := { s with tin := s.tin ++ [(t, p)] }
    if decide (4096 ≤ s1.omHeld t) then s1.onTerminus t (fun e => { e with full := true }) else s1

/-- A packet is delivered to a position, by the position's state (R33). A killed packet has no effect (R167): all that the core sees of it
is a write that its network interface accepts at the head and gives up at the tail (R123). A multicast write to the RT_ block of a hole is
refused like any other copy there: R162 has each such copy reported, R33 serves every access to that block (DESIGN CHOICE, log entry
106). -/
def State.atPosition (s : State) (px py : Nat) (p : Packet) : State :=
  match logOf s.fp.skips px py with
  | none => s
  | some c =>
    let rt := p.space == 1 && p.op.toNat ≤ 2 && 0x8000 ≤ p.off.toNat && p.off.toNat < 0xA000
    if p.killed then
      if p.space == 0 && (p.op == 1 || p.op == 7) && s.posOf c == .usable && (s.core c).seq != .reset && s.admits px py p then
        { s with inbox := s.inbox ++ [(c, p)] }
      else s
    else
      match s.posOf c with
      | .usable => s.handOver c px py p
      | .hole => if rt then s.handOver c px py p else s.refuseAt px py p 0x01
      | .isolated => if rt then s.handOver c px py p else s.refuseAt px py p 0x02
      | .dead => s.deadEnd p px py

/-- PACKET_DELIVERY: a packet that has reached its destination router leaves it for the core, or the T port for the terminus. A request
that the terminus cannot take waits in the mesh (R275, R296, R310). -/
def execPacketDelivery (f : Nat) (s : State) : Host.Outcome State Fault Refusal :=
  match s.flights[f]? with
  | none => .next s
  | some x =>
    let p := x.pkt
    if x.fresh || x.cast ≠ .single || overtakes s.flights f x then .next s
    else
      match x.loc with
      | .router px py _ =>
        if px ≠ p.dst.px.toNat || py ≠ p.dst.py.toNat || p.dst.ext then .next s
        else .next (((s.dropFlight f).passed px py p.flits).atPosition px py p)
      | .tport px py =>
        match terminusOfRouter px py with
        | none => .next (s.dropFlight f)
        | some t => if !(s.terminus t).lost && !p.killed && s.termHolds t p then .next s else .next ((s.dropFlight f).atTerminus t p)
      | _ => .next s

end Sys2Proof.Machine
end

