-- ==== Sys2Proof/Machine/Matrix.lean ====
section
/-! DEFINITION. The matrix engine: issue into its queue, tile steps, and MZERO, MLDA and MST (R50 to R57, R80, R82, R83, R86, R99
to R105). -/

namespace Sys2Proof.Machine

/-! ### Issue -/

/-- The registers that govern a matrix instruction from its issue (R74, R106). -/
def Core.matCfg (k : Core) : SMap Word :=
  k.regs.filter (fun (e : Nat × Word) =>
    e.1 == rMX_ASTRIDE || e.1 == rMX_BSTRIDE || e.1 == rMX_MXCFG || e.1 == rMX_RCFG || rMX_RLO ≤ e.1 && e.1 < 0x1700)

/-- A matrix instruction enters the queue of 4; a full queue stalls the sequencer (R42, R55). -/
def K.matPush (k : K) (i : Instr) (sa sb : SReg) (pc : Nat) (w : Word) (after : Core → Core) : K :=
  if 4 ≤ k.core.matQ.length then k.stallMx
  else
    let e : MatEntry := { insn := i, sa := k.core.sreg sa, sb := k.core.sreg sb, cfg := k.core.matCfg, pc := pc, word := w,
                          tag := k.core.runTag, num := k.core.num }
    K.advance { k with core := after { k.core with matQ := k.core.matQ ++ [e], num := k.core.num + 1 } }

/-- MMA; INC adds 64 to s[sa] and to s[sb] at issue (R52, log entry 19). -/
def execMma (c : CoreId) (sa sb : SReg) (fmt : BitVec 4) (acc : BitVec 2) (inc : Bool) (s : State) :
    Host.Outcome State Fault Refusal :=
  issue c (.mma c sa sb fmt acc inc) s (fun pc w k => k.whenReady [sa, sb] (fun k =>
    k.matPush (.mma c sa sb fmt acc inc) sa sb pc w (fun r =>
      if inc then (r.setS sa (k.core.sreg sa + 64)).setS sb (k.core.sreg sb + 64) else r)))

/-- MZERO uses neither address (R52). -/
def execMzero (c : CoreId) (sa sb : SReg) (fmt : BitVec 4) (acc : BitVec 2) (inc : Bool) (s : State) :
    Host.Outcome State Fault Refusal :=
  issue c (.mzero c sa sb fmt acc inc) s (fun pc w k => k.matPush (.mzero c sa sb fmt acc inc) sa sb pc w (fun r => r))

def execMlda (c : CoreId) (sa sb : SReg) (fmt : BitVec 4) (acc : BitVec 2) (inc : Bool) (s : State) :
    Host.Outcome State Fault Refusal :=
  issue c (.mlda c sa sb fmt acc inc) s (fun pc w k => k.whenReady [sa] (fun k =>
    k.matPush (.mlda c sa sb fmt acc inc) sa sb pc w (fun r => r)))

def execMst (c : CoreId) (sa sb : SReg) (fmt : BitVec 4) (acc : BitVec 2) (inc : Bool) (s : State) :
    Host.Outcome State Fault Refusal :=
  issue c (.mst c sa sb fmt acc inc) s (fun pc w k => k.whenReady [sa] (fun k =>
    k.matPush (.mst c sa sb fmt acc inc) sa sb pc w (fun r => r)))

/-- MSYNC holds the sequencer until every issued matrix instruction has retired; INC makes it an invalid matrix operation
(R52, R53, R55). -/
def execMsync (c : CoreId) (sa sb : SReg) (fmt : BitVec 4) (acc : BitVec 2) (inc : Bool) (s : State) :
    Host.Outcome State Fault Refusal :=
  issue c (.msync c sa sb fmt acc inc) s (fun pc w k =>
    if inc then k.execFault 1 0x53 pc pc w.toNat
    else if k.core.matQ.isEmpty && k.core.steps.isEmpty then k.advance
    else k.stallMx)

/-! ### Operand formats -/

/-- Width, K and whether a format has scales (R50, R51). -/
structure MmaFmt where
  bits : Nat
  k : Nat
  scaled : Bool

/-- The shape of a format; none for codes 14 and 15 (R50). -/
def mmaFmt (fmt : Nat) : Option MmaFmt :=
  match fmt with
  | 0 | 1 => some { bits := 16, k := 32, scaled := false }
  | 2 | 3 | 4 | 5 | 6 => some { bits := 8, k := 64, scaled := false }
  | 7 | 8 => some { bits := 8, k := 64, scaled := true }
  | 9 => some { bits := 6, k := 64, scaled := true }
  | 10 => some { bits := 4, k := 128, scaled := true }
  | 11 => some { bits := 4, k := 128, scaled := false }
  | 12 => some { bits := 32, k := 8, scaled := false }
  | 13 => some { bits := 64, k := 2, scaled := false }
  | _ => none

/-- The accumulator type of a format (R50). -/
def mmaTag (fmt : Nat) : AccTag := if fmt = 6 ∨ fmt = 11 then .int32 else if fmt = 13 then .pair else .fp32

/-- The rate class of a format: 0 16-bit, 1 8-bit, 2 4-bit, 3 FP32, 4 pair32 (R50, R74). -/
def mmaClass (fmt : Nat) : Nat :=
  if fmt ≤ 1 then 0 else if fmt ≤ 9 then 1 else if fmt ≤ 11 then 2 else if fmt = 12 then 3 else 4

/-- The value of an operand element before its scale (R50, R78 to R80); `b` selects B, `alt` is ATYPE or BTYPE. -/
def mmaElem (fmt : Nat) (b alt : Bool) (w : Nat) : FVal :=
  match fmt with
  | 0 => fBF16.decode w
  | 1 => fB16.decode w
  | 2 => fE4M3.decode w
  | 3 => if b then fE5M2.decode w else fE4M3.decode w
  | 4 => if b then fE4M3.decode w else fE5M2.decode w
  | 5 => fE5M2.decode w
  | 6 => ofInt (signedOf 8 w)
  | 7 => if alt then fE5M2.decode w else fE4M3.decode w
  | 8 => fmul (ofInt (signedOf 8 w)) (.fin false 1 (-6))
  | 9 => if alt then fE3M2.decode w else fE2M3.decode w
  | 10 => fE2M1.decode w
  | 11 => ofInt (signedOf 4 w)
  | 12 => fB32.decode w
  | _ => pairVal (pairFrom (BitVec.ofNat 64 w))

/-- An E8M0 scale (R78, R80). -/
def scaleVal (x : Nat) : FVal := if x = 255 then .nan else .fin false 1 ((x : Int) - 127)

/-- Element k of a row or column line as encoded (R51). -/
def lineElem (l : Line) (bits k : Nat) : Nat := l.toNat / 2 ^ (bits * k) % 2 ^ bits

/-- Byte n of a line. -/
def lineByte (l : Line) (n : Nat) : Nat := l.toNat / 2 ^ (8 * n) % 256

/-- The exact value of element k of row or column r, scale included (R51, R80, R82). -/
def operand (fmt : Nat) (f : MmaFmt) (b alt : Bool) (ls : List Line) (scale : Line) (r k : Nat) : FVal :=
  let v := mmaElem fmt b alt (lineElem (nth 0 ls r) f.bits k)
  if f.scaled then fmul v (scaleVal (lineByte scale (4 * r + k / 32))) else v

/-! ### Faults at the engine -/

/-- The numeric source of a queue entry; func by R52. -/
def MatEntry.src (e : MatEntry) (func : Nat) : NumSrc :=
  { vec := false, func := func, pc := e.pc, tag := e.tag, num := e.num }

/-- A run of lines from an address lies in the core's own scratchpad. -/
def insidePad (c : CoreId) (a : DWord) (last : Nat) : Bool := isOwnSpad c a && addrOff40 a + last + 64 ≤ padSize

/-- An invalid matrix operation (R53). -/
def K.matInvalid (k : K) (e : MatEntry) : K := k.execFault 1 0x53 e.pc e.pc e.word.toNat

/-- An operand outside the own scratchpad (R51). -/
def K.matOutside (k : K) (e : MatEntry) (a : DWord) : K := k.execFault 1 0x55 e.pc e.pc (addr48 a)

/-- A pair operation names a1 or a3 (R53). -/
def oddPair (acc : BitVec 2) (pair : Bool) : Bool := pair && acc.toNat % 2 == 1

/-! ### Tile steps -/

/-- The scale lines' offsets. -/
def MatEntry.aScaleAt (e : MatEntry) : Nat := 16 * e.aStep
def MatEntry.bScaleAt (e : MatEntry) : Nat := 8 * e.bStep

/-- The operand lines of a step, each read by the engine; a refused line delivers zeros (R51, R112). -/
def K.matLines (k : K) (offs : List Nat) : K × List Line :=
  offs.foldl (fun a off =>
    let r := K.readLine a.1 agMX none off
    (r.1, a.2 ++ [if r.2.2 = .refused then 0 else r.2.1])) (k, [])

/-- A step begins: its operands are checked and read (R50, R51, R53, R54). Where several errors hold, the order is: a format of 14 or 15,
an operand outside the scratchpad, an address that is no multiple of 64, a distance of 0 or an odd pair, the tag; a row outside the
scratchpad is reported with the base address (DESIGN CHOICE, log entry 102). -/
def K.stepBegin (k : K) (e : MatEntry) (fmt : BitVec 4) (acc : BitVec 2) : K :=
  match mmaFmt fmt.toNat with
  | none => k.matInvalid e
  | some f =>
    let lastA := if f.scaled then e.aScaleAt else 15 * e.aStep
    let lastB := if f.scaled then e.bScaleAt else 7 * e.bStep
    if !insidePad k.c e.sa lastA then k.matOutside e e.sa
    else if !insidePad k.c e.sb lastB then k.matOutside e e.sb
    else if !aligned e.sa 64 || !aligned e.sb 64 then k.matInvalid e
    else if e.aStep = 0 || e.bStep = 0 || oddPair acc (fmt == 13) then k.matInvalid e
    else if ((k.core.matAccs e).any (fun n => (k.core.accAt n).tag != mmaTag fmt.toNat)) then k.matInvalid e
    else
      let a := k.matLines e.rows
      let b := a.1.matLines ((List.range 8).map (fun j => addrOff40 e.sb + j * e.bStep))
      let s := if f.scaled then b.1.matLines [addrOff40 e.sa + e.aScaleAt, addrOff40 e.sb + e.bScaleAt] else (b.1, [0, 0])
      let st : MmaStep := { entry := e, issued := 0, a := a.2, b := b.2, aScale := nth 0 s.2 0, bScale := nth 0 s.2 1 }
      { s.1 with core := { s.1.core with steps := s.1.core.steps ++ [st], lastClass := BitVec.ofNat 4 (mmaClass fmt.toNat) } }

/-- The issue cycles of the steps before are over: the engine is free for the next instruction of its queue (R54). -/
def Core.mxFree (k : Core) : Bool := k.steps.all (fun st => 32 ≤ st.issued)

/-- MMA_STEP_BEGIN: the step at the head of the queue begins, once the issue cycles of the step before are over (R54). -/
def execMmaStepBegin (c : CoreId) (s : State) : Host.Outcome State Fault Refusal :=
  .next (onLive c s (fun k =>
    match k.core.matQ with
    | [] => k
    | e :: rest =>
      match e.insn with
      | .mma _ _ _ fmt acc _ =>
        if !k.core.mxFree || k.core.accWaitMat e || k.core.anyHeld e.reads || k.core.hazard e.num e.reads [] then k
        else K.stepBegin { k with core := { k.core with matQ := rest } } e fmt acc
      | _ => k))

/-- The operand accessors of a step. -/
def MmaStep.aAt (st : MmaStep) (fmt : Nat) (f : MmaFmt) (i k : Nat) : FVal :=
  operand fmt f false ((st.entry.reg rMX_MXCFG).getLsbD 1) st.a st.aScale i k
def MmaStep.bAt (st : MmaStep) (fmt : Nat) (f : MmaFmt) (j k : Nat) : FVal :=
  operand fmt f true ((st.entry.reg rMX_MXCFG).getLsbD 0) st.b st.bScale j k

/-- The products of element (i, j). -/
def MmaStep.products (st : MmaStep) (fmt : Nat) (f : MmaFmt) (i j : Nat) : List FVal :=
  (List.range f.k).map (fun k => fmul (st.aAt fmt f i k) (st.bAt fmt f j k))

/-- The integer of an exact integral value. -/
def fint (v : FVal) : Int :=
  match v with
  | .fin neg m e => sgn neg (m * 2 ^ e.toNat)
  | _ => 0

/-- An INT32 sum clamped to the nearer limit (R83). -/
def clamp32 (x : Int) : Word × Bool :=
  if 2147483647 < x then (0x7FFFFFFF, true)
  else if x < -2147483648 then (0x80000000, true)
  else (BitVec.ofInt 32 x, false)

/-- The pair operand k of row or column r (R92). -/
def pairOperand (ls : List Line) (r k : Nat) : Pair := pairFrom (BitVec.ofNat 64 (lineElem (nth 0 ls r) 64 k))

/-- Checksum values added to (R101): pair32, or exactly in 64 bits under an INT32 tag. The terms of one step are summed exactly and enter a
pair32 checksum by one rounding and one pair addition (DESIGN CHOICE, log entry 105). -/
def chkAdd (tag : AccTag) (old : DWord) (v : FVal) : DWord :=
  match tag with
  | .int32 => old + BitVec.ofInt 64 (fint v)
  | _ => pairBits (pairAdd (pairFrom old) (pairRound v))

/-- The checksum state after a step (R101): both sides are formed from the operand lines, the magnitudes rounded upwards. -/
def Acc.stepChecks (a : Acc) (st : MmaStep) (fmt : Nat) (f : MmaFmt) : Acc :=
  let rows := List.range 16
  let cols := List.range 8
  let ks := List.range f.k
  let colA := fun k => fsum (rows.map (fun i => st.aAt fmt f i k))
  let rowB := fun k => fsum (cols.map (fun j => st.bAt fmt f j k))
  let absA := fun k => fsum (rows.map (fun i => fabs (st.aAt fmt f i k)))
  let absB := fun k => fsum (cols.map (fun j => fabs (st.bAt fmt f j k)))
  { a with
    rowSum := cols.map (fun j => (j, chkAdd a.tag (a.rowSum.get 0 j)
      (fsum (ks.map (fun k => fmul (colA k) (st.bAt fmt f j k))))))
    colSum := rows.map (fun i => (i, chkAdd a.tag (a.colSum.get 0 i)
      (fsum (ks.map (fun k => fmul (st.aAt fmt f i k) (rowB k))))))
    rowMag := cols.map (fun j => (j, up32 (fadd (fv (a.rowMag.get 0 j))
      (fsum (ks.map (fun k => fmul (absA k) (fabs (st.bAt fmt f j k))))))))
    colMag := rows.map (fun i => (i, up32 (fadd (fv (a.colMag.get 0 i))
      (fsum (ks.map (fun k => fmul (fabs (st.aAt fmt f i k)) (absB k))))))) }

/-- The new elements of a floating-point step, each rounded once (R82). -/
def fpElems (a : Acc) (st : MmaStep) (fmt : Nat) (f : MmaFmt) : List Word :=
  (List.range 128).map (fun n =>
    b32 .rne (fsum (fv (a.elems.get 0 n) :: st.products fmt f (n / 8) (n % 8))))

/-- The new elements of an integer step with the count of clamps (R83). -/
def intElems (a : Acc) (st : MmaStep) (fmt : Nat) (f : MmaFmt) : List (Word × Bool) :=
  (List.range 128).map (fun n =>
    clamp32 (((a.elems.get 0 n).toInt) + ((st.products fmt f (n / 8) (n % 8)).map fint).sum))

/-- The new elements of a pair32 step: the products for k = 0 and 1 added in that order (R92). -/
def pairElems (hi lo : Acc) (st : MmaStep) : List Pair :=
  (List.range 128).map (fun n =>
    [0, 1].foldl (fun p k => pairAdd p (pairMul (pairOperand st.a (n / 8) k) (pairOperand st.b (n % 8) k)))
      { hi := hi.elems.get 0 n, lo := lo.elems.get 0 n })

/-- A step's products enter the accumulator (R54, R82, R83, R92, R101). -/
def Core.stepAdd (k : Core) (st : MmaStep) (fmt : Nat) (f : MmaFmt) (n : Nat) : Core :=
  let a := k.accAt n
  match mmaTag fmt with
  | .fp32 =>
    let a1 : Acc := { a with elems := elemsOf (fpElems a st fmt f) }
    { k with acc := k.acc.set n (a1.stepChecks st fmt f) }
  | .int32 =>
    let rs := intElems a st fmt f
    let a1 : Acc := { a with elems := elemsOf (rs.map (·.1)) }
    Core.count { k with acc := k.acc.set n (a1.stepChecks st fmt f) } rMX_SATCNT ((rs.filter (·.2)).length)
  | .pair =>
    let b := k.accAt (n + 1)
    let rs := pairElems a b st
    let a1 : Acc := { a with elems := elemsOf (rs.map (·.hi)) }
    let b1 : Acc := { b with elems := elemsOf (rs.map (·.lo)) }
    { k with acc := (k.acc.set n (a1.stepChecks st fmt f)).set (n + 1) b1 }

/-- MMA_STEP_COMPLETE: the last product of the oldest step, whose 32 issue cycles have passed, enters the accumulator (R54, R56). -/
def execMmaStepComplete (c : CoreId) (s : State) : Host.Outcome State Fault Refusal :=
  .next (onLive c s (fun k =>
    match k.core.steps with
    | [] => k
    | st :: rest =>
      match st.entry.insn with
      | .mma _ _ _ fmt acc _ =>
        match mmaFmt fmt.toNat with
        | none => { k with core := { k.core with steps := rest } }
        | some f =>
          if st.issued < 32 || k.core.trapWaitMat st.entry.num then k
          else
            let c1 := Core.stepAdd { k.core with steps := rest } st fmt.toNat f acc.toNat
            K.progressed { k with core := c1.count rMX_STEPS 1 }
      | _ => { k with core := { k.core with steps := rest } }))

/-! ### MZERO, MLDA, MST -/

/-- An instruction other than MMA waits for its accumulators (R54): steps in flight on them, or earlier vector instructions. -/
def Core.accHeld (k : Core) (e : MatEntry) : Bool :=
  k.accWaitMat e || k.steps.any (fun st => (k.matAccs st.entry).any (fun n => (k.matAccs e).contains n))

/-- The head of the queue waits: the issue cycles of a step are not over, an accumulator is not free, or an earlier instruction may still
trap (R54, R95). -/
def Core.headWaits (k : Core) (e : MatEntry) : Bool := !k.mxFree || k.accHeld e || k.trapWaitMat e.num

/-- The engine is idle because the head of its queue waits for an accumulator (R54): for MMA an earlier vector instruction, otherwise also a
step in flight. -/
def Core.accWaiting (k : Core) : Bool :=
  match k.matQ with
  | [] => false
  | e :: _ =>
    k.mxFree && (match e.insn with
      | .mma .. => k.accWaitMat e
      | _ => k.accHeld e)

/-- A cycle of the engine (R54, R56): the step whose issue cycles are not over issues when fewer than MX_LIMIT.N of the last 63 cycles
issued, and otherwise the limit withholds the cycle; an idle engine waits for an accumulator or for a held bank (R109). -/
def Core.mxTick (k : Core) : Core :=
  match k.steps.find? (fun st => st.issued < 32) with
  | some st =>
    if popcount (setField k.mxHist 63 1 0) < field (k.reg rMX_LIMIT) 0 7 then
      let k1 : Core := { k with
        mxHist := k.mxHist <<< 1 ||| 1
        steps := k.steps.map (fun x => if x.issued < 32 then { x with issued := x.issued + 1 } else x) }
      let cls := match st.entry.insn with
        | .mma _ _ _ fmt _ _ => mmaClass fmt.toNat
        | _ => 0
      (k1.count rMX_ISSUE 1).count (rPWC_MXC + 8 * cls) 1
    else Core.count { k with mxHist := k.mxHist <<< 1 } rMX_THROTTLE 1
  | none =>
    let k1 : Core := { k with mxHist := k.mxHist <<< 1 }
    if k.accWaiting then k1.count rMX_ACCWAIT 1
    else
      match k.matQ with
      | [] => k1
      | e :: _ =>
        match (e.reads ++ e.writes).find? k.padHeld with
        | some off => k1.count (bankWait off) 1
        | none => k1

/-- The tag a store format gives (R52, R86). -/
def storeTag (fmt : Nat) : AccTag := if fmt ≤ 4 then .fp32 else if fmt ≤ 6 then .int32 else .pair

/-- An accumulator zeroed with a tag (R52, R101). -/
def zeroAcc (tag : AccTag) : Acc := { Acc.reset with tag := tag }

/-- MZERO_EXECUTE (R52, R53). -/
def execMzeroExecute (c : CoreId) (s : State) : Host.Outcome State Fault Refusal :=
  .next (onLive c s (fun k =>
    match k.core.matQ with
    | [] => k
    | e :: rest =>
      match e.insn with
      | .mzero _ _ _ fmt acc inc =>
        if k.core.headWaits e then k
        else
          let k1 := { k with core := { k.core with matQ := rest } }
          if inc || 8 ≤ fmt.toNat || oddPair acc (fmt == 7) then k1.matInvalid e
          else
            { k1 with core := { k1.core with
                acc := (k1.core.matAccs e).foldl (fun m n => SMap.set m n (zeroAcc (storeTag fmt.toNat))) k1.core.acc } }
      | _ => k))

/-- Element j of a row in a store format. -/
def rowElem (l : Line) (off fmt j : Nat) : Nat :=
  let n := storeBytesOf fmt
  l.toNat / 2 ^ (8 * (off % 64 + n * j)) % 2 ^ (8 * n)

/-- The load of a tile (R52, R86). -/
def K.tileLoad (k : K) (e : MatEntry) (fmt n : Nat) : K :=
  let r := k.matLines e.rows
  let at_ := fun m => rowElem (nth 0 r.2 (m / 8)) (addrOff40 e.sa) fmt (m % 8)
  let c := r.1.core
  let c1 : Core :=
    if fmt = 7 then
      let hi : Acc := { zeroAcc .pair with
        elems := elemsOf ((List.range 128).map (fun m => (pairFrom (BitVec.ofNat 64 (at_ m))).hi)) }
      let lo : Acc := { zeroAcc .pair with
        elems := elemsOf ((List.range 128).map (fun m => (pairFrom (BitVec.ofNat 64 (at_ m))).lo)) }
      { c with acc := (c.acc.set n hi).set (n + 1) lo }
    else
      let a1 : Acc := { zeroAcc (storeTag fmt) with
        elems := elemsOf ((List.range 128).map (fun m => fromStore fmt (at_ m))) }
      { c with acc := c.acc.set n a1 }
  { r.1 with core := c1.rematch n }

/-- MLDA_EXECUTE (R52, R53): an invalid operation is found first, then an operand outside the scratchpad, then a misaligned address
(DESIGN CHOICE, log entry 102). -/
def execMldaExecute (c : CoreId) (s : State) : Host.Outcome State Fault Refusal :=
  .next (onLive c s (fun k =>
    match k.core.matQ with
    | [] => k
    | e :: rest =>
      match e.insn with
      | .mlda _ _ _ fmt acc inc =>
        if k.core.headWaits e then k
        else if k.core.anyHeld e.reads || k.core.hazard e.num e.reads [] then k
        else
          let k1 := { k with core := { k.core with matQ := rest } }
          if inc || 8 ≤ fmt.toNat || e.aStep = 0 || oddPair acc (fmt == 7) then k1.matInvalid e
          else if !insidePad k.c e.sa (15 * e.aStep) then k1.matOutside e e.sa
          else if !aligned e.sa 64 then k1.execFault 1 0x52 e.pc e.pc (addr48 e.sa)
          else k1.tileLoad e fmt.toNat acc.toNat
      | _ => k))

/-- A tile as MST sees it: the tag, the elements and, under a pair tag, their low parts. -/
structure Tile where
  tag : AccTag
  hi : List Word
  lo : List Word

/-- The tile of an accumulator. -/
def Core.tile (k : Core) (n : Nat) : Tile :=
  let a := k.accAt n
  let b := k.accAt (n + 1)
  { tag := a.tag, hi := (List.range 128).map (fun m => a.elems.get 0 m)
    lo := (List.range 128).map (fun m => b.elems.get 0 m) }

/-- The exact value of element m. -/
def Tile.val (t : Tile) (m : Nat) : FVal := elemVal t.tag (nth 0 t.hi m) (nth 0 t.lo m)

/-- The conversion of element m to a store format; a pair stored as pair32 is unchanged (R86). -/
def Tile.convert (t : Tile) (fmt : Nat) (r : Rnd) (sat : Bool) (m : Nat) : Conv :=
  if fmt = 7 then
    { bits := (pairBits { hi := nth 0 t.hi m, lo := nth 0 t.lo m }).toNat
      nan := t.val m == .nan, carried := true }
  else toStore fmt r sat (t.val m)

/-- The value the range check compares (R99): zero normalised, the hi part under a pair tag, FP32 by nearest-even under an
INT32 tag. -/
def Tile.checked (t : Tile) (m : Nat) : Word :=
  match t.tag with
  | .int32 => b32 .rne (t.val m)
  | _ => if abs32 (nth 0 t.hi m) = 0 then 0 else nth 0 t.hi m

/-- The channel of element (i, j) (R99). -/
def MatEntry.channel (e : MatEntry) (i j : Nat) : Nat :=
  (field (e.reg rMX_RCFG) 0 6 + (if (e.reg rMX_RCFG).getLsbD 6 then i else j)) % 64

/-- A range violation of element m: its channel and whether it is above (R99, R106). -/
def MatEntry.violates (e : MatEntry) (v : Word) (m : Nat) : Option (Nat × Bool) :=
  let ch := e.channel (m / 8) (m % 8)
  let lo := e.reg (rMX_RLO + 4 * ch)
  let hi := e.reg (rMX_RHI + 4 * ch)
  if le32 lo v && le32 v hi then none else some (ch, !isNaN v && !le32 v hi)

/-- The output range check (R99, R100). -/
def K.rangeCheck (k : K) (e : MatEntry) (t : Tile) : K :=
  let bad := (List.range 128).filterMap (fun m => (e.violates (t.checked m) m).map (fun p => (m, p)))
  match bad with
  | [] => k
  | (m, ch, above) :: _ =>
    let c1 := k.core.count rMX_RCNT bad.length
    let c2 := if (c1.reg rMX_RSTAT).getLsbD 31 then c1
      else (c1.setReg rMX_RSTAT (place 32 31 1 1 ||| flag 32 30 above ||| place 32 24 6 ch ||| place 32 20 4 (m / 8)
        ||| place 32 17 3 (m % 8) ||| place 32 0 14 e.pc)).setReg rMX_RVAL (t.checked m)
    K.report { k with core := c2 } 1 0x41 e.tag.toNat (numAddr k.core.secid e.pc
      (ch * 2 ^ 12 + (m / 8) * 2 ^ 8 + (m % 8) * 2 ^ 5 + (if above then 2 ^ 4 else 0)))

/-- A pair32 sum, in ascending order of the elements (DESIGN CHOICE, log entry 105). -/
def pairSum (ps : List Pair) : Pair := ps.foldl pairAdd { hi := 0, lo := 0 }

/-- The element as a pair. -/
def Tile.asPair (t : Tile) (m : Nat) : Pair :=
  match t.tag with
  | .pair => { hi := nth 0 t.hi m, lo := nth 0 t.lo m }
  | _ => { hi := nth 0 t.hi m, lo := 0 }

/-- One test of R102 fails: the sum of elements against the checksum, within 2^−T of the magnitude. -/
def Tile.testFails (t : Tile) (ms : List Nat) (chk : DWord) (mag : Word) (tol : Nat) : Bool :=
  match t.tag with
  | .int32 => isum (ms.map (fun m => (nth 0 t.hi m).toInt)) != chk
  | _ =>
    let c := pairFrom chk
    let d := pairAdd (pairSum (ms.map t.asPair)) { hi := neg32 c.hi, lo := neg32 c.lo }
    !fleX (fabs (pairVal d)) (fmul (fv mag) (.fin false 1 (-(tol : Int))))

/-- The failing tests in order: the columns, then the rows (R102, R106). -/
def Core.failedTests (k : Core) (t : Tile) (n : Nat) : List (Bool × Nat) :=
  let a := k.accAt n
  let cfg := k.reg rMX_CKCFG
  let tol := if t.tag = .pair then field cfg 8 6 else field cfg 0 5
  ((List.range 8).filter (fun j =>
      t.testFails ((List.range 16).map (fun i => 8 * i + j)) (a.rowSum.get 0 j) (a.rowMag.get 0 j) tol)).map (fun j => (false, j)) ++
    ((List.range 16).filter (fun i =>
      t.testFails ((List.range 8).map (fun j => 8 * i + j)) (a.colSum.get 0 i) (a.colMag.get 0 i) tol)).map (fun i => (true, i))

/-- The tile holds a NaN or an infinity, in either part of a pair (R102). -/
def Tile.special (t : Tile) : Bool :=
  t.tag != .int32 && (t.hi.any (fun w => !finite w) || (t.tag == .pair && t.lo.any (fun w => !finite w)))

/-- The checksum verification of MST (R102, R103); the state of a pair is kept with its high tile. A tile with a NaN or an infinity, or one
whose store produced a NaN (R105), is not verified. -/
def K.checksum (k : K) (e : MatEntry) (t : Tile) (n : Nat) (nan : Bool) : K :=
  if t.special || nan then { k with core := k.core.count rMX_CKSKIP 1 }
  else
    let k1 := { k with core := k.core.count rMX_CKDONE 1 }
    match k1.core.failedTests t n with
    | [] => k1
    | (axis, i) :: _ =>
      let c1 := k1.core.count rMX_CKCNT 1
      let c2 := if (c1.reg rMX_CKSTAT).getLsbD 31 then c1
        else c1.setReg rMX_CKSTAT (place 32 31 1 1 ||| flag 32 30 axis ||| place 32 20 5 i ||| place 32 18 2 n
          ||| place 32 0 14 e.pc)
      K.report { k1 with core := c2 } 1 0x42 e.tag.toNat (numAddr k.core.secid e.pc
        ((if axis then 2 ^ 17 else 0) + i * 2 ^ 13 + n * 2 ^ 11))

/-- The tile's rows written: only the bytes of the elements, each row by itself; they reach their banks in later cycles (R52, R112, R115,
R128). -/
def K.tileStore (k : K) (e : MatEntry) (fmt : Nat) (cs : List Conv) : K :=
  (List.range 16).foldl (fun a i =>
    let bytes := (List.range 8).flatMap (fun j =>
      leBytes (storeBytesOf fmt) (nth { bits := 0, nan := false, carried := false } cs (8 * i + j)).bits)
    (K.queueBytes a agMX e.num (addrOff40 e.sa + i * e.aStep) bytes).1) k

/-- The store of a tile with its checks, the range message before the checksum message (R86, R95 to R105). -/
def K.mstEffect (k : K) (e : MatEntry) (fmt n : Nat) : K :=
  let t := k.core.tile n
  let rs := k.core.roundings 128
  let cs := (List.range 128).map (fun m => t.convert fmt (nth .rne rs.2 m) k.core.satFp8 m)
  let nans := (List.range 128).filterMap (fun m =>
    let c := nth { bits := 0, nan := false, carried := false } cs m
    if c.nan then some (m, c.carried) else none)
  K.settle { k with core := { k.core with rng := rs.1 } } (e.src 3) nans (fun k =>
    let k1 := k.tileStore e fmt cs
    let k2 := if (k1.core.reg rMX_CTRL).getLsbD 2 then k1.rangeCheck e t else k1
    if (k2.core.reg rMX_CTRL).getLsbD 3 then k2.checksum e t n (!nans.isEmpty) else k2)

/-- MST_EXECUTE (R52, R53): errors are found in the order of MLDA_EXECUTE. The tag that decides a pair operation is that of the accumulator
the instruction names; the tag of the low tile is not looked at (DESIGN CHOICE, log entry 102). -/
def execMstExecute (c : CoreId) (s : State) : Host.Outcome State Fault Refusal :=
  .next (onLive c s (fun k =>
    match k.core.matQ with
    | [] => k
    | e :: rest =>
      match e.insn with
      | .mst _ _ _ fmt acc inc =>
        if k.core.headWaits e then k
        else if k.core.anyHeld e.writes || k.core.hazard e.num [] e.writes then k
        else
          let k1 := { k with core := { k.core with matQ := rest } }
          let pair := (k.core.accAt acc.toNat).tag = .pair
          if inc || 8 ≤ fmt.toNat || e.aStep = 0 || oddPair acc pair || (fmt == 7) != decide pair
              && !(decide pair && fmt == 0) then k1.matInvalid e
          else if !insidePad k.c e.sa (15 * e.aStep) then k1.matOutside e e.sa
          else if !aligned e.sa 64 then k1.execFault 1 0x52 e.pc e.pc (addr48 e.sa)
          else k1.mstEffect e fmt.toNat acc.toNat
      | _ => k))

end Sys2Proof.Machine
end

