-- ==== Sys2Proof/Machine/Dispatch.lean ====
section
/-! DEFINITION. The meaning of each command: one arm per row of the table of operations. -/

namespace Sys2Proof.Machine

def exec (i : Instr) (s : State) : Host.Outcome State Fault Refusal :=
  match i with
  | .add c d a b => Sys2Proof.Machine.execAdd c d a b s
  | .sub c d a b => Sys2Proof.Machine.execSub c d a b s
  | .andS c d a b => Sys2Proof.Machine.execAndS c d a b s
  | .orS c d a b => Sys2Proof.Machine.execOrS c d a b s
  | .xorS c d a b => Sys2Proof.Machine.execXorS c d a b s
  | .shl c d a b => Sys2Proof.Machine.execShl c d a b s
  | .shr c d a b => Sys2Proof.Machine.execShr c d a b s
  | .sra c d a b => Sys2Proof.Machine.execSra c d a b s
  | .slt c d a b => Sys2Proof.Machine.execSlt c d a b s
  | .sltu c d a b => Sys2Proof.Machine.execSltu c d a b s
  | .minS c d a b => Sys2Proof.Machine.execMinS c d a b s
  | .maxS c d a b => Sys2Proof.Machine.execMaxS c d a b s
  | .clz c d a => Sys2Proof.Machine.execClz c d a s
  | .popc c d a => Sys2Proof.Machine.execPopc c d a s
  | .mul c d a b => Sys2Proof.Machine.execMul c d a b s
  | .mulhu c d a b => Sys2Proof.Machine.execMulhu c d a b s
  | .addi c d a imm => Sys2Proof.Machine.execAddi c d a imm s
  | .andi c d a imm => Sys2Proof.Machine.execAndi c d a imm s
  | .ori c d a imm => Sys2Proof.Machine.execOri c d a imm s
  | .xori c d a imm => Sys2Proof.Machine.execXori c d a imm s
  | .shli c d a amt => Sys2Proof.Machine.execShli c d a amt s
  | .shri c d a amt => Sys2Proof.Machine.execShri c d a amt s
  | .srai c d a amt => Sys2Proof.Machine.execSrai c d a amt s
  | .lih c d a imm => Sys2Proof.Machine.execLih c d a imm s
  | .ldB c d a imm => Sys2Proof.Machine.execLdB c d a imm s
  | .ldH c d a imm => Sys2Proof.Machine.execLdH c d a imm s
  | .ldW c d a imm => Sys2Proof.Machine.execLdW c d a imm s
  | .ldD c d a imm => Sys2Proof.Machine.execLdD c d a imm s
  | .stB c d a imm => Sys2Proof.Machine.execStB c d a imm s
  | .stH c d a imm => Sys2Proof.Machine.execStH c d a imm s
  | .stW c d a imm => Sys2Proof.Machine.execStW c d a imm s
  | .stD c d a imm => Sys2Proof.Machine.execStD c d a imm s
  | .ldAcq c d a imm => Sys2Proof.Machine.execLdAcq c d a imm s
  | .stRel c d a imm => Sys2Proof.Machine.execStRel c d a imm s
  | .fenceAcq c => Sys2Proof.Machine.execFenceAcq c s
  | .fenceRel c => Sys2Proof.Machine.execFenceRel c s
  | .fence c => Sys2Proof.Machine.execFence c s
  | .csrr c d off => Sys2Proof.Machine.execCsrr c d off s
  | .csrw c d off => Sys2Proof.Machine.execCsrw c d off s
  | .beq c a b off => Sys2Proof.Machine.execBeq c a b off s
  | .bne c a b off => Sys2Proof.Machine.execBne c a b off s
  | .blt c a b off => Sys2Proof.Machine.execBlt c a b off s
  | .bge c a b off => Sys2Proof.Machine.execBge c a b off s
  | .j c off => Sys2Proof.Machine.execJ c off s
  | .jal c off => Sys2Proof.Machine.execJal c off s
  | .jr c a => Sys2Proof.Machine.execJr c a s
  | .nop c => Sys2Proof.Machine.execNop c s
  | .trap c => Sys2Proof.Machine.execTrap c s
  | .istoreWriteback c index => Sys2Proof.Machine.execIstoreWriteback c index s
  | .vadd c vd va vb => Sys2Proof.Machine.execVadd c vd va vb s
  | .vsub c vd va vb => Sys2Proof.Machine.execVsub c vd va vb s
  | .vmul c vd va vb => Sys2Proof.Machine.execVmul c vd va vb s
  | .vfma c vd va vb vc => Sys2Proof.Machine.execVfma c vd va vb vc s
  | .vmin c vd va vb => Sys2Proof.Machine.execVmin c vd va vb s
  | .vmax c vd va vb => Sys2Proof.Machine.execVmax c vd va vb s
  | .vabs c vd va => Sys2Proof.Machine.execVabs c vd va s
  | .vneg c vd va => Sys2Proof.Machine.execVneg c vd va s
  | .vcmplt c vd va vb => Sys2Proof.Machine.execVcmplt c vd va vb s
  | .vsel c vd va vb vc => Sys2Proof.Machine.execVsel c vd va vb vc s
  | .vrcp c vd va => Sys2Proof.Machine.execVrcp c vd va s
  | .vrsq c vd va => Sys2Proof.Machine.execVrsq c vd va s
  | .vexp2 c vd va => Sys2Proof.Machine.execVexp2 c vd va s
  | .vlog2 c vd va => Sys2Proof.Machine.execVlog2 c vd va s
  | .vredsum c vd va => Sys2Proof.Machine.execVredsum c vd va s
  | .vredmax c vd va => Sys2Proof.Machine.execVredmax c vd va s
  | .vcvt c vd va src dst => Sys2Proof.Machine.execVcvt c vd va src dst s
  | .vadd2 c vd va vb => Sys2Proof.Machine.execVadd2 c vd va vb s
  | .vmul2 c vd va vb => Sys2Proof.Machine.execVmul2 c vd va vb s
  | .vmova c vd acc p => Sys2Proof.Machine.execVmova c vd acc p s
  | .vmovaw c acc va p => Sys2Proof.Machine.execVmovaw c acc va p s
  | .vld c v sa off => Sys2Proof.Machine.execVld c v sa off s
  | .vst c v sa off => Sys2Proof.Machine.execVst c v sa off s
  | .vectorComplete c => Sys2Proof.Machine.execVectorComplete c s
  | .mma c sa sb fmt acc inc => Sys2Proof.Machine.execMma c sa sb fmt acc inc s
  | .mzero c sa sb fmt acc inc => Sys2Proof.Machine.execMzero c sa sb fmt acc inc s
  | .mlda c sa sb fmt acc inc => Sys2Proof.Machine.execMlda c sa sb fmt acc inc s
  | .mst c sa sb fmt acc inc => Sys2Proof.Machine.execMst c sa sb fmt acc inc s
  | .msync c sa sb fmt acc inc => Sys2Proof.Machine.execMsync c sa sb fmt acc inc s
  | .mmaStepBegin c => Sys2Proof.Machine.execMmaStepBegin c s
  | .mmaStepComplete c => Sys2Proof.Machine.execMmaStepComplete c s
  | .mzeroExecute c => Sys2Proof.Machine.execMzeroExecute c s
  | .mldaExecute c => Sys2Proof.Machine.execMldaExecute c s
  | .mstExecute c => Sys2Proof.Machine.execMstExecute c s
  | .mvq c a imm => Sys2Proof.Machine.execMvq c a imm s
  | .mvw c imm => Sys2Proof.Machine.execMvw c imm s
  | .copy c => Sys2Proof.Machine.execCopy c s
  | .fill c => Sys2Proof.Machine.execFill c s
  | .digest c => Sys2Proof.Machine.execDigest c s
  | .chunk c => Sys2Proof.Machine.execChunk c s
  | .send c a b => Sys2Proof.Machine.execSend c a b s
  | .sig c a b => Sys2Proof.Machine.execSig c a b s
  | .watch c d a b => Sys2Proof.Machine.execWatch c d a b s
  | .wait c d a b => Sys2Proof.Machine.execWait c d a b s
  | .waitExpiry c => Sys2Proof.Machine.execWaitExpiry c s
  | .atomFadd c d a b => Sys2Proof.Machine.execAtomFadd c d a b s
  | .atomSwap c d a b => Sys2Proof.Machine.execAtomSwap c d a b s
  | .atomCas c d a b => Sys2Proof.Machine.execAtomCas c d a b s
  | .atomUmax c d a b => Sys2Proof.Machine.execAtomUmax c d a b s
  | .atomAnd c d a b => Sys2Proof.Machine.execAtomAnd c d a b s
  | .atomOr c d a b => Sys2Proof.Machine.execAtomOr c d a b s
  | .endTask c => Sys2Proof.Machine.execEndTask c s
  | .fin c => Sys2Proof.Machine.execFin c s
  | .tagI c d => Sys2Proof.Machine.execTagI c d s
  | .argsI c d => Sys2Proof.Machine.execArgsI c d s
  | .qld c d a b => Sys2Proof.Machine.execQld c d a b s
  | .qvld c vd a => Sys2Proof.Machine.execQvld c vd a s
  | .qcp c a b => Sys2Proof.Machine.execQcp c a b s
  | .coreIdataWrite c o words => Sys2Proof.Machine.execCoreIdataWrite c o words s
  | .vecSrseedHiWrite c o v => Sys2Proof.Machine.execVecSrseedHiWrite c o v s
  | .shRegisterWrite c o off v => Sys2Proof.Machine.execShRegisterWrite c o off v s
  | .pairLoRead t o size tlp => Sys2Proof.Machine.execPairLoRead t o size tlp s
  | .spErrinfoRead c o => Sys2Proof.Machine.execSpErrinfoRead c o s
  | .mvErrRead c o => Sys2Proof.Machine.execMvErrRead c o s
  | .coreIstoreErrRead c o => Sys2Proof.Machine.execCoreIstoreErrRead c o s
  | .registerWrite t o d tlp => Sys2Proof.Machine.execRegisterWrite t o d tlp s
  | .bankpwrOn c o bank => Sys2Proof.Machine.execBankpwrOn c o bank s
  | .bankpwrRetain c o bank => Sys2Proof.Machine.execBankpwrRetain c o bank s
  | .bankpwrOff c o bank => Sys2Proof.Machine.execBankpwrOff c o bank s
  | .bankModeChangeEnd c bank => Sys2Proof.Machine.execBankModeChangeEnd c bank s
  | .bankWakeFillEnd c bank => Sys2Proof.Machine.execBankWakeFillEnd c bank s
  | .lineWriteback c bank => Sys2Proof.Machine.execLineWriteback c bank s
  | .scrubRead c => Sys2Proof.Machine.execScrubRead c s
  | .zeroFillEnd c => Sys2Proof.Machine.execZeroFillEnd c s
  | .remoteReadArrival c => Sys2Proof.Machine.execRemoteReadArrival c s
  | .remoteWriteAccept c => Sys2Proof.Machine.execRemoteWriteAccept c s
  | .remoteWriteTail c => Sys2Proof.Machine.execRemoteWriteTail c s
  | .rdrspArrival c => Sys2Proof.Machine.execRdrspArrival c s
  | .ackArrival c => Sys2Proof.Machine.execAckArrival c s
  | .errArrival c => Sys2Proof.Machine.execErrArrival c s
  | .packetInjection src => Sys2Proof.Machine.execPacketInjection src s
  | .flitArrival f bad => Sys2Proof.Machine.execFlitArrival f bad s
  | .ringOnRamp f => Sys2Proof.Machine.execRingOnRamp f s
  | .ringOffRamp f => Sys2Proof.Machine.execRingOffRamp f s
  | .waypointRelay f => Sys2Proof.Machine.execWaypointRelay f s
  | .packetDelivery f => Sys2Proof.Machine.execPacketDelivery f s
  | .reduceMergeSend px py slot => Sys2Proof.Machine.execReduceMergeSend px py slot s
  | .transactionTimeout c slot => Sys2Proof.Machine.execTransactionTimeout c slot s
  | .congestionMapPublish => Sys2Proof.Machine.execCongestionMapPublish s
  | .routeMapRewrite => Sys2Proof.Machine.execRouteMapRewrite s
  | .floorPlanChange ev => Sys2Proof.Machine.execFloorPlanChange ev s
  | .tokenArrival c => Sys2Proof.Machine.execTokenArrival c s
  | .heldOfferRetry c => Sys2Proof.Machine.execHeldOfferRetry c s
  | .reduceArrival c => Sys2Proof.Machine.execReduceArrival c s
  | .creditReturnArrival c => Sys2Proof.Machine.execCreditReturnArrival c s
  | .sigArrival c => Sys2Proof.Machine.execSigArrival c s
  | .watchRequest c => Sys2Proof.Machine.execWatchRequest c s
  | .wmsgArrival c => Sys2Proof.Machine.execWmsgArrival c s
  | .atomAtHome c => Sys2Proof.Machine.execAtomAtHome c s
  | .lendingStart c => Sys2Proof.Machine.execLendingStart c s
  | .arm c o => Sys2Proof.Machine.execArm c o s
  | .start c o => Sys2Proof.Machine.execStart c o s
  | .boundaryComplete c => Sys2Proof.Machine.execBoundaryComplete c s
  | .dfCtrlEnd c o => Sys2Proof.Machine.execDfCtrlEnd c o s
  | .abort c o => Sys2Proof.Machine.execAbort c o s
  | .clear c o => Sys2Proof.Machine.execClear c o s
  | .abortComplete c => Sys2Proof.Machine.execAbortComplete c s
  | .abortLineSignal c => Sys2Proof.Machine.execAbortLineSignal c s
  | .taskFire c => Sys2Proof.Machine.execTaskFire c s
  | .steerPointFire c u => Sys2Proof.Machine.execSteerPointFire c u s
  | .mergePointFire c u => Sys2Proof.Machine.execMergePointFire c u s
  | .progressPulse slot => Sys2Proof.Machine.execProgressPulse slot s
  | .deadlockDetection c => Sys2Proof.Machine.execDeadlockDetection c s
  | .reInjection c ich => Sys2Proof.Machine.execReInjection c ich s
  | .stallLimit c => Sys2Proof.Machine.execStallLimit c s
  | .slotQuiet slot => Sys2Proof.Machine.execSlotQuiet slot s
  | .submit p r host pkg => Sys2Proof.Machine.execSubmit p r host pkg s
  | .kill p r host => Sys2Proof.Machine.execKill p r host s
  | .unload p r host => Sys2Proof.Machine.execUnload p r host s
  | .unknownKindRecord p r host => Sys2Proof.Machine.execUnknownKindRecord p r host s
  | .jobPlacement p r clusters => Sys2Proof.Machine.execJobPlacement p r clusters s
  | .stageStart p r jobid => Sys2Proof.Machine.execStageStart p r jobid s
  | .jobCompletionPublish p r jobid => Sys2Proof.Machine.execJobCompletionPublish p r jobid s
  | .completionPublishResume p r => Sys2Proof.Machine.execCompletionPublishResume p r s
  | .clusterScrub cl => Sys2Proof.Machine.execClusterScrub cl s
  | .clusterScrubEnd cl => Sys2Proof.Machine.execClusterScrubEnd cl s
  | .jbPcfgWrite o p v clusters => Sys2Proof.Machine.execJbPcfgWrite o p v clusters s
  | .jbPinWrite o p w v => Sys2Proof.Machine.execJbPinWrite o p w v s
  | .partitionAssignmentComplete p => Sys2Proof.Machine.execPartitionAssignmentComplete p s
  | .ringPairEnable o p r => Sys2Proof.Machine.execRingPairEnable o p r s
  | .ringPairDisable o p r => Sys2Proof.Machine.execRingPairDisable o p r s
  | .ringErrClear o p r => Sys2Proof.Machine.execRingErrClear o p r s
  | .jbScrubmapWrite o cl => Sys2Proof.Machine.execJbScrubmapWrite o cl s
  | .omRead t fails => Sys2Proof.Machine.execOmRead t fails s
  | .omWholeLineWrite t => Sys2Proof.Machine.execOmWholeLineWrite t s
  | .omPartialWrite t fails => Sys2Proof.Machine.execOmPartialWrite t fails s
  | .omAtom t fails => Sys2Proof.Machine.execOmAtom t fails s
  | .terminusAdmissionResume t => Sys2Proof.Machine.execTerminusAdmissionResume t s
  | .omExtWrite o w v => Sys2Proof.Machine.execOmExtWrite o w v s
  | .extentZeroFillEnd k => Sys2Proof.Machine.execExtentZeroFillEnd k s
  | .rotate o p => Sys2Proof.Machine.execRotate o p s
  | .epochFlipApplied p t => Sys2Proof.Machine.execEpochFlipApplied p t s
  | .sweepStart p => Sys2Proof.Machine.execSweepStart p s
  | .sweepLine p lineOff fails => Sys2Proof.Machine.execSweepLine p lineOff fails s
  | .sweepComplete p => Sys2Proof.Machine.execSweepComplete p s
  | .stackLost t stk => Sys2Proof.Machine.execStackLost t stk s
  | .yardPoll answered => Sys2Proof.Machine.execYardPoll answered s
  | .linkTrainingComplete flitMode width rate mps mrrs => Sys2Proof.Machine.execLinkTrainingComplete flitMode width rate mps mrrs s
  | .linkTrainingRetry => Sys2Proof.Machine.execLinkTrainingRetry s
  | .linkDown => Sys2Proof.Machine.execLinkDown s
  | .hotReset => Sys2Proof.Machine.execHotReset s
  | .flrPf => Sys2Proof.Machine.execFlrPf s
  | .flrVf p => Sys2Proof.Machine.execFlrVf p s
  | .inboxWrite fn off data tlp => Sys2Proof.Machine.execInboxWrite fn off data tlp s
  | .inboxOrdRelease fn => Sys2Proof.Machine.execInboxOrdRelease fn s
  | .inboxRead fn off len tlp => Sys2Proof.Machine.execInboxRead fn off len tlp s
  | .descriptorWrite o set d dw v => Sys2Proof.Machine.execDescriptorWrite o set d dw v s
  | .space4Request => Sys2Proof.Machine.execSpace4Request s
  | .hostCompletionArrival tag status data tlp => Sys2Proof.Machine.execHostCompletionArrival tag status data tlp s
  | .completionTimeout tag => Sys2Proof.Machine.execCompletionTimeout tag s
  | .getReport fn nonce => Sys2Proof.Machine.execGetReport fn nonce s
  | .keyExchange fn stream qh nonce => Sys2Proof.Machine.execKeyExchange fn stream qh nonce s
  | .keySet fn stream go => Sys2Proof.Machine.execKeySet fn stream go s
  | .keyStop fn stream => Sys2Proof.Machine.execKeyStop fn stream s
  | .tdisp p req stream => Sys2Proof.Machine.execTdisp p req stream s
  | .debugNonce fn => Sys2Proof.Machine.execDebugNonce fn s
  | .debugUnlock fn serial nonce want sigOk => Sys2Proof.Machine.execDebugUnlock fn serial nonce want sigOk s
  | .spanRequest t => Sys2Proof.Machine.execSpanRequest t s
  | .spanFlitReceive port flit uncorrectable corrected => Sys2Proof.Machine.execSpanFlitReceive port flit uncorrectable corrected s
  | .spanSignalSend port => Sys2Proof.Machine.execSpanSignalSend port s
  | .spanTransactionTimeout port stxid => Sys2Proof.Machine.execSpanTransactionTimeout port stxid s
  | .spanPortDown port lockLost => Sys2Proof.Machine.execSpanPortDown port lockLost s
  | .spanTrainingComplete port rtt => Sys2Proof.Machine.execSpanTrainingComplete port rtt s
  | .keyingComplete port sigOk rootOk flagsOk closed peerDigest => Sys2Proof.Machine.execKeyingComplete port sigOk rootOk flagsOk closed peerDigest s
  | .keyingRetry port => Sys2Proof.Machine.execKeyingRetry port s
  | .spanRekey port => Sys2Proof.Machine.execSpanRekey port s
  | .clockLeadLoss => Sys2Proof.Machine.execClockLeadLoss s
  | .referenceSwitchEnd => Sys2Proof.Machine.execReferenceSwitchEnd s
  | .referenceReturn => Sys2Proof.Machine.execReferenceReturn s
  | .localOscillatorFailure => Sys2Proof.Machine.execLocalOscillatorFailure s
  | .fieldPllLoss f => Sys2Proof.Machine.execFieldPllLoss f s
  | .seamMarginExhausted f side => Sys2Proof.Machine.execSeamMarginExhausted f side s
  | .clusterTreeWake c => Sys2Proof.Machine.execClusterTreeWake c s
  | .clusterTreeStop cl => Sys2Proof.Machine.execClusterTreeStop cl s
  | .railShort cl peak => Sys2Proof.Machine.execRailShort cl peak s
  | .fieldRegulatorFailure f => Sys2Proof.Machine.execFieldRegulatorFailure f s
  | .rowRegulatorFailure row => Sys2Proof.Machine.execRowRegulatorFailure row s
  | .powerMeasurement input vin fields rows => Sys2Proof.Machine.execPowerMeasurement input vin fields rows s
  | .clusterEstimate cl => Sys2Proof.Machine.execClusterEstimate cl s
  | .thermalSample clusters bases => Sys2Proof.Machine.execThermalSample clusters bases s
  | .thermalShiftUpdate cl => Sys2Proof.Machine.execThermalShiftUpdate cl s
  | .heatReturn cl => Sys2Proof.Machine.execHeatReturn cl s
  | .pwCapsusWrite o v => Sys2Proof.Machine.execPwCapsusWrite o v s
  | .pwThrWrite o v => Sys2Proof.Machine.execPwThrWrite o v s
  | .ckRefctlWrite o v => Sys2Proof.Machine.execCkRefctlWrite o v s
  | .slClkleadWrite o v => Sys2Proof.Machine.execSlClkleadWrite o v s
  | .powerOn found => Sys2Proof.Machine.execPowerOn found s
  | .stage o => Sys2Proof.Machine.execStage o s
  | .updateStaged result kinds raise => Sys2Proof.Machine.execUpdateStaged result kinds raise s
  | .commit o => Sys2Proof.Machine.execCommit o s
  | .commitComplete => Sys2Proof.Machine.execCommitComplete s
  | .cancel o => Sys2Proof.Machine.execCancel o s
  | .apply o => Sys2Proof.Machine.execApply o s
  | .fieldSettingsWrite => Sys2Proof.Machine.execFieldSettingsWrite s
  | .save o => Sys2Proof.Machine.execSave o s
  | .coreReset c => Sys2Proof.Machine.execCoreReset c s
  | .coreResetEnd c => Sys2Proof.Machine.execCoreResetEnd c s
  | .clusterReset cl => Sys2Proof.Machine.execClusterReset cl s
  | .partitionReset o p => Sys2Proof.Machine.execPartitionReset o p s
  | .partitionDrainComplete p => Sys2Proof.Machine.execPartitionDrainComplete p s
  | .partitionDrainLate p => Sys2Proof.Machine.execPartitionDrainLate p s
  | .wholeDeviceReset cause cold => Sys2Proof.Machine.execWholeDeviceReset cause cold s
  | .enableDeassert => Sys2Proof.Machine.execEnableDeassert s
  | .powerLoss => Sys2Proof.Machine.execPowerLoss s
  | .weightsScanStart c => Sys2Proof.Machine.execWeightsScanStart c s
  | .weightsScanEnd c => Sys2Proof.Machine.execWeightsScanEnd c s
  | .fltWctlWrite c o v => Sys2Proof.Machine.execFltWctlWrite c o v s
  | .signalBoxReceive f => Sys2Proof.Machine.execSignalBoxReceive f s
  | .faultMessageArrival src => Sys2Proof.Machine.execFaultMessageArrival src s
  | .replayRestart p r jobid => Sys2Proof.Machine.execReplayRestart p r jobid s
  | .outputDecision p r jobid arg => Sys2Proof.Machine.execOutputDecision p r jobid arg s
  | .stageHoldExpiry p r jobid stage => Sys2Proof.Machine.execStageHoldExpiry p r jobid stage s
  | .signalBoxSilent f => Sys2Proof.Machine.execSignalBoxSilent f s
  | .yardControllerStopped => Sys2Proof.Machine.execYardControllerStopped s
  | .collectorDisagreement off => Sys2Proof.Machine.execCollectorDisagreement off s
  | .fnrxClear o => Sys2Proof.Machine.execFnrxClear o s
  | .clusterSelfTest cl => Sys2Proof.Machine.execClusterSelfTest cl s
  | .fcTreqWrite o cl => Sys2Proof.Machine.execFcTreqWrite o cl s
  | .selfTestEnd cl failing => Sys2Proof.Machine.execSelfTestEnd cl failing s
  | .spanRecalibration port => Sys2Proof.Machine.execSpanRecalibration port s
  | .fcRreqWrite o port => Sys2Proof.Machine.execFcRreqWrite o port s
  | .recalAck port => Sys2Proof.Machine.execRecalAck port s
  | .recalEnd port => Sys2Proof.Machine.execRecalEnd port s
  | .fuseCompare differs => Sys2Proof.Machine.execFuseCompare differs s
  | .rngHealthTest t failure => Sys2Proof.Machine.execRngHealthTest t failure s
  | .ephemeralScalarExpiry stream => Sys2Proof.Machine.execEphemeralScalarExpiry stream s
  | .dbglock o v => Sys2Proof.Machine.execDbglock o v s
  | .localMoverCompletion c => Sys2Proof.Machine.execLocalMoverCompletion c s
  | .settingsRecordWritten => Sys2Proof.Machine.execSettingsRecordWritten s
  | .spanPortEnWrite o port v => Sys2Proof.Machine.execSpanPortEnWrite o port v s
  | .leadLockRegained => Sys2Proof.Machine.execLeadLockRegained s
  | .terminusInternalFailure t => Sys2Proof.Machine.execTerminusInternalFailure t s
  | .debugPortAccess want => Sys2Proof.Machine.execDebugPortAccess want s

end Sys2Proof.Machine
end

