-- ==== Sys2Proof/Machine/Tick.lean ====
section
/-! DEFINITION. What passes with a cycle of the network clock when no command waits: the counters of time and of waiting, the ages that
timeouts and the two-stage changes compare, engine writes on their way to the banks, weights scans, and the flits of the span ports (log
entry 1). -/

namespace Sys2Proof.Machine

/-- No task or point firing of a unit is running or ready (R230). -/
def Core.unitWaits (k : Core) (u : Nat) : Bool :=
  !(match k.running with
    | some r => r.u.toNat == u
    | none => false) && !k.readyQ.any (fun e => e.u.toNat == u)

/-- A store entry of the unit that reads the channel lacks it (R230). -/
def Core.channelLacks (k : Core) (n : Nat) : Bool :=
  match k.readerOf n with
  | some u => k.store.any (fun e => e.u.toNat == u && !e.mask.getLsbD n)
  | none => false

/-- A cycle of the stall counters that do not hang on the instruction at issue (R230). -/
def Core.stallTick (k : Core) : Core :=
  let k1 := k.validUnits.foldl (fun (a : Core) u =>
    let a1 := if k.unitWaits u then a.count (rDF_UWIN + 0x40 * u) 1 else a
    if k.pointBlocked u then a1.count (rDF_UWOUT + 0x40 * u) 1 else a1) k
  (List.range 16).foldl (fun (a : Core) n =>
    if k.ichActive n then
      let a1 := if k.channelLacks n then a.count (rDF_QIN + 0x20 * n) 1 else a
      if k.fullQueue n then a1.count (rDF_QOUT + 0x20 * n) 1 else a1
    else a) k1

/-- DF_NOPROG a cycle on; it saturates (R222). -/
def Core.noprogTick (k : Core) : Core :=
  let v := (k.reg rDF_NOPROG).toNat
  if v + 1 < 2 ^ 32 then k.setReg rDF_NOPROG (BitVec.ofNat 32 (v + 1)) else k

/-- A WAIT in progress a cycle on (R194). -/
def Core.waitTick (k : Core) : Core :=
  match k.waiting with
  | none => k
  | some w => { k.count rSY_WAITCYC 1 with waiting := some { w with elapsed := w.elapsed + 1 } }

/-- The cycles a core has waited for, and those it has lent (R196). -/
def Core.lendTick (k : Core) : Core :=
  let k1 : Core := { k with idleCc := if k.lendable then k.idleCc + 1 else 0 }
  if k.lent then k1.count rSY_LENTCYC 1 else k1

/-- A cycle on of the transaction slots in use (R168). -/
def Core.slotTick (k : Core) : Core :=
  { k with slots := k.slots.map (fun (e : Nat × Slot) =>
      if e.2.use.isSome then (e.1, { e.2 with age := e.2.age + 1 }) else e) }

/-- A cycle in which a task runs and nothing issues: CORE_SQSTALL counts it, and the counters of what holds the instruction at issue (R18, R73,
R109, R181, R230). -/
def Core.sqTick (k : Core) : Core :=
  if k.df == .run && k.running.isSome && !k.issued then
    let k1 := k.count rCORE_SQSTALL 1
    if k.seq == .stall then k.stallOn.foldl (fun (a : Core) r => a.count r 1) k1 else k1
  else { k with issued := false }

/-- A cycle on of a core whose compute logic works (R54, R56, R73, R109, R230). -/
def Core.cycleOn (c : CoreId) (k : Core) : Core :=
  let k1 := (k.waitTick.lendTick.sqTick.mxTick.vecTick).mvTick c
  if k1.df == .run then k1.stallTick.noprogTick else k1

/-- Where the scratchpad accesses that wait at a core's network interface go: requests that have arrived, accepted writes, and tokens, whose
queues lie in bank 7 (R109, R110). -/
def State.netWaits (s : State) (c : CoreId) : List Nat :=
  (s.inbox.filter (fun e => e.1 == c && e.2.space == 0 && (e.2.op.toNat ≤ 2 || e.2.op == 7 || isToken e.2))).map (fun e => e.2.off.toNat) ++
    (s.accepted.filter (fun a => a.core == c)).flatMap (fun a => a.lines.take 1)

/-- A cycle in which the network interface waits for banks that are held: one wait for each bank (R109, R120). -/
def Core.netTick (offs : List Nat) (k : Core) : Core :=
  if k.recode == 0 && !k.zeroing then k
  else
    (((offs.filter (fun o => decide (o < padSize) && k.padHeld o)).map bankWait).eraseDups).foldl (fun (a : Core) r => a.count r 1) k

/-- A cycle on of every core that is listed; a core that is not has nothing that a cycle advances. -/
def State.coresTick (s : State) : State :=
  { s with cores := s.cores.map (fun (e : Nat × Core) =>
      let c := coreAt (e.1 % 558) (e.1 / 558)
      if s.alive c then (e.1, (e.2.slotTick.cycleOn c).netTick (s.netWaits c))
      else if s.present c then (e.1, e.2.slotTick.netTick (s.netWaits c)) else e) }

/-- A cycle of a core's banks: writes of its engines go into them, and the mover goes on when the last of its own has; a weights scan reads a
line (R63, R71, R109, R128). -/
def K.bankCycle (k : K) : K :=
  let k1 := k.drainBanks
  let k2 := if k.core.mvWrites && !k1.core.mvWrites then k1.mvGoOn else k1
  k2.scanCycle

/-- The cores whose engines have writes on their way, or that scan their weights. -/
def State.bankTick (s : State) : State :=
  let busy := s.cores.filter (fun (e : Nat × Core) => !e.2.lineWr.isEmpty || e.2.scan.isSome)
  (busy.map (fun (e : Nat × Core) => coreAt (e.1 % 558) (e.1 / 558))).eraseDups.foldl (fun (a : State) c =>
    if a.alive c then onCoreSettled c a K.bankCycle else if a.present c then onCoreSettled c a K.drainBanks else a) s

/-! ### The network -/

/-- The router and the VC, as RT_BLK numbers it, at which a packet stands (R148, R173). -/
def Flight.place (x : Flight) : Option (Nat × Nat × Nat) :=
  match x.loc with
  | .router px py _ => some (px, py, x.vc)
  | .station y line pos _ => some ((stationRouter y line pos).1, (stationRouter y line pos).2, 2 + x.vc)
  | _ => none

/-- A cycle of the blocked counters: which of the VCs that hold packets cannot advance is free (R173, log entry 67). -/
def State.blockTick (s : State) : State :=
  if s.flights.isEmpty then s
  else
    let at' := (s.flights.filterMap Flight.place).eraseDups
    let rs := (at'.map (fun e => (e.1, e.2.1))).eraseDups
    let s1 := rs.foldl (fun (a : State) r =>
      let vs := (at'.filter (fun e => e.1 == r.1 && e.2.1 == r.2)).map (fun e => e.2.2)
      let b := vs.filter (fun v => (Config.blockedVcs s.freeCtr (routerKey r.2 r.1)).getLsbD v)
      if b.isEmpty then a
      else
        a.onRouter r.1 r.2 (fun q =>
          let q1 := b.foldl (fun (q : Router) v => q.count (rRT_BLK + 8 * v) 1) q
          { q1 with blocked := q1.blocked + 1 })) s
    { s1 with freeCtr := s.freeCtr + 1 }

/-! ### Lending, the yard -/

/-- The start or end of a core's lending reaches its cluster's controller (R335). -/
def State.lendEvents (s : State) : State :=
  let ev := s.cores.filter (fun (e : Nat × Core) => e.2.lent != e.2.lentSeen)
  if ev.isEmpty then s
  else
    let s1 : State := { s with cores := s.cores.map (fun (e : Nat × Core) => (e.1, { e.2 with lentSeen := e.2.lent })) }
    let cls := (ev.map (fun (e : Nat × Core) =>
      let p := s.phys (coreAt (e.1 % 558) (e.1 / 558))
      clusterOf p.1 p.2)).eraseDups
    cls.foldl State.limitCluster s1

/-- A yard cycle, 20 ns: nanoseconds of full termini (R275) and of span ports held off (R307), seconds since the DRAM screen (R357), a
flit of every span port and what its receiver may take up (R303 to R309, log entries 33, 112), and core resets of kills that are due
(R260). -/
def State.yardTick (s : State) : State :=
  let yc := s.yc + 1
  let s1 := s.termini.foldl (fun (a : State) (e : Nat × Terminus) =>
    if e.2.full then a.ycount (yOM + 0x10000 * e.1 + 0x038) 20 else a) s
  let s2 := s.span.foldl (fun (a : State) (e : Nat × SpanPort) =>
    if e.2.xoffRx != 0 && e.2.state == 3 then a.ycount (spanOff e.1 + 0x40) 20 else a) s1
  let age := s.bu.scrAge
  let bu : BringUp :=
    { s.bu with scrAge := if yc.toNat % 50000000 = 0 ∧ age ≠ 0xFFFFFFFF then age + 1 else age }
  let s3 : State := { s2 with yc := yc, bu := bu }
  let s4 := s3.span.foldl (fun (a : State) (e : Nat × SpanPort) => (a.sendFlit e.1).spanFlow e.1) s3
  s4.killTick

/-- A cycle of the network clock; the yard clock has an edge in some of them (R17, log entry 4). Without power only the time the model
keeps goes on. -/
def tick (s : State) : State :=
  let edge := Config.yardEdge s.cc
  let s1 : State := { s with cc := s.cc + 1 }
  if s.bu.power then
    let s2 := s1.coresTick.lendEvents.bankTick.blockTick
    if edge then s2.yardTick else s2
  else s1

end Sys2Proof.Machine
end

