-- ==== Sys2Proof/Safety.lean ====
section
/-! DEFINITION. What a sound state of the block is, and what a command does and leaves alone, in the terms the statements use. -/

namespace Sys2Proof.Machine

/-! ### Canonical memories -/

/-- The scratchpad of every core that is listed is in canonical form. -/
def State.padsCanonical (s : State) : Prop := ∀ e ∈ s.cores, Mem.wf e.2.mem

/-- Outer memory is in canonical form. -/
def State.outerCanonical (s : State) : Prop := Mem.wf s.om.mem

/-- Every memory of the block is in canonical form: equal memories are equal data. -/
def State.memoriesCanonical (s : State) : Prop := s.padsCanonical ∧ s.outerCanonical

/-! ### Commands that issue an instruction -/

/-- Nothing hinders the sequencer of a core from issuing instruction `i` now: its core is alive and runs a task, no LD.ACQ
waits, and the word at its program counter stands for `i` and has no wrong bit (R41, R46, R48, R131, R208). -/
abbrev State.issues (s : State) (c : CoreId) (i : Instr) : Prop :=
  s.alive c = true ∧ (s.core c).canIssue = true ∧ (s.core c).acquiring = false ∧ (s.core c).pc ≤ 16383 ∧
    (s.core c).istoreErr.get 0 (s.core c).pc = 0 ∧ decodeInsn c ((s.core c).insnAt (s.core c).pc) = some i

/-- None of the registers waits for a remote answer (R45). -/
abbrev State.free (s : State) (c : CoreId) (rs : List SReg) : Prop := ∀ r ∈ rs, (s.core c).awaits r = false

/-- Every core but one is as before. -/
def State.othersKept (s t : State) (c : CoreId) : Prop :=
  t.bu.phase = s.bu.phase ∧ ∀ n, n ≠ coreKey c → t.cores.get s.blankCore n = s.cores.get s.blankCore n

/-- Nothing has changed but one core and the progress mark of its section's slot. -/
def State.onlyCore (s t : State) (c : CoreId) : Prop :=
  t = { s with cores := t.cores, slots := t.slots } ∧ s.othersKept t c ∧
    ∀ n, t.slots.get .reset n =
      if n = (s.core c).slotNo then { s.slots.get .reset n with progress := true } else s.slots.get .reset n

/-- The instruction at issue is held: the sequencer stalls, the counters `cs` are those that a cycle of the hold advances beside
CORE_SQSTALL, and nothing else of the block changes (R18, R42, R73). -/
def State.held (s t : State) (c : CoreId) (cs : List Nat) : Prop :=
  t = { s with cores := t.cores } ∧ t.core c = { s.core c with seq := .stall, stallOn := cs } ∧ s.othersKept t c

/-- The counters and registers that retiring an instruction changes (R73, R222, R347). -/
def retireRegs : List Nat := [rCORE_RETIRED, rCORE_RETIRED + 4, rPWC_SEQ, rPWC_SEQ + 4, rDF_NOPROG]

/-- The core's instruction has retired: the program counter, the counters of retired instructions and the progress counter
are as the rules say, and no register outside `also` has changed besides. -/
def Core.retired (k k' : Core) (pc : Nat) (also : List Nat) : Prop :=
  k'.pc = pc ∧ k'.seq = .run ∧ k'.stallOn = [] ∧ k'.issued = true ∧ pairAt k'.regs rCORE_RETIRED = pairAt k.regs rCORE_RETIRED + 1 ∧
    pairAt k'.regs rPWC_SEQ = pairAt k.regs rPWC_SEQ + 1 ∧ k'.reg rDF_NOPROG = 0 ∧
    ∀ off, off ∉ retireRegs → off ∉ also → k'.reg off = k.reg off

/-- Only scalar registers, registers of the block and the program counter may differ: memories, vector registers,
accumulators, queues and the section's state are as before. -/
def Core.engineKept (k k' : Core) : Prop :=
  k' = { k with s := k'.s, regs := k'.regs, pc := k'.pc, seq := k'.seq, stallOn := k'.stallOn, issued := k'.issued }

/-- Every scalar register but `d` is as before, and `d` holds `v`; s0 reads as 0 always (R41). -/
def Core.sregsSet (k k' : Core) (d : SReg) (v : DWord) : Prop :=
  ∀ r : SReg, k'.sreg r = if r = 0 then 0 else if r = d then v else k.sreg r

/-- Every scalar register is as before. -/
def Core.sregsKept (k k' : Core) : Prop := ∀ r : SReg, k'.sreg r = k.sreg r

/-- Instruction `i` issues, writes `v` to `d`, retires, goes on at `pc` and changes nothing else. -/
def State.computes (s : State) (c : CoreId) (i : Instr) (d : SReg) (v : DWord) (pc : Nat) : Prop :=
  s.issues c i → ∃ t, exec i s = .next t ∧ s.onlyCore t c ∧ (s.core c).engineKept (t.core c) ∧
    (s.core c).retired (t.core c) pc [] ∧ (s.core c).sregsSet (t.core c) d v

/-- An instruction of the core has stopped with an execution fault (R49, R77): recorded and reported, the sequencer trapped
and the section aborting with its slot's abort line signalled; registers, memory and the other cores are as before. -/
def State.execFaulted (s t : State) (c : CoreId) (block kind pc detail addr : Nat) : Prop :=
  (t.core c).seq = .trapped ∧ (t.core c).df = .aborting ∧
    (t.core c).reg rCORE_TRAP = BitVec.ofNat 32 (2 ^ 31 + kind) ∧ (t.core c).reg rCORE_TRAPPC = BitVec.ofNat 32 pc ∧
    (∃ m, t.transit = s.transit ++ [m] ∧ m.block = BitVec.ofNat 5 block ∧ m.kind = BitVec.ofNat 8 kind ∧
      m.detail = BitVec.ofNat 16 detail ∧ m.address = BitVec.ofNat 48 addr) ∧
    (t.slots.get .reset (s.core c).slotNo).abortLine.isSome = true ∧
    (t.core c).s = (s.core c).s ∧ (t.core c).mem = (s.core c).mem ∧ (t.core c).vregs = (s.core c).vregs ∧
    (t.core c).acc = (s.core c).acc ∧ s.othersKept t c ∧
    t = { s with cores := t.cores, slots := t.slots, transit := t.transit }

/-! ### Accesses of the sequencer -/

/-- The address of a load or store (R45). -/
def Core.target (k : Core) (a : SReg) (imm : BitVec 16) : DWord := k.sreg a + BitVec.ofInt 64 imm.toInt

/-- An aligned access of `n` bytes to the core's own scratchpad that nothing delays or refuses (R45, R46, R109, R112). -/
abbrev Core.localAccess (k : Core) (c : CoreId) (ad : DWord) (n : Nat) (write : Bool) : Prop :=
  isOwnSpad c ad = true ∧ ad.toNat % n = 0 ∧ addrOff40 ad < 0x60000 ∧ k.padHeld (addrOff40 ad) = false ∧
    k.hazard k.num (if write then [] else [addrOff40 ad]) (if write then [addrOff40 ad] else []) = false ∧
    k.refusal write (addrOff40 ad) = none ∧
    k.cleanLine (addrOff40 ad / 64 * 64) = true

/-- An aligned access of `n` bytes to another core, to outer memory or beyond, for which the core has a slot and no copy of
the line (R45, R125, R168). -/
abbrev Core.remoteAccess (k : Core) (c : CoreId) (ad : DWord) (n i : Nat) : Prop :=
  addrClass c ad = .remote ∧ ad.toNat % n = 0 ∧ k.freeSlot 0 8 = some i ∧ k.rlbFind ad = none ∧ k.fetching ad = none

/-- Bank 7, where the channel queues and the spill area lie, serves accesses (R110, R122). -/
abbrev Core.queuesOn (k : Core) : Prop := (k.bank 7).serves = true

/-- `n` bytes of the core's scratchpad at an offset hold `v`, and every other byte is as before. -/
def Core.bytesSet (k k' : Core) (off n : Nat) (v : DWord) : Prop :=
  ∀ p, Mem.read k'.mem p = if off ≤ p ∧ p < off + n then v.extractLsb' (8 * (p - off)) 8 else Mem.read k.mem p

/-- A valid command of one row that stays within the core's own scratchpad, with nothing in its way. -/
abbrev State.moverStarts (s : State) (c : CoreId) (m : MvCmd) (rest : List MvCmd) (n : Nat) : Prop :=
  let k := s.core c
  s.alive c = true ∧ k.mvAct = none ∧ k.mvQ = m :: rest ∧ m.valid c = true ∧ m.rows = 1 ∧ k.mvSees m = true ∧ m.rel = false ∧
    (∀ i, i < n → (m.op ≠ 2 → k.mvHeld (addrOff40 m.src + 64 * i) = false ∧ k.refusal false (addrOff40 m.src + 64 * i) = none ∧ k.cleanLine (addrOff40 m.src + 64 * i) = true) ∧
      (m.op ≤ 2 → k.refusal true (addrOff40 m.dst + 64 * i) = none)) ∧
    (m.op ≠ 2 → isOwnSpad c m.src = true ∧ addrOff40 m.src + 64 * n ≤ 0x60000) ∧
    (m.op ≤ 2 → isOwnSpad c m.dst = true ∧ addrOff40 m.dst + 64 * n ≤ 0x60000)

/-! ### Arrivals -/

/-- Packet `p` is the oldest one delivered to a live core; where it is a request to the scratchpad, no other waits (among several the order is
open, R130); no accepted write of its source to a line of it is outstanding, and no fill or re-encoding holds a bank it uses (R109,
R129). -/
abbrev State.arrives (s : State) (c : CoreId) (p : Packet) : Prop :=
  s.alive c = true ∧ s.inbox.head? = some (c, p) ∧ (p.padRequest = true → ∀ e ∈ s.inbox.tail, e.1 = c → e.2.padRequest = false) ∧
    s.behindAccepted c p = false ∧
    (s.core c).anyHeld p.padOffs = false

/-- The packet has been taken: the inbox is without it, and every other core is as before. -/
def State.took (s t : State) (c : CoreId) : Prop := t.inbox = s.inbox.tail ∧ s.othersKept t c

/-! ### Register commands -/

/-- An access of sender `o` to register `off` reaches the registers of core `c`, and the field holds no setting of a pass (R16, R33,
R171, R361, R366). -/
abbrev State.servesReg (s : State) (c : CoreId) (off : Nat) (o : Origin) : Prop :=
  s.bu.power = true ∧ o ≠ .pf ∧ (∀ p, o ≠ .vf p) ∧ s.reach c off o = .served ∧ s.bu.fieldDs = []

/-- A register command has been answered with `r` and has changed core `c` alone. -/
def State.accessed (s t : State) (c : CoreId) (r : Resp) : Prop :=
  t = { s with cores := t.cores, resp := r } ∧ s.othersKept t c

/-- Every register outside a list is as before. -/
def Core.regsKept (k k' : Core) (also : List Nat) : Prop := ∀ off, off ∉ also → k'.reg off = k.reg off

/-- The parts of a core that no register of the memory, channel or section blocks holds are as before. -/
def Core.bodyKept (k k' : Core) : Prop :=
  k'.s = k.s ∧ k'.pc = k.pc ∧ k'.seq = k.seq ∧ k'.vregs = k.vregs ∧ k'.acc = k.acc ∧ k'.inq = k.inq ∧ k'.df = k.df ∧
    k'.slots = k.slots ∧ k'.running = k.running

/-! ### The network -/

/-- The router of a core's position. -/
def State.ownRouter (s : State) (c : CoreId) : Router := s.routers.get Router.reset (epKey (s.epOf c))

/-- Transaction slot `i` of a core has been freed, and no other slot has changed (R168). -/
def Core.slotFreed (k k' : Core) (i : Nat) : Prop :=
  (k'.slots.get .reset i).use = none ∧ (k'.slots.get .reset i).gen = (k.slots.get .reset i).gen + 1 ∧
    ∀ j, j ≠ i → k'.slots.get .reset j = k.slots.get .reset j

/-- Packet `x` of the flights stands first of its stream at its place (R149, R157). -/
abbrev State.atPlace (s : State) (f : Nat) (x : Flight) : Prop := s.flights[f]? = some x ∧ overtakes s.flights f x = false

/-- Flight `f` has become `y`, and every other flight is as before. -/
def State.moved (s t : State) (f : Nat) (y : Flight) : Prop :=
  t.flights[f]? = some y ∧ t.flights.length = s.flights.length ∧ (∀ g, g ≠ f → t.flights[g]? = s.flights[g]?) ∧
    t = { s with flights := t.flights, routers := t.routers }

/-! ### Jobs and partitions -/

/-- WTOP as the next section boundary leaves it (R216, R360). -/
def Core.topNext (k : Core) : Nat := (k.shWtop.map (·.toNat)).getD k.wtop

/-- Every core of a list, each named once, passes ARM and then START (R111, R214 to R216). -/
abbrev State.startable (s : State) (cs : List CoreId) : Prop :=
  cs.Nodup ∧ ∀ c ∈ cs, s.alive c = true ∧ (s.core c).df = .idle ∧ (s.core c).armCheck = none ∧
    (s.core c).topNext * 0x4000 ≤ (s.core c).weightsLimit

/-- Record `x` has joined what the ring carries to its reader, published or waiting, and nothing before it has changed (R255). -/
def State.recorded (s t : State) (p : Pid) (r : BitVec 3) (x : RingRecord) : Prop :=
  (t.ring p r).published ++ (t.ring p r).waiting = (s.ring p r).published ++ (s.ring p r).waiting ++ [x]

/-- Every core but the one that holds a pair's index block and the helper core that watches it is as before (R235, R244). -/
def State.ringCoresKept (s t : State) (p : Pid) (r : BitVec 3) : Prop :=
  t.bu.phase = s.bu.phase ∧
    ∀ n, (∀ c off, (t.ring p r).idx = some (c, off) → n ≠ coreKey c) → (∀ h, s.helperCore p = some h → n ≠ coreKey h) →
      t.cores.get s.blankCore n = s.cores.get s.blankCore n

/-- Ryist has passed `n` bytes of a submission ring: its copy of RDIDX has advanced, and no other core has changed (R199). -/
def State.readPast (s t : State) (p : Pid) (r : BitVec 3) (n : Nat) : Prop :=
  (t.ring p r).subRd = (s.ring p r).subRd + BitVec.ofNat 64 n ∧ s.ringCoresKept t p r

/-- A completion record of a job with a status and a detail (R253). -/
def RingRecord.completes (x : RingRecord) (id : DWord) (status detail : Nat) : Prop :=
  match x with
  | .completion j st d _ _ _ _ _ _ _ _ _ _ _ => j = id ∧ st.toNat = status ∧ d.toNat = detail
  | _ => False

/-- The physical function's writes to yard space are served (R291, R301, R354). -/
abbrev State.pfServes (s : State) : Prop := s.host.up = true ∧ s.bu.phase = 10 ∧ s.fc.safe = false

/-- The scratchpads, registers and program counters of every core are as before. -/
def State.coresKept (s t : State) : Prop :=
  ∀ c, (t.core c).mem = (s.core c).mem ∧ (t.core c).s = (s.core c).s ∧ (t.core c).pc = (s.core c).pc

/-! ### Outer memory and the host -/

/-- Function `fn` has been notified on vector `vec` (R297): its message stands in the port's transmit order, or the vector is masked and
pending (R290). -/
def State.notified (s t : State) (fn vec : Nat) : Prop :=
  if (s.msixWord fn vec 3).getLsbD 0 then t.host.msixPend.contains (BitVec.ofNat 5 fn, BitVec.ofNat 4 vec) = true
  else .message (BitVec.ofNat 5 fn) (BitVec.ofNat 4 vec) (pair64 (s.msixWord fn vec 1) (s.msixWord fn vec 0)) (s.msixWord fn vec 2) ∈ t.host.out

/-- Request `p` is the oldest at a working terminus, well formed and allowed by its extent (R267, R269). -/
abbrev State.omServes (s : State) (t : Nat) (p : Packet) : Prop :=
  (s.terminus t).lost = false ∧ s.fitted t = true ∧ s.bu.power = true ∧ s.tin.head? = some (t, p) ∧ p.omRequest = true ∧
    p.omFormed = true ∧ s.extentRefusal p.sys p.pid p.off.toNat = none

/-- The line at an offset of outer memory verifies under the key its epoch selects (R271, R272). -/
abbrev State.omVerifies (s : State) (o : Nat) : Prop := s.keyFor o = some (s.lineTag o).key

/-- A terminus has taken the request from its queue and sent one answer, `op` with code `aux`, to its source (R145, R272). -/
def State.omAnswered (s t : State) (p q : Packet) (op : BitVec 4) (aux : Byte) : Prop :=
  t.tin = s.tin.tail ∧ t.inj = s.inj ++ [{ pkt := q, addr := none, core := false }] ∧ q.op = op ∧ q.aux = aux ∧ q.dst = p.src ∧ q.txid = p.txid ∧
    q.pid = p.pid ∧ q.sys = p.sys ∧ t.cores = s.cores

/-- Every byte of outer memory outside `n` bytes from `off` is as before. -/
def State.omKept (s t : State) (off n : Nat) : Prop :=
  ∀ q, q < off ∨ off + n ≤ q → Mem.read t.om.mem q = Mem.read s.om.mem q

/-- The mailbox takes requests of a function: the link is up, the device is READY and not in the safe state (R301, R417). -/
abbrev State.doeServes (s : State) : Prop := s.host.up = true ∧ s.bu.phase = 10 ∧ s.fc.safe = false

/-! ### The yard -/

/-- One message has been queued, with the yard cycle counter as its stamp (R384, R385). -/
def State.tells (s t : State) (fld block kind detail addr : Nat) : Prop :=
  ∃ m, t.transit = s.transit ++ [m] ∧ m.field = BitVec.ofNat 7 fld ∧ m.block = BitVec.ofNat 5 block ∧ m.kind = BitVec.ofNat 8 kind ∧
    m.detail = BitVec.ofNat 16 detail ∧ m.address = BitVec.ofNat 48 addr ∧ m.stamp = lo32 s.yc

/-- The newest message is this one. -/
def State.lastTold (t : State) (fld block kind detail addr : Nat) : Prop :=
  ∃ m, t.transit.getLast? = some m ∧ m.field = BitVec.ofNat 7 fld ∧ m.block = BitVec.ofNat 5 block ∧ m.kind = BitVec.ofNat 8 kind ∧
    m.detail = BitVec.ofNat 16 detail ∧ m.address = BitVec.ofNat 48 addr

/-- Scratchpads, outer memory, the NVM and the fuses are as before. -/
def State.storesKept (s t : State) : Prop :=
  t.om = s.om ∧ t.nvm = s.nvm ∧ t.fuses = s.fuses ∧ ∀ c, (t.core c).mem = (s.core c).mem

/-- A counter of the yard has advanced by `n`. -/
def State.yadds (s t : State) (off n : Nat) : Prop := pairAt t.yregs off = pairAt s.yregs off + BitVec.ofNat 64 n

/-- Every span port but one is as before. -/
def State.portsKept (s t : State) (n : Nat) : Prop := ∀ m, m ≠ n → t.spanPort m = s.spanPort m

/-- Port `n` is in state `st` now, has no keys and no packets, and is held off by nothing (R305, R411). -/
def State.portCleared (t : State) (n st : Nat) : Prop :=
  (t.spanPort n).state.toNat = st ∧ (t.spanPort n).txKey = none ∧ (t.spanPort n).rxKey = none ∧ (t.spanPort n).rxctr = none ∧ (t.spanPort n).outq = [] ∧
    (t.spanPort n).xoffRx = 0 ∧ (t.spanPort n).xoffTx = 0

/-- A write of sender `o` to yard space is served: bring-up has ended, the device is not in the safe state, and the host's link is up
where the sender is the physical function (R291, R301, R358, R392). -/
abbrev State.yardServes (s : State) (o : Origin) : Prop :=
  s.bu.power = true ∧ s.bu.phase = 10 ∧ s.fc.safe = false ∧ (o = .ryist ∨ o = .pf ∧ s.host.up = true)

/-- Every cluster but one is as before. -/
def State.clustersKept (s t : State) (n : Nat) : Prop := ∀ m, m ≠ n → t.cluster m = s.cluster m

end Sys2Proof.Machine
end

