-- ==== Sys2Proof/WellFormed.lean ====
section
/-! DEFINITION. Which commands are well formed: every place a command names lies on the module, and an instruction's fields
are ones its encoding admits (R13, R24, R43, R58, R236, R289). -/

namespace Sys2Proof

/-- A core lies on the logical grid of 558 by 576 (R12, R13). -/
def okCore (c : CoreId) : Bool := c.x.toNat < 558 && c.y.toNat < 576

/-- A coordinate of the physical grid of routers (R24). -/
def okRouter (p : BitVec 10) : Bool := p.toNat < 576

/-- An endpoint names a router of the mesh (R144). -/
def okEndpoint (e : Endpoint) : Bool := okRouter e.px && okRouter e.py

/-- One of the 5,184 clusters (R24). -/
def okCluster (cl : BitVec 13) : Bool := cl.toNat < 5184

/-- One of the 81 fields (R24). -/
def okField (f : BitVec 7) : Bool := f.toNat < 81

/-- One of the nine rows of fields (R24). -/
def okRow (r : BitVec 4) : Bool := r.toNat < 9

/-- The physical function 0 or a virtual function 1 to 16 (R287, R289). -/
def okFunction (fn : BitVec 5) : Bool := fn.toNat ≤ 16

/-- A register's place (R14, R15). -/
def okTarget (t : RegTarget) : Bool :=
  match t with
  | .core c _ => okCore c
  | .yard _ => true
  | .bar4 _ => true

/-- An access of the host through a BAR moves at least a byte and stays within a block of 4 KiB, as every TLP does (PRESUMED, log entry
109). -/
def okTlp (off n : Nat) : Bool := decide (1 ≤ n ∧ off % 4096 + n ≤ 4096)

/-- The change of the floor plan names places of the module (R35). -/
def okChange (ev : FloorChange) : Bool :=
  match ev with
  | .hole px py => okRouter px && okRouter py
  | .isolated cl => okCluster cl
  | .deadField f => okField f

/-- A row of a core's memory: of one of the eight banks, or of the instruction store (R356). -/
def okSramFault (e : SramFault) : Bool := okRouter e.px && okRouter e.py && decide (e.mem.toNat ≤ 8)

/-- What bring-up finds names places of the module (R354 to R357). -/
def okFindings (found : BringUpFindings) : Bool :=
  found.sram.all okSramFault && found.dram.all (fun e => decide (e.stack.toNat < 3)) && found.failedCores.all (fun p => okRouter p.1 && okRouter p.2) && found.deadFields.all okField
    && found.helpers.all okCluster

/-- A vector register number a register pair may have (R58). -/
def okEven (v : VReg) : Bool := !v.getLsbD 0

/-- A destination format of VCVT (R86). -/
def okFormat (dst : BitVec 4) : Bool := dst.toNat ≤ 10

/-- The command is well formed. -/
def wellFormed (i : Instr) : Bool :=
  match i with
  | .add c _ _ _ => okCore c
  | .sub c _ _ _ => okCore c
  | .andS c _ _ _ => okCore c
  | .orS c _ _ _ => okCore c
  | .xorS c _ _ _ => okCore c
  | .shl c _ _ _ => okCore c
  | .shr c _ _ _ => okCore c
  | .sra c _ _ _ => okCore c
  | .slt c _ _ _ => okCore c
  | .sltu c _ _ _ => okCore c
  | .minS c _ _ _ => okCore c
  | .maxS c _ _ _ => okCore c
  | .clz c _ _ => okCore c
  | .popc c _ _ => okCore c
  | .mul c _ _ _ => okCore c
  | .mulhu c _ _ _ => okCore c
  | .addi c _ _ _ => okCore c
  | .andi c _ _ _ => okCore c
  | .ori c _ _ _ => okCore c
  | .xori c _ _ _ => okCore c
  | .shli c _ _ _ => okCore c
  | .shri c _ _ _ => okCore c
  | .srai c _ _ _ => okCore c
  | .lih c _ _ _ => okCore c
  | .ldB c _ _ _ => okCore c
  | .ldH c _ _ _ => okCore c
  | .ldW c _ _ _ => okCore c
  | .ldD c _ _ _ => okCore c
  | .stB c _ _ _ => okCore c
  | .stH c _ _ _ => okCore c
  | .stW c _ _ _ => okCore c
  | .stD c _ _ _ => okCore c
  | .ldAcq c _ _ _ => okCore c
  | .stRel c _ _ _ => okCore c
  | .fenceAcq c => okCore c
  | .fenceRel c => okCore c
  | .fence c => okCore c
  | .csrr c _ _ => okCore c
  | .csrw c _ _ => okCore c
  | .beq c _ _ _ => okCore c
  | .bne c _ _ _ => okCore c
  | .blt c _ _ _ => okCore c
  | .bge c _ _ _ => okCore c
  | .j c _ => okCore c
  | .jal c _ => okCore c
  | .jr c _ => okCore c
  | .nop c => okCore c
  | .trap c => okCore c
  | .istoreWriteback c _ => okCore c
  | .vadd c _ _ _ => okCore c
  | .vsub c _ _ _ => okCore c
  | .vmul c _ _ _ => okCore c
  | .vfma c _ _ _ _ => okCore c
  | .vmin c _ _ _ => okCore c
  | .vmax c _ _ _ => okCore c
  | .vabs c _ _ => okCore c
  | .vneg c _ _ => okCore c
  | .vcmplt c _ _ _ => okCore c
  | .vsel c _ _ _ _ => okCore c
  | .vrcp c _ _ => okCore c
  | .vrsq c _ _ => okCore c
  | .vexp2 c _ _ => okCore c
  | .vlog2 c _ _ => okCore c
  | .vredsum c _ _ => okCore c
  | .vredmax c _ _ => okCore c
  | .vcvt c _ _ _ dst => okCore c && okFormat dst
  | .vadd2 c vd va vb => okCore c && okEven vd && okEven va && okEven vb
  | .vmul2 c vd va vb => okCore c && okEven vd && okEven va && okEven vb
  | .vmova c _ _ _ => okCore c
  | .vmovaw c _ _ _ => okCore c
  | .vld c _ _ _ => okCore c
  | .vst c _ _ _ => okCore c
  | .vectorComplete c => okCore c
  | .mma c _ _ _ _ _ => okCore c
  | .mzero c _ _ _ _ _ => okCore c
  | .mlda c _ _ _ _ _ => okCore c
  | .mst c _ _ _ _ _ => okCore c
  | .msync c _ _ _ _ _ => okCore c
  | .mmaStepBegin c => okCore c
  | .mmaStepComplete c => okCore c
  | .mzeroExecute c => okCore c
  | .mldaExecute c => okCore c
  | .mstExecute c => okCore c
  | .mvq c _ _ => okCore c
  | .mvw c _ => okCore c
  | .copy c => okCore c
  | .fill c => okCore c
  | .digest c => okCore c
  | .chunk c => okCore c
  | .send c _ _ => okCore c
  | .sig c _ _ => okCore c
  | .watch c _ _ _ => okCore c
  | .wait c _ _ _ => okCore c
  | .waitExpiry c => okCore c
  | .atomFadd c _ _ _ => okCore c
  | .atomSwap c _ _ _ => okCore c
  | .atomCas c _ _ _ => okCore c
  | .atomUmax c _ _ _ => okCore c
  | .atomAnd c _ _ _ => okCore c
  | .atomOr c _ _ _ => okCore c
  | .endTask c => okCore c
  | .fin c => okCore c
  | .tagI c _ => okCore c
  | .argsI c _ => okCore c
  | .qld c _ _ _ => okCore c
  | .qvld c _ _ => okCore c
  | .qcp c _ _ => okCore c
  | .coreIdataWrite c _ _ => okCore c
  | .vecSrseedHiWrite c _ _ => okCore c
  | .shRegisterWrite c _ _ _ => okCore c
  | .pairLoRead t _ _ _ => okTarget t
  | .spErrinfoRead c _ => okCore c
  | .mvErrRead c _ => okCore c
  | .coreIstoreErrRead c _ => okCore c
  | .registerWrite t _ _ _ => okTarget t
  | .bankpwrOn c _ _ => okCore c
  | .bankpwrRetain c _ _ => okCore c
  | .bankpwrOff c _ _ => okCore c
  | .bankModeChangeEnd c _ => okCore c
  | .bankWakeFillEnd c _ => okCore c
  | .lineWriteback c _ => okCore c
  | .scrubRead c => okCore c
  | .zeroFillEnd c => okCore c
  | .remoteReadArrival c => okCore c
  | .remoteWriteAccept c => okCore c
  | .remoteWriteTail c => okCore c
  | .rdrspArrival c => okCore c
  | .ackArrival c => okCore c
  | .errArrival c => okCore c
  | .packetInjection src => okEndpoint src
  | .flitArrival _ _ => true
  | .ringOnRamp _ => true
  | .ringOffRamp _ => true
  | .waypointRelay _ => true
  | .packetDelivery _ => true
  | .reduceMergeSend px py _ => okRouter px && okRouter py
  | .transactionTimeout c _ => okCore c
  | .congestionMapPublish => true
  | .routeMapRewrite => true
  | .floorPlanChange ev => okChange ev
  | .tokenArrival c => okCore c
  | .heldOfferRetry c => okCore c
  | .reduceArrival c => okCore c
  | .creditReturnArrival c => okCore c
  | .sigArrival c => okCore c
  | .watchRequest c => okCore c
  | .wmsgArrival c => okCore c
  | .atomAtHome c => okCore c
  | .lendingStart c => okCore c
  | .arm c _ => okCore c
  | .start c _ => okCore c
  | .boundaryComplete c => okCore c
  | .dfCtrlEnd c _ => okCore c
  | .abort c _ => okCore c
  | .clear c _ => okCore c
  | .abortComplete c => okCore c
  | .abortLineSignal c => okCore c
  | .taskFire c => okCore c
  | .steerPointFire c _ => okCore c
  | .mergePointFire c _ => okCore c
  | .progressPulse _ => true
  | .deadlockDetection c => okCore c
  | .reInjection c _ => okCore c
  | .stallLimit c => okCore c
  | .slotQuiet _ => true
  | .submit _ _ _ _ => true
  | .kill _ _ _ => true
  | .unload _ _ _ => true
  | .unknownKindRecord _ _ _ => true
  | .jobPlacement _ _ clusters => clusters.all okCluster
  | .stageStart _ _ _ => true
  | .jobCompletionPublish _ _ _ => true
  | .completionPublishResume _ _ => true
  | .clusterScrub cl => okCluster cl
  | .clusterScrubEnd cl => okCluster cl
  | .jbPcfgWrite _ _ _ clusters => clusters.all okCluster
  | .jbPinWrite _ _ _ _ => true
  | .partitionAssignmentComplete _ => true
  | .ringPairEnable _ _ _ => true
  | .ringPairDisable _ _ _ => true
  | .ringErrClear _ _ _ => true
  | .jbScrubmapWrite _ cl => okCluster cl
  | .omRead _ _ => true
  | .omWholeLineWrite _ => true
  | .omPartialWrite _ _ => true
  | .omAtom _ _ => true
  | .terminusAdmissionResume _ => true
  | .omExtWrite _ w _ => decide (w.toNat < 384)
  | .extentZeroFillEnd _ => true
  | .rotate _ _ => true
  | .epochFlipApplied _ _ => true
  | .sweepStart _ => true
  | .sweepLine _ _ _ => true
  | .sweepComplete _ => true
  | .stackLost _ _ => true
  | .yardPoll _ => true
  | .linkTrainingComplete _ _ _ _ _ => true
  | .linkTrainingRetry => true
  | .linkDown => true
  | .hotReset => true
  | .flrPf => true
  | .flrVf _ => true
  | .inboxWrite fn off data _ => okFunction fn && okTlp off.toNat data.length
  | .inboxOrdRelease fn => okFunction fn
  | .inboxRead fn off len _ => okFunction fn && okTlp off.toNat len
  | .descriptorWrite _ _ _ _ _ => true
  | .space4Request => true
  | .hostCompletionArrival _ _ _ _ => true
  | .completionTimeout _ => true
  | .getReport fn _ => okFunction fn
  | .keyExchange fn _ _ _ => okFunction fn
  | .keySet fn _ _ => okFunction fn
  | .keyStop fn _ => okFunction fn
  | .tdisp _ _ _ => true
  | .debugNonce fn => okFunction fn
  | .debugUnlock fn _ _ _ _ => okFunction fn
  | .spanRequest _ => true
  | .spanFlitReceive _ _ _ _ => true
  | .spanSignalSend _ => true
  | .spanTransactionTimeout _ _ => true
  | .spanPortDown _ _ => true
  | .spanTrainingComplete _ _ => true
  | .keyingComplete _ _ _ _ _ _ => true
  | .keyingRetry _ => true
  | .spanRekey _ => true
  | .clockLeadLoss => true
  | .referenceSwitchEnd => true
  | .referenceReturn => true
  | .localOscillatorFailure => true
  | .fieldPllLoss f => okField f
  | .seamMarginExhausted f _ => okField f
  | .clusterTreeWake c => okCore c
  | .clusterTreeStop cl => okCluster cl
  | .railShort cl _ => okCluster cl
  | .fieldRegulatorFailure f => okField f
  | .rowRegulatorFailure row => okRow row
  | .powerMeasurement _ _ fields _ => fields.all (fun r => okField r.field)
  | .clusterEstimate cl => okCluster cl
  | .thermalSample clusters bases => clusters.all (fun r => okCluster r.1) && bases.all (fun r => okField r.1)
  | .thermalShiftUpdate cl => okCluster cl
  | .heatReturn cl => okCluster cl
  | .pwCapsusWrite _ _ => true
  | .pwThrWrite _ _ => true
  | .ckRefctlWrite _ _ => true
  | .slClkleadWrite _ _ => true
  | .powerOn found => okFindings found
  | .stage _ => true
  | .updateStaged _ _ _ => true
  | .commit _ => true
  | .commitComplete => true
  | .cancel _ => true
  | .apply _ => true
  | .fieldSettingsWrite => true
  | .save _ => true
  | .coreReset c => okCore c
  | .coreResetEnd c => okCore c
  | .clusterReset cl => okCluster cl
  | .partitionReset _ _ => true
  | .partitionDrainComplete _ => true
  | .partitionDrainLate _ => true
  | .wholeDeviceReset _ _ => true
  | .enableDeassert => true
  | .powerLoss => true
  | .weightsScanStart c => okCore c
  | .weightsScanEnd c => okCore c
  | .fltWctlWrite c _ _ => okCore c
  | .signalBoxReceive f => okField f
  | .faultMessageArrival _ => true
  | .replayRestart _ _ _ => true
  | .outputDecision _ _ _ _ => true
  | .stageHoldExpiry _ _ _ _ => true
  | .signalBoxSilent f => okField f
  | .yardControllerStopped => true
  | .collectorDisagreement _ => true
  | .fnrxClear _ => true
  | .clusterSelfTest cl => okCluster cl
  | .fcTreqWrite _ cl => okCluster cl
  | .selfTestEnd cl _ => okCluster cl
  | .spanRecalibration _ => true
  | .fcRreqWrite _ _ => true
  | .recalAck _ => true
  | .recalEnd _ => true
  | .fuseCompare _ => true
  | .rngHealthTest _ _ => true
  | .ephemeralScalarExpiry _ => true
  | .dbglock _ _ => true
  | .localMoverCompletion c => okCore c
  | .settingsRecordWritten => true
  | .spanPortEnWrite _ _ _ => true
  | .leadLockRegained => true
  | .terminusInternalFailure _ => true
  | .debugPortAccess _ => true

end Sys2Proof
end

