-- ==== Sys2Proof/Certificates/Slice0/Obligations.lean ====
section
/-! DEFINITION. The statements for the provers: what the commands of each family do and leave alone, what reset leaves, and what every
step keeps. -/

open Sys2Proof Sys2Proof.Machine

/-! ### The queue, time and instruction words -/

/-- A step with a command at the front of the queue is that command's effect on the state with the queue's rest. -/
def Obligations.StepRunsFrontCommand : Prop :=
  ∀ (c : Instr) (rest : List Instr) (s : State),
    step { s with pending := c :: rest } = exec c { s with pending := rest }

/-- With an empty queue a cycle of the network clock passes (log entry 1, the model's choice): time goes on, no command appears and outer
memory stays. Unless core resets of a kill are due, no scalar register and no program counter changes, and no scratchpad but through a write
that an engine has on its way to its bank: one that stands alone goes into its bank, byte for byte and nowhere else (R109, R123, R128). A
cycle in which a task runs and nothing has issued counts in CORE_SQSTALL, and in CH_OSTALL where a window holds the instruction (R18, R73,
R181). -/
def Obligations.EmptyQueueTicks : Prop :=
  ∀ s : State, s.pending = [] → ∃ t : State, step s = .next t ∧ t.cc = s.cc + 1 ∧ t.pending = [] ∧ t.fuses = s.fuses ∧ t.om = s.om ∧
    ((∀ j ∈ s.jobs, j.killYc = none) → ∀ c : CoreId,
      let k := s.core c
      let k' := t.core c
      k'.s = k.s ∧ k'.pc = k.pc ∧ (k.lineWr = [] → k'.mem = k.mem) ∧
      (∀ w : LineWr, s.alive c = true → s.bu.fieldDs = [] → k.lineWr = [w] → k.padHeld w.off = false → k.inWeights w.off = false →
        k.zeroing = false → k.recode = 0 →
        (∀ q, Mem.read k'.mem q = if w.off ≤ q ∧ q < w.off + w.bytes.length then nth 0 w.bytes (q - w.off) else Mem.read k.mem q) ∧
        (w.agent ≠ agMV → k'.lineWr = [])) ∧
      (s.alive c = true → s.bu.fieldDs = [] → k.df = .run → k.running.isSome = true → k.seq ≠ .stall ∨ k.stallOn = [] →
        pairAt k'.regs rCORE_SQSTALL = pairAt k.regs rCORE_SQSTALL + (if k.issued then 0 else 1)) ∧
      (∀ m u, m < 16 → u < 8 → s.alive c = true → s.bu.fieldDs = [] → k.df = .run → k.running.isSome = true → k.issued = false →
        k.seq = .stall → k.stallOn = [rCH_OSTALL + 0x40 * m, rDF_UWOUT + 0x40 * u] →
        pairAt k'.regs (rCH_OSTALL + 0x40 * m) = pairAt k.regs (rCH_OSTALL + 0x40 * m) + 1))

/-- Decoding the word of a well-formed instruction gives the instruction (R43, R44, R52, R58, R178, R205). Every word that
decodes gives a well-formed instruction that has a word, and that word decodes to it again. -/
def Obligations.WordsRoundTrip : Prop :=
  (∀ (i : Instr) (w : Word), wellFormed i = true → encodeInsn i = some w →
      ∃ c, okCore c = true ∧ decodeInsn c w = some i) ∧
  (∀ (c : CoreId) (w : Word) (i : Instr), okCore c = true → decodeInsn c w = some i →
      wellFormed i = true ∧ ∃ v, encodeInsn i = some v ∧ decodeInsn c v = some i)

/-- A few words written out from the tables of R43, R44, R52, R58, R178 and R205 decode to their instructions. -/
def Obligations.SampleWordsDecode : Prop :=
  ∀ c : CoreId,
    decodeInsn c 0b000000_00011_00001_00010_00000000001#32 = some (.sub c 3 1 2) ∧
    decodeInsn c 0b000001_00101_00110_1111111111111110#32 = some (.addi c 5 6 0xFFFE) ∧
    decodeInsn c 0b000101_00101_00110_0000000010_111111#32 = some (.srai c 5 6 63) ∧
    decodeInsn c 0b001011_00111_01000_0000000000010000#32 = some (.ldD c 7 8 16) ∧
    decodeInsn c 0b011000_00001_00010_1111111111111111#32 = some (.beq c 1 2 0xFFFF) ∧
    decodeInsn c 0b100000_0001_0010_0011_0100_0000000011#32 = some (.vfma c 1 2 3 4) ∧
    decodeInsn c 0b100001_1111_00001_00000000001000000#32 = some (.vld c 15 1 64) ∧
    decodeInsn c 0b101000_00001_00010_0111_11_1_000_000000#32 = some (.mma c 1 2 7 3 true) ∧
    decodeInsn c 0b110000_00100_00101_00110_00000010010#32 = some (.atomCas c 4 5 6) ∧
    decodeInsn c 0b110100_00000_00000_00000_00000000000#32 = some (.endTask c) ∧
    decodeInsn c 0xFFFFFFFF#32 = none

/-! ### The core -/

/-- The scalar ALU (R44): each instruction writes its result to s[d], retires, goes on at the next index and changes nothing
else; a write to s0 leaves nothing (R41). The immediates (R43): ADDI sign-extends its immediate, the others extend it with
zeros; a shift immediate shifts by its six bits; LIH shifts a register left 16 and joins the immediate. -/
def Obligations.ScalarResults : Prop :=
  (∀ (s : State) (c : CoreId) (d a b : SReg), s.free c [d, a, b] →
      let x := (s.core c).sreg a
      let y := (s.core c).sreg b
      let n := (s.core c).pc + 1
      let lt := decide (x.toInt < y.toInt)
      s.computes c (.add c d a b) d (x + y) n ∧
      s.computes c (.sub c d a b) d (x - y) n ∧
      s.computes c (.andS c d a b) d (x &&& y) n ∧
      s.computes c (.orS c d a b) d (x ||| y) n ∧
      s.computes c (.xorS c d a b) d (x ^^^ y) n ∧
      s.computes c (.shl c d a b) d (x <<< (y.toNat % 64)) n ∧
      s.computes c (.shr c d a b) d (x >>> (y.toNat % 64)) n ∧
      s.computes c (.sra c d a b) d (x.sshiftRight (y.toNat % 64)) n ∧
      s.computes c (.slt c d a b) d (if lt then 1 else 0) n ∧
      s.computes c (.sltu c d a b) d (if x.toNat < y.toNat then 1 else 0) n ∧
      s.computes c (.mul c d a b) d (x * y) n ∧
      s.computes c (.mulhu c d a b) d (BitVec.ofNat 64 (x.toNat * y.toNat / 2 ^ 64)) n ∧
      s.computes c (.minS c d a b) d (if lt then x else y) n ∧
      s.computes c (.maxS c d a b) d (if lt then y else x) n ∧
      s.computes c (.clz c d a) d (BitVec.ofNat 64 (if x = 0 then 64 else 63 - Nat.log2 x.toNat)) n ∧
      s.computes c (.popc c d a) d (BitVec.ofNat 64 ((List.range 64).countP (fun i => x.getLsbD i))) n) ∧
  (∀ (s : State) (c : CoreId) (d a : SReg) (imm : BitVec 16) (amt : BitVec 6), s.free c [d, a] →
      let x := (s.core c).sreg a
      let z := BitVec.ofNat 64 imm.toNat
      let n := (s.core c).pc + 1
      s.computes c (.addi c d a imm) d (BitVec.ofInt 64 (x.toInt + imm.toInt)) n ∧
      s.computes c (.andi c d a imm) d (x &&& z) n ∧
      s.computes c (.ori c d a imm) d (x ||| z) n ∧
      s.computes c (.xori c d a imm) d (x ^^^ z) n ∧
      s.computes c (.shli c d a amt) d (x <<< amt.toNat) n ∧
      s.computes c (.shri c d a amt) d (x >>> amt.toNat) n ∧
      s.computes c (.srai c d a amt) d (x.sshiftRight amt.toNat) n ∧
      s.computes c (.lih c d a imm) d (x <<< 16 ||| z) n)

/-- Branches and jumps (R43, R44): a taken branch goes to its own index plus its signed offset, as long as that lies within the
instruction store; JAL leaves the index after its own in s31; JR jumps to the index its register holds; NOP does nothing.
FENCE.ACQ waits for the loads, FENCE.REL for every write of the core, FENCE for both (R131 to R133): when they may, they retire,
and an acquire empties the remote-line buffer; until then the sequencer stalls, which EmptyQueueTicks counts cycle by cycle (R73). -/
def Obligations.BranchesAndFences : Prop :=
  (∀ (s : State) (c : CoreId) (a b : SReg) (off : BitVec 16) (far : BitVec 26),
      let k := s.core c
      let x := k.sreg a
      let y := k.sreg b
      let n := k.pc + 1
      let near := ((k.pc : Int) + off.toInt)
      let jump := ((k.pc : Int) + far.toInt)
      let goes := fun (p : Prop) [Decidable p] => if p then near.toNat else n
      s.free c [a, b, 31] →
      (0 ≤ near → near ≤ 16383 →
        s.computes c (.beq c a b off) 0 0 (goes (x = y)) ∧
        s.computes c (.bne c a b off) 0 0 (goes (x ≠ y)) ∧
        s.computes c (.blt c a b off) 0 0 (goes (x.toInt < y.toInt)) ∧
        s.computes c (.bge c a b off) 0 0 (goes (y.toInt ≤ x.toInt))) ∧
      (0 ≤ jump → jump ≤ 16383 →
        s.computes c (.j c far) 0 0 jump.toNat ∧
        s.computes c (.jal c far) 31 (BitVec.ofNat 64 n) jump.toNat) ∧
      (x.toNat ≤ 16383 → s.computes c (.jr c a) 0 0 x.toNat) ∧
      s.computes c (.nop c) 0 0 n) ∧
  (∀ (s : State) (c : CoreId),
      let k := s.core c
      let n := k.pc + 1
      let acquires := fun (i : Instr) => s.issues c i → ∃ t : State, exec i s = .next t ∧ s.onlyCore t c ∧
        k.retired (t.core c) n [rSP_RLBINV, rSP_RLBINV + 4] ∧ (t.core c).rlb = [] ∧ k.sregsKept (t.core c) ∧
        (t.core c).mem = k.mem
      let stalls := fun (i : Instr) => s.issues c i → ∃ t : State, exec i s = .next t ∧ s.held t c []
      (k.loadsPending = false → acquires (.fenceAcq c)) ∧ (k.loadsPending = true → stalls (.fenceAcq c)) ∧
      (k.released = true → s.computes c (.fenceRel c) 0 0 n) ∧ (k.released = false → stalls (.fenceRel c)) ∧
      (k.released = true → k.loadsPending = false → acquires (.fence c)) ∧
      (k.released = false ∨ k.loadsPending = true → stalls (.fence c)))

/-- TRAP, an illegal word, a jump beyond the instruction store and a misaligned access each raise the execution fault that R49
and R77 give them, and the section aborts (R219). -/
def Obligations.ExecutionFaults : Prop :=
  ∀ (s : State) (c : CoreId) (d a b : SReg) (imm : BitVec 16),
    let k := s.core c
    let ad := k.target a imm
    (s.issues c (.trap c) → ∃ t : State, exec (.trap c) s = .next t ∧
      s.execFaulted t c 0 0x50 k.pc 0xFFFF (k.insnAt k.pc).toNat) ∧
    (s.alive c = true → k.canIssue = true → k.acquiring = false → k.pc ≤ 16383 → k.istoreErr.get 0 k.pc = 0 →
      decodeInsn c (k.insnAt k.pc) = none → ∃ t : State, exec (.add c d a b) s = .next t ∧
        s.execFaulted t c 0 0x50 k.pc k.pc (k.insnAt k.pc).toNat) ∧
    (s.issues c (.jr c a) → k.awaits a = false → 16383 < (k.sreg a).toNat → ∃ t : State, exec (.jr c a) s = .next t ∧
      s.execFaulted t c 0 0x51 k.pc k.pc ((k.sreg a).toNat % 2 ^ 48)) ∧
    (s.issues c (.ldD c d a imm) → s.free c [d, a] → ad.toNat % 8 ≠ 0 → ∃ t : State, exec (.ldD c d a imm) s = .next t ∧
      s.execFaulted t c 0 0x52 k.pc k.pc (ad.toNat % 2 ^ 48)) ∧
    (s.issues c (.stW c d a imm) → s.free c [d, a] → ad.toNat % 4 ≠ 0 → ∃ t : State, exec (.stW c d a imm) s = .next t ∧
      s.execFaulted t c 0 0x52 k.pc k.pc (ad.toNat % 2 ^ 48))

/-- A load from the core's own scratchpad gives its bytes, the lowest address least significant, zero-extended (R11, R45);
LD.ACQ also empties the remote-line buffer (R131). A store to the core's own scratchpad writes the low bytes of s[d] at its
address and no other byte; no scalar or vector register and no accumulator changes, and only packets of watches that it
satisfies leave the core (R45, R128, R132, R193). A remote load leaves as a read packet under a transaction slot, a remote store
as a write packet with the low bytes of s[d]; the instruction retires without its answer and no scalar register changes (R45,
R125, R143, R168). -/
def Obligations.LoadsAndStores : Prop :=
  (∀ (s : State) (c : CoreId) (d a : SReg) (imm : BitVec 16), s.free c [d, a] →
      let k := s.core c
      let ad := k.target a imm
      let bytes := fun n => BitVec.ofNat 64 (Mem.readN k.mem (addrOff40 ad) n)
      (k.localAccess c ad 1 false → s.computes c (.ldB c d a imm) d (bytes 1) (k.pc + 1)) ∧
      (k.localAccess c ad 2 false → s.computes c (.ldH c d a imm) d (bytes 2) (k.pc + 1)) ∧
      (k.localAccess c ad 4 false → s.computes c (.ldW c d a imm) d (bytes 4) (k.pc + 1)) ∧
      (k.localAccess c ad 8 false → s.computes c (.ldD c d a imm) d (bytes 8) (k.pc + 1)) ∧
      (k.localAccess c ad 8 false → s.issues c (.ldAcq c d a imm) → ∃ t : State, exec (.ldAcq c d a imm) s = .next t ∧
        s.onlyCore t c ∧ k.retired (t.core c) (k.pc + 1) [rSP_RLBINV, rSP_RLBINV + 4] ∧ k.sregsSet (t.core c) d (bytes 8) ∧
        (t.core c).rlb = [] ∧ pairAt (t.core c).regs rSP_RLBINV = pairAt k.regs rSP_RLBINV + 1 ∧
        (t.core c).mem = k.mem ∧ (t.core c).vregs = k.vregs ∧ (t.core c).acc = k.acc)) ∧
  (∀ (s : State) (c : CoreId) (d a : SReg) (imm : BitVec 16), s.free c [d, a] →
      let k := s.core c
      let ad := k.target a imm
      let stores := fun (i : Instr) (n : Nat) =>
        k.localAccess c ad n true → s.issues c i → ∃ t : State, exec i s = .next t ∧
          k.bytesSet (t.core c) (addrOff40 ad) n (k.sreg d) ∧ k.sregsKept (t.core c) ∧
          k.retired (t.core c) (k.pc + 1) [rSY_FIRED, rSY_FIRED + 4] ∧ (t.core c).vregs = k.vregs ∧ (t.core c).acc = k.acc ∧
          s.othersKept t c ∧ t = { s with cores := t.cores, slots := t.slots, inj := t.inj }
      stores (.stB c d a imm) 1 ∧ stores (.stH c d a imm) 2 ∧ stores (.stW c d a imm) 4 ∧ stores (.stD c d a imm) 8 ∧
        (k.released = true → stores (.stRel c d a imm) 8)) ∧
  (∀ (s : State) (c : CoreId) (d a : SReg) (imm : BitVec 16) (i : Nat), s.free c [d, a] →
      let k := s.core c
      let ad := k.target a imm
      k.remoteAccess c ad 8 i →
      (s.issues c (.ldD c d a imm) → ∃ t : State, ∃ p, exec (.ldD c d a imm) s = .next t ∧
        t.inj = s.inj ++ [Sent.mk p (some ad) true] ∧ p.op = 0 ∧ p.src = s.epOf c ∧ p.txid = k.txid i ∧
        p.sz.toNat = (if buffered ad then 4 else 3) ∧
        ((t.core c).slots.get .reset i).use = some (.load d ad 8 (buffered ad) false none k.pc) ∧
        k.sregsKept (t.core c) ∧ (t.core c).mem = k.mem ∧ (t.core c).pc = k.pc + 1 ∧ s.othersKept t c) ∧
      (s.issues c (.stD c d a imm) → ∃ t : State, ∃ p, exec (.stD c d a imm) s = .next t ∧
        t.inj = s.inj ++ [Sent.mk p (some ad) true] ∧ p.op = 1 ∧ p.src = s.epOf c ∧ p.txid = k.txid i ∧ p.sz = 3 ∧
        p.head = BitVec.ofNat 384 (k.sreg d).toNat ∧
        ((t.core c).slots.get .reset i).use = some (.store ad k.pc) ∧
        k.sregsKept (t.core c) ∧ (t.core c).mem = k.mem ∧ (t.core c).pc = k.pc + 1 ∧ s.othersKept t c))

/-- CSRR reads a register of the core's own block into s[d], zero-extended; CSRW writes the low half of s[d] to the bits of it
that are not reserved (R16, R43). The write-back of a corrected instruction word stores the word that the fetch delivered, with no wrong bit,
and a later error there counts anew (R48). -/
def Obligations.CsrAndIstore : Prop :=
  (∀ (s : State) (c : CoreId) (d : SReg) (off : BitVec 16) (r : RegRow), s.free c [d] →
      let k := s.core c
      coreRow off.toNat = some r → off.toNat % 4 = 0 → r.pair = false →
      (r.acc ≠ .wo → r.acc ≠ .rc → off.toNat ≠ rSP_ERRADDR → s.computes c (.csrr c d off) d (((kOf s c).regNow off.toNat).setWidth 64) (k.pc + 1)) ∧
      (off.toNat ∈ [rMX_ASTRIDE, rMX_BSTRIDE, rMX_MXCFG, rCORE_IADDR, rVEC_SRSEED_LO] → s.issues c (.csrw c d off) →
        ∃ t : State, exec (.csrw c d off) s = .next t ∧ s.onlyCore t c ∧ k.engineKept (t.core c) ∧ k.sregsKept (t.core c) ∧
          k.retired (t.core c) (k.pc + 1) [off.toNat] ∧
          (t.core c).reg off.toNat = (k.reg off.toNat &&& ~~~ r.mask) ||| ((k.sreg d).setWidth 32 &&& r.mask))) ∧
  (∀ (s : State) (c : CoreId) (index : BitVec 14) (w : Word) (fixed : Bool), s.alive c = true →
      (s.core c).istoreCounted.get false index.toNat = true →
      istoreRead ((s.core c).insnAt index.toNat) ((s.core c).istoreErr.get 0 index.toNat) = some (w, fixed) →
      ∃ t : State, exec (.istoreWriteback c index) s = .next t ∧ (t.core c).istoreErr.get 0 index.toNat = 0 ∧
        (t.core c).istoreCounted.get false index.toNat = false ∧
        (∀ n, (t.core c).insnAt n = if n = index.toNat then w else (s.core c).insnAt n) ∧
        (∀ n, n ≠ index.toNat → (t.core c).istoreErr.get 0 n = (s.core c).istoreErr.get 0 n) ∧ (t.core c).regs = (s.core c).regs ∧
        (t.core c).mem = (s.core c).mem ∧ (t.core c).s = (s.core c).s ∧ s.othersKept t c)

/-- A vector instruction enters the vector unit's queue of 8 and retires from the sequencer; nothing else changes (R42, R58).
VLD and VST carry their address, which must lie in the core's own scratchpad on a multiple of 128. With the trap on, a vector
instruction that produces a NaN writes nothing: the NaN is recorded, kind 0x40 is reported, the sequencer traps and the section
aborts (R95, R97). -/
def Obligations.VectorIssue : Prop :=
  (∀ (s : State) (c : CoreId) (vd va vb vc : VReg) (src p acc : BitVec 2) (dst : BitVec 4) (sa : SReg) (off : BitVec 17),
      let k := s.core c
      let ad := k.sreg sa + BitVec.ofInt 64 off.toInt
      let queuedAt := fun (i : Instr) (a : DWord) =>
        s.issues c i → k.vecQ.length < 8 → ∃ t : State, ∃ e, exec i s = .next t ∧ s.onlyCore t c ∧
          (t.core c).vecQ = k.vecQ ++ [e] ∧ e.insn = i ∧ e.addr = a ∧ e.pc = k.pc ∧ e.word = k.insnAt k.pc ∧ e.tag = k.runTag ∧
          k.retired (t.core c) (k.pc + 1) [] ∧ k.sregsKept (t.core c) ∧ (t.core c).vregs = k.vregs ∧
          (t.core c).mem = k.mem ∧ (t.core c).acc = k.acc
      let queued := fun (i : Instr) => queuedAt i 0
      queued (.vadd c vd va vb) ∧ queued (.vsub c vd va vb) ∧ queued (.vmul c vd va vb) ∧ queued (.vfma c vd va vb vc) ∧
      queued (.vmin c vd va vb) ∧ queued (.vmax c vd va vb) ∧ queued (.vabs c vd va) ∧ queued (.vneg c vd va) ∧
      queued (.vcmplt c vd va vb) ∧ queued (.vsel c vd va vb vc) ∧ queued (.vrcp c vd va) ∧ queued (.vrsq c vd va) ∧
      queued (.vexp2 c vd va) ∧ queued (.vlog2 c vd va) ∧ queued (.vredsum c vd va) ∧ queued (.vredmax c vd va) ∧
      queued (.vcvt c vd va src dst) ∧ queued (.vadd2 c vd va vb) ∧ queued (.vmul2 c vd va vb) ∧
      queued (.vmova c vd acc p) ∧ queued (.vmovaw c acc va p) ∧
      (k.awaits sa = false → isOwnSpad c ad = true → addrOff40 ad + 128 ≤ 0x60000 → ad.toNat % 128 = 0 →
        queuedAt (.vld c vd sa off) ad ∧ queuedAt (.vst c vd sa off) ad)) ∧
  (∀ (s : State) (c : CoreId) (e : VecEntry) (rest : List VecEntry) (vd va vb : VReg) (l : Nat),
      let k := s.core c
      s.alive c = true → k.df = .run → k.vecQ = e :: rest → k.vecWaits e = false → k.nanTrapOn = true →
      e.insn = .vadd c vd va vb → l < 32 → isNaN (add32 (k.lane va.toNat l) (k.lane vb.toNat l)) = true →
      ∃ t : State, ∃ m : Msg, exec (.vectorComplete c) s = .next t ∧ (t.core c).vregs = k.vregs ∧ (t.core c).acc = k.acc ∧ (t.core c).s = k.s ∧
        (t.core c).mem = k.mem ∧ (t.core c).seq = .trapped ∧ (t.core c).df = .aborting ∧
        (t.core c).reg rCORE_TRAP = 0x80000040 ∧ (t.core c).reg rCORE_TRAPPC = BitVec.ofNat 32 (e.pc % 16384) ∧
        ((t.core c).reg rMX_NANREC0).getLsbD 31 = true ∧ t.transit = s.transit ++ [m] ∧ m.kind = 0x40 ∧ m.block = 2 ∧
        m.detail = e.tag ∧ s.othersKept t c)

/-- The results of the vector unit (R58, R84 to R89): the oldest instruction of the queue completes and its destination's 32
lanes hold what its row of R58 says, lane by lane; no other vector register, scalar register, accumulator or byte of memory
changes. The NaN trap is off; with it on, VectorIssue says what happens. Numbers (R84, R85, R87, R88, R89, R94): a NaN operand
gives the canonical NaN; a zero result is +0; the exact results of small integers are exact; VMIN and VMAX order -0 below +0;
the approximations keep their special values (R89). -/
def Obligations.VectorResults : Prop :=
  (∀ (s : State) (c : CoreId) (e : VecEntry) (rest : List VecEntry) (vd va vb vc : VReg) (sa : SReg),
      let k := s.core c
      s.alive c = true → k.vecQ = e :: rest → k.vecWaits e = false → k.nanTrapOn = false →
      let a := k.lane va.toNat
      let b := k.lane vb.toNat
      let d := k.lane vc.toNat
      let gives := fun (i : Instr) (f : Nat → Word) => e.insn = i → ∃ t : State, exec (.vectorComplete c) s = .next t ∧
        (∀ l, l < 32 → (t.core c).lane vd.toNat l = f l) ∧ (∀ (v : VReg) l, v ≠ vd → (t.core c).lane v.toNat l = k.lane v.toNat l) ∧
        (t.core c).vecQ = rest ∧ pairAt (t.core c).regs rVEC_OPS = pairAt k.regs rVEC_OPS + 1 ∧ (t.core c).s = k.s ∧
        (t.core c).mem = k.mem ∧ (t.core c).acc = k.acc ∧ (t.core c).pc = k.pc ∧ s.othersKept t c ∧
        t = { s with cores := t.cores, transit := t.transit }
      gives (.vadd c vd va vb) (fun l => b32 .rne (fadd (fv (a l)) (fv (b l)))) ∧
      gives (.vsub c vd va vb) (fun l => b32 .rne (fadd (fv (a l)) (fneg (fv (b l))))) ∧
      gives (.vmul c vd va vb) (fun l => b32 .rne (fmul (fv (a l)) (fv (b l)))) ∧
      gives (.vfma c vd va vb vc) (fun l => b32 .rne (fadd (fmul (fv (a l)) (fv (b l))) (fv (d l)))) ∧
      gives (.vmin c vd va vb) (fun l => min32 (a l) (b l)) ∧ gives (.vmax c vd va vb) (fun l => max32 (a l) (b l)) ∧
      gives (.vabs c vd va) (fun l => a l &&& 0x7FFFFFFF) ∧ gives (.vneg c vd va) (fun l => a l ^^^ 0x80000000) ∧
      gives (.vcmplt c vd va vb) (fun l => if less32 (a l) (b l) then 0xFFFFFFFF else 0) ∧
      gives (.vsel c vd va vb vc) (fun l => if d l ≠ 0 then a l else b l) ∧
      gives (.vrcp c vd va) (fun l => vrcp1 (kOf s c).image (a l)) ∧ gives (.vrsq c vd va) (fun l => vrsq1 (kOf s c).image (a l)) ∧
      gives (.vexp2 c vd va) (fun l => vexp21 (kOf s c).image (a l)) ∧ gives (.vlog2 c vd va) (fun l => vlog21 (kOf s c).image (a l)) ∧
      gives (.vredsum c vd va) (fun l => if l = 0 then tree32 add32 (k.vreg va) else 0) ∧
      gives (.vredmax c vd va) (fun l => if l = 0 then tree32 max32 (k.vreg va) else 0) ∧
      gives (.qvld c vd sa) (fun l => if l < 16 then e.line.extractLsb' (32 * l) 32 else 0)) ∧
  ((∀ a b : Word, isNaN a = true ∨ isNaN b = true →
      add32 a b = 0x7FC00000 ∧ sub32 a b = 0x7FC00000 ∧ mul32 a b = 0x7FC00000 ∧ min32 a b = 0x7FC00000 ∧
      max32 a b = 0x7FC00000 ∧ less32 a b = false ∧ fma32 a b 0 = 0x7FC00000 ∧ fma32 0 a b = 0x7FC00000) ∧
    (∀ a b : Word, add32 a b = add32 b a ∧ mul32 a b = mul32 b a) ∧
    (∀ a : Word, finite a = true → sub32 a a = 0 ∧ add32 a (neg32 a) = 0) ∧
    min32 0x80000000 0 = 0x80000000 ∧ max32 0x80000000 0 = 0 ∧
    (∀ (g : BitVec 384) (a : Word), isNaN a = true →
      vrcp1 g a = 0x7FC00000 ∧ vrsq1 g a = 0x7FC00000 ∧ vexp21 g a = 0x7FC00000 ∧ vlog21 g a = 0x7FC00000) ∧
    (∀ g : BitVec 384, vrcp1 g 0 = 0x7F800000 ∧ vrcp1 g 0x80000000 = 0xFF800000 ∧ vrcp1 g 0x7F800000 = 0 ∧ vrsq1 g 0 = 0x7F800000 ∧
      vexp21 g 0xFF800000 = 0 ∧ vlog21 g 0 = 0xFF800000 ∧ vlog21 g 0x7F800000 = 0x7F800000))

/-- Pair operations, conversions to INT32 and moves between accumulators and vector registers (R58, R86, R92): VADD2 and VMUL2
write a register pair; VMOVA reads 32 elements of an accumulator from element 32 p, VMOVAW writes them. VLD reads its two lines one
after the other, and lanes 0 to 15 hold the first and lanes 16 to 31 the second (R58, R128); VST hands the 128 bytes of its register, as R11
orders them, to their banks as two lines (R58, R128), where EmptyQueueTicks says what happens to them. -/
def Obligations.VectorMoves : Prop :=
  (∀ (s : State) (c : CoreId) (e : VecEntry) (rest : List VecEntry) (vd va vb : VReg) (acc p : BitVec 2),
      let k := s.core c
      s.alive c = true → k.vecQ = e :: rest → k.vecWaits e = false → k.nanTrapOn = false →
      let pairs := fun (i : Instr) (f : Pair → Pair → Pair) => e.insn = i → okEven vd = true → okEven va = true → okEven vb = true →
        ∃ t : State, exec (.vectorComplete c) s = .next t ∧
        (∀ l, l < 32 →
          (t.core c).lane vd.toNat l = (f (k.lanePair va l) (k.lanePair vb l)).hi ∧
          (t.core c).lane (vd.toNat + 1) l = (f (k.lanePair va l) (k.lanePair vb l)).lo) ∧
        (∀ (v : VReg) l, v ≠ vd → v ≠ vd + 1 → (t.core c).lane v.toNat l = k.lane v.toNat l) ∧ (t.core c).acc = k.acc ∧
        (t.core c).s = k.s ∧ (t.core c).mem = k.mem
      pairs (.vadd2 c vd va vb) pairAdd ∧ pairs (.vmul2 c vd va vb) pairMul ∧
      (e.insn = .vcvt c vd va 0 6 → k.stochastic = false → ∃ t : State, exec (.vectorComplete c) s = .next t ∧
        (∀ l, l < 32 → (t.core c).lane vd.toNat l = BitVec.ofNat 32 (toInt 32 .rne (fv (k.lane va.toNat l))).bits) ∧
        (t.core c).rng = k.rng ∧ (t.core c).acc = k.acc ∧ (t.core c).s = k.s ∧ (t.core c).mem = k.mem) ∧
      (e.insn = .vmova c vd acc p → ∃ t : State, exec (.vectorComplete c) s = .next t ∧
        (∀ l, l < 32 → (t.core c).lane vd.toNat l = (k.accAt acc.toNat).elems.get 0 (32 * p.toNat + l)) ∧
        (t.core c).acc = k.acc ∧ (t.core c).s = k.s ∧ (t.core c).mem = k.mem) ∧
      (e.insn = .vmovaw c acc va p → ∃ t : State, exec (.vectorComplete c) s = .next t ∧
        (∀ n, ((t.core c).accAt acc.toNat).elems.get 0 n =
          if 32 * p.toNat ≤ n ∧ n < 32 * p.toNat + 32 then k.lane va.toNat (n - 32 * p.toNat)
          else (k.accAt acc.toNat).elems.get 0 n) ∧
        (∀ m, m ≠ acc.toNat → ((t.core c).accAt m).elems = (k.accAt m).elems) ∧
        (t.core c).vregs = k.vregs ∧ (t.core c).s = k.s ∧ (t.core c).mem = k.mem)) ∧
  (∀ (s : State) (c : CoreId) (e : VecEntry) (rest : List VecEntry) (v : VReg) (sa : SReg) (off : BitVec 17),
      let k := s.core c
      let o := addrOff40 e.addr
      let bytes := fun (i : Nat) => (List.range 64).map (fun q =>
        (k.lane v.toNat (16 * i + q / 4)).extractLsb' (8 * (q % 4)) 8)
      s.alive c = true → k.vecQ = e :: rest → k.vecWaits e = false →
      (e.insn = .vld c v sa off → e.got = none → k.refusal false o = none → k.cleanLine o = true →
        ∃ t : State, exec (.vectorComplete c) s = .next t ∧ (t.core c).vecQ = { e with got := some (Mem.readLine k.mem o) } :: rest ∧
          (t.core c).vregs = k.vregs ∧ (t.core c).mem = k.mem ∧ (t.core c).s = k.s ∧ (t.core c).acc = k.acc ∧
          (t.core c).regs = k.regs ∧ s.othersKept t c) ∧
      (∀ first : Line, e.insn = .vld c v sa off → e.got = some first → o % 64 = 0 → k.refusal false (o + 64) = none →
        k.cleanLine (o + 64) = true → ∃ t : State, exec (.vectorComplete c) s = .next t ∧ (t.core c).vecQ = rest ∧
        (∀ l, l < 32 → (t.core c).lane v.toNat l =
          if l < 16 then first.extractLsb' (32 * l) 32 else BitVec.ofNat 32 (Mem.readN k.mem (o + 4 * l) 4)) ∧
        (∀ (w : VReg) l, w ≠ v → (t.core c).lane w.toNat l = k.lane w.toNat l) ∧
        (t.core c).mem = k.mem ∧ (t.core c).s = k.s ∧ (t.core c).acc = k.acc ∧ s.othersKept t c) ∧
      (e.insn = .vst c v sa off → k.refusal true o = none → k.refusal true (o + 64) = none →
        ∃ t : State, exec (.vectorComplete c) s = .next t ∧ (t.core c).vecQ = rest ∧
        (t.core c).lineWr = k.lineWr ++ [{ agent := agVEC, off := o, bytes := bytes 0, num := e.num },
          { agent := agVEC, off := o + 64, bytes := bytes 1, num := e.num }] ∧ (t.core c).mem = k.mem ∧
        (t.core c).vregs = k.vregs ∧ (t.core c).s = k.s ∧ (t.core c).acc = k.acc ∧ s.othersKept t c))

/-- MMA, MZERO, MLDA and MST enter the matrix engine's queue of 4 with the registers as they stand, and retire (R42, R52); MMA
with INC adds 64 to both address registers. MSYNC retires once no matrix instruction is queued or in flight and stalls until
then, on the matrix-engine counters of its unit and of the channels whose entries its task holds (R55, R230). A tile step begins by reading its 16 rows of A and 8 columns of B (R51, R54); an accumulator keeps its elements
until the step completes. -/
def Obligations.MatrixIssueAndReads : Prop :=
  (∀ (s : State) (c : CoreId) (sa sb : SReg) (fmt : BitVec 4) (acc : BitVec 2) (inc : Bool),
      let k := s.core c
      s.free c [sa, sb] →
      let queued := fun (i : Instr) (regs : Core → Prop) =>
        s.issues c i → k.matQ.length < 4 → ∃ t : State, ∃ e, exec i s = .next t ∧ s.onlyCore t c ∧ (t.core c).matQ = k.matQ ++ [e] ∧
          e.insn = i ∧ e.sa = k.sreg sa ∧ e.sb = k.sreg sb ∧ e.pc = k.pc ∧ e.tag = k.runTag ∧
          (∀ off, off ∈ [rMX_ASTRIDE, rMX_BSTRIDE, rMX_MXCFG, rMX_RCFG] → e.reg off = k.reg off) ∧
          k.retired (t.core c) (k.pc + 1) [] ∧ regs (t.core c) ∧ (t.core c).acc = k.acc ∧ (t.core c).mem = k.mem ∧
          (t.core c).vregs = k.vregs
      queued (.mma c sa sb fmt acc false) k.sregsKept ∧
      (sa ≠ sb → queued (.mma c sa sb fmt acc true) (fun k' => ∀ r : SReg, k'.sreg r =
        if r = 0 then 0 else if r = sa ∨ r = sb then k.sreg r + 64 else k.sreg r)) ∧
      queued (.mzero c sa sb fmt acc inc) k.sregsKept ∧ queued (.mlda c sa sb fmt acc inc) k.sregsKept ∧
      queued (.mst c sa sb fmt acc inc) k.sregsKept ∧
      (k.matQ = [] → k.steps = [] → s.computes c (.msync c sa sb fmt acc false) 0 0 (k.pc + 1)) ∧
      (s.issues c (.msync c sa sb fmt acc false) → k.matQ ≠ [] ∨ k.steps ≠ [] → ∃ t : State,
        exec (.msync c sa sb fmt acc false) s = .next t ∧ s.held t c (match k.running with
          | none => []
          | some r => (rDF_UWMX + 0x40 * r.u.toNat) :: r.queued.map (fun n => rDF_QMX + 0x20 * n))) ∧
      (s.issues c (.msync c sa sb fmt acc true) → ∃ t : State, exec (.msync c sa sb fmt acc true) s = .next t ∧
        s.execFaulted t c 1 0x53 k.pc k.pc (k.insnAt k.pc).toNat)) ∧
  (∀ (s : State) (c : CoreId) (e : MatEntry) (rest : List MatEntry) (sa sb : SReg) (fmt : BitVec 4) (acc : BitVec 2) (inc : Bool)
      (f : MmaFmt),
      let k := s.core c
      let cols := (List.range 8).map (fun j => addrOff40 e.sb + j * e.bStep)
      s.alive c = true → k.matQ = e :: rest → e.insn = .mma c sa sb fmt acc inc → mmaFmt fmt.toNat = some f → f.scaled = false →
      k.mxFree = true → k.accWaitMat e = false → k.anyHeld e.reads = false → k.hazard e.num e.reads [] = false →
      insidePad c e.sa (15 * e.aStep) = true → insidePad c e.sb (7 * e.bStep) = true → e.sa.toNat % 64 = 0 → e.sb.toNat % 64 = 0 →
      e.aStep ≠ 0 → e.bStep ≠ 0 → oddPair acc (fmt == 13) = false → (∀ n ∈ k.matAccs e, (k.accAt n).tag = mmaTag fmt.toNat) →
      (∀ o ∈ e.rows ++ cols, k.refusal false o = none ∧ k.cleanLine o = true) →
      ∃ t : State, ∃ st, exec (.mmaStepBegin c) s = .next t ∧ (t.core c).matQ = rest ∧ (t.core c).steps = k.steps ++ [st] ∧ st.entry = e ∧ st.issued = 0 ∧
        st.a = e.rows.map (Mem.readLine k.mem) ∧ st.b = cols.map (Mem.readLine k.mem) ∧
        (t.core c).lastClass.toNat = mmaClass fmt.toNat ∧ (t.core c).acc = k.acc ∧ (t.core c).mem = k.mem ∧ (t.core c).s = k.s ∧
        (t.core c).regs = k.regs ∧ t = { s with cores := t.cores } ∧ s.othersKept t c)

/-- A tile step takes 32 issue cycles: a cycle issues when fewer than MX_LIMIT.N of the last 63 did, and counts in MX_ISSUE; otherwise the
limit withholds it and MX_THROTTLE counts (R54, R56). Then it completes: a floating-point element becomes the sum of itself and the step's products, rounded once to
nearest-even (R82); an integer element the clamped sum (R83); pair elements take the products for k = 0 and 1 in turn (R92).
Other accumulators, registers and memory stay. -/
def Obligations.MmaStepResults : Prop :=
  (∀ (s : State) (c : CoreId) (st : MmaStep),
    let k := s.core c
    s.pending = [] → s.alive c = true → s.bu.fieldDs = [] → (∀ j ∈ s.jobs, j.killYc = none) → k.steps = [st] → st.issued < 32 →
    k.seq ≠ .stall → ∃ t : State, step s = .next t ∧ (t.core c).acc = k.acc ∧
      (popcount (setField k.mxHist 63 1 0) < field (k.reg rMX_LIMIT) 0 7 → (t.core c).steps = [{ st with issued := st.issued + 1 }] ∧
        (t.core c).mxHist = k.mxHist <<< 1 ||| 1 ∧ pairAt (t.core c).regs rMX_ISSUE = pairAt k.regs rMX_ISSUE + 1 ∧
        pairAt (t.core c).regs rMX_THROTTLE = pairAt k.regs rMX_THROTTLE) ∧
      (field (k.reg rMX_LIMIT) 0 7 ≤ popcount (setField k.mxHist 63 1 0) → (t.core c).steps = [st] ∧
        (t.core c).mxHist = k.mxHist <<< 1 ∧ pairAt (t.core c).regs rMX_ISSUE = pairAt k.regs rMX_ISSUE ∧
        pairAt (t.core c).regs rMX_THROTTLE = pairAt k.regs rMX_THROTTLE + 1)) ∧
  (∀ (s : State) (c : CoreId) (st : MmaStep) (rest : List MmaStep) (sa sb : SReg) (fmt : BitVec 4) (acc : BitVec 2) (inc : Bool)
    (f : MmaFmt),
    let k := s.core c
    let a := k.accAt acc.toNat
    s.alive c = true → k.steps = st :: rest → st.entry.insn = .mma c sa sb fmt acc inc → mmaFmt fmt.toNat = some f →
    32 ≤ st.issued → k.trapWaitMat st.entry.num = false → ∃ t : State, exec (.mmaStepComplete c) s = .next t ∧ (t.core c).steps = rest ∧
      (mmaTag fmt.toNat = .fp32 → ∀ n, n < 128 → ((t.core c).accAt acc.toNat).elems.get 0 n =
        b32 .rne (fsum (fv (a.elems.get 0 n) :: st.products fmt.toNat f (n / 8) (n % 8)))) ∧
      (mmaTag fmt.toNat = .int32 → ∀ n, n < 128 → (((t.core c).accAt acc.toNat).elems.get 0 n).toInt =
        max (-2147483648) (min 2147483647
          ((a.elems.get 0 n).toInt + ((st.products fmt.toNat f (n / 8) (n % 8)).map fint).sum))) ∧
      (mmaTag fmt.toNat = .pair → ∀ n, n < 128 →
        let p := pairElems a (k.accAt (acc.toNat + 1)) st
        ((t.core c).accAt acc.toNat).elems.get 0 n = (nth { hi := 0, lo := 0 } p n).hi ∧
        ((t.core c).accAt (acc.toNat + 1)).elems.get 0 n = (nth { hi := 0, lo := 0 } p n).lo) ∧
      (∀ m, m ≠ acc.toNat → (mmaTag fmt.toNat = .pair → m ≠ acc.toNat + 1) → (t.core c).accAt m = k.accAt m) ∧
      pairAt (t.core c).regs rMX_STEPS = pairAt k.regs rMX_STEPS + 1 ∧
      pairAt (t.core c).regs rMX_ISSUE = pairAt k.regs rMX_ISSUE ∧
      (t.core c).mem = k.mem ∧ (t.core c).s = k.s ∧ (t.core c).vregs = k.vregs ∧ (t.core c).pc = k.pc ∧ s.othersKept t c)

/-- MZERO zeroes an accumulator and gives it the tag of its store format, two of them for a pair (R52, R53); MLDA loads 16 rows
of 8 elements in a store format (R52, R86). MST hands the elements of the tile, converted to its store format, row by row to
the banks of its rows (R52, R86, R115, R128). The checks of R99 and R102 are off, no NaN is produced and the rounding is to
nearest-even. -/
def Obligations.AccumulatorMoves : Prop :=
  (∀ (s : State) (c : CoreId) (e : MatEntry) (rest : List MatEntry) (sa sb : SReg) (fmt : BitVec 4) (acc : BitVec 2),
      let k := s.core c
      s.alive c = true → k.matQ = e :: rest → k.headWaits e = false → fmt.toNat < 8 → oddPair acc (fmt == 7) = false →
      (e.insn = .mzero c sa sb fmt acc false → ∃ t : State, exec (.mzeroExecute c) s = .next t ∧ (t.core c).matQ = rest ∧
        (∀ m, (t.core c).accAt m =
          if m = acc.toNat ∨ (fmt = 7 ∧ m = acc.toNat + 1) then zeroAcc (storeTag fmt.toNat) else k.accAt m) ∧
        (t.core c).mem = k.mem ∧ (t.core c).s = k.s ∧ (t.core c).regs = k.regs ∧ s.othersKept t c) ∧
      (e.insn = .mlda c sa sb fmt acc false → k.anyHeld e.reads = false → k.hazard e.num e.reads [] = false → e.aStep ≠ 0 →
        insidePad c e.sa (15 * e.aStep) = true → e.sa.toNat % 64 = 0 → fmt ≠ 7 →
        (∀ o ∈ e.rows, k.refusal false o = none ∧ k.cleanLine o = true) →
        ∃ t : State, exec (.mldaExecute c) s = .next t ∧ (t.core c).matQ = rest ∧
          ((t.core c).accAt acc.toNat).tag = storeTag fmt.toNat ∧
          (∀ i j, i < 16 → j < 8 → ((t.core c).accAt acc.toNat).elem i j = fromStore fmt.toNat
            (Mem.readN k.mem (addrOff40 e.sa + i * e.aStep + storeBytesOf fmt.toNat * j) (storeBytesOf fmt.toNat))) ∧
          (∀ m, m ≠ acc.toNat → (t.core c).accAt m = k.accAt m) ∧
          (t.core c).mem = k.mem ∧ (t.core c).s = k.s ∧ (t.core c).regs = k.regs ∧ s.othersKept t c)) ∧
  (∀ (s : State) (c : CoreId) (e : MatEntry) (rest : List MatEntry) (sa sb : SReg) (fmt : BitVec 4) (acc : BitVec 2),
      let k := s.core c
      let tile := k.tile acc.toNat
      let conv := fun m => tile.convert fmt.toNat .rne k.satFp8 m
      let n := storeBytesOf fmt.toNat
      let row := fun i => addrOff40 e.sa + i * e.aStep
      s.alive c = true → k.matQ = e :: rest → k.headWaits e = false → e.insn = .mst c sa sb fmt acc false →
      k.anyHeld e.writes = false → k.hazard e.num [] e.writes = false → fmt.toNat < 7 → tile.tag ≠ .pair → e.aStep ≠ 0 →
      insidePad c e.sa (15 * e.aStep) = true → e.sa.toNat % 64 = 0 → k.stochastic = false → (∀ m, m < 128 → (conv m).nan = false) →
      (k.reg rMX_CTRL).getLsbD 2 = false → (k.reg rMX_CTRL).getLsbD 3 = false →
      (∀ i, i < 16 → k.refusal true (row i) = none) →
      ∃ t : State, exec (.mstExecute c) s = .next t ∧ (t.core c).matQ = rest ∧ (t.core c).mem = k.mem ∧
        (t.core c).lineWr = k.lineWr ++ (List.range 16).map (fun i =>
          { agent := agMX, off := row i, num := e.num,
            bytes := (List.range (8 * n)).map (fun b => BitVec.ofNat 8 ((conv (8 * i + b / n)).bits / 256 ^ (b % n))) }) ∧
        (t.core c).acc = k.acc ∧ (t.core c).s = k.s ∧ (t.core c).vregs = k.vregs ∧ (t.core c).rng = k.rng ∧ s.othersKept t c)

/-- MVQ captures the 32 bytes of a descriptor and enqueues it under the next sequence number; MVW retires once no more commands
than its immediate are incomplete, and stalls until then (R60). A command whose lines have all moved and stand in their banks ends (R63):
MV_DONE counts it and a sync counter it names is incremented. A DIGEST first hands its digest line to the bank of its destination and counts
its bytes (R67, R76). -/
def Obligations.MoverQueue : Prop :=
  (∀ (s : State) (c : CoreId) (a : SReg) (imm : BitVec 16),
      let k := s.core c
      let ad := k.target a imm
      (s.issues c (.mvq c a imm) → s.free c [a] → ad.toNat % 32 = 0 → k.localAccess c ad 1 false → k.mvIncomplete < 16 →
        ∃ t : State, ∃ m : MvCmd, exec (.mvq c a imm) s = .next t ∧ s.onlyCore t c ∧ (t.core c).mvQ = k.mvQ ++ [m] ∧
          m.desc = BitVec.ofNat 256 (Mem.readN k.mem (addrOff40 ad) 32) ∧ m.descAddr = ad ∧ m.seq = k.mvSeq ∧ m.pc = k.pc ∧
          (t.core c).mvSeq = k.mvSeq + 1 ∧ k.retired (t.core c) (k.pc + 1) [] ∧ k.sregsKept (t.core c) ∧
          (t.core c).mem = k.mem ∧ (t.core c).mvAct = k.mvAct) ∧
      (k.mvIncomplete ≤ imm.toNat → s.computes c (.mvw c imm) 0 0 (k.pc + 1)) ∧
      (s.issues c (.mvw c imm) → imm.toNat < k.mvIncomplete → ∃ t : State, exec (.mvw c imm) s = .next t ∧ s.held t c [])) ∧
  (∀ (s : State) (c : CoreId) (a : MvActive),
      let k := s.core c
      let m := a.cmd
      s.alive c = true → k.mvAct = some a → k.mvOutst = 0 → k.mvWrites = false → a.stopped = false → a.issued c = true →
      (m.op ≤ 2 ∨ a.sent = true → ∃ t : State, exec (.localMoverCompletion c) s = .next t ∧ (t.core c).mvAct = none ∧ (t.core c).mvQ = k.mvQ ∧
        pairAt (t.core c).regs rMV_DONE = pairAt k.regs rMV_DONE + 1 ∧ (t.core c).mem = k.mem ∧ (t.core c).s = k.s ∧
        (m.syncEn = true → (t.core c).counter m.sync = k.counter m.sync + 1) ∧
        (∀ n, n < 32 → (m.syncEn = false ∨ n ≠ m.sync) → (t.core c).counter n = k.counter n) ∧
        (m.acq = true → (t.core c).rlb = []) ∧ (t.core c).reg rDF_NOPROG = 0 ∧ s.othersKept t c) ∧
      (m.op = 3 → a.sent = false → k.scan = none → addrOff40 m.dst + 64 ≤ 0x60000 → k.refusal true (addrOff40 m.dst) = none →
        ∃ t : State, exec (.localMoverCompletion c) s = .next t ∧ (t.core c).mvAct = some { a with sent := true } ∧
          pairAt (t.core c).regs rMV_DGBYTES = pairAt k.regs rMV_DGBYTES + BitVec.ofNat 64 a.message.length ∧
          (t.core c).lineWr = k.lineWr ++
            [{ agent := agMV, off := addrOff40 m.dst, num := m.num, bytes := Line.bytes (digestLine a.message a.message.length 0 0) }] ∧
          (t.core c).mem = k.mem ∧ (t.core c).s = k.s ∧ s.othersKept t c))

/-- COPY hands the bytes of its source lines to the banks of its destination lines, one line after the other, and FILL its pattern, and
nothing else (R61 to R63, R128); DIGEST and CHUNK take the bytes of their
source for the digest engine (R61 to R67). A descriptor that its rules forbid is recorded and reported and moves nothing (R62). -/
def Obligations.MoverCommands : Prop :=
  ∀ (s : State) (c : CoreId) (m : MvCmd) (rest : List MvCmd),
    let k := s.core c
    let src := addrOff40 m.src
    let dst := addrOff40 m.dst
    let taken := fun (i : Instr) (op : Nat) => m.op = op → s.moverStarts c m rest ((m.length + 63) / 64) →
      ∃ t : State, ∃ a, exec i s = .next t ∧ (t.core c).mvAct = some a ∧ a.cmd = m ∧ (t.core c).mvQ = rest ∧ (t.core c).mem = k.mem ∧
        a.message = (List.range m.length).map (fun i => Mem.read k.mem (src + i)) ∧ (t.core c).s = k.s ∧ s.othersKept t c
    (m.op = 1 → s.moverStarts c m rest (m.length / 64) → src + m.length ≤ dst ∨ dst + m.length ≤ src →
      ∃ t : State, ∃ a, exec (.copy c) s = .next t ∧ (t.core c).mvAct = some a ∧ a.cmd = m ∧ (t.core c).mvQ = rest ∧
        (t.core c).mem = k.mem ∧ (t.core c).lineWr = k.lineWr ++ (List.range (m.length / 64)).map (fun i =>
          { agent := agMV, off := dst + 64 * i, bytes := (List.range 64).map (fun b => Mem.read k.mem (src + 64 * i + b)), num := m.num }) ∧
        pairAt (t.core c).regs rMV_LINES = pairAt k.regs rMV_LINES + BitVec.ofNat 64 (m.length / 64) ∧
        (t.core c).s = k.s ∧ (t.core c).acc = k.acc ∧ s.othersKept t c) ∧
    (m.op = 2 → s.moverStarts c m rest (m.length / 64) →
      ∃ t : State, ∃ a, exec (.fill c) s = .next t ∧ (t.core c).mvAct = some a ∧ a.cmd = m ∧ (t.core c).mvQ = rest ∧
        (t.core c).mem = k.mem ∧ (t.core c).lineWr = k.lineWr ++ (List.range (m.length / 64)).map (fun i =>
          { agent := agMV, off := dst + 64 * i, bytes := (List.range 64).map (fun b => m.src.extractLsb' (8 * (b % 8)) 8), num := m.num }) ∧
        (t.core c).s = k.s ∧ (t.core c).acc = k.acc ∧ s.othersKept t c) ∧
    taken (.digest c) 3 ∧ taken (.chunk c) 4 ∧
    (s.alive c = true → k.mvAct = none → k.mvQ = m :: rest → m.op = 1 → m.valid c = false → ∃ t : State, ∃ f, exec (.copy c) s = .next t ∧
      (t.core c).mvQ = rest ∧ (t.core c).mvAct = none ∧ (t.core c).mem = k.mem ∧ t.transit = s.transit ++ [f] ∧
      f.kind = 0x1B ∧ f.block = 3 ∧ f.detail = m.seq ∧ ((t.core c).reg rMV_ERR).getLsbD 31 = true)

/-! ### Synchronisation and dataflow -/

/-- SIG adds to a sync counter: of the own core at once, of another core by a packet; a SIG packet that arrives adds its payload
and is counted (R189, R190, R201). WATCH at the own core registers its request in the lowest free entry, with 0 in s[d]; a
request that arrives is registered and acknowledged (R192). A watch whose condition holds fires at once: its entry stays free
and its WMSG carries the value (R193). -/
def Obligations.SignalsAndWatches : Prop :=
  (∀ (s : State) (c : CoreId) (a b : SReg) (n : Nat) (p : Packet),
      let k := s.core c
      let ad := k.sreg a
      n < 32 →
      (s.issues c (.sig c a b) → s.free c [a, b] → ad = mkAddr 1 c (0x4040 + 8 * n) → ∃ t : State, exec (.sig c a b) s = .next t ∧
        (t.core c).counter n = k.counter n + k.sreg b ∧ (∀ m, m < 32 → m ≠ n → (t.core c).counter m = k.counter m) ∧
        (t.core c).pc = k.pc + 1 ∧ k.sregsKept (t.core c) ∧ (t.core c).mem = k.mem ∧ s.othersKept t c) ∧
      (∀ there : CoreId, s.issues c (.sig c a b) → s.free c [a, b] → onGrid there = true → there ≠ c →
        ad = mkAddr 1 there (0x4040 + 8 * n) → ∃ t : State, ∃ q : Packet, exec (.sig c a b) s = .next t ∧ s.othersKept t c ∧
          t.inj = s.inj ++ [Sent.mk q (some ad) true] ∧ q.op = 4 ∧ q.off.toNat = 0x4040 + 8 * n ∧
          q.head = BitVec.ofNat 384 (k.sreg b).toNat ∧ k.retired (t.core c) (k.pc + 1) [] ∧ k.engineKept (t.core c)) ∧
      (s.arrives c p → p.op = 4 → p.off.toNat = 0x4040 + 8 * n → ∃ t : State, exec (.sigArrival c) s = .next t ∧ s.took t c ∧
        (t.core c).counter n = k.counter n + p.head.extractLsb' 0 64 ∧
        pairAt (t.core c).regs rSY_SIGS = pairAt k.regs rSY_SIGS + 1 ∧
        (∀ m, m < 32 → m ≠ n → (t.core c).counter m = k.counter m) ∧ (t.core c).mem = k.mem ∧ (t.core c).s = k.s)) ∧
  (∀ (s : State) (c : CoreId) (d a b : SReg) (p : Packet) (i : Nat) (l : Line) (w : Watch),
      let k := s.core c
      let there := k.sreg b
      k.watchRefusal l = none → w.value = lineDWord l 0 → w.ctrl = lineDWord l 1 → w.ctrl.getLsbD 22 = false →
      k.freeWatch = some i →
      (s.issues c (.watch c d a b) → s.free c [d, a, b] → k.localAccess c (k.sreg a) 64 false →
        l = Mem.readLine k.mem (addrOff40 (k.sreg a)) → addrSpace there = 1 → addrCore there = c →
        w.sys = (field ((kOf s c).rt.reg rRT_PID) 29 1 == 1) → w.holds (k.watched w) = false →
        ∃ t : State, exec (.watch c d a b) s = .next t ∧ (t.core c).watches.get none i = some w ∧ k.sregsSet (t.core c) d 0 ∧
          k.retired (t.core c) (k.pc + 1) [] ∧ (t.core c).mem = k.mem ∧ t.inj = s.inj ∧ s.othersKept t c) ∧
      (s.arrives c p → isWatchRequest p = true → p.lines = [l] → w.sys = p.sys → w.holds (k.watched w) = false →
        ∃ t : State, ∃ q : Packet, exec (.watchRequest c) s = .next t ∧ s.took t c ∧ (t.core c).watches.get none i = some w ∧
          t.inj = s.inj ++ [Sent.mk q none true] ∧ q.op = 10 ∧ q.dst = p.src ∧ q.txid = p.txid ∧ (t.core c).mem = k.mem) ∧
      (s.arrives c p → isWatchRequest p = true → p.lines = [l] → w.sys = p.sys → w.holds (k.watched w) = true →
        ∃ t : State, ∃ m : Sent, ∃ q : Packet, exec (.watchRequest c) s = .next t ∧ s.took t c ∧ (t.core c).watches.get none i = none ∧
          t.inj = s.inj ++ [m, Sent.mk q none true] ∧ m.pkt.op = 5 ∧ m.addr = some (mkAddr 1 w.waiter (0x4200 + 8 * w.channel)) ∧
          m.pkt.head = BitVec.ofNat 384 (k.watched w).toNat ∧ pairAt (t.core c).regs rSY_FIRED = pairAt k.regs rSY_FIRED + 1))

/-- The atomics read the old word of the own scratchpad into s[d] and write the word their row of R191 gives; no other byte
changes. An atomic that arrives at its home takes effect there and is answered with the old value (R191): on a word of the
scratchpad, or on a sync counter. -/
def Obligations.Atomics : Prop :=
  (∀ (s : State) (c : CoreId) (d a b : SReg), s.free c [d, a, b] →
      let k := s.core c
      let ad := k.sreg a
      let off := addrOff40 ad
      let old := k.wordAt off
      let x := k.sreg b
      let y := k.sreg d
      let does := fun (i : Instr) (new : DWord) => s.issues c i → isOwnSpad c ad = true → ad.toNat % 8 = 0 → off < 0x60000 →
        (k.freeSlot 0 8).isSome = true → k.padHeld off = false → k.hazard k.num [off] [off] = false → k.refusal true off = none →
        k.refusal false off = none →
        k.cleanLine (off / 64 * 64) = true → ∃ t : State, exec i s = .next t ∧
          k.bytesSet (t.core c) off 8 new ∧ k.sregsSet (t.core c) d old ∧ (t.core c).pc = k.pc + 1 ∧ (t.core c).acc = k.acc ∧
          (t.core c).vregs = k.vregs ∧ s.othersKept t c ∧ t = { s with cores := t.cores, slots := t.slots, inj := t.inj }
      does (.atomFadd c d a b) (old + x) ∧ does (.atomSwap c d a b) x ∧ does (.atomCas c d a b) (if old = y then x else old) ∧
      does (.atomUmax c d a b) (if old.toNat < x.toNat then x else old) ∧ does (.atomAnd c d a b) (old &&& x) ∧
      does (.atomOr c d a b) (old ||| x)) ∧
  (∀ (s : State) (c : CoreId) (p : Packet),
      let k := s.core c
      let off := p.off.toNat
      let a : DWord := p.head.extractLsb' 0 64
      let b : DWord := p.head.extractLsb' 64 64
      let new := fun (old : DWord) => match p.aux.toNat with
        | 1 => old + a
        | 2 => a
        | 3 => if old = b then a else old
        | 4 => if old.toNat < a.toNat then a else old
        | 5 => old &&& a
        | _ => old ||| a
      let answers := fun (t : State) (old : DWord) => ∃ q : Packet, Sent.mk q none true ∈ t.inj ∧ q.op = 9 ∧ q.dst = p.src ∧
        q.txid = p.txid ∧ q.head = BitVec.ofNat 384 old.toNat
      s.arrives c p → p.op = 2 → 1 ≤ p.aux.toNat → p.aux.toNat ≤ 6 → off % 8 = 0 →
      (p.space = 0 → off < 0x60000 → k.refusal true off = none → k.refusal false off = none →
        k.cleanLine (off / 64 * 64) = true → ∃ t : State, exec (.atomAtHome c) s = .next t ∧ s.took t c ∧
          k.bytesSet (t.core c) off 8 (new (k.wordAt off)) ∧ answers t (k.wordAt off) ∧ (t.core c).s = k.s) ∧
      (∀ n, n < 32 → p.space = 1 → off = 0x4040 + 8 * n → ∃ t : State, exec (.atomAtHome c) s = .next t ∧ s.took t c ∧
          (t.core c).counter n = new (k.counter n) ∧ answers t (k.counter n) ∧ (t.core c).mem = k.mem ∧ (t.core c).s = k.s))

/-- WAIT takes the lowest full reply channel of its mask, or waits; a WMSG that arrives fills its channel with the value and the
source, and a WAIT on it retires with the channel's number; a WAIT whose time has passed retires with all ones (R193, R194). -/
def Obligations.WaitsAndReplies : Prop :=
  ∀ (s : State) (c : CoreId) (d a b : SReg) (p : Packet) (w : Waiting) (ch : Nat),
    let k := s.core c
    let mask : BitVec 16 := (k.sreg a).extractLsb' 0 16
    (s.issues c (.wait c d a b) → s.free c [d, a, b] → mask ≠ 0 → k.fullReply mask = some ch → ∃ t : State,
      exec (.wait c d a b) s = .next t ∧ k.sregsSet (t.core c) d (BitVec.ofNat 64 ch) ∧ (t.core c).pc = k.pc + 1 ∧
      (t.core c).rfull = k.rfull &&& ~~~ (1#16 <<< ch) ∧ (t.core c).waiting = none ∧ (t.core c).mem = k.mem ∧ s.othersKept t c) ∧
    (s.issues c (.wait c d a b) → s.free c [d, a, b] → mask ≠ 0 → k.fullReply mask = none → ∃ t : State,
      exec (.wait c d a b) s = .next t ∧ (t.core c).waiting = some { d := d, mask := mask, limit := k.sreg b, elapsed := 1 } ∧
      (t.core c).pc = k.pc ∧ (t.core c).seq = .stall ∧ k.sregsKept (t.core c) ∧ (t.core c).mem = k.mem ∧ s.othersKept t c) ∧
    (s.alive c = true → k.df = .run → k.waiting = some w → w.limit ≠ 0 → w.limit.toNat ≤ w.elapsed → k.fullReply w.mask = none →
      ∃ t : State, exec (.waitExpiry c) s = .next t ∧ (t.core c).waiting = none ∧ (t.core c).pc = k.pc + 1 ∧
        k.sregsSet (t.core c) w.d 0xFFFFFFFFFFFFFFFF ∧ (t.core c).rfull = k.rfull ∧ (t.core c).mem = k.mem ∧ s.othersKept t c) ∧
    (s.arrives c p → p.op = 5 → ch < 16 → p.off.toNat = 0x4200 + 8 * ch → ∃ t : State, exec (.wmsgArrival c) s = .next t ∧ s.took t c ∧
      pairAt (t.core c).regs (rSY_RVAL + 8 * ch) = p.head.extractLsb' 0 64 ∧
      (t.core c).reg (rSY_RSRC + 4 * ch) = BitVec.ofNat 32 (epBits p.src) ∧ (t.core c).mem = k.mem ∧
      (k.waiting = none → (t.core c).rfull = k.rfull ||| (1#16 <<< ch)) ∧
      (k.waiting = some w → w.mask.getLsbD ch = true → (t.core c).waiting = none ∧ (t.core c).pc = k.pc + 1 ∧
        k.sregsSet (t.core c) w.d (BitVec.ofNat 64 ch)))

/-- SEND puts the 64-byte line it names on its output channel (R181): as a token to the channel's receiver, as a multicast
token, or as a REDUCE packet, by the channel's mode; a token takes the next SEQ and is outstanding until its credit returns. A
closed window holds it, and each cycle of the hold counts in CH_OSTALL (EmptyQueueTicks, R181, R230). -/
def Obligations.SendLeaves : Prop :=
  ∀ (s : State) (c : CoreId) (a b : SReg),
    let k := s.core c
    let m := field (k.sreg b) 0 4
    let o := k.outq.get .reset m
    let sends := fun (op : Nat) (ok : State → Sent → Prop) => ∃ t : State, ∃ e, exec (.send c a b) s = .next t ∧ t.inj = s.inj ++ [e] ∧
      e.pkt.op.toNat = op ∧ e.pkt.src = s.epOf c ∧ e.pkt.lines = [Mem.readLine k.mem (addrOff40 (k.sreg a))] ∧ ok t e ∧
      pairAt (t.core c).regs (rCH_OMSG + 0x40 * m) = pairAt k.regs (rCH_OMSG + 0x40 * m) + 1 ∧ (t.core c).pc = k.pc + 1 ∧
      k.sregsKept (t.core c) ∧ (t.core c).mem = k.mem ∧ s.othersKept t c
    let token := fun (t : State) (e : Sent) => e.pkt.tag = k.mkTag (field (k.sreg b) 16 14) ∧ e.pkt.tseq = o.next ∧ e.pkt.och.toNat = m ∧
      (t.core c).outq.get .reset m = { next := o.next + 1, outst := o.outst ++ [OutMsg.mk o.next 0] }
    s.issues c (.send c a b) → s.free c [a, b] → k.ochActive m = true → k.localAccess c (k.sreg a) 64 false →
    (k.omode m = 0 → k.windowOpen m = true → sends 3 (fun t e => token t e ∧
      e.addr = some (mkAddr 0 (k.odst m) (0x54000 + 0x800 * field (k.reg (rCH_ODST + 0x40 * m)) 0 4)))) ∧
    (k.omode m = 1 → k.windowOpen m = true → sends 8 (fun t e => token t e ∧ e.addr = none)) ∧
    (k.omode m = 2 → sends 6 (fun t e => e.pkt.redid = field (k.ocfg m) 0 12 ∧ e.pkt.rcount = 1 ∧ (t.core c).outq = k.outq ∧
      e.addr = some (mkAddr 0 (k.odst m) 0))) ∧
    (∀ r, k.running = some r → k.omode m < 2 → k.windowOpen m = false → ∃ t : State, exec (.send c a b) s = .next t ∧
      s.held t c [rCH_OSTALL + 0x40 * m, rDF_UWOUT + 0x40 * r.u.toNat])

/-- END ends the task and frees its operands; FIN counts, saturating; TAG gives the task's tag and ARGS the channels its firing
consumed; QLD gives a word of an operand line, QVLD a vector register's lower half of it, QCP copies it to the scratchpad (R205,
R206, R209). -/
def Obligations.DataflowInstructions : Prop :=
  ∀ (s : State) (c : CoreId) (d a b : SReg) (vd : VReg) (r : Running) (n i : Nat),
    let k := s.core c
    let line := Mem.readLine k.mem (entryOff n i)
    let operand := k.running = some r ∧ n < 16 ∧ field (k.sreg a) 0 4 = n ∧ r.ops = [.queue (BitVec.ofNat 4 n) i] ∧
      i < 32 ∧ k.queuesOn ∧ k.cleanLine (entryOff n i) = true
    k.running = some r → s.free c [d, a, b] →
    (s.issues c (.endTask c) → ∃ t : State, exec (.endTask c) s = .next t ∧ (t.core c).running = none ∧ (t.core c).seq = .idle ∧
      (∀ q ∈ r.ops, ∀ m j, q = .queue m j → ∀ e ∈ (t.core c).entries m.toNat, e.k ≠ j) ∧
      (∀ q ∈ r.ops, ∀ m j, q = .spilled m j → ∀ e ∈ (t.core c).spill, e.r ≠ j) ∧
      pairAt (t.core c).regs rCORE_RETIRED = pairAt k.regs rCORE_RETIRED + 1 ∧ k.sregsKept (t.core c) ∧ s.othersKept t c) ∧
    (s.issues c (.fin c) → ∃ t : State, exec (.fin c) s = .next t ∧ s.onlyCore t c ∧ k.engineKept (t.core c) ∧
      k.retired (t.core c) (k.pc + 1) [rDF_FIN] ∧ k.sregsKept (t.core c) ∧
      field ((t.core c).reg rDF_FIN) 16 16 = min 65535 (field (k.reg rDF_FIN) 16 16 + 1) ∧
      field ((t.core c).reg rDF_FIN) 0 16 = field (k.reg rDF_FIN) 0 16) ∧
    s.computes c (.tagI c d) d (BitVec.ofNat 64 r.tag.toNat) (k.pc + 1) ∧
    (∃ v, s.computes c (.argsI c d) d v (k.pc + 1) ∧ ∀ j, j < 64 → v.getLsbD j = (decide (j < 16) && r.chans.contains j)) ∧
    (operand → s.computes c (.qld c d a b) d (lineDWord line (field (k.sreg b) 0 3)) (k.pc + 1)) ∧
    (operand → s.issues c (.qvld c vd a) → k.vecQ.length < 8 → ∃ t : State, ∃ e, exec (.qvld c vd a) s = .next t ∧ s.onlyCore t c ∧
      (t.core c).vecQ = k.vecQ ++ [e] ∧ e.insn = .qvld c vd a ∧ e.line = line ∧ k.retired (t.core c) (k.pc + 1) [] ∧
      k.sregsKept (t.core c) ∧ (t.core c).mem = k.mem) ∧
    (let off := (k.sreg b).toNat
     operand → s.issues c (.qcp c a b) → off % 64 = 0 → off < 0x60000 → k.padHeld off = false → k.hazard k.num [] [off] = false →
      k.refusal true off = none → ∃ t : State, exec (.qcp c a b) s = .next t ∧ Mem.readLine (t.core c).mem off = line ∧
      (∀ q, q < off ∨ off + 64 ≤ q → Mem.read (t.core c).mem q = Mem.read k.mem q) ∧ k.sregsKept (t.core c) ∧
      (t.core c).pc = k.pc + 1 ∧ s.othersKept t c)

/-- The task that became ready first fires: it runs at its unit's entry with the operands its firing consumed, and the firing is
counted (R208, R222). At its turn with the forwarder (R212), a steer point sends its data line on the output its predicate selects, a merge point the line of the
lowest channel that holds one; the firing is counted and its entries are freed (R210 to R212). -/
def Obligations.FiringsBegin : Prop :=
  (∀ (s : State) (c : CoreId) (e : TmEntry),
      let k := s.core c
      let u := e.u.toNat
      let chans := k.consumed u (k.maskOf e)
      s.alive c = true → k.df = .run → k.running = none → k.waiting = none →
      k.readyQ.find? (fun x => !k.isPoint x.u.toNat) = some e → (∀ n ∈ chans, (k.inStore n e.tag).isSome = true) →
      ∃ t : State, ∃ r, exec (.taskFire c) s = .next t ∧ (t.core c).running = some r ∧ r.u = e.u ∧ r.tag = e.tag ∧ r.chans = chans ∧
        (t.core c).pc = k.unitEntry u ∧ (t.core c).seq = .run ∧ (t.core c).reg rDF_NOPROG = 0 ∧
        pairAt (t.core c).regs rDF_FIRED = pairAt k.regs rDF_FIRED + 1 ∧
        pairAt (t.core c).regs (rDF_UFIRE + 0x40 * u) = pairAt k.regs (rDF_UFIRE + 0x40 * u) + 1 ∧
        (t.core c).inq = k.inq ∧ (t.core c).mem = k.mem ∧ (t.core c).s = k.s ∧ s.onlyCore t c) ∧
  (∀ (s : State) (c : CoreId) (e : TmEntry) (n i : Nat),
      let k := s.core c
      let u := e.u.toNat
      let line := Mem.readLine k.mem (entryOff n i)
      let forwards := fun (cmd : Instr) (out : Nat) => k.omode out < 2 → k.windowOpen out = true →
        ∃ t : State, ∃ q more, exec cmd s = .next t ∧ t.inj = s.inj ++ q :: more ∧ q.pkt.lines = [line] ∧ q.pkt.och.toNat = out ∧
          q.pkt.op.toNat = (if k.omode out = 0 then 3 else 8) ∧
          (∀ x ∈ (t.core c).entries n, x.k ≠ i) ∧ pairAt (t.core c).regs rDF_FWD = pairAt k.regs rDF_FWD + 1 ∧
          (t.core c).reg rDF_NOPROG = 0 ∧ (t.core c).mem = k.mem ∧ (t.core c).s = k.s ∧ s.othersKept t c
      s.alive c = true → k.df = .run → k.forwardNext = some u → k.readyQ.find? (fun x => x.u.toNat == u) = some e → k.queuesOn →
      k.cleanLine (entryOff n i) = true → i < 32 → n < 16 → k.inStore n e.tag = some i →
      (k.unitKind u = 1 → n = k.uptDin u → k.uptPsrc u = true →
        (lineDWord line (k.uptPword u) ≠ 0 → k.uptTen u = true → forwards (.steerPointFire c e.u) (k.uptOutT u)) ∧
        (lineDWord line (k.uptPword u) = 0 → k.uptFen u = true → forwards (.steerPointFire c e.u) (k.uptOutF u))) ∧
      (k.unitKind u = 2 → (k.consumed u (k.maskOf e)).head? = some n → k.uptTen u = true →
        forwards (.mergePointFire c e.u) (k.uptOutT u)))

/-- A token for an active channel takes the lowest free entry: its line is written there with its tag and source, and it is
offered while the core runs (R182, R184, R207). A token for a channel that is not active is discarded, counted and reported with
kind 0x60 (R187); one of another epoch is discarded and counted (R220). A held offer that the store can now take is accepted
(R207). -/
def Obligations.TokensArrive : Prop :=
  (∀ (s : State) (c : CoreId) (p : Packet) (n i : Nat) (l : Line),
      let k := s.core c
      s.arrives c p → isToken p = true → n < 16 → queueChannel p.off.toNat = some n → k.abDiscards = false → p.lines = [l] →
      (field p.tag 14 2 = k.epoch → k.df ≠ .idle → k.ichActive n = true → k.isJunction n = false → k.freeEntry n = some i → i < 32 → k.queuesOn →
        ∃ t : State, exec (.tokenArrival c) s = .next t ∧ s.took t c ∧ Mem.readLine (t.core c).mem (entryOff n i) = l ∧
          (∃ e ∈ (t.core c).entries n, e.k = i ∧ e.tag = p.tag ∧ e.seq = p.tseq ∧ e.src = p.src ∧ e.whole = true ∧ e.owes = true) ∧
          (t.core c).used n = k.used n + 1 ∧ (∀ m, m ≠ n → (t.core c).entries m = k.entries m) ∧
          (∀ q, q < entryOff n i ∨ entryOff n i + 64 ≤ q → Mem.read (t.core c).mem q = Mem.read k.mem q) ∧ (t.core c).s = k.s) ∧
      (field p.tag 14 2 = k.epoch → k.ichActive n = false → ∃ t : State, ∃ m : Msg, exec (.tokenArrival c) s = .next t ∧ s.took t c ∧
        t.transit = s.transit ++ [m] ∧ m.kind = 0x60 ∧ m.block = 6 ∧ m.detail = p.tag ∧
        pairAt (t.core c).regs (rCH_IDISC + 0x40 * n) = pairAt k.regs (rCH_IDISC + 0x40 * n) + 1 ∧
        (t.core c).inq = k.inq ∧ (t.core c).mem = k.mem) ∧
      (field p.tag 14 2 ≠ k.epoch → ∃ t : State, exec (.tokenArrival c) s = .next t ∧ s.took t c ∧
        pairAt (t.core c).regs rDF_EPDISC = pairAt k.regs rDF_EPDISC + 1 ∧ (t.core c).inq = k.inq ∧ (t.core c).mem = k.mem)) ∧
  (∀ (s : State) (c : CoreId) (n i u : Nat) (e : QEntry),
      let k := s.core c
      s.alive c = true → k.df = .run → n < 16 → k.held = [(BitVec.ofNat 4 n, i)] → (k.entries n).find? (fun x => x.k == i) = some e →
      k.readerOf n = some u → u < 8 → k.storeFind u e.tag = none → k.store.length < 64 → k.inFlight.length < 16 → e.offered = true →
      ∃ t : State, ∃ x, exec (.heldOfferRetry c) s = .next t ∧ (t.core c).held = [] ∧ x ∈ (t.core c).store ∧ x.u.toNat = u ∧ x.tag = e.tag ∧
        x.mask.getLsbD n = true ∧ (t.core c).entries n = k.entries n ∧ (t.core c).mem = k.mem ∧ (t.core c).s = k.s ∧
        (t.core c).regs = k.regs ∧ s.othersKept t c)

/-- A contribution to a junction fed by REDUCE packets starts an entry with its count, and the entry is delivered when the count
reaches the junction's number (R185, R187); a credit completes a message when all its receivers have returned one (R183). -/
def Obligations.ReductionsAndCredits : Prop :=
  ∀ (s : State) (c : CoreId) (p : Packet) (n i m : Nat) (l : Line),
    let k := s.core c
    let o := k.outq.get .reset m
    s.arrives c p → k.abDiscards = false →
    (p.op = 6 → p.lines = [l] → (List.range 16).find? (fun j => k.configured && k.ichActive j && k.isJunction j && k.fedByReduce j
        && field (k.reg (rCH_IRED + 0x40 * j)) 0 12 == p.redid) = some n → p.rop = k.junctionOp n → k.entries n = [] →
      k.freeEntry n = some i → i < 32 → k.queuesOn → p.rcount ≤ k.jn n →
      ∃ t : State, ∃ e, exec (.reduceArrival c) s = .next t ∧ s.took t c ∧ (t.core c).entries n = [e] ∧ e.k = i ∧ e.count = p.rcount ∧
        e.whole = decide (p.rcount = k.jn n) ∧ Mem.readLine (t.core c).mem (entryOff n i) = l ∧ (t.core c).s = k.s) ∧
    (m < 16 → creditChannel p = some m → o.outst.any (fun e => e.seq == p.head.extractLsb' 0 16) = true →
      ∃ t : State, exec (.creditReturnArrival c) s = .next t ∧ s.took t c ∧
        pairAt (t.core c).regs (rCH_OCRET + 0x40 * m) = pairAt k.regs (rCH_OCRET + 0x40 * m) + 1 ∧
        (field (k.ocfg m) 0 19 ≤ 1 → ∀ e ∈ ((t.core c).outq.get .reset m).outst, e.seq ≠ p.head.extractLsb' 0 16) ∧
        (∀ e ∈ o.outst, e.seq ≠ p.head.extractLsb' 0 16 → e ∈ ((t.core c).outq.get .reset m).outst) ∧
        (∀ j, j ≠ m → (t.core c).outq.get .reset j = k.outq.get .reset j) ∧ (t.core c).mem = k.mem ∧ (t.core c).s = k.s) ∧
    (m < 16 → creditChannel p = some m → o.outst.any (fun e => e.seq == p.head.extractLsb' 0 16) = false →
      ∃ t : State, ∃ f, exec (.creditReturnArrival c) s = .next t ∧ s.took t c ∧ t.transit = s.transit ++ [f] ∧ f.kind = 0x62 ∧ f.block = 6 ∧
        f.detail = p.head.extractLsb' 0 16 ∧ (t.core c).outq = k.outq)

/-- A deadlock episode spills the delivered entries of full channels, returns their credits and reports kind 0x67 (R223, R224);
when a firing or a discard has freed an entry of a channel its oldest record is re-injected (R226); a lead core at the stall limit reports kind 0x66 and aborts
(R228). A progress pulse clears the progress counter of every core of its slot that runs (R222); a core that has waited 4,800
cycles lends its power (R196). -/
def Obligations.StallsAndProgress : Prop :=
  (∀ (s : State) (c : CoreId) (n i : Nat) (e : QEntry) (r : SpillRec) (ich : BitVec 4),
      let k := s.core c
      s.alive c = true → k.df = .run →
      (field (k.reg rDF_WINDOW) 0 24 ≤ (k.reg rDF_NOPROG).toNat → k.spill = [] → n < 16 → 0 < k.used n → k.toSpill = [(n, i)] → i < 32 →
        (k.entries n).find? (fun x => x.k == i) = some e → k.bound n i = false → k.queuesOn → k.cleanLine (entryOff n i) = true →
        ∃ t : State, ∃ x m, exec (.deadlockDetection c) s = .next t ∧ (t.core c).spill = [x] ∧ x.r = 0 ∧ x.tag = e.tag ∧ x.src = e.src ∧ x.ich.toNat = n ∧
          Mem.readLine (t.core c).mem (recordOff 0) = Mem.readLine k.mem (entryOff n i) ∧
          (∀ y ∈ (t.core c).entries n, y.k ≠ i) ∧ (t.core c).reg rDF_NOPROG = 0 ∧ (t.core c).spilling = false ∧
          t.transit = s.transit ++ [m] ∧ m.kind = 0x67 ∧ m.block = 7 ∧ m.detail = 1 ∧ (t.core c).s = k.s ∧ s.othersKept t c) ∧
      (0 < k.freed.get 0 ich.toNat → k.oldestRecord ich.toNat = some r → r.whole = true → k.freeEntry ich.toNat = some i → i < 32 → r.r < 224 →
        k.queuesOn →
        k.cleanLine (recordOff r.r) = true →
        ∃ t : State, exec (.reInjection c ich) s = .next t ∧ (∀ x ∈ (t.core c).spill, x.r ≠ r.r) ∧
          (∃ y ∈ (t.core c).entries ich.toNat, y.k = i ∧ y.tag = r.tag ∧ y.src = r.src ∧ y.reinj = true ∧ y.owes = false) ∧
          Mem.readLine (t.core c).mem (entryOff ich.toNat i) = Mem.readLine k.mem (recordOff r.r) ∧
          pairAt (t.core c).regs rDF_REINJ = pairAt k.regs rDF_REINJ + 1 ∧ (t.core c).s = k.s ∧ s.othersKept t c) ∧
      ((k.reg rDF_SECCFG).getLsbD 9 = true → field (k.reg rDF_STALL) 0 16 * 1024 ≤ (k.reg rDF_NOPROG).toNat →
        ∃ t : State, ∃ m : Msg, exec (.stallLimit c) s = .next t ∧ t.transit = s.transit ++ [m] ∧ m.kind = 0x66 ∧ m.block = 7 ∧
          m.detail.toNat = k.slotNo ∧ (t.core c).df = .aborting ∧
          (t.core c).reg rDF_ABREC = 0x80036600 ∧ (t.core c).mem = k.mem ∧ (t.core c).s = k.s ∧ s.othersKept t c)) ∧
  (∀ (s : State) (slot : BitVec 6) (c : CoreId),
      let e := s.slots.get .reset slot.toNat
      let k := s.core c
      (e.progress = true → onGrid c = true → ∃ t : State, exec (.progressPulse slot) s = .next t ∧
        (t.slots.get .reset slot.toNat).progress = false ∧
        (k.df = .run → k.slotNo = slot.toNat → (t.core c).reg rDF_NOPROG = 0) ∧
        (c ∉ s.coresOfSlot slot.toNat → t.core c = k) ∧ (∀ off, off ≠ rDF_NOPROG → (t.core c).reg off = k.reg off) ∧
        (t.core c).mem = k.mem ∧ (t.core c).s = k.s ∧ (t.core c).df = k.df) ∧
      (s.alive c = true → k.lendable = true → 4800 ≤ k.idleCc → k.df ≠ .idle → ∃ t : State, exec (.lendingStart c) s = .next t ∧
        t.core c = { k with lent := true } ∧ s.othersKept t c ∧ t = { s with cores := t.cores }))

/-- ARM takes an IDLE core that passes its checks to LOADED with the next epoch (R214, R215); START applies the staged registers
and takes it to STARTING, or where the weights region meets a queue to ABORTED with cause 5 (R111, R216, R219); when re-encoding has ended it is in RUN (R214). Each command is Ryist's. END takes a quiet
section to IDLE and clears its channels and units (R217). ABORT, or the slot's abort line, takes it to ABORTING with the cause
recorded and every queued token discarded (R218, R219); with its engines idle it is ABORTED, reported by the lead core with kind
0x68, and CLEAR takes it to IDLE. -/
def Obligations.SectionLife : Prop :=
  (∀ (s : State) (c : CoreId) (o : Origin),
      let k := s.core c
      s.alive c = true →
      (isSystem o = true → k.df = .idle → k.armCheck = none → ∃ t : State, exec (.arm c o) s = .next t ∧ t.resp = .done ∧
        (t.core c).df = .loaded ∧ (t.core c).epoch = (k.epoch + 1) % 4 ∧ (t.core c).reg rDF_ABREC = 0 ∧
        (t.core c).secid = k.secid ∧ (t.core c).slotNo = k.slotNo ∧ (t.core c).mem = k.mem ∧ (t.core c).s = k.s ∧ s.othersKept t c) ∧
      (isSystem o = true → k.df = .loaded → k.topNext * 0x4000 ≤ k.weightsLimit → ∃ t : State, exec (.start c o) s = .next t ∧
        t.resp = .done ∧ (t.core c).df = .starting ∧ (t.core c).reg rCORE_TRAP = 0 ∧ (t.core c).reg rMX_NANREC0 = 0 ∧
        field ((t.core c).reg rDF_FIN) 16 16 = 0 ∧ (t.core c).rlb = [] ∧ (k.topNext = k.wtop → (t.core c).mem = k.mem) ∧
        (t.core c).wtop = k.topNext ∧ (t.core c).s = k.s ∧
        (t.core c).inq = k.inq ∧ (∀ v, k.shNumctl = some v → (t.core c).reg rCORE_NUMCTL = forceNan (kOf s c).guarded v) ∧
        (∀ v, k.shMxctrl = some v → (t.core c).reg rMX_CTRL = v) ∧ (∀ v, k.shCkcfg = some v → (t.core c).reg rMX_CKCFG = v) ∧
        s.othersKept t c) ∧
      (isSystem o = true → k.df = .loaded → k.weightsLimit < k.topNext * 0x4000 → ∃ t : State, exec (.start c o) s = .next t ∧
        t.resp = .done ∧ (t.core c).df = .aborted ∧ (t.core c).reg rDF_ABREC = 0x80050800 ∧
        (t.slots.get .reset k.slotNo).abortLine.isSome = true ∧ s.othersKept t c) ∧
      (k.df = .starting → k.waitingOffers = [] → ∃ t : State, exec (.boundaryComplete c) s = .next t ∧ (t.core c).df = .run ∧
        (t.core c).recode = 0 ∧ (t.core c).reg rDF_NOPROG = 0 ∧ (t.core c).inq = k.inq ∧ (t.core c).mem = k.mem ∧
        (t.core c).s = k.s ∧ s.othersKept t c)) ∧
  (∀ (s : State) (c : CoreId) (o : Origin) (cause kind : Byte) (src : CoreId),
      let k := s.core c
      let cleared := fun (t : State) => (t.core c).df = .idle ∧ (t.core c).seq = .idle ∧ (t.core c).running = none ∧
        (t.core c).store = [] ∧ (t.core c).spill = [] ∧ (∀ n, n < 16 → (t.core c).ichActive n = false ∧ (t.core c).ochActive n = false ∧
          (t.core c).entries n = []) ∧ (∀ u, u < 8 → (t.core c).unitValid u = false) ∧ (t.core c).mem = k.mem ∧ (t.core c).s = k.s ∧
        (t.core c).istore = k.istore ∧ s.othersKept t c
      let aborting := fun (t : State) (w : Nat) => (t.core c).df = .aborting ∧ (t.core c).seq = .idle ∧ (t.core c).running = none ∧
        (t.core c).inq = [] ∧ (t.core c).store = [] ∧ (t.core c).spill = [] ∧ (t.core c).matQ = [] ∧ (t.core c).mvQ = [] ∧
        (t.core c).reg rDF_ABREC = BitVec.ofNat 32 w ∧ (t.core c).mem = k.mem ∧ (t.core c).s = k.s ∧ s.othersKept t c
      s.alive c = true →
      (isSystem o = true → k.quiet = true → ∃ t : State, exec (.dfCtrlEnd c o) s = .next t ∧ t.resp = .done ∧ cleared t) ∧
      (isSystem o = true → k.abortable = true → ∃ t : State, exec (.abort c o) s = .next t ∧ t.resp = .done ∧
        aborting t (2 ^ 31 + 4 * 2 ^ 16)) ∧
      ((s.slots.get .reset k.slotNo).abortLine = some (cause, kind, src) → k.abortable = true →
        ∃ t : State, exec (.abortLineSignal c) s = .next t ∧ aborting t (2 ^ 31 + 2 ^ 16 + kind.toNat * 2 ^ 8) ∧
          (t.core c).reg rDF_ABSRC = BitVec.ofNat 32 (src.y.toNat * 1024 + src.x.toNat)) ∧
      (k.df = .aborting → k.enginesIdle = true → (k.reg rDF_SECCFG).getLsbD 9 = true → ∃ t : State, ∃ m : Msg, exec (.abortComplete c) s = .next t ∧
        (t.core c).df = .aborted ∧ t.transit = s.transit ++ [m] ∧ m.kind = 0x68 ∧ m.block = 7 ∧
        m.detail.toNat = field (k.reg rDF_ABREC) 16 3 + 256 * field (k.reg rDF_ABREC) 8 8 ∧ (t.core c).mem = k.mem ∧ s.othersKept t c) ∧
      (isSystem o = true → k.df = .aborted → ∃ t : State, exec (.clear c o) s = .next t ∧ t.resp = .done ∧ cleared t ∧ (t.core c).outq = []))

/-- Accesses that change nothing: an unassigned offset is refused with ERR 0x09, a write of a read-only register is ignored
(R16); the position's part that cannot serve answers with its own code (R13, R33, R366); the firewall refuses the packet of
another partition with ERR 0x05, or absorbs it, counted and reported by the router (R171, R172). ARM names the first rule its
configuration breaks, with kind 0x69 and ERR 0x09, and leaves the core IDLE (R215, R232); a command that its state does not
allow, or that does not come from Ryist, is refused with ERR 0x09 and changes nothing (R214, R231). -/
def Obligations.AccessesRefused : Prop :=
  (∀ (s : State) (c : CoreId) (o : Origin) (off : BitVec 16) (v : Word) (pid : Pid) (src : Endpoint) (tlp : Tlp),
      let k := s.core c
      let q := s.phys c
      let answers := fun (i : Instr) (r : Resp) => exec i s = .next { s with resp := r }
      (s.servesReg c off.toNat o → off.toNat % 4 = 0 → coreRow off.toNat = none → ∃ t : State, exec (.registerWrite (.core c off) o (.four v) tlp) s = .next t ∧
        s.accessed t c (.err 0x09) ∧ t.core c = k) ∧
      (s.servesReg c 0x0008 o → ∃ t : State, exec (.registerWrite (.core c 0x0008) o (.four v) tlp) s = .next t ∧ s.accessed t c .done ∧ t.core c = k) ∧
      (s.bu.power = true → onGrid c = false → answers (.registerWrite (.core c off) .ryist (.four v) tlp) (.err 0x06)) ∧
      (s.bu.power = true → onGrid c = true → s.fieldDead (fieldOf c.x.toNat c.y.toNat) = false → off.toNat < 0x8000 →
        (s.posOf c = .hole → answers (.registerWrite (.core c off) .ryist (.four v) tlp) (.err 0x01)) ∧
        (s.posOf c = .isolated → answers (.registerWrite (.core c off) .ryist (.four v) tlp) (.err 0x02)) ∧
        (s.posOf c = .usable → k.seq = .reset → answers (.registerWrite (.core c off) .ryist (.four v) tlp) (.err 0x09))) ∧
      (∀ absorbed : Bool, s.bu.power = true → s.reach c off.toNat (.packet false pid src) = .firewall absorbed pid src →
        ∃ t : State, ∃ m : Msg, exec (.registerWrite (.core c off) (.packet false pid src) (.four v) tlp) s = .next t ∧
          t.resp = (if absorbed then .none else .err 0x05) ∧ t.transit = s.transit ++ [m] ∧ m.kind = 0x25 ∧ m.block = 10 ∧
          m.detail.toNat = 16 * absorbed.toNat + pid.toNat ∧
          pairAt (t.router q.1 q.2).regs rRT_FWREF = pairAt (s.router q.1 q.2).regs rRT_FWREF + 1 ∧
          (t.core c).s = k.s ∧ (t.core c).mem = k.mem ∧ t.yregs = s.yregs)) ∧
  (∀ (s : State) (c : CoreId) (o : Origin) (reason who : Nat),
      let k := s.core c
      let refused := fun (i : Instr) => ∃ t : State, exec i s = .next t ∧ t.resp = .err 0x09 ∧ (t.core c).df = k.df ∧ (t.core c).mem = k.mem ∧
        (t.core c).inq = k.inq ∧ (t.core c).s = k.s ∧ (t.core c).pc = k.pc ∧ s.othersKept t c
      s.alive c = true →
      (isSystem o = true → k.df = .idle → k.armCheck = some (reason, who) → ∃ t : State, ∃ m : Msg, exec (.arm c o) s = .next t ∧ t.resp = .err 0x09 ∧
        (t.core c).df = .idle ∧ t.transit = s.transit ++ [m] ∧ m.kind = 0x69 ∧ m.block = 7 ∧ m.detail = BitVec.ofNat 16 reason ∧
        (t.core c).epoch = k.epoch ∧ (t.core c).mem = k.mem) ∧
      (isSystem o = true → k.df ≠ .idle → refused (.arm c o)) ∧ (isSystem o = true → k.df ≠ .loaded → refused (.start c o)) ∧
      (isSystem o = true → k.quiet = false → refused (.dfCtrlEnd c o)) ∧ (isSystem o = true → k.abortable = false → refused (.abort c o)) ∧
      (isSystem o = true → k.df ≠ .aborted → refused (.clear c o)) ∧
      (isSystem o = false → refused (.arm c o) ∧ refused (.start c o) ∧ refused (.dfCtrlEnd c o) ∧ refused (.abort c o) ∧
        refused (.clear c o)))

/-! ### Registers, scratchpad and network -/

/-- Writes of core registers: CORE_IDATA stores words from CORE_IADDR on (R47); VEC_SRSEED_HI reseeds the generator (R59, R91);
a shadowed register stages its value and changes nothing in force, but for WLOCK at once (R360); a plain register takes its
assigned bits, one with a range the nearer limit (R16, R231); FLT_WCTL enables or abandons the scan (R379, R400). Reads of core
registers: a read of a _LO gives it and latches its _HI for the next read of the _HI, a read of 8 bytes gives both (R16); SP_ERRINFO, MV_ERR and
CORE_ISTORE_ERR read and clear, and SP_ERRINFO latches SP_ERRADDR (R73, R76, R137). -/
def Obligations.RegisterAccesses : Prop :=
  (∀ (s : State) (c : CoreId) (o : Origin) (v : Word) (words : List Word) (tlp : Tlp),
      let k := s.core c
      let i := field (k.reg rCORE_IADDR) 0 14
      let becomes := fun (cmd : Instr) (off : Nat) (k' : Core) =>
        s.servesReg c off o → ∃ t : State, exec cmd s = .next t ∧ s.accessed t c .done ∧ t.core c = k'
      (s.servesReg c 0x1C o → k.seq = .idle → k.df = .idle → 1 ≤ words.length → words.length ≤ 64 → i + words.length ≤ 16384 →
        ∃ t : State, exec (.coreIdataWrite c o words) s = .next t ∧ s.accessed t c .done ∧ k.bodyKept (t.core c) ∧ (t.core c).mem = k.mem ∧
          (∀ n, (t.core c).insnAt n = if i ≤ n ∧ n < i + words.length then nth 0 words (n - i) else k.insnAt n) ∧
          (∀ n, (t.core c).istoreErr.get 0 n = if i ≤ n ∧ n < i + words.length then 0 else k.istoreErr.get 0 n) ∧
          field ((t.core c).reg rCORE_IADDR) 0 14 = (i + words.length) % 16384 ∧ k.regsKept (t.core c) [rCORE_IADDR]) ∧
      becomes (.vecSrseedHiWrite c o v) 0x180C
        { k.setReg 0x180C v with rng := (let w := pair64 v (k.reg rVEC_SRSEED_LO); if w = 0 then 0x9E3779B97F4A7C15 else w) } ∧
      becomes (.shRegisterWrite c o 0x000C v) rCORE_NUMCTL { k with shNumctl := some (forceNan (kOf s c).guarded (v &&& 0x2E)) } ∧
      becomes (.shRegisterWrite c o 0x1000 v) rMX_CTRL { k with shMxctrl := some (v &&& 0xC) } ∧
      becomes (.shRegisterWrite c o 0x1450 v) rMX_CKCFG { k with shCkcfg := some (v &&& 0x3F1F) } ∧
      becomes (.shRegisterWrite c o 0x2004 v) rSP_REGION
        { k.setReg rSP_REGION (setField (k.reg rSP_REGION) 31 1 (field v 31 1)) with
          shWtop := some (BitVec.ofNat 5 (min 23 (field v 0 5))) } ∧
      becomes (.registerWrite (.core c 0x1008) o (.four v) tlp) rMX_ASTRIDE
        (k.setReg rMX_ASTRIDE ((k.reg rMX_ASTRIDE &&& ~~~0x3FF#32) ||| (v &&& 0x3FF))) ∧
      (isSystem o = true → k.df = .idle → becomes (.registerWrite (.core c 0x6010) o (.four v) tlp) rDF_WINDOW
        (k.setReg rDF_WINDOW (BitVec.ofNat 32 (max 4096 (min 16777215 (field v 0 24)))))) ∧
      (isSystem o = true → v.getLsbD 31 = false → becomes (.fltWctlWrite c o v) rFLT_WCTL
        { k.setReg rFLT_WCTL 0 with scan := none }) ∧
      (isSystem o = true → v.getLsbD 31 = true → (k.reg rFLT_WCTL).getLsbD 31 = false → becomes (.fltWctlWrite c o v) rFLT_WCTL
        ((k.setReg rFLT_WSTAT 0).setReg rFLT_WCTL 0x80000000))) ∧
  (∀ (s : State) (c : CoreId) (o : Origin) (tlp : Tlp),
      let k := s.core c
      let gives := fun (cmd : Instr) (off : Nat) (v : Word) (k' : Core) =>
        s.servesReg c off o → ∃ t : State, exec cmd s = .next t ∧ s.accessed t c (.value (v.setWidth 64)) ∧ t.core c = k'
      gives (.spErrinfoRead c o) rSP_ERRINFO (k.reg rSP_ERRINFO)
        { k.setReg rSP_ERRINFO 0 with errAddrLatch := some (k.reg rSP_ERRADDR) } ∧
      gives (.mvErrRead c o) rMV_ERR (k.reg rMV_ERR) (k.setReg rMV_ERR 0) ∧
      gives (.coreIstoreErrRead c o) rCORE_ISTORE_ERR (k.reg rCORE_ISTORE_ERR) (k.setReg rCORE_ISTORE_ERR 0) ∧
      gives (.pairLoRead (.core c 0x0030) o 4 tlp) rCORE_RETIRED (k.reg rCORE_RETIRED)
        { k with hiLatch := k.hiLatch.set (rCORE_RETIRED + 4) (k.reg (rCORE_RETIRED + 4)) } ∧
      (s.servesReg c rCORE_RETIRED o → ∀ t, exec (.pairLoRead (.core c 0x0030) o 4 tlp) s = .next t →
        ∃ u, exec (.pairLoRead (.core c 0x0034) o 4 tlp) t = .next u ∧
          u.resp = .value ((k.reg (rCORE_RETIRED + 4)).setWidth 64) ∧ (u.core c).regs = k.regs) ∧
      (s.servesReg c rCORE_RETIRED o → ∃ t : State, exec (.pairLoRead (.core c 0x0030) o 8 tlp) s = .next t ∧
        s.accessed t c (.value (pairAt k.regs rCORE_RETIRED)) ∧ (t.core c).regs = k.regs))

/-- A write of one bank's mode takes it to CHANGING (R121, R122); the weights region under WLOCK and bank 7 of a configured
section refuse to sleep with ERR 0x09; when the bank has drained it reaches its mode (R123); a bank switched off loses its
contents, and one that wakes from OFF reads zero after its fill (R121). The write-back of a corrected line stores its corrected
data with a fresh code (R116); the scrub reads the next line of the weights region, corrects it and moves on, counting a pass
where it wraps (R119); the end of a zero fill finds every bank that is on at zero and leaves the weights region open (R120). -/
def Obligations.BanksAndFills : Prop :=
  (∀ (s : State) (c : CoreId) (o : Origin) (n : BitVec 3),
      let k := s.core c
      let b := k.bank n.toNat
      let b0 := 0xC000 * n.toNat
      let asks := fun (cmd : Instr) (m : Nat) (mode : BankMode) => ∃ t : State, exec cmd s = .next t ∧ s.accessed t c .done ∧
        (t.core c).bank n.toNat = { b with target := some mode } ∧
        field ((t.core c).reg rSP_BANKPWR) (2 * n.toNat) 2 = m ∧ k.regsKept (t.core c) [rSP_BANKPWR] ∧
        (t.core c).mem = k.mem ∧ k.bodyKept (t.core c)
      let asked := k.reg rSP_BANKPWR = BitVec.ofNat 32 ((List.range 8).foldl (fun a i => a + 4 ^ i *
        (match (k.bank i).target.getD (k.bank i).mode with
          | .on => 0
          | .retain => 1
          | .off => 2)) 0) ∧ (∀ i, i < 8 → i ≠ n.toNat → (k.bank i).target = none)
      let ends := fun (cmd : Instr) (mode : BankMode) (zeroed : Bool) => ∃ t : State, exec cmd s = .next t ∧
        (t.core c).bank n.toNat = { b with mode := mode, target := none, filling := false, owed := (t.core c).bank n.toNat |>.owed } ∧
        (∀ p, Mem.read (t.core c).mem p = if zeroed = true ∧ b0 ≤ p ∧ p < b0 + 0xC000 then 0 else Mem.read k.mem p) ∧
        k.bodyKept (t.core c) ∧ s.othersKept t c
      (s.servesReg c rSP_BANKPWR o → asked → b.target = none →
        (k.df = .idle → k.wlock = false → b.mode ≠ .retain → asks (.bankpwrRetain c o n) 1 .retain) ∧
        (k.df = .idle → k.wlock = false → b.mode ≠ .off → asks (.bankpwrOff c o n) 2 .off) ∧
        (k.df = .idle → k.wlock = false → b.mode ≠ .on → asks (.bankpwrOn c o n) 0 .on)) ∧
      (s.servesReg c rSP_BANKPWR o → ((n = 7 ∧ k.df ≠ .idle) ∨ (k.wlock = true ∧ b0 < k.wtop * 0x4000)) →
        (∃ t : State, exec (.bankpwrRetain c o n) s = .next t ∧ s.accessed t c (.err 0x09) ∧ t.core c = k) ∧
        (∃ t : State, exec (.bankpwrOff c o n) s = .next t ∧ s.accessed t c (.err 0x09) ∧ t.core c = k)) ∧
      (s.present c = true → b.pendWr = 0 → b.writeback = [] → b.later = none → b.filling = false → (∀ w ∈ k.lineWr, bankOf w.off ≠ n.toNat) →
        (b.target = some .retain → ends (.bankModeChangeEnd c n) .retain false) ∧
        (b.target = some .off → ends (.bankModeChangeEnd c n) .off true) ∧
        (b.target = some .on → b.mode = .retain → b.owed = false → ends (.bankModeChangeEnd c n) .on false) ∧
        (b.target = some .on → b.mode = .off → ∃ t : State, exec (.bankModeChangeEnd c n) s = .next t ∧
          (t.core c).bank n.toNat = { b with filling := true } ∧ (t.core c).mem = k.mem ∧ k.bodyKept (t.core c) ∧ s.othersKept t c)) ∧
      (s.present c = true → b.filling = true → b.later = none → ends (.bankWakeFillEnd c n) .on true)) ∧
  (∀ (s : State) (c : CoreId) (n : BitVec 3) (off : Nat) (rest : List Nat),
      let k := s.core c
      let lines := k.wtop * 256
      let pos := if k.scrubPos < lines then k.scrubPos else 0
      let last := decide (lines ≤ pos + 1)
      s.present c = true →
      ((k.bank n.toNat).writeback = off :: rest → k.padHeld off = false → k.inWeights off = true → off % 64 = 0 → off + 64 ≤ 0x60000 →
        (k.scanLine off).bad = false → ∃ t : State, exec (.lineWriteback c n) s = .next t ∧
          ((t.core c).bank n.toNat).writeback = rest ∧ Mem.readLine (t.core c).mem off = (k.scanLine off).data ∧
          (t.core c).cleanLine off = true ∧
          (∀ q, q < off ∨ off + 64 ≤ q → Mem.read (t.core c).mem q = Mem.read k.mem q) ∧ k.bodyKept (t.core c) ∧
          (t.core c).regs = k.regs ∧ s.othersKept t c) ∧
      (0 < lines → k.padHeld (64 * pos) = false → (k.bank (bankOf (64 * pos))).serves = true → k.cleanLine (64 * pos) = true →
        ∃ t : State, exec (.scrubRead c) s = .next t ∧ (t.core c).scrubPos = (if last then 0 else pos + 1) ∧ t.transit = s.transit ∧
          pairAt (t.core c).regs rSP_SCRUBPASS = pairAt k.regs rSP_SCRUBPASS + (if last then 1 else 0) ∧
          k.regsKept (t.core c) [rSP_SCRUBPASS, rSP_SCRUBPASS + 4] ∧ (t.core c).mem = k.mem ∧ k.bodyKept (t.core c) ∧
          s.othersKept t c) ∧
      (k.zeroing = true → (∀ b, b < 8 → (k.bank b).serves = true) → ∃ t : State, exec (.zeroFillEnd c) s = .next t ∧
        (t.core c).zeroing = false ∧ (∀ p, p < 0x60000 → Mem.read (t.core c).mem p = 0) ∧ (t.core c).wlock = false ∧
        (t.core c).wtop = k.wtop ∧ (t.core c).reg rFLT_WCTL = k.reg rFLT_WCTL ∧ (t.core c).scan = k.scan ∧ k.bodyKept (t.core c) ∧
        s.othersKept t c))

/-- A remote read of a line answers with the line, one of a bank that sleeps with ERR 0x07, counted and reported (R112, R122,
R124). A remote write is accepted whole into the pending-write counts (R123); with its tail its lines go into their banks one by one, of a
write of part of a line the bytes it names (R293), and with the last it is acknowledged; a killed one has no effect but that it leaves the counts (R123, R167). Answers end their transactions (R168):
read data reaches its register (R45, R125), an acknowledgement frees a store's slot, an error or a timeout of a scalar access is
an execution fault with kind 0x54 (R49), the timeout counted and reported; an answer that no slot awaits is discarded, counted
and reported. -/
def Obligations.RemoteAccesses : Prop :=
  (∀ (s : State) (c : CoreId) (p : Packet) (l : Line),
      let k := s.core c
      let off := p.off.toNat
      let b := k.bank (bankOf off)
      let answer := fun (t : State) (q : Packet) => q.dst = p.src ∧ q.txid = p.txid ∧ ∃ ws, t.inj = s.inj ++ ws ++ [Sent.mk q none true]
      let others := fun (t : State) => (∀ q, q < off ∨ off + 64 ≤ q → Mem.read (t.core c).mem q = Mem.read k.mem q) ∧
        (t.core c).s = k.s ∧ (t.core c).pc = k.pc ∧ (t.core c).inq = k.inq ∧ s.othersKept t c
      let tailOf := fun (q : Packet) => s.present c = true ∧ k.padHeld off = false ∧
        s.accepted.head? = some { core := c, pkt := q, next := 0, bad := false } ∧ ∀ x ∈ s.accepted.tail, x.core ≠ c
      p.space = 0 → p.sz = 4 → off % 64 = 0 → off < 0x60000 → p.killed = false →
      (s.arrives c p → p.op = 0 → k.refusal false off = none → k.cleanLine off = true → ∃ t : State, ∃ q : Packet, exec (.remoteReadArrival c) s = .next t ∧
        s.took t c ∧ q.op = 9 ∧ q.lines = [Mem.readLine k.mem off] ∧ answer t q ∧ (t.core c).mem = k.mem ∧ others t) ∧
      (s.arrives c p → p.op = 0 → b.serves = false → ∃ t : State, ∃ q : Packet, ∃ m : Msg, exec (.remoteReadArrival c) s = .next t ∧ s.took t c ∧ q.op = 11 ∧
        q.aux = 0x07 ∧ answer t q ∧ t.transit = s.transit ++ [m] ∧ m.kind = 0x06 ∧ m.block = 8 ∧
        pairAt (t.core c).regs rSP_SLEEPREF = pairAt k.regs rSP_SLEEPREF + 1 ∧ (t.core c).mem = k.mem ∧ others t) ∧
      (s.arrives c p → p.op = 1 → k.refusal true off = none → ∃ t : State, exec (.remoteWriteAccept c) s = .next t ∧ s.took t c ∧
        t.accepted = s.accepted ++ [{ core := c, pkt := p, next := 0, bad := false }] ∧ ((t.core c).bank (bankOf off)).pendWr = b.pendWr + 1 ∧ (t.core c).mem = k.mem ∧
        t.inj = s.inj ∧ others t) ∧
      (tailOf p → p.op = 1 → p.lines = [l] → p.enables = 0 →
        ∃ t : State, ∃ q : Packet, exec (.remoteWriteTail c) s = .next t ∧ t.accepted = s.accepted.tail ∧ q.op = 10 ∧ answer t q ∧
          Mem.readLine (t.core c).mem off = l ∧ ((t.core c).bank (bankOf off)).pendWr = b.pendWr - 1 ∧ others t) ∧
      (∀ a n, 0 < n → a + n < 64 → tailOf p → p.op = 1 → p.lines = [l] → p.enables = runMask a n → k.cleanLine off = true →
        ∃ t : State, ∃ q : Packet, exec (.remoteWriteTail c) s = .next t ∧ t.accepted = s.accepted.tail ∧ q.op = 10 ∧ answer t q ∧
          (∀ i, i < 64 → Mem.read (t.core c).mem (off + i) =
            if a ≤ i ∧ i < a + n then l.extractLsb' (8 * i) 8 else Mem.read k.mem (off + i)) ∧ others t) ∧
      (∀ m, tailOf { p with sz := 5, lines := [l, m] } → p.op = 1 → ∃ t : State, exec (.remoteWriteTail c) s = .next t ∧
        t.accepted = { core := c, pkt := { p with sz := 5, lines := [l, m] }, next := 1, bad := false } :: s.accepted.tail ∧
        Mem.readLine (t.core c).mem off = l ∧ others t) ∧
      (tailOf { p with killed := true } → p.op = 1 →
        ∃ t : State, exec (.remoteWriteTail c) s = .next t ∧ t.accepted = s.accepted.tail ∧ t.inj = s.inj ∧ (t.core c).mem = k.mem ∧
          ((t.core c).bank (bankOf off)).pendWr = b.pendWr - 1 ∧ others t)) ∧
  (∀ (s : State) (c : CoreId) (p : Packet) (i : Nat) (d : SReg) (ad : DWord) (pc : Nat),
      let k := s.core c
      let e := k.slots.get .reset i
      let faulted := fun (t : State) => (t.core c).seq = .trapped ∧ (t.core c).df = .aborting ∧ k.slotFreed (t.core c) i ∧
        (t.core c).reg rCORE_TRAP = 2 ^ 31 + 0x54 ∧ (t.core c).reg rCORE_TRAPPC = BitVec.ofNat 32 (pc % 16384) ∧
        (t.core c).s = k.s ∧ (t.core c).mem = k.mem ∧ s.othersKept t c
      i < 8 →
      (s.arrives c p → p.op = 9 → p.lines = [] → k.answered p = some (i, .load d ad 8 false false none pc) → ad.toNat % 8 = 0 →
        ∃ t : State, exec (.rdrspArrival c) s = .next t ∧ s.took t c ∧ k.sregsSet (t.core c) d (p.head.extractLsb' 0 64) ∧
          k.slotFreed (t.core c) i ∧ (t.core c).rlb = k.rlb ∧ (t.core c).mem = k.mem ∧ (t.core c).pc = k.pc) ∧
      (s.arrives c p → p.op = 10 → k.answered p = some (i, .store ad pc) → ∃ t : State, exec (.ackArrival c) s = .next t ∧ s.took t c ∧
        k.slotFreed (t.core c) i ∧ (t.core c).s = k.s ∧ (t.core c).mem = k.mem ∧ (t.core c).pc = k.pc) ∧
      (s.arrives c p → p.op = 11 → k.abortable = true → k.answered p = some (i, .store ad pc) → ∃ t : State, ∃ m : Msg,
        exec (.errArrival c) s = .next t ∧ s.took t c ∧ faulted t ∧ t.transit = s.transit ++ [m] ∧ m.kind = 0x54 ∧ m.block = 0) ∧
      (s.arrives c p → p.op = 10 → k.answered p = none → ∃ t : State, ∃ m : Msg, exec (.ackArrival c) s = .next t ∧ s.took t c ∧
        t.transit = s.transit ++ [m] ∧ m.kind = 0x22 ∧ m.block = 10 ∧ m.detail.toNat = p.txid.toNat ∧ m.address.toNat = epBits p.src ∧
        pairAt (t.ownRouter c).regs rRT_LATE = pairAt (s.ownRouter c).regs rRT_LATE + 1 ∧ (t.core c).s = k.s ∧
        (t.core c).mem = k.mem ∧ (t.core c).slots = k.slots) ∧
      (s.present c = true → k.abortable = true → e.use = some (.store ad pc) → e.limit ≤ e.age → ∃ t : State, ∃ m n : Msg,
        exec (.transactionTimeout c (BitVec.ofNat 6 i)) s = .next t ∧ faulted t ∧ t.transit = s.transit ++ [m, n] ∧ m.kind = 0x21 ∧
        m.block = 10 ∧ m.detail.toNat = (k.txid i).toNat ∧ n.kind = 0x54 ∧
        pairAt (t.ownRouter c).regs rRT_TOCNT = pairAt (s.ownRouter c).regs rRT_TOCNT + 1))

/-- The oldest packet of a source enters the mesh with its resolved destination and its route class (R144, R151, R156); an
address that leads nowhere is answered with its error at once (R13); a packet that no class can carry is answered with ERR 0x04,
counted and reported (R156); a malformed one is discarded, counted and reported (R145). -/
def Obligations.PacketsEnter : Prop :=
  ∀ (s : State) (e : Sent) (a : DWord) (d : Endpoint) (code : Nat) (c : CoreId),
    let p := e.pkt
    let x := p.src.px.toNat
    let y := p.src.py.toNat
    let r := s.router x y
    let cls := s.map.routeClass ((r.reg rRT_ROUTE).getLsbD 0 && p.op != 6) x y d.px.toNat d.py.toNat
    let enters := fun (q : Packet) => ∃ t : State, exec (.packetInjection p.src) s = .next t ∧ t = { s with inj := s.inj.tail, flights := s.flights ++
      [{ pkt := q, loc := .router x y (if p.src.ext then 7 else 0), fresh := true, cast := .single }] }
    let counted := fun (t : State) (ctr : Nat) (kind : Byte) => t.inj = s.inj.tail ∧ t.flights = s.flights ∧
      pairAt (t.router x y).regs ctr = pairAt r.regs ctr + 1 ∧ ∃ m, t.transit = s.transit ++ [m] ∧ m.kind = kind ∧ m.block = 10 ∧
        m.detail.toNat = p.op.toNat
    let answered := fun (t : State) (code : Nat) => ∃ q : Packet, t.inbox = s.inbox ++ [(c, q)] ∧ q.op = 11 ∧ q.aux = BitVec.ofNat 8 code ∧
      q.txid = p.txid ∧ q.dst = p.src
    s.bu.power = true → s.fieldDead (fieldOfPhys x y) = false → (p.src.ext = false → (r.reg rRT_PID).getLsbD 31 = false) →
    s.inj.head? = some e → p.multicast = false →
    (p.valid = true → e.addr = some a → s.resolve a = .dst d → s.map.deadAt d.px.toNat d.py.toNat = false →
      (cls = some 0 → enters { p with dst := d, rclass := 0 }) ∧ (cls = some 1 → enters { p with dst := d, rclass := 1 }) ∧
      (cls = some 2 → p.op ≠ 6 → enters { p with dst := d, rclass := 2, wpy := d.py })) ∧
    (p.valid = true → e.addr = some a → s.resolve a = .err code false → p.expectsAnswer = true → p.src.ext = false →
      logOf s.fp.skips x y = some c → ∃ t : State, exec (.packetInjection p.src) s = .next t ∧ t.inj = s.inj.tail ∧ t.flights = s.flights ∧
        t.cores = s.cores ∧ answered t code) ∧
    (p.valid = true → e.addr = some a → s.resolve a = .dst d → s.map.deadAt d.px.toNat d.py.toNat = false → cls = none →
      p.expectsAnswer = true → p.src.ext = false → logOf s.fp.skips x y = some c → ∃ t : State, exec (.packetInjection p.src) s = .next t ∧
        counted t rRT_NOROUTE 0x24 ∧ ∃ q : Packet, t.inbox = s.inbox ++ [(c, q)] ∧ q.op = 11 ∧ q.aux = 0x04 ∧ q.txid = p.txid) ∧
    (p.valid = false → ∃ t : State, exec (.packetInjection p.src) s = .next t ∧ counted t rRT_INVAL 0x29 ∧ t.inbox = s.inbox)

/-- A packet moves first along its row, then along its column, one router at a time, its flits counted at both (R151, R176); on
a ring line it goes from station to station, to the later VC behind the date line, and leaves it at its own; an on-ramp takes it to the line
of its axis and an off-ramp back to the ring router (R148, R153 to R155); at its waypoint it goes to the relay, which checks it and sends it
on as a mesh packet (R156). A packet whose head fails its CRC is discarded, one with a later flit that fails goes on killed; both are counted
and reported (R167). Two acknowledgements of one multicast write that meet become one, with their counts added (R163). -/
def Obligations.PacketsMove : Prop :=
  (∀ (s : State) (f : Nat) (x : Flight) (px py port line pos : Nat) (yAxis : Bool) (side : DateSide) (n : Nat) (e : BitVec 576),
    let p := x.pkt
    let bx := p.dst.px.toNat
    let bY := p.dst.py.toNat
    let st := ringStation pos
    let off := if yAxis then bY / 8 else bx / 8
    let next := (pos + 1) % 72
    let here := if side = .crossing then DateSide.after else side
    let counts := fun (t : State) (ctr n : Nat) => pairAt (t.router px py).regs ctr = pairAt (s.router px py).regs ctr + BitVec.ofNat 64 n
    let goes := fun (qx qy inPort : Nat) => s.stops qx qy = false → ∃ t : State, exec (.flitArrival f none) s = .next t ∧
      s.moved t f { x with loc := .router qx qy inPort, fresh := true } ∧ counts t rRT_FLITSIN (1 + p.lines.length) ∧
      counts t rRT_FLITSOUT (1 + p.lines.length)
    let reports := fun (t : State) => counts t rRT_CRCDISC 1 ∧ ∃ m, t.transit = s.transit ++ [m] ∧ m.kind = 0x20 ∧ m.block = 10
    s.atPlace f x → p.valid = true → p.op ≠ 10 →
    (x.fresh = true → x.loc = .router px py port → x.cast = .single → p.op ≠ 6 → p.rclass = 0 →
      (px < bx → goes (px + 1) py 1) ∧ (bx < px → goes (px - 1) py 2) ∧
      (px = bx → py < bY → goes px (py + 1) 3) ∧ (px = bx → bY < py → goes px (py - 1) 4) ∧
      (px = bx → py = bY → p.dst.ext = false → ∃ t : State, exec (.flitArrival f none) s = .next t ∧
        s.moved t f { x with fresh := false }) ∧
      (px = bx → py = bY → p.dst.ext = true → ∃ t : State, exec (.flitArrival f none) s = .next t ∧
        s.moved t f { x with loc := .tport px py, fresh := true }) ∧
      (px < bx → s.stops (px + 1) py = false → p.receive x.vc (some (n, e)) = .fails n → 0 < n →
        ∃ t : State, exec (.flitArrival f (some (n, e))) s = .next t ∧ reports t ∧
          t.flights[f]? = some { x with pkt := p.kill n, loc := .router (px + 1) py 1, fresh := true })) ∧
    (x.fresh = true → x.loc = .station yAxis line pos side →
      (pos ≠ ringPos off → s.stops (stationRouter yAxis line next).1 (stationRouter yAxis line next).2 = false →
        ∃ t : State, exec (.flitArrival f none) s = .next t ∧ t.routers = s.routers ∧
          s.moved t f { x with loc := .station yAxis line next (if next = 0 then .crossing else here) }) ∧
      (pos = ringPos off → ∃ t : State, exec (.flitArrival f none) s = .next t ∧ t.routers = s.routers ∧
        s.moved t f { x with loc := .station yAxis line pos here, fresh := false })) ∧
    (x.fresh = false → x.loc = .router px py port → p.rclass = 1 → px % 8 = 4 → py % 8 = 4 → px / 8 ≠ bx / 8 →
      ∃ t : State, exec (.ringOnRamp f) s = .next t ∧
        s.moved t f { x with loc := .station false (py / 8) (ringPos (px / 8)) .before, fresh := true }) ∧
    (x.fresh = false → x.loc = .station yAxis line pos side → ∃ t : State, exec (.ringOffRamp f) s = .next t ∧ t.routers = s.routers ∧
      s.moved t f { x with loc := (if yAxis then .router (8 * line + 4) (8 * st + 4) 6 else .router (8 * st + 4) (8 * line + 4) 5),
                           fresh := true }) ∧
    (x.fresh = true → x.loc = .router px py port → x.cast = .single → p.op ≠ 6 → p.rclass = 2 → py = p.wpy.toNat →
      ∃ t : State, exec (.flitArrival f none) s = .next t ∧ s.moved t f { x with loc := .relay px py }) ∧
    (x.fresh = true → x.loc = .relay px py → ∃ t : State, exec (.flitArrival f none) s = .next t ∧ s.moved t f { x with fresh := false }) ∧
    (x.fresh = false → x.loc = .relay px py → px < bx → s.stops (px + 1) py = false →
      ∃ t : State, exec (.waypointRelay f) s = .next t ∧
        s.moved t f { x with pkt := { p with rclass := 0 }, loc := .router (px + 1) py 1, fresh := true }) ∧
    (x.fresh = true → x.loc = .router px py port → p.receive x.vc (some (0, e)) = .fails 0 → ∃ t : State,
      exec (.flitArrival f (some (0, e))) s = .next t ∧ t.flights.length + 1 = s.flights.length ∧ reports t)) ∧
  (∀ (s : State) (x y : Flight) (px py port : Nat) (h : BitVec 384),
    s.flights = [x, y] → x.fresh = true → y.fresh = true → x.cast = .single → y.cast = .single → x.loc = .router px py port →
    y.loc = .router (px + 1) py 1 → x.pkt.op = 10 → x.pkt.valid = true → x.pkt.killed = false → x.pkt.rclass = 0 →
    y.pkt = { x.pkt with head := h } → px < x.pkt.dst.px.toNat → s.stops (px + 1) py = false →
    ∃ t : State, exec (.flitArrival 0 none) s = .next t ∧ t.flights = [{ y with pkt := { x.pkt with head := addCounts x.pkt.head h } }] ∧
      t.cores = s.cores ∧ t.inbox = s.inbox)

/-- A packet at its destination router leaves the mesh: for a core that is present it joins the packets delivered to it (R33); a
request of another partition is refused with ERR 0x05, counted and reported (R171); one for a hole, a dead cluster or a dead
field is answered with ERR 0x01, 0x02 or 0x03 (R33); a request to outer memory joins its terminus (R144). A merge slot that has
all it expects folds its contributions in port order and sends one packet on (R164, R165). -/
def Obligations.PacketsLeave : Prop :=
  ∀ (s : State) (f : Nat) (x : Flight) (px py port t0 : Nat) (c : CoreId) (a b : Packet) (la lb : Line) (n : BitVec 3),
    let p := x.pkt
    let r := s.router px py
    let w := r.reg rRT_PID
    let left := fun (t : State) => t.flights.length + 1 = s.flights.length
    let err := fun (code : Byte) => ∃ t : State, ∃ q : Packet, exec (.packetDelivery f) s = .next t ∧ left t ∧ t.inbox = s.inbox ∧
      t.inj = s.inj ++ [Sent.mk q none false] ∧ q.op = 11 ∧ q.aux = code ∧ q.dst = p.src ∧ q.txid = p.txid ∧
      ∀ c', (t.core c').mem = (s.core c').mem ∧ (t.core c').s = (s.core c').s
    let red := 0x100 + 0x20 * n.toNat
    (s.atPlace f x → x.fresh = false → x.cast = .single → p.killed = false →
      (x.loc = .router px py port → px = p.dst.px.toNat → py = p.dst.py.toNat → p.dst.ext = false → p.op = 0 → p.space = 0 → logOf s.fp.skips px py = some c →
        (s.posOf c = .usable → (p.sys = true ∨ w.getLsbD 31 = false ∧ w.getLsbD 30 = false ∧ field w 0 4 = p.pid.toNat) →
          (s.core c).seq ≠ .reset → ∃ t : State, exec (.packetDelivery f) s = .next t ∧ left t ∧ t.inbox = s.inbox ++ [(c, p)] ∧
            t.cores = s.cores ∧ t.inj = s.inj) ∧
        (s.posOf c = .usable → p.sys = false → w.getLsbD 31 = false → w.getLsbD 30 = false → field w 0 4 ≠ p.pid.toNat →
          err 0x05 ∧ ∃ t : State, ∃ m : Msg, exec (.packetDelivery f) s = .next t ∧ t.transit = s.transit ++ [m] ∧ m.kind = 0x25 ∧ m.block = 10 ∧
            pairAt (t.router px py).regs rRT_FWREF = pairAt r.regs rRT_FWREF + 1) ∧
        (s.posOf c = .hole → err 0x01) ∧ (s.posOf c = .isolated → err 0x02) ∧ (s.posOf c = .dead → err 0x03)) ∧
      (x.loc = .tport px py → terminusOfRouter px py = some t0 → (s.terminus t0).lost = false → (s.terminus t0).full = false →
        p.op = 0 → p.space = 2 → ∃ t : State, exec (.packetDelivery f) s = .next t ∧ left t ∧ t.tin = s.tin ++ [(t0, p)] ∧ t.om = s.om ∧
          t.cores = s.cores)) ∧
    ((r.reg red).getLsbD 31 = true → (r.reg red).getLsbD 30 = false → field (r.reg red) 28 2 = 0 →
      r.held.get [] n.toNat = [{ port := 1, pkt := b }, { port := 0, pkt := a }] → a.op = 6 → a.lines = [la] → b.lines = [lb] →
      (∀ i, i < 5 → field (r.reg (red + 4 + 4 * i)) 0 19 = if i = 0 then a.rcount else if i = 1 then b.rcount else 0) →
      1 ≤ a.rcount → 1 ≤ b.rcount →
      (∃ q : Nat × Nat × Nat, nextHop a px py = some q ∧ s.stops q.1 q.2.1 = false) → px < 576 → py < 576 →
      ∃ t : State, ∃ y, exec (.reduceMergeSend (BitVec.ofNat 10 px) (BitVec.ofNat 10 py) n) s = .next t ∧ t.flights = s.flights ++ [y] ∧
        y.pkt.op = 6 ∧ y.pkt.dst = a.dst ∧ y.pkt.redid = field (r.reg red) 0 12 ∧
        y.pkt.rcount = (a.rcount + b.rcount) % 2 ^ 19 ∧
        y.pkt.lines = [(combineLine 0 la lb).1] ∧ (t.router px py).held.get [] n.toNat = [] ∧ t.inbox = s.inbox ∧ t.cores = s.cores)

/-- The congestion map holds for each cluster the share of blocked cycles of its routers in 256ths, 0 in a dead field, and the interval's
stamp, and the next interval counts anew (R174, R175). The route map takes the dead fields, the ring lines out of service and the lost termini and stacks, and a line
newly out is reported with kind 0x28 (R150, R152). A declared change of the floor plan shows with the next generation, and every function is notified (R35, R297). A
field whose PLL loses lock, or a seam of which has no margin left, dies: its spine and trees stop, its packets are gone, and
kind 0x82 or 0x83 is reported (R29, R317, R318). -/
def Obligations.FloorPlanAndMaps : Prop :=
  (∀ (s : State) (cl : BitVec 13) (f : Nat),
      let off := 0x1000 + 0x40 * fieldOfCluster cl.toNat + 4 * (clusterInField cl.toNat / 4)
      let live := (s.fittedList.filter (fun t => (s.terminus t).lost))
      s.bu.phase = 10 →
      (s.blockedClusters = [cl.toNat] → cl.toNat < 5184 → ∃ t : State, exec .congestionMapPublish s = .next t ∧
        field (t.yreg (yFM + off)) (8 * (clusterInField cl.toNat % 4)) 8 =
          (if s.fp.dead.contains (fieldOfCluster cl.toNat) then 0 else min 255 (256 * s.clusterBlocked cl.toNat / 15360000)) ∧
        (∀ o, 0x1000 ≤ o → o < 0x1000 + 0x40 * 81 → o ≠ off → t.yreg (yFM + o) = 0) ∧
        t.yreg (yFM + 8) = lo32 s.yc ∧ t.yreg (yFM + 0xC) = hi32 s.yc ∧ (t.yreg yFM).getLsbD 0 = false ∧
        t.blockedClusters = [] ∧ t = { s with yregs := t.yregs, routers := t.routers }) ∧
      (∃ t : State, exec .routeMapRewrite s = .next t ∧ t.map.skips = s.map.skips ∧ t.map.lostTermini = live ∧
        (∀ g, t.map.dead.contains g = (s.map.dead.contains g || s.fp.dead.contains g)) ∧
        (∀ l, s.map.ringXOut.contains l = true → t.map.ringXOut.contains l = true) ∧
        (∀ g ∈ s.fp.dead, ∀ i, i < 8 → t.map.ringXOut.contains (8 * (g / 9) + i) = true ∧
          t.map.ringYOut.contains (8 * (g % 9) + i) = true) ∧
        (∃ ms, t.transit = s.transit ++ ms ∧ ∀ m ∈ ms, m.kind = 0x28 ∧ m.block = 24) ∧ t.cores = s.cores ∧ t.flights = s.flights) ∧
      (f < 81 → s.fp.todo = [.deadField (BitVec.ofNat 7 f)] → s.fp.dead.contains f = false → s.fc.safe = false →
        ∃ t : State, exec (.floorPlanChange (.deadField (BitVec.ofNat 7 f))) s = .next t ∧ t.fp.dead = s.fp.dead ++ [f] ∧ t.fp.todo = [] ∧
          t.fp.gen = s.fp.gen + 2 ∧ t.fp.holes = s.fp.holes ∧ t.fp.isolated = s.fp.isolated ∧
          (s.host.up = true → ∀ fn, fn < 17 → s.notified t fn (if fn = 0 then 1 else 9)) ∧ t.cores = s.cores ∧ t.map = s.map)) ∧
  (∀ (s : State) (f : BitVec 7) (side : BitVec 2),
      let n := f.toNat
      let dies := fun (t : State) => (t.fieldPower n).dead = true ∧ (t.fieldPower n).spine = false ∧
        (∀ g, g ≠ n → t.fieldPower g = s.fieldPower g) ∧ (∀ cl ∈ fieldClusters n, (t.cluster cl).tree = false) ∧
        (∀ x ∈ t.flights, x.loc.fieldNo ≠ n) ∧ (∀ x ∈ t.inbox, fieldOf x.1.x.toNat x.1.y.toNat ≠ n) ∧ s.storesKept t
      s.inService n = true →
      (∃ t : State, exec (.fieldPllLoss f) s = .next t ∧ dies t ∧ (t.fieldPower n).pll = false ∧ t.lastTold n 14 0x82 n 0) ∧
      (∃ t : State, exec (.seamMarginExhausted f side) s = .next t ∧ dies t ∧ (t.fieldPower n).pll = (s.fieldPower n).pll ∧
        t.lastTold n 15 0x83 (n + 128 * side.toNat) 0))

/-! ### Jobs and partitions -/

/-- The record at RDIDX of a ring is fetched where its WRIDX shows that there is one (R199). A SUBMIT record is read and its package
checked: a job that passes waits, and the ring's resident placements of other digests are dropped; one that fails ends in a completion
record with status 4 and the code of the failed check; a package in host memory that cannot be reached waits (R243, R246, R252, R253). A
record of an unknown kind sets ERR and is passed by, a skip marker takes the index to the region's start (R197, R199), and RDIDX is stored in
the ring's index block. KILL and UNLOAD of nothing end in status 7; UNLOAD drops the ring's resident placements, whose clusters are scrubbed
(R246, R252, R263). A ring pair whose regions pass the checks of R245 is enabled with its index words zero and its index block where JB_RIDX
tells (R244, R245, R293: which page and which block is the model's choice, log entry 75); it is disabled while no job of the ring is
unfinished; a write of ERR clears it (R264); under a locked TDI a write that changes nothing has no effect (R300). -/
def Obligations.JobRecordsRead : Prop :=
  (∀ (s s1 : State) (p : Pid) (r : BitVec 3) (host bytes bs : List Byte) (x : RawRecord) (d : Nat),
      let g := s.ring p r
      let q := readSubmit x
      let id : DWord := BitVec.ofNat 64 (numAt x.payload 0 8)
      let k := readPackage bs
      let s2 := s1.readRecord p r x.len
      let ends := fun (cmd : Instr) (job : DWord) (status detail : Nat) => ∃ t : State, ∃ y, exec cmd s = .next t ∧
        s.readPast t p r (recSize x.len) ∧ s.recorded t p r y ∧ y.completes job status detail ∧ t.jobs = s.jobs
      let stores := fun (t : State) => ∀ c off, g.idx = some (c, off) → s1.padUp c = true →
        ((kOf s1 c).writeBytes agNET none (off + 64) (leBytes 8 (t.ring p r).subRd.toNat)).2 = true →
        BitVec.ofNat 64 (Mem.readN (t.core c).mem (off + 64) 8) = (t.ring p r).subRd
      s.fetchRecord p r host = some (s1, x) →
      (x.kind = 1 → s1.pkgPlaced p q = false → ends (.submit p r host bytes) q.jobid 4 7) ∧
      (x.kind = 1 → s1.pkgPlaced p q = true → addrSpace q.pkg = 4 → s1.hostReach q.pkg q.pkgLen true = false →
        exec (.submit p r host bytes) s = .next s) ∧
      (x.kind = 1 → s1.pkgPlaced p q = true → (addrSpace q.pkg = 4 → s1.hostReach q.pkg q.pkgLen true = true) →
        (s2.loadAt q.pkg q.pkgLen bytes = none → ends (.submit p r host bytes) q.jobid 4 2) ∧
        (s2.loadAt q.pkg q.pkgLen bytes = some bs → s2.pkgReject p r q k = some d → ends (.submit p r host bytes) q.jobid 4 d) ∧
        (s2.loadAt q.pkg q.pkgLen bytes = some bs → s2.pkgReject p r q k = none →
          ∃ t : State, ∃ j, exec (.submit p r host bytes) s = .next t ∧ s.readPast t p r (recSize x.len) ∧
            t.job? p r q.jobid = some j ∧ j.pkg = k ∧ j.srec = q ∧ j.phase = .waiting ∧ j.clusters = [] ∧
            t.jobs.length = s.jobs.length + 1 ∧ (t.ring p r).published = g.published ∧
            (∀ z ∈ t.residentsOf p r, z.digest = k.digest) ∧
            (∀ j ∈ t.jobs, j.p = p → j.r = r → j.pkg.digest ≠ k.digest → j.noKeep = true))) ∧
      (x.kind ≠ 1 → x.kind ≠ 2 → x.kind ≠ 3 → x.kind ≠ 0xFFFF → ∃ t : State, exec (.unknownKindRecord p r host) s = .next t ∧
        s.readPast t p r (recSize x.len) ∧ stores t ∧ t.yreg (ringOff p r) = (s.yreg (ringOff p r) ||| 0x40000000) ∧ t.jobs = s.jobs) ∧
      (x.kind = 0xFFFF → ∃ t : State, exec (.unknownKindRecord p r host) s = .next t ∧
        s.readPast t p r (s.rsSize p r - g.subRd.toNat % s.rsSize p r) ∧ stores t ∧ t.yregs = s.yregs ∧ t.jobs = s.jobs) ∧
      (x.kind = 2 → (∀ j, s.job? p r id = some j → j.phase = .killed) → ends (.kill p r host) id 7 0) ∧
      (x.kind = 3 → s.residentsOf p r = [] → ends (.unload p r host) id 7 0) ∧
      (x.kind = 3 → s.residentsOf p r ≠ [] → ∃ t : State, ∃ y, exec (.unload p r host) s = .next t ∧ s.readPast t p r (recSize x.len) ∧
        s.recorded t p r y ∧ y.completes id 0 0 ∧ t.residentsOf p r = [] ∧
        ∀ z ∈ s.residentsOf p r, ∀ cl ∈ z.clusters, (t.cluster cl).scrubPend = true)) ∧
  (∀ (s : State) (p : Pid) (r : BitVec 3) (host bytes : List Byte), s.fetchRecord p r host = none →
      ∀ cmd ∈ [Instr.submit p r host bytes, .kill p r host, .unload p r host, .unknownKindRecord p r host], exec cmd s = .next s) ∧
  (∀ (s : State) (p : Pid) (r : BitVec 3),
      let off := ringOff p r
      let w := s.yreg off
      s.pfServes →
      (s.tdiLocked p = false →
        (s.pvalid p = true → s.ringEn p r = false → s.ringRegionsOk p r = true → ∃ t : State, exec (.ringPairEnable .pf p r) s = .next t ∧
          t.resp = .done ∧ t.ringEn p r = true ∧ (t.yreg off).extractLsb' 0 31 = w.extractLsb' 0 31 ∧
          (t.ring p r).subWr = 0 ∧ (t.ring p r).subRd = 0 ∧ (t.ring p r).compRd = 0 ∧ ((s.ring p r).waiting = [] → (t.ring p r).compWr = 0) ∧
          (t.ring p r).published ++ (t.ring p r).waiting = (s.ring p r).published ++ (s.ring p r).waiting ∧
          (s.devicePair p r = true → t.yreg (off + 0x1C) = 0) ∧
          (s.devicePair p r = false → t.yreg (off + 0x1C) = BitVec.ofNat 32 (0x10000 * p.toNat + 0x100 * r.toNat) ∧
            (s.helperCore p ≠ none → (t.yreg (ringPage p)).getLsbD 31 = true ∧ (t.yreg (ringPage p)).getLsbD 30 = true ∧
              field (t.yreg (ringPage p)) 25 5 = p.toNat + 1 ∧
              (t.ring p r).idx = some (pageCore (t.yreg (ringPage p)), pageOff (t.yreg (ringPage p)) (0x100 * r.toNat)))) ∧
          s.ringCoresKept t p r) ∧
        (s.ringRegionsOk p r = false → exec (.ringPairEnable .pf p r) s = .next { s with resp := .err 0x09 }) ∧
        ((∀ j ∈ s.jobs, j.p = p → j.r = r → j.phase = .finished) → ∃ t : State, exec (.ringPairDisable .pf p r) s = .next t ∧ t.resp = .done ∧
          t.ringEn p r = false ∧ t = { s with yregs := t.yregs, resp := .done }) ∧
        (∀ j ∈ s.jobs, j.p = p → j.r = r → j.phase ≠ .finished →
          exec (.ringPairDisable .pf p r) s = .next { s with resp := .err 0x09 }) ∧
        (∃ t : State, exec (.ringErrClear .pf p r) s = .next t ∧ t.resp = .done ∧ (t.yreg off).getLsbD 30 = false ∧
          t.ringEn p r = s.ringEn p r ∧ t = { s with yregs := t.yregs, resp := .done })) ∧
      (s.tdiLocked p = true → s.ringEn p r = true → exec (.ringPairEnable .pf p r) s = .next { s with resp := .done }))

/-- Ryist takes the head job of the ring whose turn it is, round robin over the rings (R247). A waiting job is placed on the clusters and the
layout Ryist chooses, one section slot to a section, with its placement record; its cores are loaded (R248 to R251); one whose digest a
resident placement of its ring has uses that again (R252); a job whose least shares the partition cannot hold ends UNPLACEABLE, status 5
(R248); a ring whose turn it is not gets nothing. Its stage starts: every core takes ARM and then START (R216, R250). Where Ryist lays sections
out and which turn it begins with are the model's choice (log entries 72, 107). -/
def Obligations.JobsPlaced : Prop :=
  ∀ (s : State) (p : Pid) (r : BitVec 3) (j : Job) (clusters : List (BitVec 13)) (z : Resident),
    let cls := clusters.map (·.toNat)
    let room := s.placeable p cls
    let shares := allot room.length j.pkg.sections
    let layout := s.layout (s.planKey j cls 0) shares room
    let cores := j.stageCores 0
    let again := (s.residentsOf p r).find? (fun x => x.digest == j.pkg.digest && j.srec.flags.getLsbD 0)
    (s.nextRing ≠ some (ringKey p r) → exec (.jobPlacement p r clusters) s = .next s) ∧
    (s.nextRing = some (ringKey p r) → s.guarded p = false → s.headJob p r = some j →
      (again = none → placeMode j.pkg.sections j.pkg.nstage (s.placeable p (s.partition p).clusters).length 64 = .wait →
        ∃ t : State, ∃ y, exec (.jobPlacement p r clusters) s = .next t ∧ s.recorded t p r y ∧ y.completes j.jobid 5 j.detail.toNat ∧
          t.job? p r j.jobid = none ∧ s.ringCoresKept t p r ∧ t.usedSlots = s.usedSlots ∧ t.served = ringKey p r) ∧
      (again = none → placeMode j.pkg.sections j.pkg.nstage (s.placeable p (s.partition p).clusters).length 64 ≠ .wait →
        s.choiceOk j cls = true → (∀ cl ∈ cls, (s.cluster cl).testing = none ∧ (s.cluster cl).testScrub = false) →
        placeMode j.pkg.sections j.pkg.nstage room.length s.freeSlots.length = .resident →
        ∃ t : State, ∃ j' y, exec (.jobPlacement p r clusters) s = .next t ∧ t.job? p r j.jobid = some j' ∧ j'.phase = .running ∧
          j'.staged = false ∧ j'.clusters = cls ∧ j'.layout = layout ∧ j'.fpgen = s.fp.gen ∧ j'.pkg = j.pkg ∧ t.served = ringKey p r ∧
          (∀ pl ∈ layout, (t.slots.get .reset pl.slot.toNat).cores = pl.cores ∧ (t.slots.get .reset pl.slot.toNat).secid = pl.secid ∧
            (t.slots.get .reset pl.slot.toNat).job = some (p, r, j.jobid) ∧
            ((layout.flatMap (·.cores)).Nodup → ∀ c ∈ pl.cores, onGrid c = true →
              field ((t.core c).reg rDF_SECCFG) 16 16 = pl.secid.toNat ∧ (t.core c).slotNo = pl.slot.toNat)) ∧
          s.recorded t p r y ∧ y = placementRecord s j' false 0 cls.length shares layout ∧
          (∀ n, (∀ pl ∈ layout, ∀ c ∈ pl.cores, n ≠ coreKey c) → (∀ c off, (s.ring p r).idx = some (c, off) → n ≠ coreKey c) →
            t.cores.get s.blankCore n = s.cores.get s.blankCore n)) ∧
      (again = some z → z.clusters.all s.sound = true →
        ∃ t : State, ∃ j', exec (.jobPlacement p r clusters) s = .next t ∧ t.job? p r j.jobid = some j' ∧ j'.phase = .running ∧
          j'.staged = false ∧ j'.clusters = z.clusters ∧ j'.layout = z.layout ∧ j'.flags.getLsbD 2 = true ∧ z ∉ t.residents ∧
          t.rings = s.rings)) ∧
    (s.job? p r j.jobid = some j → j.phase = .running → j.replaying = none → s.fc.safe = false → j.started = none → j.staged = false →
      (∀ cl ∈ j.clusters, (s.cluster cl).testing = none) → s.startable cores →
      ∃ t : State, ∃ j', exec (.stageStart p r j.jobid) s = .next t ∧ t.job? p r j.jobid = some j' ∧ j'.started = some s.yc ∧
        j'.curStage = 0 ∧ j'.phase = .running ∧ j'.layout = j.layout ∧
        (∀ c ∈ cores, (t.core c).df = .starting ∧ (t.core c).epoch = ((s.core c).epoch + 1) % 4) ∧
        ((∀ c ∈ cores, (s.core c).shWtop = none) → s.coresKept t))

/-- A section whose cores are all quiet ends: each core is IDLE and the slot's section counts as ended (R217, R250). An output
is released 125,000 yc after it was final, with its record (R375, R377, R378); a guarded stage passes its hold (R381). An ended
job whose outputs are decided and whose clusters are scrubbed leaves the table with its completion record (R253, R254). A KILL withdraws
its job's undecided outputs, closes the firewalls of its clusters and records K; one that waits is removed at once, with status 3; once its
core resets and its scrubs are done the firewalls open and its record of status 3 follows (R260, R263: one record serves KILL and SUBMIT,
the model's reading, log entry 74); and what waits for ring space follows the reader's index (R255). A scrub that is asked for waits until
the cluster's cores are idle, then zeroes their scratchpads, those of isolated cores too, and fills their instruction stores with illegal
words (R120, R261); JB_MAPGEN tells of each change (R264). -/
def Obligations.JobsEnd : Prop :=
  (∀ (s s1 : State) (p : Pid) (r : BitVec 3) (j : Job) (slot : BitVec 6) (arg : BitVec 6) (stage : BitVec 8) (f rd : DWord)
      (host : List Byte) (x : RawRecord),
      let e := s.slots.get .reset slot.toNat
      let g := s.ring p r
      let cs := s.coresOfSlot slot.toNat
      (cs ≠ [] → s.fc.safe = false → (∀ c ∈ cs, s.alive c = true ∧ (s.core c).quiet = true) → e.job = none →
        ∃ t : State, exec (.slotQuiet slot) s = .next t ∧ t.slots.get .reset slot.toNat = .reset ∧
          (∀ c ∈ cs, (t.core c).df = .idle ∧ (t.core c).running = none) ∧ s.coresKept t) ∧
      (s.fc.safe = false → s.job? p r j.jobid = some j →
        (j.output arg.toNat = .final f → f.toNat + 125000 ≤ s.yc.toNat → ∃ t : State, ∃ j', exec (.outputDecision p r j.jobid arg) s = .next t ∧
          t.job? p r j.jobid = some j' ∧ j'.output arg.toNat = .released f s.yc ∧ j'.lastRelease = s.yc ∧
          s.recorded t p r (.release j.jobid (BitVec.ofNat 8 arg.toNat) false 0 0 0 f s.yc) ∧ s.ringCoresKept t p r) ∧
        (j.output arg.toNat = .final f → s.yc.toNat < f.toNat + 125000 → exec (.outputDecision p r j.jobid arg) s = .next s) ∧
        (j.stageEnds.get .open stage.toNat = .final f → j.replaying = none → f.toNat + 125000 ≤ s.yc.toNat →
          stage.toNat + 1 ≠ j.pkg.nstage → ∃ t : State, ∃ j', exec (.stageHoldExpiry p r j.jobid stage) s = .next t ∧
            t.job? p r j.jobid = some j' ∧ j'.stageEnds.get .open stage.toNat = .released f s.yc ∧ j'.phase = j.phase ∧ s.coresKept t) ∧
        (j.phase = .ended → j.allDecided = true → j.outs = [] → s.scrubsDone j = true →
          ∃ t : State, ∃ y, exec (.jobCompletionPublish p r j.jobid) s = .next t ∧ t.job? p r j.jobid = none ∧ s.recorded t p r y ∧
            y.completes j.jobid j.status.toNat j.detail.toNat ∧ s.ringCoresKept t p r) ∧
        (j.phase = .killed → j.killYc = none → (s.partition p).state ≠ 3 → j.allDecided = true → s.scrubsDone j = true →
          ∃ t : State, ∃ y, exec (.jobCompletionPublish p r j.jobid) s = .next t ∧ t.job? p r j.jobid = none ∧ s.recorded t p r y ∧
            y.completes j.jobid j.status.toNat j.detail.toNat ∧
            ∀ cl ∈ j.clusters, ∀ q ∈ clusterPositions cl, ((t.router q.1 q.2).reg rRT_PID).getLsbD 31 = false) ∧
        (s.scrubsDone j = false → exec (.jobCompletionPublish p r j.jobid) s = .next s)) ∧
      (s.fetchRecord p r host = some (s1, x) → x.kind = 2 → BitVec.ofNat 64 (numAt x.payload 0 8) = j.jobid → s.job? p r j.jobid = some j →
        (j.phase = .waiting → ∃ t : State, ∃ y, exec (.kill p r host) s = .next t ∧ s.readPast t p r (recSize x.len) ∧
          t.job? p r j.jobid = none ∧ s.recorded t p r y ∧ y.completes j.jobid 3 0) ∧
        (j.phase ≠ .waiting → j.phase ≠ .killed → ∃ t : State, ∃ j', exec (.kill p r host) s = .next t ∧
          (t.ring p r).subRd = g.subRd + BitVec.ofNat 64 (recSize x.len) ∧ t.job? p r j.jobid = some j' ∧ j'.phase = .killed ∧
          j'.status = 3 ∧ j'.killYc = some s.yc ∧ j'.allDecided = true ∧ j'.clusters = j.clusters ++ j.kept ∧
          (∀ cl ∈ j'.clusters, ∀ q ∈ clusterPositions cl, ((t.router q.1 q.2).reg rRT_PID).getLsbD 31 = true) ∧
          (t.ring p r).published ++ (t.ring p r).waiting = g.published ++ g.waiting)) ∧
      (s.ringEn p r = true → s.idxLoad p r 3 = (s1, some rd) → g.compRd.toNat ≤ rd.toNat → rd.toNat ≤ g.compWr.toNat → rd.toNat % 64 = 0 →
        ∃ t : State, exec (.completionPublishResume p r) s = .next t ∧ (t.ring p r).compRd = rd ∧
          (t.ring p r).published ++ (t.ring p r).waiting = g.published ++ g.waiting ∧ t.jobs = s.jobs ∧ s.ringCoresKept t p r)) ∧
  (∀ (s : State) (cl : BitVec 13) (c : CoreId),
      let n := cl.toNat
      let e := s.cluster n
      (s.fc.safe = false → ∃ t : State, exec (.jbScrubmapWrite .ryist cl) s = .next t ∧ t.resp = .done ∧ (t.cluster n).scrubPend = true ∧
        t.cores = s.cores ∧ t.yreg (yJB + 4) = s.yreg (yJB + 4) + (if s.mapView = t.mapView then 0 else 2) ∧
        (∀ off, off ≠ yJB + 4 → t.yreg off = s.yreg off)) ∧
      (s.host.up = true → s.bu.phase = 10 → s.fc.safe = false → ∃ t : State, exec (.jbScrubmapWrite .pf cl) s = .next t ∧ t = { s with resp := .err 0x09 }) ∧
      (s.bu.power = true → e.scrubPend = true → e.scrubbing = false → s.clusterIdle n = true →
        ∃ t : State, exec (.clusterScrub cl) s = .next t ∧ (t.cluster n).scrubbing = true ∧
          (c ∈ s.scrubbed n → (t.core c).zeroing = true ∧ (t.core c).reg rFLT_WCTL = 0)) ∧
      (s.bu.power = true → e.scrubbing = true → c ∈ s.scrubbed n →
        ∃ t : State, exec (.clusterScrubEnd cl) s = .next t ∧ (t.cluster n).scrubbing = false ∧ (t.cluster n).scrubPend = false ∧
          ((s.core c).zeroing = true → (∀ b, b < 8 → ((s.core c).bank b).serves = true) → ∀ q, q < 0x60000 → Mem.read (t.core c).mem q = 0) ∧
          ((s.core c).zeroing = false → (t.core c).mem = (s.core c).mem) ∧ (t.core c).zeroing = false ∧
          (∀ i, i ≤ 16383 → decodeInsn c ((t.core c).insnAt i) = none) ∧ (t.core c).s = (s.core c).s))

/-- The PF's write of JB_PCFG takes the assigned bits, names the clusters the partition is to have and takes its STATE to
'changing' (R237); with every scrub done the routers of its clusters take its PID, the cores of a guarded partition NANTRAP, and the
assignment stands (R98, R237, R239); a configuration that breaks a limit is refused with ERR 0x09 (R236, R240); JB_PIN holds what it is
given (R237); under a locked TDI a write of the value that stands has no effect (R300). A partition reset takes STATE to 'in reset', closes
the firewalls of its clusters, withdraws what the gate has not decided and refuses its extents (R367); with the drain complete its keys are
new, its clusters are scrubbed, its ring pairs disabled with no record dropped, and its firewalls open (R255, R280, R367); a drain that is
not complete after 60 µs is reported with kind 0xEB. -/
def Obligations.PartitionsChange : Prop :=
  (∀ (s : State) (p : Pid) (v : Word) (clusters : List (BitVec 13)) (w : Byte) (c : CoreId),
      let e := s.partition p
      let a := v &&& 0xF3001FFF
      let cls := clusters.map (·.toNat)
      (s.pfServes → s.tdiLocked p = false → e.state.toNat < 2 → s.cfgOk p a = true → s.rngOk = true → s.sec.debug = 0 →
        a.getLsbD 31 = true → cfgPinned a = false → s.chosen p a cls = some cls →
        ∃ t : State, exec (.jbPcfgWrite .pf p v clusters) s = .next t ∧ t.resp = .done ∧ t.pcfg p = a ∧ (t.partition p).target = cls ∧
          (t.partition p).state = 4 ∧ (t.partition p).clusters = e.clusters ∧
          (∀ cl ∈ cls, cl ∉ e.clusters → (t.cluster cl).scrubPend = true) ∧
          (∀ cl ∈ e.clusters, cl ∉ cls → (t.cluster cl).scrubPend = true) ∧ t.residents.all (fun x => x.p != p) = true ∧ t.cores = s.cores) ∧
      (s.pfServes → s.tdiLocked p = false → s.cfgOk p a = false → exec (.jbPcfgWrite .pf p v clusters) s = .next { s with resp := .err 0x09 }) ∧
      (s.pfServes → s.tdiLocked p = true → a = s.pcfg p → exec (.jbPcfgWrite .pf p v clusters) s = .next { s with resp := .done }) ∧
      (s.pfServes → s.tdiLocked p = false → e.state.toNat < 2 → s.pvalid p = false → w.toNat < 162 →
        ∃ t : State, exec (.jbPinWrite .pf p w v) s = .next t ∧ t.resp = .done ∧ t.yreg (yJB + 0x1000 + 0x400 * p.toNat + 4 * w.toNat) = v ∧
          t = { s with yregs := t.yregs, resp := .done }) ∧
      (s.bu.phase = 10 → e.state = 4 → e.clusters = [] → (∀ cl ∈ e.target, (s.cluster cl).scrubPend = false ∧ (s.cluster cl).scrubbing = false) →
        ∃ t : State, exec (.partitionAssignmentComplete p) s = .next t ∧ (t.partition p).clusters = e.target ∧ (t.partition p).target = [] ∧
          (t.partition p).state.toNat = s.restPstate p ∧
          (∀ cl ∈ e.target, ∀ q ∈ clusterPositions cl, field ((t.router q.1 q.2).reg rRT_PID) 0 4 = p.toNat ∧
            ((t.router q.1 q.2).reg rRT_PID).getLsbD 30 = false) ∧
          (s.guarded p = false → t.cores = s.cores) ∧
          (s.guarded p = true → ∀ cl ∈ e.target, c ∈ s.usableCores cl → onGrid c = true → ((t.core c).reg rCORE_NUMCTL).getLsbD 5 = true) ∧
          s.coresKept t)) ∧
  (∀ (s : State) (p : Pid) (r : BitVec 3) (y0 : DWord),
      let e := s.partition p
      (s.pfServes → s.tdiLocked p = false → s.pvalid p = true → e.state ≠ 3 → ∃ t : State, exec (.partitionReset .pf p) s = .next t ∧
        t.resp = .done ∧ (t.partition p).state = 3 ∧ (t.partition p).resetYc = some s.yc ∧ (t.partition p).clusters = e.clusters ∧
        (∀ cl ∈ e.clusters, ∀ q ∈ clusterPositions cl, ((t.router q.1 q.2).reg rRT_PID).getLsbD 31 = true) ∧
        (∀ j ∈ t.jobs, j.p = p → j.phase ≠ .finished → j.phase = .killed ∧ j.status = 6) ∧
        (∀ b ∈ t.om.extents, b.2.owner = .part p → b.2.zeroing = true) ∧ s.coresKept t) ∧
      (s.pfServes → s.tdiLocked p = false → s.pvalid p = true → e.state = 3 →
        exec (.partitionReset .pf p) s = .next { s with resp := .done }) ∧
      (e.state = 3 → e.drained = false → s.draining p = false → s.rngOk = true → ∃ t : State, exec (.partitionDrainComplete p) s = .next t ∧
        t.ringEn p r = false ∧ (t.ring p r).idx = none ∧
        (s.ringEn p r = true → (t.ring p r).subWr = 0 ∧ (t.ring p r).subRd = 0 ∧ (t.ring p r).compWr = 0 ∧ (t.ring p r).compRd = 0) ∧
        (∃ l, (t.ring p r).published ++ (t.ring p r).waiting = (s.ring p r).published ++ (s.ring p r).waiting ++ l) ∧
        (∀ cl ∈ e.clusters, ∀ q ∈ clusterPositions cl, ((t.router q.1 q.2).reg rRT_PID).getLsbD 31 = false) ∧
        (∀ cl ∈ e.clusters, (t.cluster cl).scrubPend = false ∧ (t.cluster cl).scrubbing = false) ∧
        ((t.keys p).slot0 = some s.om.nextKey) ∧ (t.keys p).epoch = false ∧ (t.keys p).slot1 = none) ∧
      (e.state = 3 → e.drained = false → e.resetYc = some y0 → y0.toNat + 3000 ≤ s.yc.toNat → ∃ t : State, ∃ m : Msg,
        exec (.partitionDrainLate p) s = .next t ∧ t.transit = s.transit ++ [m] ∧ m.kind = 0xEB ∧ m.block = 24 ∧
          m.detail.toNat = p.toNat ∧ (t.partition p).resetYc = none ∧ t.cores = s.cores))

/-! ### Outer memory, host and span links -/

/-- A terminus answers a read of a line that verifies with its bytes, one that does not with ERR 0x08 and kind 0xC1 (R272); a
request that the extent table refuses with ERR 0x0A and kind 0xC2 (R269); a write stores its bytes under the key in force and is
acknowledged (R271, R273); an atomic returns the old word and stores the new one (R191, R273); a full terminus below 4,096
requests admits packets again (R275). -/
def Obligations.OuterMemoryAccesses : Prop :=
  ∀ (s : State) (t3 : BitVec 3) (p : Packet) (l : Line) (cause : Nat) (fails : BitVec 2),
    let n := t3.toNat
    let off := p.off.toNat
    let base := off / 64 * 64
    let a : DWord := p.head.extractLsb' 0 64
    let old : DWord := BitVec.ofNat 64 (Mem.readN s.om.mem off 8)
    (s.omServes n p → p.op = 0 → p.sz = 4 → s.omVerifies off → ∃ t : State, ∃ q : Packet, exec (.omRead t3 []) s = .next t ∧ s.omAnswered t p q 9 0 ∧
      q.lines = [Mem.readLine s.om.mem off] ∧ t.om = s.om ∧ t.transit = s.transit) ∧
    (s.omServes n p → p.op = 0 → p.sz = 4 → 2 ≤ fails.toNat → ∃ t : State, ∃ q : Packet, ∃ m : Msg, exec (.omRead t3 [fails]) s = .next t ∧
      s.omAnswered t p q 11 0x08 ∧ q.lines = [] ∧ t.om = s.om ∧ t.transit = s.transit ++ [m] ∧ m.kind = 0xC1 ∧ m.block = 18 ∧
      m.address.toNat = base) ∧
    ((s.terminus n).lost = false → s.fitted n = true → s.bu.power = true → s.tin.head? = some (n, p) → p.op = 0 → p.space = 2 →
      p.omFormed = true → s.extentRefusal p.sys p.pid off = some cause → cause < 4 → ∃ t : State, ∃ q : Packet, ∃ m : Msg, exec (.omRead t3 []) s = .next t ∧
        s.omAnswered t p q 11 0x0A ∧ t.om = s.om ∧ t.transit = s.transit ++ [m] ∧ m.kind = 0xC2 ∧ m.block = 18 ∧
        m.address.toNat = off ∧ m.detail.toNat = omDetail p.sys p.pid n cause) ∧
    (s.omServes n p → p.op = 1 → p.sz = 4 → p.lines = [l] → ∃ t : State, ∃ q : Packet, exec (.omWholeLineWrite t3) s = .next t ∧
      s.omAnswered t p q 10 0 ∧ Mem.readLine t.om.mem off = l ∧ t.lineTag off = s.writeTag off ∧ s.omKept t off 64 ∧
      t.om.extents = s.om.extents ∧ t.om.keys = s.om.keys) ∧
    (s.omServes n p → p.op = 1 → p.sz = 3 → s.omVerifies base → fails = 0 → ∃ t : State, ∃ q : Packet, exec (.omPartialWrite t3 fails) s = .next t ∧
      s.omAnswered t p q 10 0 ∧ (∀ i, i < 8 → Mem.read t.om.mem (off + i) = a.extractLsb' (8 * i) 8) ∧ s.omKept t off 8 ∧
      t.om.extents = s.om.extents ∧ t.om.keys = s.om.keys) ∧
    (s.omServes n p → p.op = 2 → p.sz = 3 → p.aux = 1 → s.omVerifies base → fails = 0 → ∃ t : State, ∃ q : Packet, exec (.omAtom t3 fails) s = .next t ∧
      s.omAnswered t p q 9 0 ∧ q.head.extractLsb' 0 64 = old ∧
      (∀ i, i < 8 → Mem.read t.om.mem (off + i) = (old + a).extractLsb' (8 * i) 8) ∧ s.omKept t off 8) ∧
    ((s.terminus n).full = true → s.omHeld n < 4096 → ∃ t : State, exec (.terminusAdmissionResume t3) s = .next t ∧
      (t.terminus n).full = false ∧ t = { s with termini := t.termini })

/-- The PF gives extents by a word of OM_EXT: each whose byte changes goes to its new owner and zeroes, or is free; a word one byte of which
is refused changes nothing, and one that would change an extent of a locked TDI puts it in ERROR (R270, R285, R300). Fills run in ascending
order; when one ends every byte of the extent on a part that is not lost is zero and verifies, the others stay as they were, and it serves;
the last fill of a partition in reset ends the reset (R270, R280, R283). A lost stack is marked and reported with kind 0xC3; a terminus that
fails, or misses three polls in succession, is lost, reported with kind 0xC4, and with terminus 0 the host port goes (R281,
R282). -/
def Obligations.ExtentsAndLosses : Prop :=
  (∀ (s : State) (w : BitVec 9) (v : Word) (k : BitVec 11) (p : Pid),
      let es := extBytes w.toNat v
      let n := k.toNat
      let e := s.extent n
      (w.toNat < 384 → s.pfServes → s.lockedBy w.toNat v = [] →
        ((∀ b ∈ es, s.extWriteRefused .pf b.1 b.2 = false) → ∃ t : State, exec (.omExtWrite .pf w v) s = .next t ∧ t.resp = .done ∧
          (∀ b ∈ es, extOwner b.2 ≠ (s.extent b.1).owner →
            (t.extent b.1).owner = extOwner b.2 ∧ (t.extent b.1).zeroing = decide (extOwner b.2 ≠ .free)) ∧
          (∀ j, (∀ b ∈ es, b.1 = j → extOwner b.2 = (s.extent j).owner) → t.extent j = s.extent j) ∧ t.om.mem = s.om.mem ∧ t.cores = s.cores) ∧
        (∀ b ∈ es, s.extWriteRefused .pf b.1 b.2 = true → exec (.omExtWrite .pf w v) s = .next { s with resp := .err 0x09 })) ∧
      (w.toNat < 384 → s.pfServes → s.lockedBy w.toNat v ≠ [] → ∃ t : State, exec (.omExtWrite .pf w v) s = .next t ∧ t.resp = .err 0x09 ∧
        (∀ q ∈ s.lockedBy w.toNat v, t.tdi q = 3) ∧ ∀ j, (t.extent j).owner = (s.extent j).owner) ∧
      (s.filling ≠ some n → exec (.extentZeroFillEnd k) s = .next s) ∧
      (s.bu.power = true → s.filling = some n → e.owner = .part p → ∃ t : State, exec (.extentZeroFillEnd k) s = .next t ∧
        (t.extent n).zeroing = false ∧ (t.extent n).owner = e.owner ∧ t.om.fills.contains n = false ∧ s.omKept t (n * 2 ^ 30) (2 ^ 30) ∧
        (∀ q, n * 2 ^ 30 ≤ q → q < n * 2 ^ 30 + 2 ^ 30 →
          Mem.read t.om.mem q = if s.onLostPart (64 * (q / 64)) then Mem.read s.om.mem q else 0) ∧
        (∀ l, l / 2 ^ 24 = n → s.onLostPart (64 * l) = false → t.omVerifies (64 * l)) ∧ t.cores = s.cores ∧
        ((s.partition p).state = 3 → (s.partition p).drained = true → s.extentsOf p = [n] → (t.partition p).state.toNat = s.restPstate p))) ∧
  (∀ (s : State) (t3 : BitVec 3) (k : BitVec 2),
      let n := t3.toNat
      let e := s.terminus n
      let others := fun (t : State) => (∀ j, j ≠ n → t.terminus j = s.terminus j) ∧ t.om = s.om ∧ t.cores = s.cores
      s.bu.power = true → s.fitted n = true → e.lost = false →
      (k ≠ 3 → e.stkLost.getLsbD k.toNat = false → ∃ t : State, ∃ m : Msg, exec (.stackLost t3 k) s = .next t ∧
        (t.terminus n).stkLost = e.stkLost ||| (1#3 <<< k.toNat) ∧ (t.terminus n).lost = false ∧ t.transit = s.transit ++ [m] ∧
        m.kind = 0xC3 ∧ m.block = 18 ∧ m.detail.toNat = n * 2 ^ 8 + k.toNat * 2 ^ 6 ∧ others t ∧ t.host = s.host) ∧
      (∃ t : State, ∃ m : Msg, exec (.terminusInternalFailure t3) s = .next t ∧ (t.terminus n).lost = true ∧ t.transit = s.transit ++ [m] ∧
        m.kind = 0xC4 ∧ m.detail.toNat = n * 2 ^ 8 + 2 ∧ t.host.up = (s.host.up && n != 0) ∧ others t) ∧
      (s.fittedList = [n] → 2 ≤ e.missed → ∃ t : State, ∃ m : Msg, exec (.yardPoll 0) s = .next t ∧ (t.terminus n).lost = true ∧
        t.transit = s.transit ++ [m] ∧ m.kind = 0xC4 ∧ m.detail.toNat = n * 2 ^ 8 ∧ others t) ∧
      (s.fittedList = [n] → ∃ t : State, exec (.yardPoll 0xFF) s = .next t ∧ (t.terminus n).missed = 0 ∧ (t.terminus n).lost = false ∧
        t.transit = s.transit ∧ others t))

/-- ROTATE puts a fresh key into the other slot and flips the epoch; while a sweep runs, a key retires or a generator is halted it is refused
(R277, R412); each terminus applies the flip, and with the last one the sweep starts (R277); each terminus reads its lines in ascending
order: one that fails to verify is left and counted with kind 0xC5, one that verifies is under the current key afterwards, its bytes
unchanged (R278); at the end the retiring slot is empty, reported with kind 0xC6 (R278). -/
def Obligations.KeysRotate : Prop :=
  ∀ (s : State) (p : Pid) (t3 : BitVec 3) (lineOff : BitVec 44) (n0 : Nat),
    let k := s.keys p
    let o := lineOff.toNat / 64 * 64
    (s.pfServes → s.pvalid p = true → k.retv = false → s.sweeping = false → s.rngOk = true →
      ∃ t : State, exec (.rotate .pf p) s = .next t ∧ t.resp = .done ∧ (t.keys p).epoch = !k.epoch ∧
        (t.keys p).slot (!k.epoch) = some s.om.nextKey ∧ (t.keys p).slot k.epoch = k.slot k.epoch ∧ (t.keys p).flipping = true ∧
        t.om.mem = s.om.mem ∧ t.om.tags = s.om.tags ∧ (∀ q, q ≠ p → t.keys q = s.keys q)) ∧
    (s.pfServes → (k.retv = true ∨ s.sweeping = true ∨ s.rngOk = false ∨ s.pvalid p = false) →
      exec (.rotate .pf p) s = .next { s with resp := .err 0x09 }) ∧
    (k.flipping = true → s.fitted t3.toNat = true → (s.terminus t3.toNat).lost = false → k.applied.contains t3.toNat = false →
      ∃ t : State, exec (.epochFlipApplied p t3) s = .next t ∧ t.keys p = { k with applied := k.applied ++ [t3.toNat] } ∧ t.om.mem = s.om.mem) ∧
    (k.flipping = true → (∀ t ∈ s.fittedList, (s.terminus t).lost = true ∨ t ∈ k.applied) →
      ∃ t : State, exec (.sweepStart p) s = .next t ∧
        t.keys p = { k with flipping := false, applied := [], sweep := true, pos := [], swerr := 0 } ∧ t.om.mem = s.om.mem) ∧
    (k.sweep = true → o < s.capacity → s.sweeps p (o / 64) = true → k.pos.get 0 (s.omPlace o).t ≤ o / 64 →
      (s.omVerifies o → k.slot k.epoch = some n0 → ∃ t : State, exec (.sweepLine p lineOff 0) s = .next t ∧
        t.lineTag o = { key := n0, epoch := k.epoch } ∧ t.omVerifies o ∧ t.om.mem = s.om.mem ∧
        (t.keys p).pos.get 0 (s.omPlace o).t = o / 64 + 1 ∧ (k.pos.get 0 (s.omPlace o).t = o / 64 → t.transit = s.transit)) ∧
      (k.pos.get 0 (s.omPlace o).t = o / 64 → ∃ t : State, ∃ m n : Msg,
        exec (.sweepLine p lineOff 2) s = .next t ∧ t.transit = s.transit ++ [m, n] ∧ m.kind = 0xC1 ∧ n.kind = 0xC5 ∧
        n.detail.toNat = p.toNat * 2 ^ 12 + (s.omPlace o).t * 2 ^ 8 ∧ (t.keys p).swerr = min 65535 (k.swerr + 1) ∧
        t.lineTag o = s.lineTag o ∧ t.om.mem = s.om.mem)) ∧
    (o / 64 < k.pos.get 0 (s.omPlace o).t → exec (.sweepLine p lineOff 0) s = .next s) ∧
    (k.sweep = true → ∃ t : State, ∃ ms : List Msg, ∃ m : Msg, exec (.sweepComplete p) s = .next t ∧ (t.keys p).retv = false ∧
      (t.keys p).sweep = false ∧ (t.keys p).epoch = k.epoch ∧ (t.keys p).slot k.epoch = k.slot k.epoch ∧
      t.transit = s.transit ++ ms ++ [m] ∧ (∀ x ∈ ms, x.kind = 0xC5) ∧ m.kind = 0xC6 ∧ m.block = 18 ∧ m.detail.toNat = p.toNat * 2 ^ 12 ∧
      t.om.mem = s.om.mem)

/-- A link that trains with the host in flit mode enters L0 at the highest width, else the port records why not (R288); a failed
port trains again (R288). The link's fall answers the device's outstanding reads with ERR 0x0A; with it, or a hot reset, or a
function-level reset of the PF, every valid partition is reset and every stream ends (R289); a function-level reset of a VF
resets its partition (R289). A host write to a page that its function owns leaves terminus 0 as system packets to the helper
core, one for each line it touches, and is answered at once; one to a page it does not own is discarded, counted and reported with kind 0xC9
(R292, R293); one that fails the integrity check of its secure stream is discarded, and the stream is Insecure (R299). An ORD write waits for
every earlier one of its function (R293). A host read of a page goes to the helper core as system packets, and completes with the bytes
their answers bring (R292, R294). -/
def Obligations.HostLinkAndInbox : Prop :=
  (∀ (s : State) (flit : Bool) (width : Nat) (rate mps : BitVec 2) (mrrs : BitVec 3) (p : Pid) (h : HostRead),
      let resets := fun (t : State) => t.host.streams = [] ∧
        (∀ q, s.pvalid q = true → (t.partition q).state = 3) ∧ s.coresKept t ∧ t.om.mem = s.om.mem
      let fail := if flit then (if rate = 0 then 2 else if width < 4 then 3 else 0) else 1
      (s.bu.power = true → s.host.training = true → (s.terminus 0).lost = false → s.fc.safe = false →
        (fail = 0 → ∃ t : State, exec (.linkTrainingComplete flit width rate mps mrrs) s = .next t ∧
          t.host.up = true ∧ t.host.width = (if 16 ≤ width then 16 else if 8 ≤ width then 8 else 4) ∧
          t.host.rate = rate ∧ t.host.fail = 0 ∧ t.host.training = false ∧ t.host.mps = mpsOf mps ∧ t.host.mrrs = mrrsOf mrrs ∧
          s.notified t 0 4 ∧ t.cores = s.cores) ∧
        (fail ≠ 0 → exec (.linkTrainingComplete flit width rate mps mrrs) s =
          .next { s with host := { s.host with training := false, fail := BitVec.ofNat 3 fail, width := 0, rate := 0 } })) ∧
      (s.bu.power = true → s.host.up = false → s.host.fail ≠ 0 → (s.terminus 0).lost = false → ∃ t : State, exec .linkTrainingRetry s = .next t ∧
        t.host.training = true ∧ t = { s with host := { s.host with training := true } }) ∧
      (s.host.up = true → s.host.reads = [h] → h.answered = false → ∃ t : State, ∃ q : Packet, exec .linkDown s = .next t ∧
        t.host.up = false ∧ t.host.training = true ∧ t.host.reads = [] ∧ t.inj = s.inj ++ [Sent.mk q none false] ∧ q.op = 11 ∧ q.aux = 0x0A ∧
        q.dst = h.req.src ∧ q.txid = h.req.txid ∧ resets t) ∧
      (s.host.up = true → ∃ t : State, exec .hotReset s = .next t ∧ t.host.up = true ∧ resets t) ∧
      (s.host.up = true → ∃ t : State, exec .flrPf s = .next t ∧ t.host.up = true ∧ resets t) ∧
      (s.host.up = true → s.pvalid p = true → ∃ t : State, exec (.flrVf p) s = .next t ∧ (t.partition p).state = 3 ∧
        (∀ q, q ≠ p → t.partition q = s.partition q) ∧ t.host.streams = s.host.streams ∧ s.coresKept t)) ∧
  (∀ (s : State) (fn : BitVec 5) (off : BitVec 28) (data : List Byte) (tlp : Tlp) (n : BitVec 4) (id : Byte) (ids : List Byte) (w : InboxWr),
      let page := s.inboxPage off.toNat
      let c := pageCore page
      let po := pageOff page off.toNat
      let len := data.length
      s.host.up = true → isFn fn = true →
      (tlp.good = true → s.fc.safe = false → s.inboxServed fn off.toNat tlp.tbit tlp.stream = true → 1 ≤ len → po % 64 + len ≤ 64 →
        s.host.inbox = [] → s.host.inReads = [] → s.freeIds = id :: ids → ∃ t : State, ∃ q v, exec (.inboxWrite fn off data tlp) s = .next t ∧
          t.resp = .done ∧ t.inj = s.inj ++ [Sent.mk q (some (mkAddr 0 c po)) false] ∧ q.op = 1 ∧ q.sys = true ∧
          q.txid = id ∧ t.host.inbox = [v] ∧ v.id = id ∧ v.fn = fn ∧ v.sent = true ∧
          (po % 8 = 0 → len = 8 → q.sz = 3 ∧ leBytes 8 (q.head.extractLsb' 0 64).toNat = data) ∧
          (headSized po len = false → q.sz = 4 ∧ q.off.toNat = po / 64 * 64 ∧ q.lines = [Line.ofBytes (List.replicate (po % 64) 0 ++ data)] ∧
            q.head = (if len = 64 then 0 else headOf (runMask (po % 64) len).toNat)) ∧ t.cores = s.cores) ∧
      (tlp.good = true → s.fc.safe = false → s.inboxServed fn off.toNat tlp.tbit tlp.stream = false → oneTlp off.toNat len = true →
        ∃ t : State, ∃ m : Msg, exec (.inboxWrite fn off data tlp) s = .next t ∧ t.resp = .discarded ∧ t.inj = s.inj ∧
        t.transit = s.transit ++ [m] ∧ m.kind = 0xC9 ∧ m.block = 19 ∧ pairAt t.yregs (yHP + 0x020) = pairAt s.yregs (yHP + 0x020) + 1 ∧
        t.cores = s.cores) ∧
      (tlp.good = false → tlp.stream = some n → (s.stream n).secure = true → oneTlp off.toNat len = true → ∃ t : State,
        exec (.inboxWrite fn off data tlp) s = .next t ∧ t.resp = .discarded ∧ (t.stream n).secure = false ∧ t.host.inbox = s.host.inbox ∧
        t.inj = s.inj ∧ (∃ m ∈ t.transit, m.kind = 0xCC ∧ m.detail.toNat = n.toNat) ∧ ∀ p ∈ s.boundTo n, t.tdi p = 3) ∧
      (s.bu.power = true → (s.terminus 0).lost = false → s.host.inbox = [w] → s.host.inReads = [] → w.fn = fn → w.sent = false →
        ∃ t : State, ∃ q : Sent,
        exec (.inboxOrdRelease fn) s = .next t ∧ t.host.inbox = [{ w with sent := true }] ∧ t.inj = s.inj ++ [q] ∧ q.pkt.txid = w.id ∧
        q.addr = some (mkAddr 0 w.core w.off) ∧ t.cores = s.cores) ∧
      (tlp.good = true → s.fc.safe = false → s.inboxServed fn off.toNat tlp.tbit tlp.stream = true → 1 ≤ len → po % 64 + len ≤ 64 →
        s.host.inbox = [] → s.host.inReads = [] → s.freeIds = id :: ids → ∃ t : State, ∃ q : Packet, ∃ x : InRead,
          exec (.inboxRead fn off len tlp) s = .next t ∧ t.inj = s.inj ++ [Sent.mk q (some (mkAddr 0 c (po / 64 * 64))) false] ∧
          q.op = 0 ∧ q.sz = 4 ∧ q.sys = true ∧ q.txid = id ∧ t.host.inReads = [x] ∧ x.fn = fn ∧ x.off = po ∧ x.len = len ∧
          x.parts = [(id, none)] ∧ x.sent = true ∧ t.cores = s.cores)) ∧
  (∀ (s : State) (f : Nat) (y : Flight) (px py : Nat) (x : InRead) (l : Line),
      s.flights[f]? = some y → y.fresh = false → y.cast = .single → overtakes s.flights f y = false → y.loc = .tport px py →
      terminusOfRouter px py = some 0 → (s.terminus 0).lost = false → y.pkt.killed = false → y.pkt.op = 9 → y.pkt.lines = [l] →
      s.host.inbox = [] → s.host.inReads = [x] → x.sent = true → x.parts = [(y.pkt.txid, none)] → s.host.up = true →
      ∃ t : State, exec (.packetDelivery f) s = .next t ∧ t.resp = .bytes (((Line.bytes l).drop (x.off % 64)).take x.len) ∧
        t.host.inReads = [] ∧ t.host.out = s.host.out ++ [.completion x.fn t.resp] ∧ t.flights.length + 1 = s.flights.length ∧ t.cores = s.cores)

/-- A host memory descriptor is written by the PF outside a locked TDI; a write of what it holds has no effect in one (R295, R300). A request
to space 4 that its descriptor allows leaves at the host bus address, a write in TLPs of at most 256 B: a read holds tags until its
completions answer it, a write is acknowledged (R287, R295, R296); one that no descriptor allows is answered with ERR 0x0A, counted and
reported with kind 0xCA (R295); a completion with an error, or none after 1 ms, is counted and reported with kind 0xCB (R296). -/
def Obligations.HostMemoryWindow : Prop :=
  ∀ (s : State) (set : BitVec 5) (d : BitVec 6) (v : Word) (p : Packet) (tag : BitVec 14) (h : HostRead) (rest : List HostRead)
      (x : ReadPart) (bs : List Byte) (tlp : Tlp),
    let off := p.off.toNat
    let a := s.hostAddr p.descSet off
    let asks := s.bu.power = true ∧ (s.terminus 0).lost = false ∧ s.tin.head? = some (0, p) ∧ p.space = 4 ∧ off < 2 ^ 40 ∧
      p.omFormed = true ∧ s.host.up = true ∧ s.fc.safe = false
    let reads := s.readOf tag = some (h, rest) ∧ h.parts = [x] ∧ x.tag = tag ∧ x.done = false ∧ h.answered = false
    let counted := fun (t : State) (code : Byte) => pairAt t.yregs (yHP + 0x038) = pairAt s.yregs (yHP + 0x038) + 1 ∧
      ∃ m, t.transit = s.transit ++ [m] ∧ m.kind = code ∧ m.block = 19
    (a = pair64 (s.descWord p.descSet (off / 2 ^ 34 % 64) 3) (s.descWord p.descSet (off / 2 ^ 34 % 64) 2) + BitVec.ofNat 64 (off % 2 ^ 34)) ∧
    (s.bu.power = true → s.host.up = true → s.bu.phase ≠ 12 → s.fc.safe = false → 1 ≤ set.toNat → set.toNat ≤ 16 →
      (s.tdiLocked (BitVec.ofNat 4 (set.toNat - 1)) = false → ∃ t : State, exec (.descriptorWrite .pf set d 2 v) s = .next t ∧ t.resp = .done ∧
        t.descWord set.toNat d.toNat 2 = v ∧ t = { s with host := { s.host with desc := t.host.desc }, resp := .done }) ∧
      (s.tdiLocked (BitVec.ofNat 4 (set.toNat - 1)) = true → v = s.descWord set.toNat d.toNat 2 →
        exec (.descriptorWrite .pf set d 2 v) s = .next { s with resp := .done })) ∧
    (asks → p.op = 0 → s.descRefuses p.descSet off p.span true = false → s.readParts p = [(off, p.span)] → s.freeTags 1 = [tag] →
      s.tagsOut.length < 4096 → ∃ t : State, exec .space4Request s = .next t ∧ t.tin = s.tin.tail ∧
      t.host.reads = s.host.reads ++ [{ req := p, set := BitVec.ofNat 5 p.descSet, answered := false
                                        parts := [{ tag := tag, haddr := a, len := p.span, data := [], done := false }] }] ∧
      t.host.out = s.host.out ++ [.read tag a p.span (s.descTee p.descSet off) (s.descStream p.descSet off)] ∧ t.inj = s.inj ∧
      t.cores = s.cores) ∧
    (asks → p.op = 1 → s.descRefuses p.descSet off p.span false = false → ∃ t : State, ∃ q : Packet, ∃ ws, exec .space4Request s = .next t ∧
      s.omAnswered t p q 10 0 ∧ t.host.out = s.host.out ++ ws ∧ ws = s.hostWrites p.descSet off p.dataBytes ∧ t.host.reads = s.host.reads ∧
      ∀ y ∈ ws, ∃ b db tee str, y = .write b db tee str ∧ db.length ≤ 256) ∧
    (asks → p.op = 1 → s.descRefuses p.descSet off p.span false = true → ∃ t : State, ∃ q : Packet, exec .space4Request s = .next t ∧
      s.omAnswered t p q 11 0x0A ∧ counted t 0xCA ∧ t.host = s.host) ∧
    (s.host.up = true → tlp.good = true → reads → h.req.sz = 4 → x.len = 64 → bs.length = 64 → ∃ t : State, ∃ q : Packet,
      exec (.hostCompletionArrival tag 0 bs tlp) s = .next t ∧ t.host.reads = rest ∧ t.inj = s.inj ++ [Sent.mk q none false] ∧ q.op = 9 ∧
      q.lines = [Line.ofBytes bs] ∧ q.dst = h.req.src ∧ q.txid = h.req.txid ∧ t.cores = s.cores) ∧
    (s.host.up = true → tlp.good = true → reads → ∃ t : State, ∃ q : Packet, exec (.hostCompletionArrival tag 1 bs tlp) s = .next t ∧
      t.host.reads = rest ∧ t.inj = s.inj ++ [Sent.mk q none false] ∧ q.op = 11 ∧ q.aux = 0x0A ∧ counted t 0xCB) ∧
    (reads → ∃ t : State, exec (.completionTimeout tag) s = .next t ∧ t.host.reads = rest ∧ t.inj = s.inj ∧ counted t 0xCB)

/-- A report is answered with its bytes and counted (R413, R416). A key exchange holds an ephemeral scalar until KEY_SET with GO
installs the stream's keys, until KEY_STOP makes the stream Insecure, or until the scalar expires (R299, R411, R418, R419).
TDISP locks a TDI, starts it and stops it (R300; its codes are PRESUMED, log entry 31). A debug unlock with a good token through
the PF takes the device to SERVICE and resets every valid partition; another is refused and reported with kind 0xA2 (R421); the
debug port is closed otherwise (R421). DBGLOCK with its key blows the fuse (R422). Fuse copies that differ are reported with
kind 0xA4 (R406); a generator that fails its test halts with kind 0xA3, and a pass lets it resume (R410, R412). -/
def Obligations.MailboxAndDebug : Prop :=
  (∀ (s : State) (fn : BitVec 5) (nonce : BitVec 384) (n : BitVec 4) (qh : BitVec 776) (p : Pid),
      let x := s.stream n
      s.doeServes →
      (s.bu.committing = false → ∃ t : State, ∃ b, exec (.getReport fn nonce) s = .next t ∧
        t.resp = .bytes ([0x81, 1] ++ leBytes 2 (s.reportBody fn nonce ++ b).length ++ s.reportBody fn nonce ++ b) ∧ b.length = 96 ∧
        pairAt t.yregs (ySEC + 0x110) = pairAt s.yregs (ySEC + 0x110) + 1 ∧ t.host = s.host ∧ t.cores = s.cores) ∧
      (s.bu.committing = true → ∃ t : State, exec (.getReport fn nonce) s = .next t ∧
        t.resp = .bytes ([0xFE, 1] ++ leBytes 2 3 ++ (leBytes 1 1 ++ leBytes 2 s.commitHint)) ∧ t.yregs = s.yregs ∧ t.cores = s.cores) ∧
      (s.sec.debug ≠ 1 → s.mayKey fn n = true → (s.terminus 0).rngHalted = false → x.exch = none → ∃ t : State,
        exec (.keyExchange fn n qh nonce) s = .next t ∧ (t.stream n).exch.isSome = true ∧ (t.stream n).exchFn = fn ∧
        (t.stream n).secure = x.secure ∧ t.sec.scalars = s.sec.scalars + 1 ∧ t.cores = s.cores) ∧
      (s.mayKey fn n = true → x.exch.isSome = true → x.exchFn = fn → ∃ t : State, exec (.keySet fn n true) s = .next t ∧
        (t.stream n).secure = true ∧ (t.stream n).keyed = true ∧ (t.stream n).exch = none ∧ t.sec.scalars = s.sec.scalars - 1 ∧
        t.resp = .bytes [0x83, 1, 0, 0] ∧ s.notified t 0 4 ∧ t.cores = s.cores) ∧
      (s.mayKey fn n = true → s.boundTo n = [] → ∃ t : State, exec (.keyStop fn n) s = .next t ∧ (t.stream n).secure = false ∧
        (t.stream n).keyed = false ∧ t.resp = .bytes [0x83, 1, 0, 0] ∧ t.host.tdi = s.host.tdi ∧ t.cores = s.cores) ∧
      (x.exch.isSome = true → ∃ t : State, exec (.ephemeralScalarExpiry n) s = .next t ∧ (t.stream n).exch = none ∧
        (t.stream n).secure = x.secure ∧ t.sec.scalars = s.sec.scalars - 1 ∧ t.cores = s.cores) ∧
      (s.tdi p = 0 → ∃ t : State, exec (.tdisp p 0x83 n) s = .next t ∧ t.tdi p = 1 ∧ t.host.tdiStream.get 0 p.toNat = n ∧ t.cores = s.cores) ∧
      (s.tdi p = 1 → ∃ t : State, exec (.tdisp p 0x86 n) s = .next t ∧ t.tdi p = 2 ∧ t.cores = s.cores) ∧
      (s.tdi p = 2 → s.pvalid p = false → ∃ t : State, exec (.tdisp p 0x87 n) s = .next t ∧ t.tdi p = 0 ∧ t.cores = s.cores)) ∧
  (∀ (s : State) (fn : BitVec 5) (serial : BitVec 128) (nonce : BitVec 384) (n : Nat) (want : BitVec 2) (v : Word) (w : BitVec 9)
      (t3 : BitVec 3) (c : BitVec 2),
      let reports := fun (t : State) (code : Byte) (detail : Nat) =>
        ∃ ms m, t.transit = s.transit ++ ms ++ [m] ∧ m.kind = code ∧ m.block = 23 ∧ m.detail.toNat = detail
      (s.doeServes → (s.terminus 0).rngHalted = false → ∃ t : State, exec (.debugNonce fn) s = .next t ∧ t.host.debugNonce = some s.freeCtr ∧
        t.cores = s.cores ∧ t.sec = s.sec) ∧
      (s.doeServes → (∀ p, s.tdiLocked p = false) → s.host.debugNonce = some n → nonce = nonceOf n → s.fuses.dbglock = false →
        (∃ t : State, exec (.debugUnlock 0 s.fuses.serial nonce 1 true) s = .next t ∧ t.sec.debug = 1 ∧
          (∀ q, s.pvalid q = true → (t.partition q).state = 3) ∧ t.resp = .bytes [0x83, 1, 0, 0] ∧ s.coresKept t) ∧
        (∃ t : State, exec (.debugUnlock 0 serial nonce 1 false) s = .next t ∧ t.sec = s.sec ∧ t.partition = s.partition ∧ reports t 0xA2 5)) ∧
      (s.bu.power = true → s.sec.debug = 0 → ∃ t : State, exec (.debugPortAccess want) s = .next t ∧ t.resp = .err 0x09 ∧ reports t 0xA2 want.toNat ∧
        t = { s with transit := t.transit, resp := .err 0x09 }) ∧
      (s.pfServes → s.bu.power = true → s.sec.debug ≠ 1 → field v 24 8 = 0xD7 → v.getLsbD 0 = true →
        exec (.dbglock .pf v) s = .next { s with fuses := { s.fuses with dbglock := true }, resp := .done }) ∧
      (s.pfServes → s.bu.power = true → s.sec.debug = 1 → exec (.dbglock .pf v) s = .next { s with resp := .discarded }) ∧
      (s.pfServes → s.bu.power = true → field v 24 8 ≠ 0xD7 → exec (.dbglock .pf v) s = .next { s with resp := .discarded }) ∧
      (s.bu.power = true → ∃ t : State, exec (.fuseCompare (some w)) s = .next t ∧ reports t 0xA4 w.toNat ∧ t = { s with transit := t.transit }) ∧
      (s.bu.power = true → s.fitted t3.toNat = true → (s.terminus t3.toNat).lost = false →
        (∃ t : State, exec (.rngHealthTest t3 (some c)) s = .next t ∧ (t.terminus t3.toNat).rngHalted = true ∧
          reports t 0xA3 (c.toNat + 16 * t3.toNat) ∧ pairAt t.yregs (ySEC + 0x128) = pairAt s.yregs (ySEC + 0x128) + 1 ∧ t.cores = s.cores) ∧
        ((∀ q, (s.partition q).state ≠ 3) → ∃ t : State, exec (.rngHealthTest t3 none) s = .next t ∧ (t.terminus t3.toNat).rngHalted = false ∧
          t = { s with termini := t.termini })))

/-- A terminus takes a request to space 5 that its window allows, gives it an STXID that no transaction of the port uses, and
queues it for the port at the window's address plus the offset (R306, R307); it takes the next PCTR as it leaves, sealed under the port's
key, in a flit (R303, R308); one that a window refuses is counted, reported with kind 0xD3 and answered with ERR 0x0A (R306); a port with
1,024 transactions takes none (R310). A transaction without an answer is dropped, counted and reported with kind 0xD5, and answers nothing
(R310). A flit that the code cannot correct, or whose CRC fails, is discarded whole, counted and reported with kind 0xD1 (R303, R304), and
more of them than UCLIM allows take the port down (R305); a packet whose tag fails, or whose PCTR is not above the last, is
discarded, counted and reported with kind 0xD2 (R308). An answer goes to the requester of its STXID (R310); a request that the
port's PORT_CTRL allows enters the mesh at the terminus, and another is answered over the link with ERR 0x0A (R309); in KEYING and RECAL no
data is taken (R305). The signal of MODE 1 leaves when every line is acknowledged (R309). Keys are free values; CRC-32's start and bit order
and the padding of a flit are the model's choice (log entry 112). -/
def Obligations.SpanTraffic : Prop :=
  (∀ (s : State) (t3 : BitVec 3) (p : Packet) (port : BitVec 5) (x : BitVec 16),
      let w := p.off.toNat / 2 ^ 34 % 64
      let c := s.yreg (winOff w)
      let n := field c 8 5
      let e := s.spanPort n
      let base := pair64 (s.yreg (winOff w + 12)) (s.yreg (winOff w + 8))
      let asks := s.bu.power = true ∧ (s.terminus t3.toNat).lost = false ∧ s.tin.head? = some (t3.toNat, p) ∧ p.space = 5 ∧
        p.isResponse = false ∧ p.omFormed = true
      (asks → s.windowRefuses w p = false → s.fc.safe = false → (p.sys = true ∨ (s.partition p.pid).state ≠ 3) →
        (e.trans.length < 1024 → ∃ t : State, ∃ q : SpanPacket, ∃ stx : BitVec 16, exec (.spanRequest t3) s = .next t ∧
          t.tin = s.tin.tail ∧ (t.spanPort n).trans = e.trans ++ [(stx, p)] ∧ (∀ y ∈ e.trans, y.1 ≠ stx) ∧
          (t.spanPort n).outq = e.outq ++ [(p.pid, q)] ∧ (t.spanPort n).txctr = e.txctr ∧ q.op = p.op ∧ q.vc = false ∧ q.sys = p.sys ∧
          q.mode.toNat = field c 28 2 ∧ q.rpid.toNat = field c 4 4 ∧ q.stxid = stx ∧
          q.addr = base + BitVec.ofNat 64 (p.off.toNat % 2 ^ 34) ∧ q.lines = p.lines ∧ s.portsKept t n ∧
          t = { s with tin := t.tin, span := t.span }) ∧
        (1024 ≤ e.trans.length → exec (.spanRequest t3) s = .next s)) ∧
      (asks → s.windowRefuses w p = true → ∃ t : State, ∃ q : Packet, exec (.spanRequest t3) s = .next t ∧ t.tin = s.tin.tail ∧
        t.inj = s.inj ++ [Sent.mk q none false] ∧ q.op = 11 ∧ q.aux = 0x0A ∧ q.dst = p.src ∧ q.txid = p.txid ∧
        s.yadds t (spanOff n + 0x38) 1 ∧ s.tells t (96 + t3.toNat) 20 0xD3 (n + 64 * w) (p.off.toNat % 2 ^ 40) ∧ t.span = s.span ∧
        t.cores = s.cores) ∧
      ((s.spanPort port.toNat).trans.head? = some (x, p) → ∃ t : State, exec (.spanTransactionTimeout port x) s = .next t ∧
        (t.spanPort port.toNat).trans = (s.spanPort port.toNat).trans.tail ∧ s.yadds t (spanOff port.toNat + 0x48) 1 ∧
        s.tells t (96 + port.toNat / 4) 20 0xD5 port.toNat x.toNat ∧ t.inj = s.inj ∧ s.portsKept t port.toNat)) ∧
  (∀ (s : State) (n key : Nat) (pid : Pid) (q : SpanPacket),
      let e := s.spanPort n
      let bs := SpanPacket.seal (Config.spanKey key) { q with pctr := e.txctr, kepoch := e.kepoch }
      e.state = 3 → e.txBuf = [] → e.outq = [(pid, q)] → e.xoffRx = 0 → e.txKey = some key → e.txctr.toNat < 2 ^ 47 →
      ∃ f, ((s.sendFlit n).spanPort n).sent = some f ∧ f.type = 1 ∧ f.first = 0 ∧ f.fseq = e.txSeq ∧ f.xoff = e.xoffTx ∧
        (f.payload ++ ((s.sendFlit n).spanPort n).txBuf).take bs.length = bs ∧ f.payload.length = 248 ∧
        ((s.sendFlit n).spanPort n).txctr = e.txctr + 1 ∧ ((s.sendFlit n).spanPort n).outq = [] ∧ s.portsKept (s.sendFlit n) n) ∧
  (∀ (s : State) (port : BitVec 5) (flit : BitVec 2048) (k key : Nat) (bs rest : List Byte) (r : SpanPacket) (p : Packet) (id : Byte)
      (ids : List Byte) (w : SpanIn),
      let n := port.toNat
      let e := s.spanPort n
      let f := (spanFlitOf flit).1
      let recent := (e.badAt.filter (fun c => decide ((s.yc - c).toNat < 50000))).length
      let uclim := field (s.spanCtrl n) 16 8
      let base := fun (t : State) => s.yadds t (spanOff n + 0x10) 1 ∧ s.yadds t (spanOff n + 0x18) k ∧ s.portsKept t n ∧ t.cores = s.cores
      let kept := fun (t : State) => (t.spanPort n).trans = e.trans ∧ (t.spanPort n).outq = e.outq ∧ (t.spanPort n).inbound = e.inbound ∧
        (t.spanPort n).rxctr = e.rxctr ∧ t.inj = s.inj
      let runs := fun (t : State) => exec (.spanFlitReceive port flit false k) s = .next t
      let pctr := leNat (bs.take 8)
      let brings := (spanFlitOf flit).2 = true ∧ e.state = 3 ∧ e.held = [] ∧ f.type = 1 ∧ e.rxBuf = [] ∧ f.packets [] = ([bs], rest) ∧
        (nth 0 bs 9).getLsbD 7 = e.kepoch ∧ e.rxKey = some key
      let opens := brings ∧ spanOpen (Config.spanKey key) bs = some r
      let good := opens ∧ (e.rxctr = none ∨ ∃ c, e.rxctr = some c ∧ c.toNat < pctr)
      let taken := fun (t : State) => runs t ∧ base t ∧ (t.spanPort n).rxctr = some (BitVec.ofNat 64 pctr) ∧
        (t.spanPort n).lastSeq = some f.fseq ∧ (t.spanPort n).rxBuf = rest
      s.portLive n = true → s.spanIds (portTerm n) = id :: ids → pctr < 2 ^ 64 →
      (2 ≤ e.state.toNat → e.state.toNat ≤ 4 →
        (recent < uclim → ∃ t : State, exec (.spanFlitReceive port flit true k) s = .next t ∧ base t ∧ kept t ∧
          s.yadds t (spanOff n + 0x20) 1 ∧ s.tells t (96 + n / 4) 20 0xD1 (n + 32) f.fseq.toNat ∧ (t.spanPort n).rxBuf = []) ∧
        (uclim ≤ recent → s.isLeadPort n = false → ∃ t : State, exec (.spanFlitReceive port flit true k) s = .next t ∧ t.portCleared n 1 ∧
          s.portsKept t n ∧ t.lastTold (96 + n / 4) 20 0xD0 (n + 32) 0) ∧
        ((spanFlitOf flit).2 = false → recent ≤ uclim → ∃ t : State, runs t ∧ base t ∧ kept t ∧
          s.yadds t (spanOff n + 0x28) 1 ∧ s.tells t (96 + n / 4) 20 0xD1 n f.fseq.toNat ∧ (t.spanPort n).rxBuf = [])) ∧
      ((spanFlitOf flit).2 = true → (e.state = 2 ∨ e.state = 4) → e.held = [] → ∃ t : State, runs t ∧ base t ∧ kept t ∧
        t.transit = s.transit) ∧
      (brings → spanOpen (Config.spanKey key) bs = none → ∃ t : State, runs t ∧ base t ∧ kept t ∧
        s.yadds t (spanOff n + 0x30) 1 ∧ s.tells t (96 + n / 4) 20 0xD2 n (pctr % 2 ^ 48)) ∧
      (opens → (∃ c, e.rxctr = some c ∧ pctr ≤ c.toNat) → ∃ t : State, runs t ∧ base t ∧ kept t ∧
        s.yadds t (spanOff n + 0x30) 1 ∧ s.tells t (96 + n / 4) 20 0xD2 (n + 32) (pctr % 2 ^ 48)) ∧
      (good → r.vc = true → r.op = 9 → e.trans.head? = some (r.stxid, p) → 4 ≤ p.sz.toNat → ∃ t : State, ∃ q : Packet,
        taken t ∧ (t.spanPort n).trans = e.trans.tail ∧ t.inj = s.inj ++ [Sent.mk q none false] ∧ q.op = 9 ∧ q.dst = p.src ∧
        q.txid = p.txid ∧ q.lines = r.lines ∧ t.transit = s.transit) ∧
      (good → r.vc = false → r.op = 1 → r.mode = 0 → s.inboundOk n r = true → ∃ t : State, ∃ q : Packet, taken t ∧
        t.inj = s.inj ++ [Sent.mk q (some r.addr) false] ∧ q.op = 1 ∧ q.lines = r.lines ∧ q.pid = r.rpid ∧ q.sys = r.sys ∧
        q.txid = id ∧ (t.spanPort n).inbound = e.inbound ++ [SpanIn.mk id r 1 false none] ∧
        t.transit = s.transit) ∧
      (good → r.vc = false → s.inboundOk n r = false → ∃ t : State, ∃ q : SpanPacket, taken t ∧
        t.inj = s.inj ∧ (t.spanPort n).outq = e.outq ++ [(r.rpid, q)] ∧ q.op = 11 ∧ q.aux = 0x0A ∧ q.vc = true ∧
        q.stxid = r.stxid ∧ s.yadds t (spanOff n + 0x38) 1 ∧ s.tells t (96 + n / 4) 20 0xD3 (n + 32) (r.addr.toNat % 2 ^ 40)) ∧
      (e.state = 3 → e.inbound.head? = some w → w.sig = true → w.left = 0 → w.pkt.lines.length = 4 → ∃ t : State, ∃ q : Packet,
        exec (.spanSignalSend port) s = .next t ∧
        (t.spanPort n).inbound = e.inbound.tail ∧ t.inj = s.inj ++ [Sent.mk q (some w.pkt.extra) false] ∧ q.op = 4 ∧
        q.head.extractLsb' 0 64 = 4 ∧ (∃ a, (t.spanPort n).outq = e.outq ++ [(w.pkt.rpid, a)] ∧ a.op = 10 ∧ a.stxid = w.pkt.stxid) ∧
        s.portsKept t n ∧ t.cores = s.cores))

/-- A port trains, agrees on keys and is UP; a check of its peer that fails is counted and reported with kind 0xA5 and leaves it
in KEYING until the retry (R305, R412, R420). New keys flip KEPOCH (R308). A port that goes DOWN loses its keys and packets, is
reported with kind 0xD0 and trains again (R305, R411); each change of state is notified (R297). EN by Ryist disables or trains
it (R305, R313). A port that is due recalibrates: RECAL holds both directions off, its acknowledgement takes the port to RECAL,
and its end back to UP with the directions free, reported with kind 0xEC; the PF may ask for one (R396, R399). -/
def Obligations.SpanPorts : Prop :=
  (∀ (s : State) (port : BitVec 5) (lost : Bool) (rtt : BitVec 12) (d : BitVec 384) (v : Word),
      let n := port.toNat
      let e := s.spanPort n
      let only := fun (t : State) => s.portsKept t n ∧ t.cores = s.cores ∧ t.inj = s.inj
      let notes := fun (t : State) => s.host.up = true → s.notified t 0 3
      (s.portLive n = true → 2 ≤ e.state.toNat → e.state.toNat ≤ 4 → s.isLeadPort n = false → (lost = true ∨ s.overUclim n = true) →
        ∃ t : State, exec (.spanPortDown port lost) s = .next t ∧ t.portCleared n 1 ∧ (t.spanPort n).trans = e.trans ∧ notes t ∧
        s.tells t (96 + n / 4) 20 0xD0 (n + (if lost then 0 else 32)) 0 ∧ only t) ∧
      (lost = false → s.overUclim n = false → exec (.spanPortDown port lost) s = .next s) ∧
      (s.portLive n = true → e.state = 1 → ∃ t : State, exec (.spanTrainingComplete port rtt) s = .next t ∧ (t.spanPort n).state = 2 ∧
        (t.spanPort n).rtt = rtt ∧ notes t ∧ only t ∧ t.transit = s.transit) ∧
      (s.portLive n = true → e.state = 2 → e.keyFail = false → (s.terminus (portTerm n)).rngHalted = false → s.sec.debug = 0 →
        (s.peerOk d = true → ∃ t : State, exec (.keyingComplete port true true true true d) s = .next t ∧ (t.spanPort n).state = 3 ∧
          (t.spanPort n).txKey = some s.freeCtr ∧ (t.spanPort n).rxKey = some (s.freeCtr + 1) ∧ (t.spanPort n).txctr = 0 ∧
          (t.spanPort n).rxctr = none ∧ s.yadds t (ySEC + 0x118) 1 ∧ notes t ∧ only t ∧ t.transit = s.transit) ∧
        (s.peerOk d = false → ∃ t : State, exec (.keyingComplete port true true true true d) s = .next t ∧
          t.spanPort n = { e with keyFail := true } ∧ s.yadds t (ySEC + 0x120) 1 ∧
          s.tells t 112 23 0xA5 (3 + 256 * n + 2 ^ 13) 0 ∧ t.host = s.host ∧ only t)) ∧
      (s.portLive n = true → e.state = 2 → ∃ t : State, exec (.keyingRetry port) s = .next t ∧ t.spanPort n = { e with keyFail := false } ∧ only t) ∧
      (s.portLive n = true → e.state = 3 → e.rekeying = true → (s.terminus (portTerm n)).rngHalted = false → ∃ t : State,
        exec (.spanRekey port) s = .next t ∧
        t.spanPort n = { e with
          kepoch := !e.kepoch, txKey := some s.freeCtr, rxKey := some (s.freeCtr + 1), rxOld := e.rxKey.map (fun k => (k, e.rxctr))
          txctr := 0, rxctr := none, rekeying := false } ∧ s.yadds t (ySEC + 0x118) 1 ∧ only t) ∧
      (s.yardServes .ryist → s.portFitted n = true → s.isLeadPort n = false →
        (v.getLsbD 31 = false → ∃ t : State, exec (.spanPortEnWrite .ryist port v) s = .next t ∧ t.portCleared n 0 ∧ t.resp = .done ∧
          t.yreg (spanOff n) = v &&& 0xC0FFFFFF ∧ only t) ∧
        (v.getLsbD 31 = true → e.state = 0 → ∃ t : State, exec (.spanPortEnWrite .ryist port v) s = .next t ∧
          t.spanPort n = { e with state := 1 } ∧ t.resp = .done ∧ t.yreg (spanOff n) = v &&& 0xC0FFFFFF ∧ only t)) ∧
      (s.yardServes .pf → exec (.spanPortEnWrite .pf port v) s = .next { s with resp := .err 0x09 })) ∧
  (∀ (s : State) (port : BitVec 5),
      let n := port.toNat
      let e := s.spanPort n
      let only := fun (t : State) => s.portsKept t n ∧ t.cores = s.cores ∧ t.inj = s.inj
      (s.portLive n = true → e.state = 3 → e.recal = false → e.recalReq = true → s.isLeadPort n = false →
        (∀ m, m ≠ n → m / 4 = n / 4 → (s.spanPort m).recal = false ∧ (s.spanPort m).state ≠ 4) → ∃ t : State, exec (.spanRecalibration port) s = .next t ∧
          t.spanPort n = { e with recal := true, xoffTx := 3, xoffRx := 3 } ∧ only t ∧ t.transit = s.transit) ∧
      (s.portLive n = true → e.state = 3 → e.recal = true → ∃ t : State, exec (.recalAck port) s = .next t ∧
        t.spanPort n = { e with state := 4 } ∧ only t ∧ t.transit = s.transit) ∧
      (s.portLive n = true → e.state = 4 → ∃ t : State, exec (.recalEnd port) s = .next t ∧
        t.spanPort n = { e with state := 3, recal := false, recalReq := false, xoffTx := 0, xoffRx := 0, lastSeq := none } ∧
        s.tells t (96 + n / 4) 20 0xEC n 0 ∧ only t) ∧
      (s.yardServes .pf → s.portFitted n = true → ∃ t : State, exec (.fcRreqWrite .pf port) s = .next t ∧
        t.spanPort n = { e with recalReq := true } ∧ t.resp = .done ∧ only t ∧ t.transit = s.transit))

/-! ### Clocks, power and heat -/

/-- The loss of the clock lead is counted, reported with kind 0x80 and takes the reference to the local oscillator (R320, R321);
the first edge of the new source ends the switch, which is counted (R321). A lead that has lock again returns after 100 ms,
reported with kind 0x81 (R322). The failure of the local oscillator is reported with kind 0x84 (R322). CK_REFCTL is the PF's and
Ryist's to write: HOLD takes the reference from the lead, and only its two bits are kept (R321, R345). SL_CLKLEAD is Ryist's: a
new lane takes the reference to the local oscillator (R311, R319). -/
def Obligations.ReferenceSource : Prop :=
  (∀ (s : State) (b : Bool),
      let en := (s.yreg ySL).getLsbD 31
      let only := fun (t : State) => t = { s with ck := t.ck, yregs := t.yregs, transit := t.transit }
      (s.wantsLead = true ↔ en = true ∧ s.ck.leadLock = true ∧ s.refHold = false ∧ s.ck.lossInForce = false) ∧
      (s.ckStatus.getLsbD 31 = !s.ck.lead) ∧
      (s.ck.switching = some b → ∃ t : State, exec .referenceSwitchEnd s = .next t ∧ t.ck.lead = b ∧
        t.ck.switching = (if t.wantsLead = b then none else some (t.wantsLead))) ∧
      (s.bu.power = true → s.ck.lead = true → s.ck.switching = none → ∃ t : State, exec .clockLeadLoss s = .next t ∧ t.ck.leadLock = false ∧
        t.ck.lossInForce = true ∧ t.ck.lead = true ∧ t.ck.switching = some false ∧ s.yadds t (yCK + 0x48) 1 ∧
        s.tells t 112 21 0x80 s.leadLane 0 ∧ only t) ∧
      (s.ck.switching = some b → s.ck.pendingLoss = false → s.wantsLead = b → ∃ t : State, exec .referenceSwitchEnd s = .next t ∧
        t.ck = { s.ck with lead := b, switching := none } ∧ s.yadds t (yCK + 0x40) 1 ∧ t.transit = s.transit ∧ only t) ∧
      (s.bu.power = true → s.ck.leadLock = false → en = true → s.autoRet = true → s.refHold = false →
        exec .leadLockRegained s = .next { s with ck := { s.ck with leadLock := true, retPend := true, retStart := s.yc } }) ∧
      (s.ck.retPend = true → s.ck.leadLock = true → s.autoRet = true → s.refHold = false → s.ck.switching = none → s.ck.lead = false →
        en = true → s.ck.retStart.toNat + 5000000 ≤ s.yc.toNat → ∃ t : State, exec .referenceReturn s = .next t ∧ t.ck.retPend = false ∧
          t.ck.lossInForce = false ∧ t.ck.switching = some true ∧ s.tells t 112 21 0x81 s.leadLane 0 ∧ only t) ∧
      (s.bu.power = true → s.ck.yardRo = false → ∃ t : State, exec .localOscillatorFailure s = .next t ∧ t.ck = { s.ck with yardRo := true } ∧
        s.tells t 112 21 0x84 0 0 ∧ only t)) ∧
  (∀ (s : State) (v : Word) (o : Origin),
      let only := fun (t : State) => t = { s with ck := t.ck, yregs := t.yregs, resp := .done }
      (s.yardServes o → ∃ t : State, exec (.ckRefctlWrite o v) s = .next t ∧ t.yreg (yCK + 4) = v &&& 0xC0000000 ∧
        (v.getLsbD 31 = true → s.ck.lead = true → s.ck.switching = none → t.ck.switching = some false) ∧ only t) ∧
      (s.yardServes .ryist → ∃ t : State, exec (.slClkleadWrite .ryist v) s = .next t ∧ t.yreg ySL = v &&& 0x8000007F ∧
        (v &&& 0x8000007F ≠ s.yreg ySL → t.ck.leadLock = false ∧
          (s.ck.lead = true → s.ck.switching = none → t.ck.switching = some false)) ∧ only t) ∧
      (s.yardServes .pf → exec (.slClkleadWrite .pf v) s = .next { s with resp := .err 0x09 }))

/-- An access to a stopped cluster starts its tree and the field's spine, and its core counts the wait; a tree stops when no
core of its cluster is busy, and the spine with the last tree (R324, R325). A short on a cluster's rail opens its switch for
good, with kind 0x88; the failure of a field's regulator opens those of all its clusters, with kind 0x89; that of a row's
regulator kills its nine fields, with kind 0x95 (R328, R329, R330). -/
def Obligations.TreesAndRegulators : Prop :=
  (∀ (s : State) (c : CoreId) (cl : BitVec 13),
      let n := s.clusterNo c
      let f := fieldOf c.x.toNat c.y.toNat
      let m := cl.toNat
      let g := fieldOfCluster m
      (s.alive c = true → (s.cluster n).tree = false → ∃ t : State, exec (.clusterTreeWake c) s = .next t ∧
        t.cluster n = { s.cluster n with tree := true } ∧ t.fieldPower f = { s.fieldPower f with spine := true } ∧
        t.core c = (s.core c).count rPWC_WAKE (if (s.fieldPower f).spine then 48 else 144) ∧ s.clustersKept t n ∧ s.othersKept t c ∧
        s.storesKept t) ∧
      ((s.cluster m).tree = true → (∀ d ∈ s.usableCores m, (s.core d).df = .idle ∧ (s.core d).waiting = none) →
        ∃ t : State, exec (.clusterTreeStop cl) s = .next t ∧ t.cluster m = { s.cluster m with tree := false } ∧ s.clustersKept t m ∧
          t.cores = s.cores ∧
          ((∀ x ∈ fieldClusters g, x ≠ m → (s.cluster x).tree = false) → (t.fieldPower g).spine = false) ∧
          ((∃ x ∈ fieldClusters g, x ≠ m ∧ (s.cluster x).tree = true) → t.fields = s.fields))) ∧
  (∀ (s : State) (cl : BitVec 13) (peak : BitVec 16) (f : BitVec 7) (row : BitVec 4),
      let n := cl.toNat
      s.bu.power = true →
      (s.closedSwitch n = true → (s.cluster n).heat.toNat ≤ 1 → ∃ t : State, exec (.railShort cl peak) s = .next t ∧
        (t.cluster n).fuseOpen = true ∧ (t.cluster n).tree = false ∧ t.lastTold (fieldOfCluster n) 12 0x88 n peak.toNat ∧
        s.storesKept t) ∧
      (f.toNat < 81 → (∃ x ∈ fieldClusters f.toNat, s.closedSwitch x = true) → ∃ t : State, exec (.fieldRegulatorFailure f) s = .next t ∧
        (∀ x ∈ fieldClusters f.toNat, s.closedSwitch x = true → (t.cluster x).fuseOpen = true ∧ (t.cluster x).tree = false) ∧
        t.lastTold f.toNat 22 0x89 f.toNat 0 ∧ s.storesKept t) ∧
      (row.toNat < 9 → (∃ i, i < 9 ∧ s.fieldDead (9 * row.toNat + i) = false) → ∃ t : State, exec (.rowRegulatorFailure row) s = .next t ∧
        (∀ i, i < 9 → (t.fieldPower (9 * row.toNat + i)).dead = true) ∧ t.lastTold 112 22 0x95 row.toNat 0 ∧ s.storesKept t))

/-- A measurement publishes the input power and voltage, adds the energy to PW_MODENG, sets VINERR and the pool by the rules,
and where the input is above PW_CAPPK sets GUARD and counts it (R331, R333, R336, R337); a field's reading moves its factor by
the rule (R332). The sums of the estimates begin again (R331). An estimate gives every core of the cluster that holds a budget
and does not lend one of the limits of R335, between 1 and 64, and changes of the cores nothing but registers (R331, R335). -/
def Obligations.PowerBudget : Prop :=
  (∀ (s : State) (input vin : Nat) (fields : List FieldReading) (rows : List Nat) (r : FieldReading),
      let issue := (s.clusters.map (fun (e : Nat × Cluster) => e.2.issue)).sum / 100000000
      let high := s.cappk < input
      let f := r.field.toNat
      let e := ((fieldClusters f).map (fun cl => (s.cluster cl).est)).sum
      let d := ((fieldClusters f).map (fun cl => (s.cluster cl).dyn)).sum
      s.bu.phase = 10 →
      (∃ t : State, exec (.powerMeasurement input vin fields rows) s = .next t ∧ t.yreg (yPW + 0x14) = BitVec.ofNat 32 (min 65535 input) ∧
        t.yreg (yPW + 0x1C) = BitVec.ofNat 32 (min 65535 vin) ∧ (t.yreg yPW).getLsbD 29 = decide (vin < 45600 ∨ 50400 < vin) ∧
        s.yadds t (yPW + 0x30) ((s.pw.tenths + input) / 10) ∧ t.pw.tenths = (s.pw.tenths + input) % 10 ∧
        t.yreg (yPW + 0x10) = BitVec.ofNat 32 (poolOf s.poolcap s.capsus s.cappk input issue) ∧
        (high → (t.yreg yPW).getLsbD 30 = true ∧ s.yadds t (yPW + 0x38) 1 ∧ t.lastTold 112 22 0x8B 0 (min 65535 input)) ∧
        (¬ high → (s.yreg yPW).getLsbD 30 = false → (t.yreg yPW).getLsbD 30 = false ∧ s.yadds t (yPW + 0x38) 0) ∧
        (∀ cl, (t.cluster cl).est = 0 ∧ (t.cluster cl).dyn = 0 ∧ (t.cluster cl).issue = 0 ∧ (t.cluster cl).demand = 0) ∧
        s.storesKept t) ∧
      (f < 81 → s.liveField f = true → ∃ t : State, exec (.powerMeasurement input vin [r] []) s = .next t ∧
        t.yreg (yPW + 0x1000 + 0x10 * f) = BitVec.ofNat 32 (min 65535 (r.measured / 10000)) ∧ (t.fieldPower f).staticDw = r.static ∧
        (t.fieldPower f).factor = newFactor (s.fieldPower f).factor (r.measured * 1000) e d ∧
        (∀ g, g ≠ f → t.fieldPower g = s.fieldPower g))) ∧
  (∀ (s : State) (cl : BitVec 13),
      let n := cl.toNat
      s.bu.phase = 10 → n < 5184 → s.closedSwitch n = true → ∃ t : State, exec (.clusterEstimate cl) s = .next t ∧
        (t.cluster n).rotation = ((s.cluster n).rotation + 1) % 64 ∧ (t.cluster n).allow = (t.cluster n).allowance ∧
        (∀ c ∈ s.usableCores n, s.noBudget n = false → (s.core c).holder = true → (s.core c).lent = false → s.alive c = true →
          (∃ i, i < (t.cluster n).holders ∧
            ((t.core c).reg rMX_LIMIT).toNat = limitOf (t.cluster n).allowance (t.cluster n).holders i) ∧
          1 ≤ ((t.core c).reg rMX_LIMIT).toNat ∧ ((t.core c).reg rMX_LIMIT).toNat ≤ 64) ∧
        (∀ c, (s.core c).bodyKept (t.core c)) ∧ s.clustersKept t n ∧ s.storesKept t)

/-- A cluster at T1 is slowed, with kind 0x90, and at T2 switched off, with kind 0x91; once 200 readings in succession are at TR
or below it returns, with kind 0x92 (R340, R341, R343). In stage 1 its shift grows at T1 and shrinks below T1 - 3 °C, to stage 0
in the end (R340). A sensor that cannot be read gives way to the base sensor plus 10 °C (R339). PW_CAPSUS is the PF's to write,
at the nearer limit where it is out of range (R333); PW_THR the PF's and Ryist's, while TR < T1 < T2 ≤ 110 °C holds; another
write is refused (R340, R346). -/
def Obligations.ThermalStages : Prop :=
  (∀ (s : State) (cl : BitVec 13) (x : Int),
      let n := cl.toNat
      let e := s.cluster n
      let fld := fieldOfCluster n
      let byte := (s.cltemp n).toNat
      let read := s.bu.phase = 10 ∧ n < 5184 ∧ s.liveField fld = true ∧ e.fuseOpen = false ∧ e.sensorBad = false ∧ readable x = true
      (read → s.thrT2 ≤ x → e.heat ≠ 2 → ∃ t : State, exec (.thermalSample [(cl, x)] []) s = .next t ∧ (t.cluster n).heat = 2 ∧
        (t.cluster n).shift = 0 ∧ (t.cluster n).tree = false ∧ (t.cluster n).temp = x ∧
        (s.inbox = [] → t.lastTold fld 12 0x91 n (tempByte x)) ∧ s.storesKept t) ∧
      (e.budgetMw = e.baseUw / 2 ^ e.shift / 1000) ∧
      (read → s.thrT1 ≤ x → x < s.thrT2 → e.heat = 0 → ∃ t : State, exec (.thermalSample [(cl, x)] []) s = .next t ∧ (t.cluster n).heat = 1 ∧
        (t.cluster n).shift = 1 ∧ (t.cluster n).baseUw = e.baseUw ∧ (t.cluster n).temp = x ∧ s.tells t fld 12 0x90 n (tempByte x) ∧ s.clustersKept t n ∧ s.storesKept t) ∧
      (read → x ≤ s.thrTR → e.heat = 2 → ∃ t : State, exec (.thermalSample [(cl, x)] []) s = .next t ∧
        (t.cluster n).belowTr = min 200 (e.belowTr + 1) ∧ (t.cluster n).heat = (if 199 ≤ e.belowTr then 3 else 2) ∧
        t.transit = s.transit ∧ s.clustersKept t n ∧ t.cores = s.cores) ∧
      (s.bu.phase = 10 → n < 5184 → s.liveField fld = true → readable x = false → ∃ t : State, exec (.thermalSample [(cl, x)] []) s = .next t ∧
        (t.cluster n).sensorBad = true ∧ (t.cluster n).temp = (s.fieldPower fld).baseT + 10) ∧
      (e.heat = 1 → s.thrT1 ≤ e.temp → ∃ t : State, exec (.thermalShiftUpdate cl) s = .next t ∧ (t.cluster n).shift = min 6 (e.shift + 1) ∧
        (t.cluster n).heat = 1 ∧ (t.cluster n).baseUw = e.baseUw ∧ s.clustersKept t n ∧ s.storesKept t) ∧
      (e.heat = 1 → e.temp < s.thrT1 - 3 → ∃ t : State, exec (.thermalShiftUpdate cl) s = .next t ∧ (t.cluster n).shift = e.shift - 1 ∧ (t.cluster n).baseUw = e.baseUw ∧
        (t.cluster n).heat = (if e.shift ≤ 1 then 0 else 1) ∧ s.clustersKept t n ∧ s.storesKept t) ∧
      (e.heat = 3 → s.fc.safe = false → s.liveField fld = true → ∃ t : State, exec (.heatReturn cl) s = .next t ∧ (t.cluster n).heat = 0 ∧
        (t.cluster n).tree = true ∧ (∀ c ∈ s.usableCores n, onGrid c = true → (t.core c).seq ≠ .reset) ∧ s.tells t fld 12 0x92 n byte ∧
        s.clustersKept t n ∧ s.storesKept t)) ∧
  (∀ (s : State) (v : Word) (o : Origin),
      let only := fun (t : State) => t = { s with yregs := t.yregs, resp := .done }
      (State.reset.thrT1 = 95 ∧ State.reset.thrT2 = 105 ∧ State.reset.thrTR = 85) ∧
      (thrOk v = true ↔ field v 8 8 < field v 16 8 ∧ field v 16 8 < field v 24 8 ∧ field v 24 8 ≤ 110) ∧
      (s.yardServes .pf → ∃ t : State, exec (.pwCapsusWrite .pf v) s = .next t ∧ only t ∧
        (t.yreg (yPW + 4)).toNat = max 10000 (min 36000 (v.toNat % 65536))) ∧
      (s.yardServes .ryist → exec (.pwCapsusWrite .ryist v) s = .next { s with resp := .err 0x09 }) ∧
      (s.yardServes o → thrOk v = true → ∃ t : State, exec (.pwThrWrite o v) s = .next t ∧ only t ∧ t.yreg (yPW + 0x20) = v &&& 0xFFFFFF00) ∧
      (s.yardServes o → thrOk v = false → exec (.pwThrWrite o v) s = .next { s with resp := .err 0x09 }))

/-! ### Bring-up, faults and the whole block -/

/-- With power, bring-up checks the images and ends in READY with the floor plan it found, every memory zero and no job, in
RECOVERY where no bank can be booted, or in HALTED with kind 0xEA (R354 to R359). The queue of commands and the fuses' identity
stay. A reset of the whole device keeps the NVM, the fuses and the queue, and clears all else for a bring-up that is warm where
the rules allow it; during a commit it waits (R353, R355, R368, R369). The deassertion of ENABLE and the loss of the input leave
only the NVM and the fuses (R428, R429). -/
def Obligations.BringUpAndResets : Prop :=
  (∀ (s : State) (found : BringUpFindings) (c : Nat) (h : Nat × Nat),
      let on := fun (t : State) => t.bu.power = true ∧ t.bu.lastWarm = false ∧ t.pending = s.pending ∧ t.jobs = [] ∧ t.om.mem = [] ∧
        t.fc.safe = false ∧ (∀ d a, Mem.read (t.core d).mem a = 0) ∧ t.fuses.serial = s.fuses.serial
      s.bu.power = false → helpersOk found = true →
      ((s.boot found).2 = some c → s.haltReason found = none → ∃ t : State, exec (.powerOn found) s = .next t ∧ t.bu.phase = 10 ∧ on t ∧
        t.bu.bank = (s.nvm.dir c).bank ∧ t.fp.gen = 2 ∧ t.fp.dead = (found.deadFields.map (·.toNat)).eraseDups ∧ t.host.training = true ∧
        (∀ f, f < 81 → (t.fieldPower f).dead = t.fp.dead.contains f) ∧
        (∀ n, n < 8 → (t.terminus n).lost = (s.fitted n && (found.lostTermini.map (·.toNat)).contains n))) ∧
      ((s.boot found).2 = some c → s.haltReason found = some h → ∃ t : State, exec (.powerOn found) s = .next t ∧ t.bu.phase = 11 ∧ on t ∧
        t.faultPin = true ∧ t.lastTold 112 27 0xEA (h.1 + 16 * h.2) 0) ∧
      ((s.boot found).2 = none → ∃ t : State, exec (.powerOn found) s = .next t ∧ t.bu.phase = 12 ∧ on t)) ∧
  (∀ (s : State) (cold : Bool),
      let empty := fun (t : State) => t.cores = [] ∧ t.routers = [] ∧ t.jobs = [] ∧ t.flights = [] ∧ t.inbox = [] ∧ t.om.mem = [] ∧
        t.yregs = [] ∧ t.pending = s.pending ∧ t.fuses = s.fuses ∧ t.host.up = false ∧ t.fc = .reset
      (s.yardServes .pf → s.fc.grave = false → s.bu.committing = false → ∃ t : State, exec (.wholeDeviceReset 1 cold) s = .next t ∧ empty t ∧
        t.nvm = s.nvm ∧ t.bu.power = true ∧ t.bu.phase = 1 ∧ t.bu.lastCause = 1 ∧
        t.bu.lastWarm = (!cold && decide (s.bu.scrAge.toNat < 86400) && !s.bu.graveSeen && !s.bu.lostSeen) ∧ t.resp = .done) ∧
      (s.yardServes .pf → s.fc.grave = false → s.bu.committing = true → exec (.wholeDeviceReset 1 cold) s =
        .next { s with bu := { s.bu with pendingReset := some (1, cold) }, resp := .done }) ∧
      (s.yardServes .pf → s.fc.grave = true → exec (.wholeDeviceReset 1 cold) s = .next { s with resp := .err 0x09 }) ∧
      (s.bu.power = true → s.bu.committing = false →
        (∃ t : State, exec .enableDeassert s = .next t ∧ empty t ∧ t.nvm = s.nvm ∧ t.bu.power = false ∧ t.bu.enable = false ∧ t.bu.phase = 0) ∧
        (∃ t : State, exec .powerLoss s = .next t ∧ empty t ∧ t.nvm = s.nvm ∧ t.bu.power = false ∧ t.bu.enable = s.bu.enable ∧ t.bu.phase = 0)))

/-- STAGE begins an update; a package that verifies and that no rollback counter refuses is written to the bank not in force,
and staged; one that fails is reported with kind 0xA0 or 0xA1. COMMIT, of a staged package only, takes 40 ms and writes both
directory copies; CANCEL drops what is staged (R353, R409). APPLY starts a pass over the live fields; each field's positions
take the router's timeout, its usable cores the scrub period, and those that are IDLE the waiting times; it is refused during a
pass (R361, R362). SAVE takes the settings as they stand, and the record goes to the copy not read last (R351, R362). -/
def Obligations.UpdatesAndSettings : Prop :=
  (∀ (s : State) (k : BitVec 3) (v : Word) (d : BitVec 384) (raise : Byte) (kinds : List (BitVec 3 × Word × BitVec 384)),
      let st := s.bu.updState.toNat
      let only := fun (t : State) => t = { s with nvm := t.nvm, bu := t.bu, transit := t.transit, resp := t.resp }
      let reading := s.bu.power = true ∧ 1 ≤ st ∧ st ≤ 3 ∧ (s.yreg (yBU + 0x110)).toNat ≤ 2 ^ 25
      (s.yardServes .pf →
        (st = 0 ∨ st = 4 ∨ 6 ≤ st → exec (.stage .pf) s =
          .next { s with bu := { s.bu with updState := 1, updReason := 0 }, resp := .done }) ∧
        (st = 1 ∨ st = 2 ∨ st = 3 ∨ st = 5 → exec (.stage .pf) s = .next { s with resp := .err 0x09 }) ∧
        (st = 4 → exec (.commit .pf) s =
          .next { s with bu := { s.bu with updState := 5, updReason := 0, committing := true, commitStart := s.yc }, resp := .done }) ∧
        (st ≠ 4 → exec (.commit .pf) s = .next { s with resp := .err 0x09 }) ∧
        (1 ≤ st → st ≤ 4 ∨ st = 7 → exec (.cancel .pf) s =
          .next { s with bu := { s.bu with updState := 0, updReason := 0, updKinds := [], updRaise := 0 }, resp := .done })) ∧
      (reading → k ≠ 5 → s.svnOk k.toNat v = true → ∃ t : State, exec (.updateStaged 0 [(k, v, d)] raise) s = .next t ∧ t.bu.updState = 4 ∧
        t.nvm.bank s.bu.bank = s.nvm.bank s.bu.bank ∧ t.nvm.dirs = s.nvm.dirs ∧
        (t.nvm.bank (!s.bu.bank)).get Image.reset k.toNat = { version := v, digest := d, raise := raise.getLsbD k.toNat } ∧
        t.transit = s.transit ∧ only t) ∧
      (reading → k = 5 → s.svnOk 5 v = true → ∃ t : State, exec (.updateStaged 0 [(k, v, d)] raise) s = .next t ∧ t.bu.updState = 4 ∧
        t.nvm.bank0 = s.nvm.bank0 ∧ t.nvm.bank1 = s.nvm.bank1 ∧ t.nvm.dirs = s.nvm.dirs ∧
        t.nvm.tc (s.nvm.dir (s.nvm.last 0)).tcbank = s.nvm.tc (s.nvm.dir (s.nvm.last 0)).tcbank ∧
        t.nvm.tc (!(s.nvm.dir (s.nvm.last 0)).tcbank) = { version := v, digest := d, raise := raise.getLsbD 5 } ∧ only t) ∧
      (reading → s.svnOk k.toNat v = false → ∃ t : State, exec (.updateStaged 0 [(k, v, d)] raise) s = .next t ∧ t.bu.updState = 7 ∧
        t.bu.updReason = 3 ∧ t.nvm = s.nvm ∧ s.tells t 112 23 0xA1 (k.toNat + 8) (svnOf v + 256 * s.svn k.toNat) ∧ only t) ∧
      (reading → ∃ t : State, exec (.updateStaged 2 kinds raise) s = .next t ∧ t.bu.updState = 7 ∧ t.bu.updReason = 2 ∧ t.nvm = s.nvm ∧
        s.tells t 112 23 0xA0 8 0 ∧ only t) ∧
      (s.bu.committing = true → s.bu.commitStart.toNat + 2000000 ≤ s.yc.toNat → s.bu.phase = 10 → s.bu.pendingReset = none →
        ∃ t : State, exec .commitComplete s = .next t ∧ t.bu.updState = 6 ∧ t.bu.committing = false ∧ t.bu.raiseDue = true ∧
          t.nvm.dir 0 = s.newDir ∧ t.nvm.dir 1 = s.newDir ∧ t.nvm.bank0 = s.nvm.bank0 ∧ t.nvm.bank1 = s.nvm.bank1 ∧ only t)) ∧
  (∀ (s : State) (c : CoreId) (r : SMap Word),
      let f := s.bu.front
      (s.yardServes .pf → s.bu.mixed = false →
        (∃ t : State, exec (.apply .pf) s = .next t ∧ t.resp = .done ∧ t.bu.mixed = true ∧ t.bu.front = 0 ∧
          (∀ g, g ∈ t.bu.dspend ↔ g < 81 ∧ s.fp.dead.contains g = false) ∧
          (∀ k, k < 5 → t.dsCur k = s.yreg (yBU + 0x40 + 4 * k)) ∧ t = { s with yregs := t.yregs, bu := t.bu, resp := .done }) ∧
        (exec (.save .pf) s = .next { s with bu := { s.bu with saving := some s.settingsNow }, resp := .done })) ∧
      (s.yardServes .pf → s.bu.mixed = true → exec (.apply .pf) s = .next { s with resp := .err 0x09 } ∧
        exec (.save .pf) s = .next { s with resp := .err 0x09 }) ∧
      (s.bu.phase = 10 → s.bu.mixed = true → f < 81 → s.liveField f = true → ∃ t : State, exec .fieldSettingsWrite s = .next t ∧
        t.bu.front = f + 1 ∧ t.jobs = s.jobs ∧ t.om = s.om ∧ t.transit = s.transit ∧
        (∀ q ∈ fieldPositions f, (t.router q.1 q.2).reg rRT_TIMEOUT = s.dsCur 0) ∧
        (onGrid c = true → fieldOf c.x.toNat c.y.toNat = f → posState s.fp c = .usable → (t.core c).reg rSP_SCRUB = s.dsCur 1 ∧
          ((s.core c).df = .idle → (t.core c).reg rDF_WINDOW = s.dsCur 2 ∧ (t.core c).reg rDF_STALL = s.dsCur 3) ∧
          ((s.core c).df ≠ .idle → (t.core c).reg rDF_WINDOW = (s.core c).reg rDF_WINDOW)) ∧
        (s.core c).bodyKept (t.core c) ∧ (t.core c).mem = (s.core c).mem) ∧
      (s.bu.phase = 10 → s.bu.mixed = true → f < 81 → s.liveField f = false → ∃ t : State, exec .fieldSettingsWrite s = .next t ∧
        t.bu.front = f + 1 ∧ t.bu.dspend = s.bu.dspend.filter (· != f) ∧ t.cores = s.cores ∧ t.routers = s.routers) ∧
      (s.bu.saving = some r → ∃ t : State, exec .settingsRecordWritten s = .next t ∧ t.bu = { s.bu with saving := none } ∧
        t.nvm.settings.get (0, []) (1 - s.nvm.last 1) = ((s.nvm.settings.get (0, []) (s.nvm.last 1)).1 + 1, r) ∧
        (s.nvm.last 1 ≤ 1 → t.nvm.settings.get (0, []) (s.nvm.last 1) = s.nvm.settings.get (0, []) (s.nvm.last 1)) ∧
        t = { s with nvm := t.nvm, bu := t.bu }))

/-- A core reset aborts the section, signalled with cause 6, and clears the core but for its memories and the registers that
stay; at its end the core is IDLE (R365, R366). A cluster reset does so with each of its cores and restarts the tree and the
power controller, N being 64 (R366). A test of an idle cluster starts when one is due or has waited; FC_TREQ starts it at once
or lets it wait; at its end the cores are reset, the cluster is scrubbed after the SRAM part, and each core that failed is
reported with kind 0xE2 (R394, R395, R399). -/
def Obligations.CoresResetAndTested : Prop :=
  (∀ (s : State) (c : CoreId) (cl : BitVec 13),
      let k := s.core c
      let n := cl.toNat
      let cleared := fun (q : Core) => (∀ r : SReg, q.sreg r = 0) ∧ q.pc = 0 ∧ q.df = .idle ∧ q.vecQ = [] ∧ q.matQ = [] ∧ q.mvQ = [] ∧
        q.running = none ∧ q.inq = [] ∧ q.store = []
      let kept := fun (a b : Core) => b.mem = a.mem ∧ b.flips = a.flips ∧ b.istore = a.istore ∧ b.banks = a.banks
      (s.alive c = true → k.seq ≠ .reset → ∃ t : State, exec (.coreReset c) s = .next t ∧ (t.core c).seq = .reset ∧ cleared (t.core c) ∧
        kept k (t.core c) ∧ (∀ o, keptReg o = true → o < 0x5000 ∨ 0x6000 ≤ o → o ≠ rSP_RLBINV → o ≠ rSP_RLBINV + 4 → (t.core c).reg o = k.reg o) ∧
        (k.abortable = true → (t.slots.get .reset k.slotNo).abortLine.isSome = true) ∧ s.othersKept t c ∧
        t = { s with cores := t.cores, slots := t.slots, transit := t.transit }) ∧
      (s.alive c = true → k.seq = .reset → s.bu.fieldDs = [] → ∃ t : State, exec (.coreResetEnd c) s = .next t ∧
        t.core c = { k with seq := .idle, recode := 0 } ∧ s.othersKept t c ∧ t.routers = s.routers ∧ t.bu = s.bu) ∧
      (s.bu.power = true → (s.cluster n).fuseOpen = false → (s.cluster n).heat.toNat ≤ 1 → ∃ t : State, exec (.clusterReset cl) s = .next t ∧
        (t.cluster n).tree = true ∧ (t.cluster n).nmax = 64 ∧ (t.cluster n).allow = 0 ∧ s.clustersKept t n ∧
        (∀ d ∈ s.usableCores n, s.alive d = true → (s.core d).seq ≠ .reset → cleared (t.core d) ∧ (t.core d).seq = .idle ∧
          kept (s.core d) (t.core d) ∧ (t.core d).reg rMX_LIMIT = 64) ∧ t.om = s.om ∧ t.jobs = s.jobs)) ∧
  (∀ (s : State) (cl : BitVec 13) (o : Origin) (asked : Bool) (i : BitVec 6) (b : Byte),
      let n := cl.toNat
      let e := s.cluster n
      let starts := fun (t : State) (a : Bool) => t.cluster n = { e with testing := some a, testWait := false, testScrub := !s.busyCluster n } ∧
        s.clustersKept t n ∧ t.cores = s.cores
      (s.bu.phase = 10 → s.fc.safe = false → s.testIdle n = true → e.testWait = true → ∃ t : State, exec (.clusterSelfTest cl) s = .next t ∧
        starts t true) ∧
      (s.bu.phase = 10 → s.fc.safe = false → s.testIdle n = true → e.testWait = false → s.testsOn = true → ∃ t : State,
        exec (.clusterSelfTest cl) s = .next t ∧ starts t false) ∧
      (s.yardServes o → s.testIdle n = true → ∃ t : State, exec (.fcTreqWrite o cl) s = .next t ∧ starts t true ∧ t.resp = .done ∧
        (t.yreg (yFC + 0x18)).getLsbD 31 = true ∧ field (t.yreg (yFC + 0x18)) 0 13 = n) ∧
      (s.yardServes o → s.testIdle n = false → ∃ t : State, exec (.fcTreqWrite o cl) s = .next t ∧ t.cluster n = { e with testWait := true } ∧
        s.clustersKept t n ∧ t.cores = s.cores ∧ t.resp = .done) ∧
      (s.bu.power = true → e.testing = some asked → s.fc.safe = false → ∃ t : State, exec (.selfTestEnd cl []) s = .next t ∧
        t.cluster n = { e with testing := none, testScrub := false, scrubPend := e.scrubPend || e.testScrub } ∧ s.clustersKept t n ∧
        (∀ c ∈ s.usableCores n, s.alive c = true → (s.core c).seq ≠ .reset → (t.core c).seq = .idle ∧ (t.core c).df = .idle ∧
          (t.core c).mem = (s.core c).mem) ∧
        (asked = true → t.yreg (yFC + 0x18) = BitVec.ofNat 32 n) ∧ s.storesKept t) ∧
      (e.testing = some asked → s.fc.safe = false →
        (logOf s.fp.skips ((n % 72) * 8 + i.toNat % 8) ((n / 72) * 8 + i.toNat / 8)).isSome = true → ∃ t : State,
          exec (.selfTestEnd cl [(i, b)]) s = .next t ∧ t.lastTold (fieldOfCluster n) 17 0xE2 n (i.toNat + 256 * b.toNat) ∧
          (t.cluster n).testing = none ∧ (asked = true → field (t.yreg (yFC + 0x18)) 29 2 = 1) ∧ s.storesKept t))

/-- A weights scan that is due begins, and reads its region line by line, each as it then stands; one that has not ended by then is
abandoned, marked and reported (R71, R380). At its end the digest of the lines it read is kept in FLT_WLAST and counted, and one that
differs from FLT_WREF sets FLT_WSTAT.MISM and is reported with kind 0xE0 (R380). A replay starts the held stage of its job again, the
units of lost cores on other positions and the weights flagged loaded afresh: the run is counted and reported with kind 0xE5 (R382,
R383). Where the moved units go is the model's choice (log entry 29). -/
def Obligations.ScansAndReplays : Prop :=
  (∀ (s : State) (c : CoreId) (x : Scan),
      let k := s.core c
      let region := k.wtop * 256
      let left := region - x.next
      let lines := x.lines.reverse ++ (List.range left).map (fun i => Mem.readLine k.mem (64 * (x.next + i)))
      let d := BitVec.ofNat 384 (leNat (sha384 (lines.flatMap Line.bytes)))
      let readable := fun (n : Nat) => k.mvHeld (64 * n) = false ∧ k.refusal false (64 * n) = none ∧ k.cleanLine (64 * n) = true
      let regs := fun (t : State) => (t.core c).digestAt rFLT_WLAST = d ∧ (t.core c).scan = none ∧
        pairAt (t.core c).regs rFLT_WSCANS = pairAt k.regs rFLT_WSCANS + 1 ∧ (t.core c).digestAt rFLT_WREF = k.digestAt rFLT_WREF ∧
        pairAt (t.core c).regs rMV_DGBYTES = pairAt k.regs rMV_DGBYTES + BitVec.ofNat 64 (64 * left) ∧
        k.bodyKept (t.core c) ∧ (t.core c).mem = k.mem ∧ s.othersKept t c
      s.alive c = true →
      (k.scanEn = true → (s.coreCycle c).toNat % 2400000 = 0 ∨ s.scansAtOnce c = true →
        (k.scan = none → ∃ t : State, exec (.weightsScanStart c) s = .next t ∧ t.core c = { k with scan := some { next := 0, lines := [] } } ∧
          t.transit = s.transit ∧ s.othersKept t c) ∧
        (k.scan = some x → ∃ t : State, ∃ m : Msg, exec (.weightsScanStart c) s = .next t ∧
          (t.core c).scan = some { next := 0, lines := [] } ∧ ((t.core c).reg rFLT_WSTAT).getLsbD 30 = true ∧
          t.transit = s.transit ++ [m] ∧ m.kind = 0xE1 ∧ m.block = 4 ∧ k.bodyKept (t.core c) ∧ (t.core c).mem = k.mem ∧ s.othersKept t c)) ∧
      (k.scan = some x → x.next < region → readable x.next → ((kOf s c).scanCycle).core.scan =
        some { next := x.next + 1, lines := Mem.readLine k.mem (64 * x.next) :: x.lines }) ∧
      (k.scan = some x → (∀ i, i < left → readable (x.next + i)) →
        (k.digestAt rFLT_WREF = d → ∃ t : State, exec (.weightsScanEnd c) s = .next t ∧ regs t ∧
          ((t.core c).reg rFLT_WSTAT).getLsbD 31 = false ∧ t.transit = s.transit) ∧
        (k.digestAt rFLT_WREF ≠ d → ∃ t : State, ∃ m : Msg, exec (.weightsScanEnd c) s = .next t ∧ regs t ∧
          ((t.core c).reg rFLT_WSTAT).getLsbD 31 = true ∧ t.transit = s.transit ++ [m] ∧ m.kind = 0xE0 ∧ m.block = 4 ∧
          m.address = BitVec.ofNat 48 (field d 0 48)))) ∧
  (∀ (s : State) (p : Pid) (r : BitVec 3) (j : Job) (g : Nat) (layout : List SectionPlace),
      let n := j.replays.get 0 g + 1
      let again := reloaded j layout
      let places := layout.filter (fun pl => !j.secsEnded.contains pl.secid)
      let j1 : Job := { j with layout := layout, replaying := none, curStage := g, replays := j.replays.set g n, fpgen := s.fp.gen,
                               reload := again }
      let s1 := (s.onJob p r j.jobid (fun _ => j1)).loadAll j1 (s.planKey j j.clusters g) again.contains places
      let cores := j1.stageCores g
      s.job? p r j.jobid = some j → j.p = p → j.r = r → j.replaying = some g → s.fc.safe = false → j.phase = .running →
      (∀ cl ∈ j.clusters, (s.cluster cl).testing = none) → j.unplaced g = false → s.movedLayout j = some layout →
      s.allIdle (places.flatMap (·.cores)) = true → s1.startable cores →
      ∃ t : State, exec (.replayRestart p r j.jobid) s = .next t ∧ t.job? p r j.jobid = some j1 ∧
        (∀ c ∈ cores, (t.core c).df = .starting) ∧ s.yadds t (yFC + 0x58) 1 ∧ t.lastTold 112 24 0xE5 (p.toNat + 16 * g) n ∧
        t.om = s.om ∧ t.nvm = s.nvm ∧ t.fuses = s.fuses)

/-- A signal box takes the oldest message of its field while it holds fewer than 256; a full box counts a notice as lost, and
for another message drops its oldest notice (R387). A box without heartbeats is silent and its field dead (R387). The collector
counts a message by its source and kind, and logs it with the class the escalation gives it (R388, R399); with no reaction but
the notice, nothing else of the block changes (R389, R297). A grave message latches the safe state and its first message,
asserts FAULT_N and stops every spine and tree (R392, R393); in the safe state messages are only counted and logged (R392). The
stop of the yard's controller and a disagreement of the collectors are grave (R373, R392); FNRX clears by a write of 1, but not
in the safe state (R393). -/
def Obligations.FaultsCollected : Prop :=
  (∀ (s : State) (f : BitVec 7) (m : Msg) (q : List Msg),
      let n := f.toNat
      let b := s.box n
      let lost := pairAt s.yregs (yFC + 0x40)
      let only := fun (t : State) => t = { s with transit := s.transit.tail, boxes := t.boxes, yregs := t.yregs } ∧
        ∀ g, g ≠ n → t.box g = s.box g
      let comes := s.bu.power = true ∧ n < 81 ∧ s.transit.head? = some m ∧ m.field = f ∧ b.silent = false
      (comes → b.queue.length < 256 → ∃ t : State, exec (.signalBoxReceive f) s = .next t ∧ t.box n = { b with queue := b.queue ++ [m] } ∧
        t.yregs = s.yregs ∧ only t) ∧
      (comes → 256 ≤ b.queue.length → s.kclass m.kind.toNat = 0 → ∃ t : State, exec (.signalBoxReceive f) s = .next t ∧ t.box n = b ∧
        pairAt t.yregs (yFC + 0x40) = lost + 1 ∧ only t) ∧
      (comes → 256 ≤ b.queue.length → s.kclass m.kind.toNat ≠ 0 → s.dropNotice b.queue = some q → ∃ t : State,
        exec (.signalBoxReceive f) s = .next t ∧ t.box n = { b with queue := q ++ [m] } ∧ pairAt t.yregs (yFC + 0x40) = lost + 1 ∧ only t) ∧
      (s.bu.power = true → n < 81 → b.silent = false → s.fieldDead n = false → s.kcfg 0xEE = kcfgReset 0xEE →
        s.krct 0xEE = krctReset 0xEE → s.fc.safe = false → s.jobs = [] → ∃ t : State, exec (.signalBoxSilent f) s = .next t ∧ (t.box n).silent = true ∧
          (t.fieldPower n).dead = true ∧ t.fc.fnrx = true ∧ t.faultPin = true ∧ s.storesKept { t with nvm := s.nvm })) ∧
  (∀ (s : State) (f : BitVec 7) (m : Msg) (rest : List Msg),
      let n := f.toNat
      let k := m.kind.toNat
      let e := s.countEvent m
      let cls := s.classOf m e.2
      let at_ := (s.yreg (yFC + 0x24)).toNat
      let logs := fun (t : State) (c r : Nat) => t.fc.log.get { msg := m, stamp := 0, cls := 0, react := 0, gate := false } (at_ % 1024) =
          { msg := m, stamp := s.yc, cls := BitVec.ofNat 2 c, react := BitVec.ofNat 8 r, gate := (kindRow k).gate } ∧
        t.yreg (yFC + 0x24) = BitVec.ofNat 32 (at_ + 1) ∧ s.yadds t (yFC + 0x1000 + 8 * k) 1 ∧ (t.box n).queue = rest ∧
        t.fc.counts = e.1.fc.counts
      s.bu.power = true → n < 81 → (s.box n).silent = false → (s.box n).lostSlot = none → (s.box n).queue = m :: rest →
      (s.fc.safe = false → cls ≠ 3 → s.reactOf m cls ≤ 1 → s.jobs = [] → k ≠ 0x68 → k ≠ 0xE0 → k ≠ 0xE2 → ∃ t : State,
        exec (.faultMessageArrival f) s = .next t ∧ logs t cls (s.reactOf m cls) ∧
        (s.reactOf m cls = 1 → s.host.up = true → s.notified t 0 0) ∧
        (s.reactOf m cls = 0 ∨ s.host.up = false → t.host = s.host) ∧ t.fc.safe = false ∧
        t = { s with boxes := t.boxes, fc := t.fc, yregs := t.yregs, nvm := t.nvm, fp := t.fp, host := t.host }) ∧
      (s.fc.safe = false → cls = 3 → ∃ t : State, exec (.faultMessageArrival f) s = .next t ∧ logs t 3 0 ∧ t.fc.safe = true ∧ t.fc.grave = true ∧
        t.fc.graveMsg = s.fc.graveMsg.orElse (fun _ => some m) ∧ t.faultPin = true ∧ t.bu.graveSeen = true ∧
        (∀ g, (t.fieldPower g).spine = false) ∧ (∀ cl, (t.cluster cl).tree = false) ∧ t.host = s.host ∧ t.jobs = s.jobs ∧
        t.cores = s.cores ∧ t.om = s.om) ∧
      (s.fc.safe = true → ∃ t : State, exec (.faultMessageArrival f) s = .next t ∧ logs t cls 0 ∧
        t = { s with boxes := t.boxes, fc := t.fc, yregs := t.yregs, nvm := t.nvm } ∧ t.fc.safe = true ∧ t.fc.graveMsg = s.fc.graveMsg) ∧
      (s.kclass k ≤ 1 → field (s.kcfg k) 0 8 ≠ 0 → field (s.kcfg k) 0 8 ≤ e.2 → k ≠ 0x91 → k ≠ 0xC4 → cls = 2)) ∧
  (∀ (s : State) (o : BitVec 12) (g : Origin),
      let safe := fun (t : State) => t.fc.safe = true ∧ t.faultPin = true ∧ t.cores = s.cores ∧ t.om = s.om ∧ t.jobs = s.jobs
      (s.bu.power = true → s.kcfg 0xEF = kcfgReset 0xEF → ∃ t : State, exec .yardControllerStopped s = .next t ∧ safe t) ∧
      (s.bu.power = true → s.kcfg 0xE4 = kcfgReset 0xE4 → ∃ t : State, exec (.collectorDisagreement o) s = .next t ∧ safe t ∧
        (s.fc.safe = false → s.fc.graveMsg = none → ∃ m, t.fc.graveMsg = some m ∧ m.kind = 0xE4 ∧ m.address.toNat = o.toNat)) ∧
      (s.faultPin = true ↔ s.fc.safe = true ∨ s.fc.fnrx = true ∨ s.bu.phase.toNat ≤ 1 ∨ s.bu.phase = 11) ∧
      (s.fcStatus.getLsbD 29 = s.faultPin) ∧
      (s.fc.safe = true → ∃ t : State, exec (.fnrxClear g) s = .next t ∧ t.fc = s.fc) ∧
      (s.yardServes g → exec (.fnrxClear g) s = .next { s with fc := { s.fc with fnrx := false }, resp := .done }))

/-- What the specification gives as values of reset: the registers of a core (R44, R73, R91, R106, R231), of a router (R176) and
of the yard (R36, R345, R346, R370, R399), before power is applied. -/
def Obligations.ResetValues : Prop :=
  let s := State.reset
  s.pending = [] ∧ s.bu.phase = 0 ∧ s.bu.power = false ∧ s.cc = 0 ∧ s.yc = 0 ∧ s.flights = [] ∧ s.inbox = [] ∧ s.jobs = [] ∧
    s.transit = [] ∧ s.om.mem = [] ∧ s.host.up = false ∧ s.fp.gen = 1 ∧ s.faultPin = true ∧
    (∀ c, (s.core c).seq = .reset ∧ (s.core c).df = .idle ∧ (s.core c).pc = 0 ∧ (s.core c).rng = 0x9E3779B97F4A7C15 ∧
      (s.core c).mem = [] ∧ ∀ r : SReg, (s.core c).sreg r = 0) ∧
    (∀ c, (s.core c).reg rMX_LIMIT = 64 ∧ (s.core c).reg rSP_SCRUB = 1024 ∧ (s.core c).reg rDF_WINDOW = 65536 ∧
      (s.core c).reg rDF_STALL = 1024) ∧
    (∀ x y, (s.router x y).reg rRT_TIMEOUT = 20 ∧ (s.router x y).reg rRT_ROUTE = 1) ∧
    s.yreg (yCK + 4) = 0x40000000 ∧ s.yreg (yPW + 4) = 36000 ∧ s.yreg (yPW + 8) = 40000 ∧ s.yreg (yPW + 0xC) = 33000 ∧
    s.yreg (yPW + 0x20) = 0x695F5500 ∧ s.yreg (yBU + 0x10) = 0xFFFFFFFF ∧ s.yreg (yFC + 0x10) = 0x80000018

/-- Every memory holds its canonical form right after reset (the form is the model's own, log entry 8). -/
def Obligations.ResetMemoriesCanonical : Prop :=
 State.reset.memoriesCanonical

/-- Every step keeps the canonical form of every scratchpad and of outer memory (the form is the model's own, log entry 8). -/
def Obligations.MemoriesStayCanonical : Prop :=
  ∀ (s t : State), s.memoriesCanonical → step s = .next t → t.memoriesCanonical

/-- A command changes nothing of the queue it was taken from (the queue is the model's own, log entry 1). -/
def Obligations.CommandsLeaveQueue : Prop :=
 ∀ (i : Instr) (s t : State), exec i s = .next t → t.pending = s.pending
end

