-- ==== Sys2Proof/Laws/Sparse.lean ====
section
/-! SUPPORT. Laws of sparse tables and of memory: a read after a write, and the canonical form that every operation keeps. -/

namespace Sys2Proof.Machine

theorem SMap.get_set_self {α : Type} (d : α) (m : SMap α) (n : Nat) (v : α) : SMap.get d (SMap.set m n v) n = v := by
  induction m with
  | nil => simp [SMap.set, SMap.get]
  | cons e t ih =>
    obtain ⟨k, w⟩ := e
    simp only [SMap.set]
    split
    · simp [SMap.get]
    · split
      · simp [SMap.get]
      · rename_i h; simp [SMap.get, h, ih]

theorem SMap.get_set_other {α : Type} (d : α) (m : SMap α) (n p : Nat) (v : α) (h : p ≠ n) :
    SMap.get d (SMap.set m n v) p = SMap.get d m p := by
  induction m with
  | nil => simp [SMap.set, SMap.get, h]
  | cons e t ih =>
    obtain ⟨k, w⟩ := e
    simp only [SMap.set]
    split
    · simp [SMap.get, h]
    · split
      · rename_i h2; subst h2; simp [SMap.get, h]
      · simp [SMap.get, ih]

/-- A read after a write of a table. -/
theorem SMap.get_set {α : Type} (d : α) (m : SMap α) (n p : Nat) (v : α) :
    SMap.get d (SMap.set m n v) p = if p = n then v else SMap.get d m p := by
  split
  · rename_i h; subst h; exact SMap.get_set_self d m p v
  · rename_i h; exact SMap.get_set_other d m n p v h

/-- A read after a key is taken out. -/
theorem SMap.get_del {α : Type} (d : α) (m : SMap α) (n p : Nat) :
    SMap.get d (SMap.del m n) p = if p = n then d else SMap.get d m p := by
  induction m with
  | nil => simp [SMap.del, SMap.get]
  | cons e t ih =>
    obtain ⟨k, w⟩ := e
    simp only [SMap.del]
    split
    · rename_i h; subst h; rw [ih]; simp only [SMap.get]; split <;> rfl
    · rename_i h; simp only [SMap.get, ih]; split
      · rename_i h2; subst h2; simp [Ne.symm h]
      · rfl

@[simp] theorem SMap.get_upd {α : Type} (d : α) (m : SMap α) (n p : Nat) (f : α → α) :
    SMap.get d (SMap.upd d m n f) p = if p = n then f (SMap.get d m n) else SMap.get d m p :=
  SMap.get_set d m n p _

@[simp] theorem SMap.get_nil {α : Type} (d : α) (p : Nat) : SMap.get d [] p = d := rfl

theorem SMap.mem_set {α : Type} (m : SMap α) (n : Nat) (v : α) (e : Nat × α) (h : e ∈ SMap.set m n v) :
    e = (n, v) ∨ e ∈ m := by
  induction m with
  | nil => simp [SMap.set] at h; exact .inl h
  | cons a t ih =>
    obtain ⟨k, w⟩ := a
    simp only [SMap.set] at h
    split at h
    · simpa using h
    · split at h
      · rcases List.mem_cons.mp h with h | h
        · exact .inl h
        · exact .inr (List.mem_cons_of_mem _ h)
      · rcases List.mem_cons.mp h with h | h
        · exact .inr (by simp [h])
        · exact (ih h).imp_right (List.mem_cons_of_mem _)

theorem SMap.mem_del {α : Type} (m : SMap α) (n : Nat) (e : Nat × α) (h : e ∈ SMap.del m n) : e ∈ m := by
  induction m with
  | nil => simp [SMap.del] at h
  | cons a t ih =>
    obtain ⟨k, w⟩ := a
    simp only [SMap.del] at h
    split at h
    · exact List.mem_cons_of_mem _ (ih h)
    · rcases List.mem_cons.mp h with h | h
      · simp [h]
      · exact List.mem_cons_of_mem _ (ih h)

/-- A write keeps the keys rising. -/
theorem SMap.wf_set {α : Type} (m : SMap α) (n : Nat) (v : α) (h : SMap.wf m) : SMap.wf (SMap.set m n v) := by
  induction m with
  | nil => simp [SMap.set, SMap.wf]
  | cons a t ih =>
    obtain ⟨k, w⟩ := a
    have ht := List.pairwise_cons.mp h
    simp only [SMap.set]
    split
    · rename_i hlt
      refine List.pairwise_cons.mpr ⟨fun e he => ?_, h⟩
      rcases List.mem_cons.mp he with he | he
      · simpa [he] using hlt
      · exact Nat.lt_trans hlt (ht.1 e he)
    · split
      · rename_i h2; subst h2
        exact List.pairwise_cons.mpr ⟨fun e he => ht.1 e he, ht.2⟩
      · rename_i h1 h2
        refine List.pairwise_cons.mpr ⟨fun e he => ?_, ih ht.2⟩
        rcases SMap.mem_set t n v e he with he | he
        · subst he; simp; omega
        · exact ht.1 e he

/-- Taking a key out keeps the keys rising. -/
theorem SMap.wf_del {α : Type} (m : SMap α) (n : Nat) (h : SMap.wf m) : SMap.wf (SMap.del m n) := by
  induction m with
  | nil => simp [SMap.del, SMap.wf]
  | cons a t ih =>
    obtain ⟨k, w⟩ := a
    have ht := List.pairwise_cons.mp h
    simp only [SMap.del]
    split
    · exact ih ht.2
    · exact List.pairwise_cons.mpr ⟨fun e he => ht.1 e (SMap.mem_del t n e he), ih ht.2⟩

/-- Memory with nothing listed is canonical. -/
theorem Mem.wf_nil : Mem.wf [] := by simp [Mem.wf]

/-- A read after a write of one byte. -/
@[simp] theorem Mem.read_write (m : Mem) (a p : Nat) (b : Byte) :
    Mem.read (Mem.write m a b) p = if p = a then b else Mem.read m p := by
  unfold Mem.read Mem.write
  split
  · rename_i h; rw [SMap.get_del]; split <;> simp_all
  · rw [SMap.get_set]

/-- A write of one byte keeps the canonical form. -/
theorem Mem.wf_write (m : Mem) (a : Nat) (b : Byte) (h : Mem.wf m) : Mem.wf (Mem.write m a b) := by
  unfold Mem.write
  split
  · exact ⟨SMap.wf_del m a h.1, fun e he => h.2 e (SMap.mem_del m a e he)⟩
  · rename_i hb
    refine ⟨SMap.wf_set m a b h.1, fun e he => ?_⟩
    rcases SMap.mem_set m a b e he with he | he
    · simpa [he] using hb
    · exact h.2 e he

/-- A write of several bytes keeps the canonical form. -/
theorem Mem.wf_writeN (m : Mem) (a n v : Nat) (h : Mem.wf m) : Mem.wf (Mem.writeN m a n v) := by
  induction n generalizing m a v with
  | zero => exact h
  | succ n ih => exact ih _ _ _ (Mem.wf_write m a _ h)

/-- A write of a line keeps the canonical form. -/
theorem Mem.wf_writeLine (m : Mem) (a : Nat) (l : Line) (h : Mem.wf m) : Mem.wf (Mem.writeLine m a l) :=
  Mem.wf_writeN m a 64 _ h

/-- Zeroing a range keeps the canonical form. -/
theorem Mem.wf_zero (m : Mem) (a n : Nat) (h : Mem.wf m) : Mem.wf (Mem.zero m a n) :=
  ⟨h.1.filter _, fun e he => h.2 e (List.mem_of_mem_filter he)⟩

/-- A canonical memory keeps its form under any filter. -/
theorem Mem.wf_filter (m : Mem) (p : Nat × Byte → Bool) (h : Mem.wf m) : Mem.wf (m.filter p) :=
  ⟨h.1.filter _, fun e he => h.2 e (List.mem_of_mem_filter he)⟩

/-- A write of several bytes leaves every other byte. -/
theorem Mem.read_writeN_other (m : Mem) (a n v p : Nat) (h : p < a ∨ a + n ≤ p) :
    Mem.read (Mem.writeN m a n v) p = Mem.read m p := by
  induction n generalizing m a v with
  | zero => rfl
  | succ n ih =>
    rw [Mem.writeN, ih _ _ _ (by omega), Mem.read_write]
    split
    · omega
    · rfl

/-- A byte of a range just written is the byte of the value at its distance. -/
theorem Mem.read_writeN_in (m : Mem) (a n v i : Nat) (h : i < n) :
    Mem.read (Mem.writeN m a n v) (a + i) = BitVec.ofNat 8 (v / 256 ^ i) := by
  induction n generalizing m a v i with
  | zero => omega
  | succ n ih =>
    rw [Mem.writeN]
    cases i with
    | zero =>
      rw [Mem.read_writeN_other _ _ _ _ _ (by omega)]; simp
    | succ i =>
      rw [show a + (i + 1) = (a + 1) + i by omega, ih _ _ _ _ (by omega), Nat.div_div_eq_div_mul,
        Nat.pow_succ, Nat.mul_comm]

end Sys2Proof.Machine
end

