-- ==== Sys2Proof/Laws/State.lean ====
section
/-! SUPPORT. What the shared updates of the state leave alone: one equation for each field. -/

namespace Sys2Proof.Machine

/-! ### One core -/

@[simp] theorem Core.setReg_hiLatch (k : Core) (o : Nat) (v : Word) : (k.setReg o v).hiLatch = k.hiLatch := rfl
@[simp] theorem Core.setReg_errAddrLatch (k : Core) (o : Nat) (v : Word) : (k.setReg o v).errAddrLatch = k.errAddrLatch := rfl
@[simp] theorem Core.setReg_s (k : Core) (o : Nat) (v : Word) : (k.setReg o v).s = k.s := rfl
@[simp] theorem Core.setReg_pc (k : Core) (o : Nat) (v : Word) : (k.setReg o v).pc = k.pc := rfl
@[simp] theorem Core.setReg_seq (k : Core) (o : Nat) (v : Word) : (k.setReg o v).seq = k.seq := rfl
@[simp] theorem Core.setReg_istore (k : Core) (o : Nat) (v : Word) : (k.setReg o v).istore = k.istore := rfl
@[simp] theorem Core.setReg_istoreErr (k : Core) (o : Nat) (v : Word) : (k.setReg o v).istoreErr = k.istoreErr := rfl
@[simp] theorem Core.setReg_istoreCounted (k : Core) (o : Nat) (v : Word) : (k.setReg o v).istoreCounted = k.istoreCounted := rfl
@[simp] theorem Core.setReg_num (k : Core) (o : Nat) (v : Word) : (k.setReg o v).num = k.num := rfl
@[simp] theorem Core.setReg_vregs (k : Core) (o : Nat) (v : Word) : (k.setReg o v).vregs = k.vregs := rfl
@[simp] theorem Core.setReg_vecQ (k : Core) (o : Nat) (v : Word) : (k.setReg o v).vecQ = k.vecQ := rfl
@[simp] theorem Core.setReg_acc (k : Core) (o : Nat) (v : Word) : (k.setReg o v).acc = k.acc := rfl
@[simp] theorem Core.setReg_matQ (k : Core) (o : Nat) (v : Word) : (k.setReg o v).matQ = k.matQ := rfl
@[simp] theorem Core.setReg_steps (k : Core) (o : Nat) (v : Word) : (k.setReg o v).steps = k.steps := rfl
@[simp] theorem Core.setReg_lastClass (k : Core) (o : Nat) (v : Word) : (k.setReg o v).lastClass = k.lastClass := rfl
@[simp] theorem Core.setReg_mvQ (k : Core) (o : Nat) (v : Word) : (k.setReg o v).mvQ = k.mvQ := rfl
@[simp] theorem Core.setReg_mvAct (k : Core) (o : Nat) (v : Word) : (k.setReg o v).mvAct = k.mvAct := rfl
@[simp] theorem Core.setReg_mvSeq (k : Core) (o : Nat) (v : Word) : (k.setReg o v).mvSeq = k.mvSeq := rfl
@[simp] theorem Core.setReg_rng (k : Core) (o : Nat) (v : Word) : (k.setReg o v).rng = k.rng := rfl
@[simp] theorem Core.setReg_slots (k : Core) (o : Nat) (v : Word) : (k.setReg o v).slots = k.slots := rfl
@[simp] theorem Core.setReg_rlb (k : Core) (o : Nat) (v : Word) : (k.setReg o v).rlb = k.rlb := rfl
@[simp] theorem Core.setReg_mem (k : Core) (o : Nat) (v : Word) : (k.setReg o v).mem = k.mem := rfl
@[simp] theorem Core.setReg_flips (k : Core) (o : Nat) (v : Word) : (k.setReg o v).flips = k.flips := rfl
@[simp] theorem Core.setReg_crcErr (k : Core) (o : Nat) (v : Word) : (k.setReg o v).crcErr = k.crcErr := rfl
@[simp] theorem Core.setReg_banks (k : Core) (o : Nat) (v : Word) : (k.setReg o v).banks = k.banks := rfl
@[simp] theorem Core.setReg_scrubPos (k : Core) (o : Nat) (v : Word) : (k.setReg o v).scrubPos = k.scrubPos := rfl
@[simp] theorem Core.setReg_zeroing (k : Core) (o : Nat) (v : Word) : (k.setReg o v).zeroing = k.zeroing := rfl
@[simp] theorem Core.setReg_recode (k : Core) (o : Nat) (v : Word) : (k.setReg o v).recode = k.recode := rfl
@[simp] theorem Core.setReg_shNumctl (k : Core) (o : Nat) (v : Word) : (k.setReg o v).shNumctl = k.shNumctl := rfl
@[simp] theorem Core.setReg_shMxctrl (k : Core) (o : Nat) (v : Word) : (k.setReg o v).shMxctrl = k.shMxctrl := rfl
@[simp] theorem Core.setReg_shCkcfg (k : Core) (o : Nat) (v : Word) : (k.setReg o v).shCkcfg = k.shCkcfg := rfl
@[simp] theorem Core.setReg_shWtop (k : Core) (o : Nat) (v : Word) : (k.setReg o v).shWtop = k.shWtop := rfl
@[simp] theorem Core.setReg_scan (k : Core) (o : Nat) (v : Word) : (k.setReg o v).scan = k.scan := rfl
@[simp] theorem Core.setReg_inq (k : Core) (o : Nat) (v : Word) : (k.setReg o v).inq = k.inq := rfl
@[simp] theorem Core.setReg_arrivals (k : Core) (o : Nat) (v : Word) : (k.setReg o v).arrivals = k.arrivals := rfl
@[simp] theorem Core.setReg_delivered (k : Core) (o : Nat) (v : Word) : (k.setReg o v).delivered = k.delivered := rfl
@[simp] theorem Core.setReg_satNow (k : Core) (o : Nat) (v : Word) : (k.setReg o v).satNow = k.satNow := rfl
@[simp] theorem Core.setReg_outq (k : Core) (o : Nat) (v : Word) : (k.setReg o v).outq = k.outq := rfl
@[simp] theorem Core.setReg_df (k : Core) (o : Nat) (v : Word) : (k.setReg o v).df = k.df := rfl
@[simp] theorem Core.setReg_store (k : Core) (o : Nat) (v : Word) : (k.setReg o v).store = k.store := rfl
@[simp] theorem Core.setReg_readyQ (k : Core) (o : Nat) (v : Word) : (k.setReg o v).readyQ = k.readyQ := rfl
@[simp] theorem Core.setReg_running (k : Core) (o : Nat) (v : Word) : (k.setReg o v).running = k.running := rfl
@[simp] theorem Core.setReg_held (k : Core) (o : Nat) (v : Word) : (k.setReg o v).held = k.held := rfl
@[simp] theorem Core.setReg_spill (k : Core) (o : Nat) (v : Word) : (k.setReg o v).spill = k.spill := rfl
@[simp] theorem Core.setReg_spilling (k : Core) (o : Nat) (v : Word) : (k.setReg o v).spilling = k.spilling := rfl
@[simp] theorem Core.setReg_staleSeen (k : Core) (o : Nat) (v : Word) : (k.setReg o v).staleSeen = k.staleSeen := rfl
@[simp] theorem Core.setReg_abCause (k : Core) (o : Nat) (v : Word) : (k.setReg o v).abCause = k.abCause := rfl
@[simp] theorem Core.setReg_watches (k : Core) (o : Nat) (v : Word) : (k.setReg o v).watches = k.watches := rfl
@[simp] theorem Core.setReg_rfull (k : Core) (o : Nat) (v : Word) : (k.setReg o v).rfull = k.rfull := rfl
@[simp] theorem Core.setReg_waiting (k : Core) (o : Nat) (v : Word) : (k.setReg o v).waiting = k.waiting := rfl
@[simp] theorem Core.setReg_lent (k : Core) (o : Nat) (v : Word) : (k.setReg o v).lent = k.lent := rfl
@[simp] theorem Core.setReg_lentSeen (k : Core) (o : Nat) (v : Word) : (k.setReg o v).lentSeen = k.lentSeen := rfl
@[simp] theorem Core.setReg_idleCc (k : Core) (o : Nat) (v : Word) : (k.setReg o v).idleCc = k.idleCc := rfl
@[simp] theorem Core.setReg_pwSnap (k : Core) (o : Nat) (v : Word) : (k.setReg o v).pwSnap = k.pwSnap := rfl
@[simp] theorem Core.setReg_estRem (k : Core) (o : Nat) (v : Word) : (k.setReg o v).estRem = k.estRem := rfl
@[simp] theorem Core.setReg_stallOn (k : Core) (o : Nat) (v : Word) : (k.setReg o v).stallOn = k.stallOn := rfl
@[simp] theorem Core.setReg_issued (k : Core) (o : Nat) (v : Word) : (k.setReg o v).issued = k.issued := rfl
@[simp] theorem Core.setReg_mxHist (k : Core) (o : Nat) (v : Word) : (k.setReg o v).mxHist = k.mxHist := rfl
@[simp] theorem Core.setReg_lineWr (k : Core) (o : Nat) (v : Word) : (k.setReg o v).lineWr = k.lineWr := rfl
@[simp] theorem Core.setReg_freed (k : Core) (o : Nat) (v : Word) : (k.setReg o v).freed = k.freed := rfl
@[simp] theorem Core.setReg_fwd (k : Core) (o : Nat) (v : Word) : (k.setReg o v).fwd = k.fwd := rfl

@[simp] theorem Core.count_hiLatch (k : Core) (o n : Nat) : (k.count o n).hiLatch = k.hiLatch := rfl
@[simp] theorem Core.count_errAddrLatch (k : Core) (o n : Nat) : (k.count o n).errAddrLatch = k.errAddrLatch := rfl
@[simp] theorem Core.count_s (k : Core) (o n : Nat) : (k.count o n).s = k.s := rfl
@[simp] theorem Core.count_pc (k : Core) (o n : Nat) : (k.count o n).pc = k.pc := rfl
@[simp] theorem Core.count_seq (k : Core) (o n : Nat) : (k.count o n).seq = k.seq := rfl
@[simp] theorem Core.count_istore (k : Core) (o n : Nat) : (k.count o n).istore = k.istore := rfl
@[simp] theorem Core.count_istoreErr (k : Core) (o n : Nat) : (k.count o n).istoreErr = k.istoreErr := rfl
@[simp] theorem Core.count_istoreCounted (k : Core) (o n : Nat) : (k.count o n).istoreCounted = k.istoreCounted := rfl
@[simp] theorem Core.count_num (k : Core) (o n : Nat) : (k.count o n).num = k.num := rfl
@[simp] theorem Core.count_vregs (k : Core) (o n : Nat) : (k.count o n).vregs = k.vregs := rfl
@[simp] theorem Core.count_vecQ (k : Core) (o n : Nat) : (k.count o n).vecQ = k.vecQ := rfl
@[simp] theorem Core.count_acc (k : Core) (o n : Nat) : (k.count o n).acc = k.acc := rfl
@[simp] theorem Core.count_matQ (k : Core) (o n : Nat) : (k.count o n).matQ = k.matQ := rfl
@[simp] theorem Core.count_steps (k : Core) (o n : Nat) : (k.count o n).steps = k.steps := rfl
@[simp] theorem Core.count_lastClass (k : Core) (o n : Nat) : (k.count o n).lastClass = k.lastClass := rfl
@[simp] theorem Core.count_mvQ (k : Core) (o n : Nat) : (k.count o n).mvQ = k.mvQ := rfl
@[simp] theorem Core.count_mvAct (k : Core) (o n : Nat) : (k.count o n).mvAct = k.mvAct := rfl
@[simp] theorem Core.count_mvSeq (k : Core) (o n : Nat) : (k.count o n).mvSeq = k.mvSeq := rfl
@[simp] theorem Core.count_rng (k : Core) (o n : Nat) : (k.count o n).rng = k.rng := rfl
@[simp] theorem Core.count_slots (k : Core) (o n : Nat) : (k.count o n).slots = k.slots := rfl
@[simp] theorem Core.count_rlb (k : Core) (o n : Nat) : (k.count o n).rlb = k.rlb := rfl
@[simp] theorem Core.count_mem (k : Core) (o n : Nat) : (k.count o n).mem = k.mem := rfl
@[simp] theorem Core.count_flips (k : Core) (o n : Nat) : (k.count o n).flips = k.flips := rfl
@[simp] theorem Core.count_crcErr (k : Core) (o n : Nat) : (k.count o n).crcErr = k.crcErr := rfl
@[simp] theorem Core.count_banks (k : Core) (o n : Nat) : (k.count o n).banks = k.banks := rfl
@[simp] theorem Core.count_scrubPos (k : Core) (o n : Nat) : (k.count o n).scrubPos = k.scrubPos := rfl
@[simp] theorem Core.count_zeroing (k : Core) (o n : Nat) : (k.count o n).zeroing = k.zeroing := rfl
@[simp] theorem Core.count_recode (k : Core) (o n : Nat) : (k.count o n).recode = k.recode := rfl
@[simp] theorem Core.count_shNumctl (k : Core) (o n : Nat) : (k.count o n).shNumctl = k.shNumctl := rfl
@[simp] theorem Core.count_shMxctrl (k : Core) (o n : Nat) : (k.count o n).shMxctrl = k.shMxctrl := rfl
@[simp] theorem Core.count_shCkcfg (k : Core) (o n : Nat) : (k.count o n).shCkcfg = k.shCkcfg := rfl
@[simp] theorem Core.count_shWtop (k : Core) (o n : Nat) : (k.count o n).shWtop = k.shWtop := rfl
@[simp] theorem Core.count_scan (k : Core) (o n : Nat) : (k.count o n).scan = k.scan := rfl
@[simp] theorem Core.count_inq (k : Core) (o n : Nat) : (k.count o n).inq = k.inq := rfl
@[simp] theorem Core.count_arrivals (k : Core) (o n : Nat) : (k.count o n).arrivals = k.arrivals := rfl
@[simp] theorem Core.count_delivered (k : Core) (o n : Nat) : (k.count o n).delivered = k.delivered := rfl
@[simp] theorem Core.count_satNow (k : Core) (o n : Nat) : (k.count o n).satNow = k.satNow := rfl
@[simp] theorem Core.count_outq (k : Core) (o n : Nat) : (k.count o n).outq = k.outq := rfl
@[simp] theorem Core.count_df (k : Core) (o n : Nat) : (k.count o n).df = k.df := rfl
@[simp] theorem Core.count_store (k : Core) (o n : Nat) : (k.count o n).store = k.store := rfl
@[simp] theorem Core.count_readyQ (k : Core) (o n : Nat) : (k.count o n).readyQ = k.readyQ := rfl
@[simp] theorem Core.count_running (k : Core) (o n : Nat) : (k.count o n).running = k.running := rfl
@[simp] theorem Core.count_held (k : Core) (o n : Nat) : (k.count o n).held = k.held := rfl
@[simp] theorem Core.count_spill (k : Core) (o n : Nat) : (k.count o n).spill = k.spill := rfl
@[simp] theorem Core.count_spilling (k : Core) (o n : Nat) : (k.count o n).spilling = k.spilling := rfl
@[simp] theorem Core.count_staleSeen (k : Core) (o n : Nat) : (k.count o n).staleSeen = k.staleSeen := rfl
@[simp] theorem Core.count_abCause (k : Core) (o n : Nat) : (k.count o n).abCause = k.abCause := rfl
@[simp] theorem Core.count_watches (k : Core) (o n : Nat) : (k.count o n).watches = k.watches := rfl
@[simp] theorem Core.count_rfull (k : Core) (o n : Nat) : (k.count o n).rfull = k.rfull := rfl
@[simp] theorem Core.count_waiting (k : Core) (o n : Nat) : (k.count o n).waiting = k.waiting := rfl
@[simp] theorem Core.count_lent (k : Core) (o n : Nat) : (k.count o n).lent = k.lent := rfl
@[simp] theorem Core.count_lentSeen (k : Core) (o n : Nat) : (k.count o n).lentSeen = k.lentSeen := rfl
@[simp] theorem Core.count_idleCc (k : Core) (o n : Nat) : (k.count o n).idleCc = k.idleCc := rfl
@[simp] theorem Core.count_pwSnap (k : Core) (o n : Nat) : (k.count o n).pwSnap = k.pwSnap := rfl
@[simp] theorem Core.count_estRem (k : Core) (o n : Nat) : (k.count o n).estRem = k.estRem := rfl
@[simp] theorem Core.count_stallOn (k : Core) (o n : Nat) : (k.count o n).stallOn = k.stallOn := rfl
@[simp] theorem Core.count_issued (k : Core) (o n : Nat) : (k.count o n).issued = k.issued := rfl
@[simp] theorem Core.count_mxHist (k : Core) (o n : Nat) : (k.count o n).mxHist = k.mxHist := rfl
@[simp] theorem Core.count_lineWr (k : Core) (o n : Nat) : (k.count o n).lineWr = k.lineWr := rfl
@[simp] theorem Core.count_freed (k : Core) (o n : Nat) : (k.count o n).freed = k.freed := rfl
@[simp] theorem Core.count_fwd (k : Core) (o n : Nat) : (k.count o n).fwd = k.fwd := rfl

/-! ### One router -/

@[simp] theorem Router.setReg_hiLatch (r : Router) (o : Nat) (v : Word) : (r.setReg o v).hiLatch = r.hiLatch := rfl
@[simp] theorem Router.setReg_held (r : Router) (o : Nat) (v : Word) : (r.setReg o v).held = r.held := rfl
@[simp] theorem Router.setReg_blocked (r : Router) (o : Nat) (v : Word) : (r.setReg o v).blocked = r.blocked := rfl

@[simp] theorem Router.count_hiLatch (r : Router) (o n : Nat) : (r.count o n).hiLatch = r.hiLatch := rfl
@[simp] theorem Router.count_held (r : Router) (o n : Nat) : (r.count o n).held = r.held := rfl
@[simp] theorem Router.count_blocked (r : Router) (o n : Nat) : (r.count o n).blocked = r.blocked := rfl

/-! ### The whole state -/

@[simp] theorem State.setCore_pending (s : State) (c : CoreId) (k : Core) : (s.setCore c k).pending = s.pending := rfl
@[simp] theorem State.setCore_freeCtr (s : State) (c : CoreId) (k : Core) : (s.setCore c k).freeCtr = s.freeCtr := rfl
@[simp] theorem State.setCore_resp (s : State) (c : CoreId) (k : Core) : (s.setCore c k).resp = s.resp := rfl
@[simp] theorem State.setCore_cc (s : State) (c : CoreId) (k : Core) : (s.setCore c k).cc = s.cc := rfl
@[simp] theorem State.setCore_yc (s : State) (c : CoreId) (k : Core) : (s.setCore c k).yc = s.yc := rfl
@[simp] theorem State.setCore_routers (s : State) (c : CoreId) (k : Core) : (s.setCore c k).routers = s.routers := rfl
@[simp] theorem State.setCore_inj (s : State) (c : CoreId) (k : Core) : (s.setCore c k).inj = s.inj := rfl
@[simp] theorem State.setCore_flights (s : State) (c : CoreId) (k : Core) : (s.setCore c k).flights = s.flights := rfl
@[simp] theorem State.setCore_inbox (s : State) (c : CoreId) (k : Core) : (s.setCore c k).inbox = s.inbox := rfl
@[simp] theorem State.setCore_accepted (s : State) (c : CoreId) (k : Core) : (s.setCore c k).accepted = s.accepted := rfl
@[simp] theorem State.setCore_tin (s : State) (c : CoreId) (k : Core) : (s.setCore c k).tin = s.tin := rfl
@[simp] theorem State.setCore_fp (s : State) (c : CoreId) (k : Core) : (s.setCore c k).fp = s.fp := rfl
@[simp] theorem State.setCore_map (s : State) (c : CoreId) (k : Core) : (s.setCore c k).map = s.map := rfl
@[simp] theorem State.setCore_yregs (s : State) (c : CoreId) (k : Core) : (s.setCore c k).yregs = s.yregs := rfl
@[simp] theorem State.setCore_yHiLatch (s : State) (c : CoreId) (k : Core) : (s.setCore c k).yHiLatch = s.yHiLatch := rfl
@[simp] theorem State.setCore_transit (s : State) (c : CoreId) (k : Core) : (s.setCore c k).transit = s.transit := rfl
@[simp] theorem State.setCore_boxes (s : State) (c : CoreId) (k : Core) : (s.setCore c k).boxes = s.boxes := rfl
@[simp] theorem State.setCore_fc (s : State) (c : CoreId) (k : Core) : (s.setCore c k).fc = s.fc := rfl
@[simp] theorem State.setCore_slots (s : State) (c : CoreId) (k : Core) : (s.setCore c k).slots = s.slots := rfl
@[simp] theorem State.setCore_parts (s : State) (c : CoreId) (k : Core) : (s.setCore c k).parts = s.parts := rfl
@[simp] theorem State.setCore_rings (s : State) (c : CoreId) (k : Core) : (s.setCore c k).rings = s.rings := rfl
@[simp] theorem State.setCore_jobs (s : State) (c : CoreId) (k : Core) : (s.setCore c k).jobs = s.jobs := rfl
@[simp] theorem State.setCore_residents (s : State) (c : CoreId) (k : Core) : (s.setCore c k).residents = s.residents := rfl
@[simp] theorem State.setCore_clusters (s : State) (c : CoreId) (k : Core) : (s.setCore c k).clusters = s.clusters := rfl
@[simp] theorem State.setCore_fields (s : State) (c : CoreId) (k : Core) : (s.setCore c k).fields = s.fields := rfl
@[simp] theorem State.setCore_pw (s : State) (c : CoreId) (k : Core) : (s.setCore c k).pw = s.pw := rfl
@[simp] theorem State.setCore_termini (s : State) (c : CoreId) (k : Core) : (s.setCore c k).termini = s.termini := rfl
@[simp] theorem State.setCore_om (s : State) (c : CoreId) (k : Core) : (s.setCore c k).om = s.om := rfl
@[simp] theorem State.setCore_host (s : State) (c : CoreId) (k : Core) : (s.setCore c k).host = s.host := rfl
@[simp] theorem State.setCore_span (s : State) (c : CoreId) (k : Core) : (s.setCore c k).span = s.span := rfl
@[simp] theorem State.setCore_ck (s : State) (c : CoreId) (k : Core) : (s.setCore c k).ck = s.ck := rfl
@[simp] theorem State.setCore_nvm (s : State) (c : CoreId) (k : Core) : (s.setCore c k).nvm = s.nvm := rfl
@[simp] theorem State.setCore_bu (s : State) (c : CoreId) (k : Core) : (s.setCore c k).bu = s.bu := rfl
@[simp] theorem State.setCore_fuses (s : State) (c : CoreId) (k : Core) : (s.setCore c k).fuses = s.fuses := rfl
@[simp] theorem State.setCore_sec (s : State) (c : CoreId) (k : Core) : (s.setCore c k).sec = s.sec := rfl
@[simp] theorem State.setCore_served (s : State) (c : CoreId) (k : Core) : (s.setCore c k).served = s.served := rfl

@[simp] theorem State.setRouter_pending (s : State) (px py : Nat) (r : Router) : (s.setRouter px py r).pending = s.pending := rfl
@[simp] theorem State.setRouter_freeCtr (s : State) (px py : Nat) (r : Router) : (s.setRouter px py r).freeCtr = s.freeCtr := rfl
@[simp] theorem State.setRouter_resp (s : State) (px py : Nat) (r : Router) : (s.setRouter px py r).resp = s.resp := rfl
@[simp] theorem State.setRouter_cc (s : State) (px py : Nat) (r : Router) : (s.setRouter px py r).cc = s.cc := rfl
@[simp] theorem State.setRouter_yc (s : State) (px py : Nat) (r : Router) : (s.setRouter px py r).yc = s.yc := rfl
@[simp] theorem State.setRouter_cores (s : State) (px py : Nat) (r : Router) : (s.setRouter px py r).cores = s.cores := rfl
@[simp] theorem State.setRouter_inj (s : State) (px py : Nat) (r : Router) : (s.setRouter px py r).inj = s.inj := rfl
@[simp] theorem State.setRouter_flights (s : State) (px py : Nat) (r : Router) : (s.setRouter px py r).flights = s.flights := rfl
@[simp] theorem State.setRouter_inbox (s : State) (px py : Nat) (r : Router) : (s.setRouter px py r).inbox = s.inbox := rfl
@[simp] theorem State.setRouter_accepted (s : State) (px py : Nat) (r : Router) : (s.setRouter px py r).accepted = s.accepted := rfl
@[simp] theorem State.setRouter_tin (s : State) (px py : Nat) (r : Router) : (s.setRouter px py r).tin = s.tin := rfl
@[simp] theorem State.setRouter_fp (s : State) (px py : Nat) (r : Router) : (s.setRouter px py r).fp = s.fp := rfl
@[simp] theorem State.setRouter_map (s : State) (px py : Nat) (r : Router) : (s.setRouter px py r).map = s.map := rfl
@[simp] theorem State.setRouter_yregs (s : State) (px py : Nat) (r : Router) : (s.setRouter px py r).yregs = s.yregs := rfl
@[simp] theorem State.setRouter_yHiLatch (s : State) (px py : Nat) (r : Router) : (s.setRouter px py r).yHiLatch = s.yHiLatch := rfl
@[simp] theorem State.setRouter_transit (s : State) (px py : Nat) (r : Router) : (s.setRouter px py r).transit = s.transit := rfl
@[simp] theorem State.setRouter_boxes (s : State) (px py : Nat) (r : Router) : (s.setRouter px py r).boxes = s.boxes := rfl
@[simp] theorem State.setRouter_fc (s : State) (px py : Nat) (r : Router) : (s.setRouter px py r).fc = s.fc := rfl
@[simp] theorem State.setRouter_slots (s : State) (px py : Nat) (r : Router) : (s.setRouter px py r).slots = s.slots := rfl
@[simp] theorem State.setRouter_parts (s : State) (px py : Nat) (r : Router) : (s.setRouter px py r).parts = s.parts := rfl
@[simp] theorem State.setRouter_rings (s : State) (px py : Nat) (r : Router) : (s.setRouter px py r).rings = s.rings := rfl
@[simp] theorem State.setRouter_jobs (s : State) (px py : Nat) (r : Router) : (s.setRouter px py r).jobs = s.jobs := rfl
@[simp] theorem State.setRouter_residents (s : State) (px py : Nat) (r : Router) : (s.setRouter px py r).residents = s.residents := rfl
@[simp] theorem State.setRouter_clusters (s : State) (px py : Nat) (r : Router) : (s.setRouter px py r).clusters = s.clusters := rfl
@[simp] theorem State.setRouter_fields (s : State) (px py : Nat) (r : Router) : (s.setRouter px py r).fields = s.fields := rfl
@[simp] theorem State.setRouter_pw (s : State) (px py : Nat) (r : Router) : (s.setRouter px py r).pw = s.pw := rfl
@[simp] theorem State.setRouter_termini (s : State) (px py : Nat) (r : Router) : (s.setRouter px py r).termini = s.termini := rfl
@[simp] theorem State.setRouter_om (s : State) (px py : Nat) (r : Router) : (s.setRouter px py r).om = s.om := rfl
@[simp] theorem State.setRouter_host (s : State) (px py : Nat) (r : Router) : (s.setRouter px py r).host = s.host := rfl
@[simp] theorem State.setRouter_span (s : State) (px py : Nat) (r : Router) : (s.setRouter px py r).span = s.span := rfl
@[simp] theorem State.setRouter_ck (s : State) (px py : Nat) (r : Router) : (s.setRouter px py r).ck = s.ck := rfl
@[simp] theorem State.setRouter_nvm (s : State) (px py : Nat) (r : Router) : (s.setRouter px py r).nvm = s.nvm := rfl
@[simp] theorem State.setRouter_bu (s : State) (px py : Nat) (r : Router) : (s.setRouter px py r).bu = s.bu := rfl
@[simp] theorem State.setRouter_fuses (s : State) (px py : Nat) (r : Router) : (s.setRouter px py r).fuses = s.fuses := rfl
@[simp] theorem State.setRouter_sec (s : State) (px py : Nat) (r : Router) : (s.setRouter px py r).sec = s.sec := rfl
@[simp] theorem State.setRouter_served (s : State) (px py : Nat) (r : Router) : (s.setRouter px py r).served = s.served := rfl

@[simp] theorem State.setYreg_pending (s : State) (o : Nat) (v : Word) : (s.setYreg o v).pending = s.pending := rfl
@[simp] theorem State.setYreg_freeCtr (s : State) (o : Nat) (v : Word) : (s.setYreg o v).freeCtr = s.freeCtr := rfl
@[simp] theorem State.setYreg_resp (s : State) (o : Nat) (v : Word) : (s.setYreg o v).resp = s.resp := rfl
@[simp] theorem State.setYreg_cc (s : State) (o : Nat) (v : Word) : (s.setYreg o v).cc = s.cc := rfl
@[simp] theorem State.setYreg_yc (s : State) (o : Nat) (v : Word) : (s.setYreg o v).yc = s.yc := rfl
@[simp] theorem State.setYreg_cores (s : State) (o : Nat) (v : Word) : (s.setYreg o v).cores = s.cores := rfl
@[simp] theorem State.setYreg_routers (s : State) (o : Nat) (v : Word) : (s.setYreg o v).routers = s.routers := rfl
@[simp] theorem State.setYreg_inj (s : State) (o : Nat) (v : Word) : (s.setYreg o v).inj = s.inj := rfl
@[simp] theorem State.setYreg_flights (s : State) (o : Nat) (v : Word) : (s.setYreg o v).flights = s.flights := rfl
@[simp] theorem State.setYreg_inbox (s : State) (o : Nat) (v : Word) : (s.setYreg o v).inbox = s.inbox := rfl
@[simp] theorem State.setYreg_accepted (s : State) (o : Nat) (v : Word) : (s.setYreg o v).accepted = s.accepted := rfl
@[simp] theorem State.setYreg_tin (s : State) (o : Nat) (v : Word) : (s.setYreg o v).tin = s.tin := rfl
@[simp] theorem State.setYreg_fp (s : State) (o : Nat) (v : Word) : (s.setYreg o v).fp = s.fp := rfl
@[simp] theorem State.setYreg_map (s : State) (o : Nat) (v : Word) : (s.setYreg o v).map = s.map := rfl
@[simp] theorem State.setYreg_yHiLatch (s : State) (o : Nat) (v : Word) : (s.setYreg o v).yHiLatch = s.yHiLatch := rfl
@[simp] theorem State.setYreg_transit (s : State) (o : Nat) (v : Word) : (s.setYreg o v).transit = s.transit := rfl
@[simp] theorem State.setYreg_boxes (s : State) (o : Nat) (v : Word) : (s.setYreg o v).boxes = s.boxes := rfl
@[simp] theorem State.setYreg_fc (s : State) (o : Nat) (v : Word) : (s.setYreg o v).fc = s.fc := rfl
@[simp] theorem State.setYreg_slots (s : State) (o : Nat) (v : Word) : (s.setYreg o v).slots = s.slots := rfl
@[simp] theorem State.setYreg_parts (s : State) (o : Nat) (v : Word) : (s.setYreg o v).parts = s.parts := rfl
@[simp] theorem State.setYreg_rings (s : State) (o : Nat) (v : Word) : (s.setYreg o v).rings = s.rings := rfl
@[simp] theorem State.setYreg_jobs (s : State) (o : Nat) (v : Word) : (s.setYreg o v).jobs = s.jobs := rfl
@[simp] theorem State.setYreg_residents (s : State) (o : Nat) (v : Word) : (s.setYreg o v).residents = s.residents := rfl
@[simp] theorem State.setYreg_clusters (s : State) (o : Nat) (v : Word) : (s.setYreg o v).clusters = s.clusters := rfl
@[simp] theorem State.setYreg_fields (s : State) (o : Nat) (v : Word) : (s.setYreg o v).fields = s.fields := rfl
@[simp] theorem State.setYreg_pw (s : State) (o : Nat) (v : Word) : (s.setYreg o v).pw = s.pw := rfl
@[simp] theorem State.setYreg_termini (s : State) (o : Nat) (v : Word) : (s.setYreg o v).termini = s.termini := rfl
@[simp] theorem State.setYreg_om (s : State) (o : Nat) (v : Word) : (s.setYreg o v).om = s.om := rfl
@[simp] theorem State.setYreg_host (s : State) (o : Nat) (v : Word) : (s.setYreg o v).host = s.host := rfl
@[simp] theorem State.setYreg_span (s : State) (o : Nat) (v : Word) : (s.setYreg o v).span = s.span := rfl
@[simp] theorem State.setYreg_ck (s : State) (o : Nat) (v : Word) : (s.setYreg o v).ck = s.ck := rfl
@[simp] theorem State.setYreg_nvm (s : State) (o : Nat) (v : Word) : (s.setYreg o v).nvm = s.nvm := rfl
@[simp] theorem State.setYreg_bu (s : State) (o : Nat) (v : Word) : (s.setYreg o v).bu = s.bu := rfl
@[simp] theorem State.setYreg_fuses (s : State) (o : Nat) (v : Word) : (s.setYreg o v).fuses = s.fuses := rfl
@[simp] theorem State.setYreg_sec (s : State) (o : Nat) (v : Word) : (s.setYreg o v).sec = s.sec := rfl
@[simp] theorem State.setYreg_served (s : State) (o : Nat) (v : Word) : (s.setYreg o v).served = s.served := rfl

@[simp] theorem State.ycount_pending (s : State) (o n : Nat) : (s.ycount o n).pending = s.pending := rfl
@[simp] theorem State.ycount_freeCtr (s : State) (o n : Nat) : (s.ycount o n).freeCtr = s.freeCtr := rfl
@[simp] theorem State.ycount_resp (s : State) (o n : Nat) : (s.ycount o n).resp = s.resp := rfl
@[simp] theorem State.ycount_cc (s : State) (o n : Nat) : (s.ycount o n).cc = s.cc := rfl
@[simp] theorem State.ycount_yc (s : State) (o n : Nat) : (s.ycount o n).yc = s.yc := rfl
@[simp] theorem State.ycount_cores (s : State) (o n : Nat) : (s.ycount o n).cores = s.cores := rfl
@[simp] theorem State.ycount_routers (s : State) (o n : Nat) : (s.ycount o n).routers = s.routers := rfl
@[simp] theorem State.ycount_inj (s : State) (o n : Nat) : (s.ycount o n).inj = s.inj := rfl
@[simp] theorem State.ycount_flights (s : State) (o n : Nat) : (s.ycount o n).flights = s.flights := rfl
@[simp] theorem State.ycount_inbox (s : State) (o n : Nat) : (s.ycount o n).inbox = s.inbox := rfl
@[simp] theorem State.ycount_accepted (s : State) (o n : Nat) : (s.ycount o n).accepted = s.accepted := rfl
@[simp] theorem State.ycount_tin (s : State) (o n : Nat) : (s.ycount o n).tin = s.tin := rfl
@[simp] theorem State.ycount_fp (s : State) (o n : Nat) : (s.ycount o n).fp = s.fp := rfl
@[simp] theorem State.ycount_map (s : State) (o n : Nat) : (s.ycount o n).map = s.map := rfl
@[simp] theorem State.ycount_yHiLatch (s : State) (o n : Nat) : (s.ycount o n).yHiLatch = s.yHiLatch := rfl
@[simp] theorem State.ycount_transit (s : State) (o n : Nat) : (s.ycount o n).transit = s.transit := rfl
@[simp] theorem State.ycount_boxes (s : State) (o n : Nat) : (s.ycount o n).boxes = s.boxes := rfl
@[simp] theorem State.ycount_fc (s : State) (o n : Nat) : (s.ycount o n).fc = s.fc := rfl
@[simp] theorem State.ycount_slots (s : State) (o n : Nat) : (s.ycount o n).slots = s.slots := rfl
@[simp] theorem State.ycount_parts (s : State) (o n : Nat) : (s.ycount o n).parts = s.parts := rfl
@[simp] theorem State.ycount_rings (s : State) (o n : Nat) : (s.ycount o n).rings = s.rings := rfl
@[simp] theorem State.ycount_jobs (s : State) (o n : Nat) : (s.ycount o n).jobs = s.jobs := rfl
@[simp] theorem State.ycount_residents (s : State) (o n : Nat) : (s.ycount o n).residents = s.residents := rfl
@[simp] theorem State.ycount_clusters (s : State) (o n : Nat) : (s.ycount o n).clusters = s.clusters := rfl
@[simp] theorem State.ycount_fields (s : State) (o n : Nat) : (s.ycount o n).fields = s.fields := rfl
@[simp] theorem State.ycount_pw (s : State) (o n : Nat) : (s.ycount o n).pw = s.pw := rfl
@[simp] theorem State.ycount_termini (s : State) (o n : Nat) : (s.ycount o n).termini = s.termini := rfl
@[simp] theorem State.ycount_om (s : State) (o n : Nat) : (s.ycount o n).om = s.om := rfl
@[simp] theorem State.ycount_host (s : State) (o n : Nat) : (s.ycount o n).host = s.host := rfl
@[simp] theorem State.ycount_span (s : State) (o n : Nat) : (s.ycount o n).span = s.span := rfl
@[simp] theorem State.ycount_ck (s : State) (o n : Nat) : (s.ycount o n).ck = s.ck := rfl
@[simp] theorem State.ycount_nvm (s : State) (o n : Nat) : (s.ycount o n).nvm = s.nvm := rfl
@[simp] theorem State.ycount_bu (s : State) (o n : Nat) : (s.ycount o n).bu = s.bu := rfl
@[simp] theorem State.ycount_fuses (s : State) (o n : Nat) : (s.ycount o n).fuses = s.fuses := rfl
@[simp] theorem State.ycount_sec (s : State) (o n : Nat) : (s.ycount o n).sec = s.sec := rfl
@[simp] theorem State.ycount_served (s : State) (o n : Nat) : (s.ycount o n).served = s.served := rfl

@[simp] theorem State.report_pending (s : State) (f cl c b k d a : Nat) : (s.report f cl c b k d a).pending = s.pending := rfl
@[simp] theorem State.report_freeCtr (s : State) (f cl c b k d a : Nat) : (s.report f cl c b k d a).freeCtr = s.freeCtr := rfl
@[simp] theorem State.report_resp (s : State) (f cl c b k d a : Nat) : (s.report f cl c b k d a).resp = s.resp := rfl
@[simp] theorem State.report_cc (s : State) (f cl c b k d a : Nat) : (s.report f cl c b k d a).cc = s.cc := rfl
@[simp] theorem State.report_yc (s : State) (f cl c b k d a : Nat) : (s.report f cl c b k d a).yc = s.yc := rfl
@[simp] theorem State.report_cores (s : State) (f cl c b k d a : Nat) : (s.report f cl c b k d a).cores = s.cores := rfl
@[simp] theorem State.report_routers (s : State) (f cl c b k d a : Nat) : (s.report f cl c b k d a).routers = s.routers := rfl
@[simp] theorem State.report_inj (s : State) (f cl c b k d a : Nat) : (s.report f cl c b k d a).inj = s.inj := rfl
@[simp] theorem State.report_flights (s : State) (f cl c b k d a : Nat) : (s.report f cl c b k d a).flights = s.flights := rfl
@[simp] theorem State.report_inbox (s : State) (f cl c b k d a : Nat) : (s.report f cl c b k d a).inbox = s.inbox := rfl
@[simp] theorem State.report_accepted (s : State) (f cl c b k d a : Nat) : (s.report f cl c b k d a).accepted = s.accepted := rfl
@[simp] theorem State.report_tin (s : State) (f cl c b k d a : Nat) : (s.report f cl c b k d a).tin = s.tin := rfl
@[simp] theorem State.report_fp (s : State) (f cl c b k d a : Nat) : (s.report f cl c b k d a).fp = s.fp := rfl
@[simp] theorem State.report_map (s : State) (f cl c b k d a : Nat) : (s.report f cl c b k d a).map = s.map := rfl
@[simp] theorem State.report_yregs (s : State) (f cl c b k d a : Nat) : (s.report f cl c b k d a).yregs = s.yregs := rfl
@[simp] theorem State.report_yHiLatch (s : State) (f cl c b k d a : Nat) : (s.report f cl c b k d a).yHiLatch = s.yHiLatch := rfl
@[simp] theorem State.report_boxes (s : State) (f cl c b k d a : Nat) : (s.report f cl c b k d a).boxes = s.boxes := rfl
@[simp] theorem State.report_fc (s : State) (f cl c b k d a : Nat) : (s.report f cl c b k d a).fc = s.fc := rfl
@[simp] theorem State.report_slots (s : State) (f cl c b k d a : Nat) : (s.report f cl c b k d a).slots = s.slots := rfl
@[simp] theorem State.report_parts (s : State) (f cl c b k d a : Nat) : (s.report f cl c b k d a).parts = s.parts := rfl
@[simp] theorem State.report_rings (s : State) (f cl c b k d a : Nat) : (s.report f cl c b k d a).rings = s.rings := rfl
@[simp] theorem State.report_jobs (s : State) (f cl c b k d a : Nat) : (s.report f cl c b k d a).jobs = s.jobs := rfl
@[simp] theorem State.report_residents (s : State) (f cl c b k d a : Nat) : (s.report f cl c b k d a).residents = s.residents := rfl
@[simp] theorem State.report_clusters (s : State) (f cl c b k d a : Nat) : (s.report f cl c b k d a).clusters = s.clusters := rfl
@[simp] theorem State.report_fields (s : State) (f cl c b k d a : Nat) : (s.report f cl c b k d a).fields = s.fields := rfl
@[simp] theorem State.report_pw (s : State) (f cl c b k d a : Nat) : (s.report f cl c b k d a).pw = s.pw := rfl
@[simp] theorem State.report_termini (s : State) (f cl c b k d a : Nat) : (s.report f cl c b k d a).termini = s.termini := rfl
@[simp] theorem State.report_om (s : State) (f cl c b k d a : Nat) : (s.report f cl c b k d a).om = s.om := rfl
@[simp] theorem State.report_host (s : State) (f cl c b k d a : Nat) : (s.report f cl c b k d a).host = s.host := rfl
@[simp] theorem State.report_span (s : State) (f cl c b k d a : Nat) : (s.report f cl c b k d a).span = s.span := rfl
@[simp] theorem State.report_ck (s : State) (f cl c b k d a : Nat) : (s.report f cl c b k d a).ck = s.ck := rfl
@[simp] theorem State.report_nvm (s : State) (f cl c b k d a : Nat) : (s.report f cl c b k d a).nvm = s.nvm := rfl
@[simp] theorem State.report_bu (s : State) (f cl c b k d a : Nat) : (s.report f cl c b k d a).bu = s.bu := rfl
@[simp] theorem State.report_fuses (s : State) (f cl c b k d a : Nat) : (s.report f cl c b k d a).fuses = s.fuses := rfl
@[simp] theorem State.report_sec (s : State) (f cl c b k d a : Nat) : (s.report f cl c b k d a).sec = s.sec := rfl
@[simp] theorem State.report_served (s : State) (f cl c b k d a : Nat) : (s.report f cl c b k d a).served = s.served := rfl

@[simp] theorem State.answer_pending (s : State) (e : Option Nat) : (s.answer e).pending = s.pending := rfl
@[simp] theorem State.answer_freeCtr (s : State) (e : Option Nat) : (s.answer e).freeCtr = s.freeCtr := rfl
@[simp] theorem State.answer_cc (s : State) (e : Option Nat) : (s.answer e).cc = s.cc := rfl
@[simp] theorem State.answer_yc (s : State) (e : Option Nat) : (s.answer e).yc = s.yc := rfl
@[simp] theorem State.answer_cores (s : State) (e : Option Nat) : (s.answer e).cores = s.cores := rfl
@[simp] theorem State.answer_routers (s : State) (e : Option Nat) : (s.answer e).routers = s.routers := rfl
@[simp] theorem State.answer_inj (s : State) (e : Option Nat) : (s.answer e).inj = s.inj := rfl
@[simp] theorem State.answer_flights (s : State) (e : Option Nat) : (s.answer e).flights = s.flights := rfl
@[simp] theorem State.answer_inbox (s : State) (e : Option Nat) : (s.answer e).inbox = s.inbox := rfl
@[simp] theorem State.answer_accepted (s : State) (e : Option Nat) : (s.answer e).accepted = s.accepted := rfl
@[simp] theorem State.answer_tin (s : State) (e : Option Nat) : (s.answer e).tin = s.tin := rfl
@[simp] theorem State.answer_fp (s : State) (e : Option Nat) : (s.answer e).fp = s.fp := rfl
@[simp] theorem State.answer_map (s : State) (e : Option Nat) : (s.answer e).map = s.map := rfl
@[simp] theorem State.answer_yregs (s : State) (e : Option Nat) : (s.answer e).yregs = s.yregs := rfl
@[simp] theorem State.answer_yHiLatch (s : State) (e : Option Nat) : (s.answer e).yHiLatch = s.yHiLatch := rfl
@[simp] theorem State.answer_transit (s : State) (e : Option Nat) : (s.answer e).transit = s.transit := rfl
@[simp] theorem State.answer_boxes (s : State) (e : Option Nat) : (s.answer e).boxes = s.boxes := rfl
@[simp] theorem State.answer_fc (s : State) (e : Option Nat) : (s.answer e).fc = s.fc := rfl
@[simp] theorem State.answer_slots (s : State) (e : Option Nat) : (s.answer e).slots = s.slots := rfl
@[simp] theorem State.answer_parts (s : State) (e : Option Nat) : (s.answer e).parts = s.parts := rfl
@[simp] theorem State.answer_rings (s : State) (e : Option Nat) : (s.answer e).rings = s.rings := rfl
@[simp] theorem State.answer_jobs (s : State) (e : Option Nat) : (s.answer e).jobs = s.jobs := rfl
@[simp] theorem State.answer_residents (s : State) (e : Option Nat) : (s.answer e).residents = s.residents := rfl
@[simp] theorem State.answer_clusters (s : State) (e : Option Nat) : (s.answer e).clusters = s.clusters := rfl
@[simp] theorem State.answer_fields (s : State) (e : Option Nat) : (s.answer e).fields = s.fields := rfl
@[simp] theorem State.answer_pw (s : State) (e : Option Nat) : (s.answer e).pw = s.pw := rfl
@[simp] theorem State.answer_termini (s : State) (e : Option Nat) : (s.answer e).termini = s.termini := rfl
@[simp] theorem State.answer_om (s : State) (e : Option Nat) : (s.answer e).om = s.om := rfl
@[simp] theorem State.answer_host (s : State) (e : Option Nat) : (s.answer e).host = s.host := rfl
@[simp] theorem State.answer_span (s : State) (e : Option Nat) : (s.answer e).span = s.span := rfl
@[simp] theorem State.answer_ck (s : State) (e : Option Nat) : (s.answer e).ck = s.ck := rfl
@[simp] theorem State.answer_nvm (s : State) (e : Option Nat) : (s.answer e).nvm = s.nvm := rfl
@[simp] theorem State.answer_bu (s : State) (e : Option Nat) : (s.answer e).bu = s.bu := rfl
@[simp] theorem State.answer_fuses (s : State) (e : Option Nat) : (s.answer e).fuses = s.fuses := rfl
@[simp] theorem State.answer_sec (s : State) (e : Option Nat) : (s.answer e).sec = s.sec := rfl
@[simp] theorem State.answer_served (s : State) (e : Option Nat) : (s.answer e).served = s.served := rfl

@[simp] theorem State.setCluster_pending (s : State) (n : Nat) (f : Cluster → Cluster) : (s.setCluster n f).pending = s.pending := rfl
@[simp] theorem State.setCluster_freeCtr (s : State) (n : Nat) (f : Cluster → Cluster) : (s.setCluster n f).freeCtr = s.freeCtr := rfl
@[simp] theorem State.setCluster_resp (s : State) (n : Nat) (f : Cluster → Cluster) : (s.setCluster n f).resp = s.resp := rfl
@[simp] theorem State.setCluster_cc (s : State) (n : Nat) (f : Cluster → Cluster) : (s.setCluster n f).cc = s.cc := rfl
@[simp] theorem State.setCluster_yc (s : State) (n : Nat) (f : Cluster → Cluster) : (s.setCluster n f).yc = s.yc := rfl
@[simp] theorem State.setCluster_cores (s : State) (n : Nat) (f : Cluster → Cluster) : (s.setCluster n f).cores = s.cores := rfl
@[simp] theorem State.setCluster_routers (s : State) (n : Nat) (f : Cluster → Cluster) : (s.setCluster n f).routers = s.routers := rfl
@[simp] theorem State.setCluster_inj (s : State) (n : Nat) (f : Cluster → Cluster) : (s.setCluster n f).inj = s.inj := rfl
@[simp] theorem State.setCluster_flights (s : State) (n : Nat) (f : Cluster → Cluster) : (s.setCluster n f).flights = s.flights := rfl
@[simp] theorem State.setCluster_inbox (s : State) (n : Nat) (f : Cluster → Cluster) : (s.setCluster n f).inbox = s.inbox := rfl
@[simp] theorem State.setCluster_accepted (s : State) (n : Nat) (f : Cluster → Cluster) : (s.setCluster n f).accepted = s.accepted := rfl
@[simp] theorem State.setCluster_tin (s : State) (n : Nat) (f : Cluster → Cluster) : (s.setCluster n f).tin = s.tin := rfl
@[simp] theorem State.setCluster_fp (s : State) (n : Nat) (f : Cluster → Cluster) : (s.setCluster n f).fp = s.fp := rfl
@[simp] theorem State.setCluster_map (s : State) (n : Nat) (f : Cluster → Cluster) : (s.setCluster n f).map = s.map := rfl
@[simp] theorem State.setCluster_yregs (s : State) (n : Nat) (f : Cluster → Cluster) : (s.setCluster n f).yregs = s.yregs := rfl
@[simp] theorem State.setCluster_yHiLatch (s : State) (n : Nat) (f : Cluster → Cluster) : (s.setCluster n f).yHiLatch = s.yHiLatch := rfl
@[simp] theorem State.setCluster_transit (s : State) (n : Nat) (f : Cluster → Cluster) : (s.setCluster n f).transit = s.transit := rfl
@[simp] theorem State.setCluster_boxes (s : State) (n : Nat) (f : Cluster → Cluster) : (s.setCluster n f).boxes = s.boxes := rfl
@[simp] theorem State.setCluster_fc (s : State) (n : Nat) (f : Cluster → Cluster) : (s.setCluster n f).fc = s.fc := rfl
@[simp] theorem State.setCluster_slots (s : State) (n : Nat) (f : Cluster → Cluster) : (s.setCluster n f).slots = s.slots := rfl
@[simp] theorem State.setCluster_parts (s : State) (n : Nat) (f : Cluster → Cluster) : (s.setCluster n f).parts = s.parts := rfl
@[simp] theorem State.setCluster_rings (s : State) (n : Nat) (f : Cluster → Cluster) : (s.setCluster n f).rings = s.rings := rfl
@[simp] theorem State.setCluster_jobs (s : State) (n : Nat) (f : Cluster → Cluster) : (s.setCluster n f).jobs = s.jobs := rfl
@[simp] theorem State.setCluster_residents (s : State) (n : Nat) (f : Cluster → Cluster) : (s.setCluster n f).residents = s.residents := rfl
@[simp] theorem State.setCluster_fields (s : State) (n : Nat) (f : Cluster → Cluster) : (s.setCluster n f).fields = s.fields := rfl
@[simp] theorem State.setCluster_pw (s : State) (n : Nat) (f : Cluster → Cluster) : (s.setCluster n f).pw = s.pw := rfl
@[simp] theorem State.setCluster_termini (s : State) (n : Nat) (f : Cluster → Cluster) : (s.setCluster n f).termini = s.termini := rfl
@[simp] theorem State.setCluster_om (s : State) (n : Nat) (f : Cluster → Cluster) : (s.setCluster n f).om = s.om := rfl
@[simp] theorem State.setCluster_host (s : State) (n : Nat) (f : Cluster → Cluster) : (s.setCluster n f).host = s.host := rfl
@[simp] theorem State.setCluster_span (s : State) (n : Nat) (f : Cluster → Cluster) : (s.setCluster n f).span = s.span := rfl
@[simp] theorem State.setCluster_ck (s : State) (n : Nat) (f : Cluster → Cluster) : (s.setCluster n f).ck = s.ck := rfl
@[simp] theorem State.setCluster_nvm (s : State) (n : Nat) (f : Cluster → Cluster) : (s.setCluster n f).nvm = s.nvm := rfl
@[simp] theorem State.setCluster_bu (s : State) (n : Nat) (f : Cluster → Cluster) : (s.setCluster n f).bu = s.bu := rfl
@[simp] theorem State.setCluster_fuses (s : State) (n : Nat) (f : Cluster → Cluster) : (s.setCluster n f).fuses = s.fuses := rfl
@[simp] theorem State.setCluster_sec (s : State) (n : Nat) (f : Cluster → Cluster) : (s.setCluster n f).sec = s.sec := rfl
@[simp] theorem State.setCluster_served (s : State) (n : Nat) (f : Cluster → Cluster) : (s.setCluster n f).served = s.served := rfl

@[simp] theorem State.onField_pending (s : State) (n : Nat) (f : FieldPower → FieldPower) : (s.onField n f).pending = s.pending := rfl
@[simp] theorem State.onField_freeCtr (s : State) (n : Nat) (f : FieldPower → FieldPower) : (s.onField n f).freeCtr = s.freeCtr := rfl
@[simp] theorem State.onField_resp (s : State) (n : Nat) (f : FieldPower → FieldPower) : (s.onField n f).resp = s.resp := rfl
@[simp] theorem State.onField_cc (s : State) (n : Nat) (f : FieldPower → FieldPower) : (s.onField n f).cc = s.cc := rfl
@[simp] theorem State.onField_yc (s : State) (n : Nat) (f : FieldPower → FieldPower) : (s.onField n f).yc = s.yc := rfl
@[simp] theorem State.onField_cores (s : State) (n : Nat) (f : FieldPower → FieldPower) : (s.onField n f).cores = s.cores := rfl
@[simp] theorem State.onField_routers (s : State) (n : Nat) (f : FieldPower → FieldPower) : (s.onField n f).routers = s.routers := rfl
@[simp] theorem State.onField_inj (s : State) (n : Nat) (f : FieldPower → FieldPower) : (s.onField n f).inj = s.inj := rfl
@[simp] theorem State.onField_flights (s : State) (n : Nat) (f : FieldPower → FieldPower) : (s.onField n f).flights = s.flights := rfl
@[simp] theorem State.onField_inbox (s : State) (n : Nat) (f : FieldPower → FieldPower) : (s.onField n f).inbox = s.inbox := rfl
@[simp] theorem State.onField_accepted (s : State) (n : Nat) (f : FieldPower → FieldPower) : (s.onField n f).accepted = s.accepted := rfl
@[simp] theorem State.onField_tin (s : State) (n : Nat) (f : FieldPower → FieldPower) : (s.onField n f).tin = s.tin := rfl
@[simp] theorem State.onField_fp (s : State) (n : Nat) (f : FieldPower → FieldPower) : (s.onField n f).fp = s.fp := rfl
@[simp] theorem State.onField_map (s : State) (n : Nat) (f : FieldPower → FieldPower) : (s.onField n f).map = s.map := rfl
@[simp] theorem State.onField_yregs (s : State) (n : Nat) (f : FieldPower → FieldPower) : (s.onField n f).yregs = s.yregs := rfl
@[simp] theorem State.onField_yHiLatch (s : State) (n : Nat) (f : FieldPower → FieldPower) : (s.onField n f).yHiLatch = s.yHiLatch := rfl
@[simp] theorem State.onField_transit (s : State) (n : Nat) (f : FieldPower → FieldPower) : (s.onField n f).transit = s.transit := rfl
@[simp] theorem State.onField_boxes (s : State) (n : Nat) (f : FieldPower → FieldPower) : (s.onField n f).boxes = s.boxes := rfl
@[simp] theorem State.onField_fc (s : State) (n : Nat) (f : FieldPower → FieldPower) : (s.onField n f).fc = s.fc := rfl
@[simp] theorem State.onField_slots (s : State) (n : Nat) (f : FieldPower → FieldPower) : (s.onField n f).slots = s.slots := rfl
@[simp] theorem State.onField_parts (s : State) (n : Nat) (f : FieldPower → FieldPower) : (s.onField n f).parts = s.parts := rfl
@[simp] theorem State.onField_rings (s : State) (n : Nat) (f : FieldPower → FieldPower) : (s.onField n f).rings = s.rings := rfl
@[simp] theorem State.onField_jobs (s : State) (n : Nat) (f : FieldPower → FieldPower) : (s.onField n f).jobs = s.jobs := rfl
@[simp] theorem State.onField_residents (s : State) (n : Nat) (f : FieldPower → FieldPower) : (s.onField n f).residents = s.residents := rfl
@[simp] theorem State.onField_clusters (s : State) (n : Nat) (f : FieldPower → FieldPower) : (s.onField n f).clusters = s.clusters := rfl
@[simp] theorem State.onField_pw (s : State) (n : Nat) (f : FieldPower → FieldPower) : (s.onField n f).pw = s.pw := rfl
@[simp] theorem State.onField_termini (s : State) (n : Nat) (f : FieldPower → FieldPower) : (s.onField n f).termini = s.termini := rfl
@[simp] theorem State.onField_om (s : State) (n : Nat) (f : FieldPower → FieldPower) : (s.onField n f).om = s.om := rfl
@[simp] theorem State.onField_host (s : State) (n : Nat) (f : FieldPower → FieldPower) : (s.onField n f).host = s.host := rfl
@[simp] theorem State.onField_span (s : State) (n : Nat) (f : FieldPower → FieldPower) : (s.onField n f).span = s.span := rfl
@[simp] theorem State.onField_ck (s : State) (n : Nat) (f : FieldPower → FieldPower) : (s.onField n f).ck = s.ck := rfl
@[simp] theorem State.onField_nvm (s : State) (n : Nat) (f : FieldPower → FieldPower) : (s.onField n f).nvm = s.nvm := rfl
@[simp] theorem State.onField_bu (s : State) (n : Nat) (f : FieldPower → FieldPower) : (s.onField n f).bu = s.bu := rfl
@[simp] theorem State.onField_fuses (s : State) (n : Nat) (f : FieldPower → FieldPower) : (s.onField n f).fuses = s.fuses := rfl
@[simp] theorem State.onField_sec (s : State) (n : Nat) (f : FieldPower → FieldPower) : (s.onField n f).sec = s.sec := rfl
@[simp] theorem State.onField_served (s : State) (n : Nat) (f : FieldPower → FieldPower) : (s.onField n f).served = s.served := rfl

@[simp] theorem State.onTerminus_pending (s : State) (n : Nat) (f : Terminus → Terminus) : (s.onTerminus n f).pending = s.pending := rfl
@[simp] theorem State.onTerminus_freeCtr (s : State) (n : Nat) (f : Terminus → Terminus) : (s.onTerminus n f).freeCtr = s.freeCtr := rfl
@[simp] theorem State.onTerminus_resp (s : State) (n : Nat) (f : Terminus → Terminus) : (s.onTerminus n f).resp = s.resp := rfl
@[simp] theorem State.onTerminus_cc (s : State) (n : Nat) (f : Terminus → Terminus) : (s.onTerminus n f).cc = s.cc := rfl
@[simp] theorem State.onTerminus_yc (s : State) (n : Nat) (f : Terminus → Terminus) : (s.onTerminus n f).yc = s.yc := rfl
@[simp] theorem State.onTerminus_cores (s : State) (n : Nat) (f : Terminus → Terminus) : (s.onTerminus n f).cores = s.cores := rfl
@[simp] theorem State.onTerminus_routers (s : State) (n : Nat) (f : Terminus → Terminus) : (s.onTerminus n f).routers = s.routers := rfl
@[simp] theorem State.onTerminus_inj (s : State) (n : Nat) (f : Terminus → Terminus) : (s.onTerminus n f).inj = s.inj := rfl
@[simp] theorem State.onTerminus_flights (s : State) (n : Nat) (f : Terminus → Terminus) : (s.onTerminus n f).flights = s.flights := rfl
@[simp] theorem State.onTerminus_inbox (s : State) (n : Nat) (f : Terminus → Terminus) : (s.onTerminus n f).inbox = s.inbox := rfl
@[simp] theorem State.onTerminus_accepted (s : State) (n : Nat) (f : Terminus → Terminus) : (s.onTerminus n f).accepted = s.accepted := rfl
@[simp] theorem State.onTerminus_tin (s : State) (n : Nat) (f : Terminus → Terminus) : (s.onTerminus n f).tin = s.tin := rfl
@[simp] theorem State.onTerminus_fp (s : State) (n : Nat) (f : Terminus → Terminus) : (s.onTerminus n f).fp = s.fp := rfl
@[simp] theorem State.onTerminus_map (s : State) (n : Nat) (f : Terminus → Terminus) : (s.onTerminus n f).map = s.map := rfl
@[simp] theorem State.onTerminus_yregs (s : State) (n : Nat) (f : Terminus → Terminus) : (s.onTerminus n f).yregs = s.yregs := rfl
@[simp] theorem State.onTerminus_yHiLatch (s : State) (n : Nat) (f : Terminus → Terminus) : (s.onTerminus n f).yHiLatch = s.yHiLatch := rfl
@[simp] theorem State.onTerminus_transit (s : State) (n : Nat) (f : Terminus → Terminus) : (s.onTerminus n f).transit = s.transit := rfl
@[simp] theorem State.onTerminus_boxes (s : State) (n : Nat) (f : Terminus → Terminus) : (s.onTerminus n f).boxes = s.boxes := rfl
@[simp] theorem State.onTerminus_fc (s : State) (n : Nat) (f : Terminus → Terminus) : (s.onTerminus n f).fc = s.fc := rfl
@[simp] theorem State.onTerminus_slots (s : State) (n : Nat) (f : Terminus → Terminus) : (s.onTerminus n f).slots = s.slots := rfl
@[simp] theorem State.onTerminus_parts (s : State) (n : Nat) (f : Terminus → Terminus) : (s.onTerminus n f).parts = s.parts := rfl
@[simp] theorem State.onTerminus_rings (s : State) (n : Nat) (f : Terminus → Terminus) : (s.onTerminus n f).rings = s.rings := rfl
@[simp] theorem State.onTerminus_jobs (s : State) (n : Nat) (f : Terminus → Terminus) : (s.onTerminus n f).jobs = s.jobs := rfl
@[simp] theorem State.onTerminus_residents (s : State) (n : Nat) (f : Terminus → Terminus) : (s.onTerminus n f).residents = s.residents := rfl
@[simp] theorem State.onTerminus_clusters (s : State) (n : Nat) (f : Terminus → Terminus) : (s.onTerminus n f).clusters = s.clusters := rfl
@[simp] theorem State.onTerminus_fields (s : State) (n : Nat) (f : Terminus → Terminus) : (s.onTerminus n f).fields = s.fields := rfl
@[simp] theorem State.onTerminus_pw (s : State) (n : Nat) (f : Terminus → Terminus) : (s.onTerminus n f).pw = s.pw := rfl
@[simp] theorem State.onTerminus_om (s : State) (n : Nat) (f : Terminus → Terminus) : (s.onTerminus n f).om = s.om := rfl
@[simp] theorem State.onTerminus_host (s : State) (n : Nat) (f : Terminus → Terminus) : (s.onTerminus n f).host = s.host := rfl
@[simp] theorem State.onTerminus_span (s : State) (n : Nat) (f : Terminus → Terminus) : (s.onTerminus n f).span = s.span := rfl
@[simp] theorem State.onTerminus_ck (s : State) (n : Nat) (f : Terminus → Terminus) : (s.onTerminus n f).ck = s.ck := rfl
@[simp] theorem State.onTerminus_nvm (s : State) (n : Nat) (f : Terminus → Terminus) : (s.onTerminus n f).nvm = s.nvm := rfl
@[simp] theorem State.onTerminus_bu (s : State) (n : Nat) (f : Terminus → Terminus) : (s.onTerminus n f).bu = s.bu := rfl
@[simp] theorem State.onTerminus_fuses (s : State) (n : Nat) (f : Terminus → Terminus) : (s.onTerminus n f).fuses = s.fuses := rfl
@[simp] theorem State.onTerminus_sec (s : State) (n : Nat) (f : Terminus → Terminus) : (s.onTerminus n f).sec = s.sec := rfl
@[simp] theorem State.onTerminus_served (s : State) (n : Nat) (f : Terminus → Terminus) : (s.onTerminus n f).served = s.served := rfl

@[simp] theorem State.onPart_pending (s : State) (p : Pid) (f : Partition → Partition) : (s.onPart p f).pending = s.pending := rfl
@[simp] theorem State.onPart_freeCtr (s : State) (p : Pid) (f : Partition → Partition) : (s.onPart p f).freeCtr = s.freeCtr := rfl
@[simp] theorem State.onPart_resp (s : State) (p : Pid) (f : Partition → Partition) : (s.onPart p f).resp = s.resp := rfl
@[simp] theorem State.onPart_cc (s : State) (p : Pid) (f : Partition → Partition) : (s.onPart p f).cc = s.cc := rfl
@[simp] theorem State.onPart_yc (s : State) (p : Pid) (f : Partition → Partition) : (s.onPart p f).yc = s.yc := rfl
@[simp] theorem State.onPart_cores (s : State) (p : Pid) (f : Partition → Partition) : (s.onPart p f).cores = s.cores := rfl
@[simp] theorem State.onPart_routers (s : State) (p : Pid) (f : Partition → Partition) : (s.onPart p f).routers = s.routers := rfl
@[simp] theorem State.onPart_inj (s : State) (p : Pid) (f : Partition → Partition) : (s.onPart p f).inj = s.inj := rfl
@[simp] theorem State.onPart_flights (s : State) (p : Pid) (f : Partition → Partition) : (s.onPart p f).flights = s.flights := rfl
@[simp] theorem State.onPart_inbox (s : State) (p : Pid) (f : Partition → Partition) : (s.onPart p f).inbox = s.inbox := rfl
@[simp] theorem State.onPart_accepted (s : State) (p : Pid) (f : Partition → Partition) : (s.onPart p f).accepted = s.accepted := rfl
@[simp] theorem State.onPart_tin (s : State) (p : Pid) (f : Partition → Partition) : (s.onPart p f).tin = s.tin := rfl
@[simp] theorem State.onPart_fp (s : State) (p : Pid) (f : Partition → Partition) : (s.onPart p f).fp = s.fp := rfl
@[simp] theorem State.onPart_map (s : State) (p : Pid) (f : Partition → Partition) : (s.onPart p f).map = s.map := rfl
@[simp] theorem State.onPart_yregs (s : State) (p : Pid) (f : Partition → Partition) : (s.onPart p f).yregs = s.yregs := rfl
@[simp] theorem State.onPart_yHiLatch (s : State) (p : Pid) (f : Partition → Partition) : (s.onPart p f).yHiLatch = s.yHiLatch := rfl
@[simp] theorem State.onPart_transit (s : State) (p : Pid) (f : Partition → Partition) : (s.onPart p f).transit = s.transit := rfl
@[simp] theorem State.onPart_boxes (s : State) (p : Pid) (f : Partition → Partition) : (s.onPart p f).boxes = s.boxes := rfl
@[simp] theorem State.onPart_fc (s : State) (p : Pid) (f : Partition → Partition) : (s.onPart p f).fc = s.fc := rfl
@[simp] theorem State.onPart_slots (s : State) (p : Pid) (f : Partition → Partition) : (s.onPart p f).slots = s.slots := rfl
@[simp] theorem State.onPart_rings (s : State) (p : Pid) (f : Partition → Partition) : (s.onPart p f).rings = s.rings := rfl
@[simp] theorem State.onPart_jobs (s : State) (p : Pid) (f : Partition → Partition) : (s.onPart p f).jobs = s.jobs := rfl
@[simp] theorem State.onPart_residents (s : State) (p : Pid) (f : Partition → Partition) : (s.onPart p f).residents = s.residents := rfl
@[simp] theorem State.onPart_clusters (s : State) (p : Pid) (f : Partition → Partition) : (s.onPart p f).clusters = s.clusters := rfl
@[simp] theorem State.onPart_fields (s : State) (p : Pid) (f : Partition → Partition) : (s.onPart p f).fields = s.fields := rfl
@[simp] theorem State.onPart_pw (s : State) (p : Pid) (f : Partition → Partition) : (s.onPart p f).pw = s.pw := rfl
@[simp] theorem State.onPart_termini (s : State) (p : Pid) (f : Partition → Partition) : (s.onPart p f).termini = s.termini := rfl
@[simp] theorem State.onPart_om (s : State) (p : Pid) (f : Partition → Partition) : (s.onPart p f).om = s.om := rfl
@[simp] theorem State.onPart_host (s : State) (p : Pid) (f : Partition → Partition) : (s.onPart p f).host = s.host := rfl
@[simp] theorem State.onPart_span (s : State) (p : Pid) (f : Partition → Partition) : (s.onPart p f).span = s.span := rfl
@[simp] theorem State.onPart_ck (s : State) (p : Pid) (f : Partition → Partition) : (s.onPart p f).ck = s.ck := rfl
@[simp] theorem State.onPart_nvm (s : State) (p : Pid) (f : Partition → Partition) : (s.onPart p f).nvm = s.nvm := rfl
@[simp] theorem State.onPart_bu (s : State) (p : Pid) (f : Partition → Partition) : (s.onPart p f).bu = s.bu := rfl
@[simp] theorem State.onPart_fuses (s : State) (p : Pid) (f : Partition → Partition) : (s.onPart p f).fuses = s.fuses := rfl
@[simp] theorem State.onPart_sec (s : State) (p : Pid) (f : Partition → Partition) : (s.onPart p f).sec = s.sec := rfl
@[simp] theorem State.onPart_served (s : State) (p : Pid) (f : Partition → Partition) : (s.onPart p f).served = s.served := rfl

@[simp] theorem State.onPort_pending (s : State) (n : Nat) (f : SpanPort → SpanPort) : (s.onPort n f).pending = s.pending := rfl
@[simp] theorem State.onPort_freeCtr (s : State) (n : Nat) (f : SpanPort → SpanPort) : (s.onPort n f).freeCtr = s.freeCtr := rfl
@[simp] theorem State.onPort_resp (s : State) (n : Nat) (f : SpanPort → SpanPort) : (s.onPort n f).resp = s.resp := rfl
@[simp] theorem State.onPort_cc (s : State) (n : Nat) (f : SpanPort → SpanPort) : (s.onPort n f).cc = s.cc := rfl
@[simp] theorem State.onPort_yc (s : State) (n : Nat) (f : SpanPort → SpanPort) : (s.onPort n f).yc = s.yc := rfl
@[simp] theorem State.onPort_cores (s : State) (n : Nat) (f : SpanPort → SpanPort) : (s.onPort n f).cores = s.cores := rfl
@[simp] theorem State.onPort_routers (s : State) (n : Nat) (f : SpanPort → SpanPort) : (s.onPort n f).routers = s.routers := rfl
@[simp] theorem State.onPort_inj (s : State) (n : Nat) (f : SpanPort → SpanPort) : (s.onPort n f).inj = s.inj := rfl
@[simp] theorem State.onPort_flights (s : State) (n : Nat) (f : SpanPort → SpanPort) : (s.onPort n f).flights = s.flights := rfl
@[simp] theorem State.onPort_inbox (s : State) (n : Nat) (f : SpanPort → SpanPort) : (s.onPort n f).inbox = s.inbox := rfl
@[simp] theorem State.onPort_accepted (s : State) (n : Nat) (f : SpanPort → SpanPort) : (s.onPort n f).accepted = s.accepted := rfl
@[simp] theorem State.onPort_tin (s : State) (n : Nat) (f : SpanPort → SpanPort) : (s.onPort n f).tin = s.tin := rfl
@[simp] theorem State.onPort_fp (s : State) (n : Nat) (f : SpanPort → SpanPort) : (s.onPort n f).fp = s.fp := rfl
@[simp] theorem State.onPort_map (s : State) (n : Nat) (f : SpanPort → SpanPort) : (s.onPort n f).map = s.map := rfl
@[simp] theorem State.onPort_yregs (s : State) (n : Nat) (f : SpanPort → SpanPort) : (s.onPort n f).yregs = s.yregs := rfl
@[simp] theorem State.onPort_yHiLatch (s : State) (n : Nat) (f : SpanPort → SpanPort) : (s.onPort n f).yHiLatch = s.yHiLatch := rfl
@[simp] theorem State.onPort_transit (s : State) (n : Nat) (f : SpanPort → SpanPort) : (s.onPort n f).transit = s.transit := rfl
@[simp] theorem State.onPort_boxes (s : State) (n : Nat) (f : SpanPort → SpanPort) : (s.onPort n f).boxes = s.boxes := rfl
@[simp] theorem State.onPort_fc (s : State) (n : Nat) (f : SpanPort → SpanPort) : (s.onPort n f).fc = s.fc := rfl
@[simp] theorem State.onPort_slots (s : State) (n : Nat) (f : SpanPort → SpanPort) : (s.onPort n f).slots = s.slots := rfl
@[simp] theorem State.onPort_parts (s : State) (n : Nat) (f : SpanPort → SpanPort) : (s.onPort n f).parts = s.parts := rfl
@[simp] theorem State.onPort_rings (s : State) (n : Nat) (f : SpanPort → SpanPort) : (s.onPort n f).rings = s.rings := rfl
@[simp] theorem State.onPort_jobs (s : State) (n : Nat) (f : SpanPort → SpanPort) : (s.onPort n f).jobs = s.jobs := rfl
@[simp] theorem State.onPort_residents (s : State) (n : Nat) (f : SpanPort → SpanPort) : (s.onPort n f).residents = s.residents := rfl
@[simp] theorem State.onPort_clusters (s : State) (n : Nat) (f : SpanPort → SpanPort) : (s.onPort n f).clusters = s.clusters := rfl
@[simp] theorem State.onPort_fields (s : State) (n : Nat) (f : SpanPort → SpanPort) : (s.onPort n f).fields = s.fields := rfl
@[simp] theorem State.onPort_pw (s : State) (n : Nat) (f : SpanPort → SpanPort) : (s.onPort n f).pw = s.pw := rfl
@[simp] theorem State.onPort_termini (s : State) (n : Nat) (f : SpanPort → SpanPort) : (s.onPort n f).termini = s.termini := rfl
@[simp] theorem State.onPort_om (s : State) (n : Nat) (f : SpanPort → SpanPort) : (s.onPort n f).om = s.om := rfl
@[simp] theorem State.onPort_host (s : State) (n : Nat) (f : SpanPort → SpanPort) : (s.onPort n f).host = s.host := rfl
@[simp] theorem State.onPort_ck (s : State) (n : Nat) (f : SpanPort → SpanPort) : (s.onPort n f).ck = s.ck := rfl
@[simp] theorem State.onPort_nvm (s : State) (n : Nat) (f : SpanPort → SpanPort) : (s.onPort n f).nvm = s.nvm := rfl
@[simp] theorem State.onPort_bu (s : State) (n : Nat) (f : SpanPort → SpanPort) : (s.onPort n f).bu = s.bu := rfl
@[simp] theorem State.onPort_fuses (s : State) (n : Nat) (f : SpanPort → SpanPort) : (s.onPort n f).fuses = s.fuses := rfl
@[simp] theorem State.onPort_sec (s : State) (n : Nat) (f : SpanPort → SpanPort) : (s.onPort n f).sec = s.sec := rfl
@[simp] theorem State.onPort_served (s : State) (n : Nat) (f : SpanPort → SpanPort) : (s.onPort n f).served = s.served := rfl

@[simp] theorem State.onCk_pending (s : State) (f : Clocks → Clocks) : (s.onCk f).pending = s.pending := rfl
@[simp] theorem State.onCk_freeCtr (s : State) (f : Clocks → Clocks) : (s.onCk f).freeCtr = s.freeCtr := rfl
@[simp] theorem State.onCk_resp (s : State) (f : Clocks → Clocks) : (s.onCk f).resp = s.resp := rfl
@[simp] theorem State.onCk_cc (s : State) (f : Clocks → Clocks) : (s.onCk f).cc = s.cc := rfl
@[simp] theorem State.onCk_yc (s : State) (f : Clocks → Clocks) : (s.onCk f).yc = s.yc := rfl
@[simp] theorem State.onCk_cores (s : State) (f : Clocks → Clocks) : (s.onCk f).cores = s.cores := rfl
@[simp] theorem State.onCk_routers (s : State) (f : Clocks → Clocks) : (s.onCk f).routers = s.routers := rfl
@[simp] theorem State.onCk_inj (s : State) (f : Clocks → Clocks) : (s.onCk f).inj = s.inj := rfl
@[simp] theorem State.onCk_flights (s : State) (f : Clocks → Clocks) : (s.onCk f).flights = s.flights := rfl
@[simp] theorem State.onCk_inbox (s : State) (f : Clocks → Clocks) : (s.onCk f).inbox = s.inbox := rfl
@[simp] theorem State.onCk_accepted (s : State) (f : Clocks → Clocks) : (s.onCk f).accepted = s.accepted := rfl
@[simp] theorem State.onCk_tin (s : State) (f : Clocks → Clocks) : (s.onCk f).tin = s.tin := rfl
@[simp] theorem State.onCk_fp (s : State) (f : Clocks → Clocks) : (s.onCk f).fp = s.fp := rfl
@[simp] theorem State.onCk_map (s : State) (f : Clocks → Clocks) : (s.onCk f).map = s.map := rfl
@[simp] theorem State.onCk_yregs (s : State) (f : Clocks → Clocks) : (s.onCk f).yregs = s.yregs := rfl
@[simp] theorem State.onCk_yHiLatch (s : State) (f : Clocks → Clocks) : (s.onCk f).yHiLatch = s.yHiLatch := rfl
@[simp] theorem State.onCk_transit (s : State) (f : Clocks → Clocks) : (s.onCk f).transit = s.transit := rfl
@[simp] theorem State.onCk_boxes (s : State) (f : Clocks → Clocks) : (s.onCk f).boxes = s.boxes := rfl
@[simp] theorem State.onCk_fc (s : State) (f : Clocks → Clocks) : (s.onCk f).fc = s.fc := rfl
@[simp] theorem State.onCk_slots (s : State) (f : Clocks → Clocks) : (s.onCk f).slots = s.slots := rfl
@[simp] theorem State.onCk_parts (s : State) (f : Clocks → Clocks) : (s.onCk f).parts = s.parts := rfl
@[simp] theorem State.onCk_rings (s : State) (f : Clocks → Clocks) : (s.onCk f).rings = s.rings := rfl
@[simp] theorem State.onCk_jobs (s : State) (f : Clocks → Clocks) : (s.onCk f).jobs = s.jobs := rfl
@[simp] theorem State.onCk_residents (s : State) (f : Clocks → Clocks) : (s.onCk f).residents = s.residents := rfl
@[simp] theorem State.onCk_clusters (s : State) (f : Clocks → Clocks) : (s.onCk f).clusters = s.clusters := rfl
@[simp] theorem State.onCk_fields (s : State) (f : Clocks → Clocks) : (s.onCk f).fields = s.fields := rfl
@[simp] theorem State.onCk_pw (s : State) (f : Clocks → Clocks) : (s.onCk f).pw = s.pw := rfl
@[simp] theorem State.onCk_termini (s : State) (f : Clocks → Clocks) : (s.onCk f).termini = s.termini := rfl
@[simp] theorem State.onCk_om (s : State) (f : Clocks → Clocks) : (s.onCk f).om = s.om := rfl
@[simp] theorem State.onCk_host (s : State) (f : Clocks → Clocks) : (s.onCk f).host = s.host := rfl
@[simp] theorem State.onCk_span (s : State) (f : Clocks → Clocks) : (s.onCk f).span = s.span := rfl
@[simp] theorem State.onCk_nvm (s : State) (f : Clocks → Clocks) : (s.onCk f).nvm = s.nvm := rfl
@[simp] theorem State.onCk_bu (s : State) (f : Clocks → Clocks) : (s.onCk f).bu = s.bu := rfl
@[simp] theorem State.onCk_fuses (s : State) (f : Clocks → Clocks) : (s.onCk f).fuses = s.fuses := rfl
@[simp] theorem State.onCk_sec (s : State) (f : Clocks → Clocks) : (s.onCk f).sec = s.sec := rfl
@[simp] theorem State.onCk_served (s : State) (f : Clocks → Clocks) : (s.onCk f).served = s.served := rfl

@[simp] theorem State.setBox_pending (s : State) (n : Nat) (b : SignalBox) : (s.setBox n b).pending = s.pending := rfl
@[simp] theorem State.setBox_freeCtr (s : State) (n : Nat) (b : SignalBox) : (s.setBox n b).freeCtr = s.freeCtr := rfl
@[simp] theorem State.setBox_resp (s : State) (n : Nat) (b : SignalBox) : (s.setBox n b).resp = s.resp := rfl
@[simp] theorem State.setBox_cc (s : State) (n : Nat) (b : SignalBox) : (s.setBox n b).cc = s.cc := rfl
@[simp] theorem State.setBox_yc (s : State) (n : Nat) (b : SignalBox) : (s.setBox n b).yc = s.yc := rfl
@[simp] theorem State.setBox_cores (s : State) (n : Nat) (b : SignalBox) : (s.setBox n b).cores = s.cores := rfl
@[simp] theorem State.setBox_routers (s : State) (n : Nat) (b : SignalBox) : (s.setBox n b).routers = s.routers := rfl
@[simp] theorem State.setBox_inj (s : State) (n : Nat) (b : SignalBox) : (s.setBox n b).inj = s.inj := rfl
@[simp] theorem State.setBox_flights (s : State) (n : Nat) (b : SignalBox) : (s.setBox n b).flights = s.flights := rfl
@[simp] theorem State.setBox_inbox (s : State) (n : Nat) (b : SignalBox) : (s.setBox n b).inbox = s.inbox := rfl
@[simp] theorem State.setBox_accepted (s : State) (n : Nat) (b : SignalBox) : (s.setBox n b).accepted = s.accepted := rfl
@[simp] theorem State.setBox_tin (s : State) (n : Nat) (b : SignalBox) : (s.setBox n b).tin = s.tin := rfl
@[simp] theorem State.setBox_fp (s : State) (n : Nat) (b : SignalBox) : (s.setBox n b).fp = s.fp := rfl
@[simp] theorem State.setBox_map (s : State) (n : Nat) (b : SignalBox) : (s.setBox n b).map = s.map := rfl
@[simp] theorem State.setBox_yregs (s : State) (n : Nat) (b : SignalBox) : (s.setBox n b).yregs = s.yregs := rfl
@[simp] theorem State.setBox_yHiLatch (s : State) (n : Nat) (b : SignalBox) : (s.setBox n b).yHiLatch = s.yHiLatch := rfl
@[simp] theorem State.setBox_transit (s : State) (n : Nat) (b : SignalBox) : (s.setBox n b).transit = s.transit := rfl
@[simp] theorem State.setBox_fc (s : State) (n : Nat) (b : SignalBox) : (s.setBox n b).fc = s.fc := rfl
@[simp] theorem State.setBox_slots (s : State) (n : Nat) (b : SignalBox) : (s.setBox n b).slots = s.slots := rfl
@[simp] theorem State.setBox_parts (s : State) (n : Nat) (b : SignalBox) : (s.setBox n b).parts = s.parts := rfl
@[simp] theorem State.setBox_rings (s : State) (n : Nat) (b : SignalBox) : (s.setBox n b).rings = s.rings := rfl
@[simp] theorem State.setBox_jobs (s : State) (n : Nat) (b : SignalBox) : (s.setBox n b).jobs = s.jobs := rfl
@[simp] theorem State.setBox_residents (s : State) (n : Nat) (b : SignalBox) : (s.setBox n b).residents = s.residents := rfl
@[simp] theorem State.setBox_clusters (s : State) (n : Nat) (b : SignalBox) : (s.setBox n b).clusters = s.clusters := rfl
@[simp] theorem State.setBox_fields (s : State) (n : Nat) (b : SignalBox) : (s.setBox n b).fields = s.fields := rfl
@[simp] theorem State.setBox_pw (s : State) (n : Nat) (b : SignalBox) : (s.setBox n b).pw = s.pw := rfl
@[simp] theorem State.setBox_termini (s : State) (n : Nat) (b : SignalBox) : (s.setBox n b).termini = s.termini := rfl
@[simp] theorem State.setBox_om (s : State) (n : Nat) (b : SignalBox) : (s.setBox n b).om = s.om := rfl
@[simp] theorem State.setBox_host (s : State) (n : Nat) (b : SignalBox) : (s.setBox n b).host = s.host := rfl
@[simp] theorem State.setBox_span (s : State) (n : Nat) (b : SignalBox) : (s.setBox n b).span = s.span := rfl
@[simp] theorem State.setBox_ck (s : State) (n : Nat) (b : SignalBox) : (s.setBox n b).ck = s.ck := rfl
@[simp] theorem State.setBox_nvm (s : State) (n : Nat) (b : SignalBox) : (s.setBox n b).nvm = s.nvm := rfl
@[simp] theorem State.setBox_bu (s : State) (n : Nat) (b : SignalBox) : (s.setBox n b).bu = s.bu := rfl
@[simp] theorem State.setBox_fuses (s : State) (n : Nat) (b : SignalBox) : (s.setBox n b).fuses = s.fuses := rfl
@[simp] theorem State.setBox_sec (s : State) (n : Nat) (b : SignalBox) : (s.setBox n b).sec = s.sec := rfl
@[simp] theorem State.setBox_served (s : State) (n : Nat) (b : SignalBox) : (s.setBox n b).served = s.served := rfl

@[simp] theorem State.termSend_pending (s : State) (p : Packet) (op aux sz len : Nat) (h : BitVec 384) (ls : List Line) : (s.termSend p op aux sz len h ls).pending = s.pending := rfl
@[simp] theorem State.termSend_freeCtr (s : State) (p : Packet) (op aux sz len : Nat) (h : BitVec 384) (ls : List Line) : (s.termSend p op aux sz len h ls).freeCtr = s.freeCtr := rfl
@[simp] theorem State.termSend_resp (s : State) (p : Packet) (op aux sz len : Nat) (h : BitVec 384) (ls : List Line) : (s.termSend p op aux sz len h ls).resp = s.resp := rfl
@[simp] theorem State.termSend_cc (s : State) (p : Packet) (op aux sz len : Nat) (h : BitVec 384) (ls : List Line) : (s.termSend p op aux sz len h ls).cc = s.cc := rfl
@[simp] theorem State.termSend_yc (s : State) (p : Packet) (op aux sz len : Nat) (h : BitVec 384) (ls : List Line) : (s.termSend p op aux sz len h ls).yc = s.yc := rfl
@[simp] theorem State.termSend_cores (s : State) (p : Packet) (op aux sz len : Nat) (h : BitVec 384) (ls : List Line) : (s.termSend p op aux sz len h ls).cores = s.cores := rfl
@[simp] theorem State.termSend_routers (s : State) (p : Packet) (op aux sz len : Nat) (h : BitVec 384) (ls : List Line) : (s.termSend p op aux sz len h ls).routers = s.routers := rfl
@[simp] theorem State.termSend_flights (s : State) (p : Packet) (op aux sz len : Nat) (h : BitVec 384) (ls : List Line) : (s.termSend p op aux sz len h ls).flights = s.flights := rfl
@[simp] theorem State.termSend_inbox (s : State) (p : Packet) (op aux sz len : Nat) (h : BitVec 384) (ls : List Line) : (s.termSend p op aux sz len h ls).inbox = s.inbox := rfl
@[simp] theorem State.termSend_accepted (s : State) (p : Packet) (op aux sz len : Nat) (h : BitVec 384) (ls : List Line) : (s.termSend p op aux sz len h ls).accepted = s.accepted := rfl
@[simp] theorem State.termSend_tin (s : State) (p : Packet) (op aux sz len : Nat) (h : BitVec 384) (ls : List Line) : (s.termSend p op aux sz len h ls).tin = s.tin := rfl
@[simp] theorem State.termSend_fp (s : State) (p : Packet) (op aux sz len : Nat) (h : BitVec 384) (ls : List Line) : (s.termSend p op aux sz len h ls).fp = s.fp := rfl
@[simp] theorem State.termSend_map (s : State) (p : Packet) (op aux sz len : Nat) (h : BitVec 384) (ls : List Line) : (s.termSend p op aux sz len h ls).map = s.map := rfl
@[simp] theorem State.termSend_yregs (s : State) (p : Packet) (op aux sz len : Nat) (h : BitVec 384) (ls : List Line) : (s.termSend p op aux sz len h ls).yregs = s.yregs := rfl
@[simp] theorem State.termSend_yHiLatch (s : State) (p : Packet) (op aux sz len : Nat) (h : BitVec 384) (ls : List Line) : (s.termSend p op aux sz len h ls).yHiLatch = s.yHiLatch := rfl
@[simp] theorem State.termSend_transit (s : State) (p : Packet) (op aux sz len : Nat) (h : BitVec 384) (ls : List Line) : (s.termSend p op aux sz len h ls).transit = s.transit := rfl
@[simp] theorem State.termSend_boxes (s : State) (p : Packet) (op aux sz len : Nat) (h : BitVec 384) (ls : List Line) : (s.termSend p op aux sz len h ls).boxes = s.boxes := rfl
@[simp] theorem State.termSend_fc (s : State) (p : Packet) (op aux sz len : Nat) (h : BitVec 384) (ls : List Line) : (s.termSend p op aux sz len h ls).fc = s.fc := rfl
@[simp] theorem State.termSend_slots (s : State) (p : Packet) (op aux sz len : Nat) (h : BitVec 384) (ls : List Line) : (s.termSend p op aux sz len h ls).slots = s.slots := rfl
@[simp] theorem State.termSend_parts (s : State) (p : Packet) (op aux sz len : Nat) (h : BitVec 384) (ls : List Line) : (s.termSend p op aux sz len h ls).parts = s.parts := rfl
@[simp] theorem State.termSend_rings (s : State) (p : Packet) (op aux sz len : Nat) (h : BitVec 384) (ls : List Line) : (s.termSend p op aux sz len h ls).rings = s.rings := rfl
@[simp] theorem State.termSend_jobs (s : State) (p : Packet) (op aux sz len : Nat) (h : BitVec 384) (ls : List Line) : (s.termSend p op aux sz len h ls).jobs = s.jobs := rfl
@[simp] theorem State.termSend_residents (s : State) (p : Packet) (op aux sz len : Nat) (h : BitVec 384) (ls : List Line) : (s.termSend p op aux sz len h ls).residents = s.residents := rfl
@[simp] theorem State.termSend_clusters (s : State) (p : Packet) (op aux sz len : Nat) (h : BitVec 384) (ls : List Line) : (s.termSend p op aux sz len h ls).clusters = s.clusters := rfl
@[simp] theorem State.termSend_fields (s : State) (p : Packet) (op aux sz len : Nat) (h : BitVec 384) (ls : List Line) : (s.termSend p op aux sz len h ls).fields = s.fields := rfl
@[simp] theorem State.termSend_pw (s : State) (p : Packet) (op aux sz len : Nat) (h : BitVec 384) (ls : List Line) : (s.termSend p op aux sz len h ls).pw = s.pw := rfl
@[simp] theorem State.termSend_termini (s : State) (p : Packet) (op aux sz len : Nat) (h : BitVec 384) (ls : List Line) : (s.termSend p op aux sz len h ls).termini = s.termini := rfl
@[simp] theorem State.termSend_om (s : State) (p : Packet) (op aux sz len : Nat) (h : BitVec 384) (ls : List Line) : (s.termSend p op aux sz len h ls).om = s.om := rfl
@[simp] theorem State.termSend_host (s : State) (p : Packet) (op aux sz len : Nat) (h : BitVec 384) (ls : List Line) : (s.termSend p op aux sz len h ls).host = s.host := rfl
@[simp] theorem State.termSend_span (s : State) (p : Packet) (op aux sz len : Nat) (h : BitVec 384) (ls : List Line) : (s.termSend p op aux sz len h ls).span = s.span := rfl
@[simp] theorem State.termSend_ck (s : State) (p : Packet) (op aux sz len : Nat) (h : BitVec 384) (ls : List Line) : (s.termSend p op aux sz len h ls).ck = s.ck := rfl
@[simp] theorem State.termSend_nvm (s : State) (p : Packet) (op aux sz len : Nat) (h : BitVec 384) (ls : List Line) : (s.termSend p op aux sz len h ls).nvm = s.nvm := rfl
@[simp] theorem State.termSend_bu (s : State) (p : Packet) (op aux sz len : Nat) (h : BitVec 384) (ls : List Line) : (s.termSend p op aux sz len h ls).bu = s.bu := rfl
@[simp] theorem State.termSend_fuses (s : State) (p : Packet) (op aux sz len : Nat) (h : BitVec 384) (ls : List Line) : (s.termSend p op aux sz len h ls).fuses = s.fuses := rfl
@[simp] theorem State.termSend_sec (s : State) (p : Packet) (op aux sz len : Nat) (h : BitVec 384) (ls : List Line) : (s.termSend p op aux sz len h ls).sec = s.sec := rfl
@[simp] theorem State.termSend_served (s : State) (p : Packet) (op aux sz len : Nat) (h : BitVec 384) (ls : List Line) : (s.termSend p op aux sz len h ls).served = s.served := rfl

@[simp] theorem kPut_pending (s : State) (k : K) : (kPut s k).pending = s.pending := rfl
@[simp] theorem kPut_cc (s : State) (k : K) : (kPut s k).cc = s.cc := rfl
@[simp] theorem kPut_yc (s : State) (k : K) : (kPut s k).yc = s.yc := rfl
@[simp] theorem kPut_flights (s : State) (k : K) : (kPut s k).flights = s.flights := rfl
@[simp] theorem kPut_inbox (s : State) (k : K) : (kPut s k).inbox = s.inbox := rfl
@[simp] theorem kPut_accepted (s : State) (k : K) : (kPut s k).accepted = s.accepted := rfl
@[simp] theorem kPut_tin (s : State) (k : K) : (kPut s k).tin = s.tin := rfl
@[simp] theorem kPut_fp (s : State) (k : K) : (kPut s k).fp = s.fp := rfl
@[simp] theorem kPut_map (s : State) (k : K) : (kPut s k).map = s.map := rfl
@[simp] theorem kPut_yregs (s : State) (k : K) : (kPut s k).yregs = s.yregs := rfl
@[simp] theorem kPut_yHiLatch (s : State) (k : K) : (kPut s k).yHiLatch = s.yHiLatch := rfl
@[simp] theorem kPut_boxes (s : State) (k : K) : (kPut s k).boxes = s.boxes := rfl
@[simp] theorem kPut_fc (s : State) (k : K) : (kPut s k).fc = s.fc := rfl
@[simp] theorem kPut_parts (s : State) (k : K) : (kPut s k).parts = s.parts := rfl
@[simp] theorem kPut_rings (s : State) (k : K) : (kPut s k).rings = s.rings := rfl
@[simp] theorem kPut_jobs (s : State) (k : K) : (kPut s k).jobs = s.jobs := rfl
@[simp] theorem kPut_residents (s : State) (k : K) : (kPut s k).residents = s.residents := rfl
@[simp] theorem kPut_clusters (s : State) (k : K) : (kPut s k).clusters = s.clusters := rfl
@[simp] theorem kPut_fields (s : State) (k : K) : (kPut s k).fields = s.fields := rfl
@[simp] theorem kPut_pw (s : State) (k : K) : (kPut s k).pw = s.pw := rfl
@[simp] theorem kPut_termini (s : State) (k : K) : (kPut s k).termini = s.termini := rfl
@[simp] theorem kPut_om (s : State) (k : K) : (kPut s k).om = s.om := rfl
@[simp] theorem kPut_host (s : State) (k : K) : (kPut s k).host = s.host := rfl
@[simp] theorem kPut_span (s : State) (k : K) : (kPut s k).span = s.span := rfl
@[simp] theorem kPut_ck (s : State) (k : K) : (kPut s k).ck = s.ck := rfl
@[simp] theorem kPut_nvm (s : State) (k : K) : (kPut s k).nvm = s.nvm := rfl
@[simp] theorem kPut_bu (s : State) (k : K) : (kPut s k).bu = s.bu := rfl
@[simp] theorem kPut_fuses (s : State) (k : K) : (kPut s k).fuses = s.fuses := rfl
@[simp] theorem kPut_sec (s : State) (k : K) : (kPut s k).sec = s.sec := rfl
@[simp] theorem kPut_served (s : State) (k : K) : (kPut s k).served = s.served := rfl

end Sys2Proof.Machine
end

