-- ==== Sys2Proof/Laws/Core.lean ====
section
/-! SUPPORT. What a step of one core does to the state, what retiring an instruction does, and when a command issues its
instruction. -/

namespace Sys2Proof.Machine

/-! ### The working context -/

@[simp] theorem kOf_core (s : State) (c : CoreId) : (kOf s c).core = s.core c := rfl
@[simp] theorem kOf_c (s : State) (c : CoreId) : (kOf s c).c = c := rfl
@[simp] theorem kOf_out (s : State) (c : CoreId) : (kOf s c).out = [] := rfl
@[simp] theorem kOf_msgs (s : State) (c : CoreId) : (kOf s c).msgs = [] := rfl
@[simp] theorem kOf_abort (s : State) (c : CoreId) : (kOf s c).abort = none := rfl
@[simp] theorem kOf_progress (s : State) (c : CoreId) : (kOf s c).progress = false := rfl
@[simp] theorem kOf_free (s : State) (c : CoreId) : (kOf s c).free = s.freeCtr := rfl
@[simp] theorem kOf_resp (s : State) (c : CoreId) : (kOf s c).resp = s.resp := rfl
@[simp] theorem kOf_slot (s : State) (c : CoreId) : (kOf s c).slot = (s.core c).slotNo := rfl
@[simp] theorem kOf_here (s : State) (c : CoreId) : (kOf s c).here = s.epOf c := rfl
@[simp] theorem kOf_rt (s : State) (c : CoreId) : (kOf s c).rt = s.routers.get Router.reset (epKey (s.epOf c)) := rfl

/-- A live core lies on the grid. -/
theorem alive_onGrid {s : State} {c : CoreId} (h : s.alive c = true) : onGrid c = true := by
  simp [State.alive, State.present] at h; tauto

/-- A step of a live core is a step of that core. -/
theorem onLive_of_alive {s : State} {c : CoreId} (h : s.alive c = true) (f : K → K) :
    onLive c s f = kPut s (f (kOf s c)) := by
  simp [onLive, h, onCore, alive_onGrid h]

/-- The core after a step of it. -/
theorem kPut_core {s : State} {k : K} {c : CoreId} (hc : k.c = c) : (kPut s k).core c = k.core := by
  subst hc; simp [State.core, kPut, SMap.get_set_self]

/-- Another core after a step. -/
theorem kPut_other {s : State} {k : K} {c : CoreId} (hc : k.c = c) : s.othersKept (kPut s k) c := by
  subst hc
  exact ⟨rfl, fun n hn => by simp [kPut, SMap.get_set_other _ _ _ _ _ hn]⟩

@[simp] theorem kPut_transit (s : State) (k : K) : (kPut s k).transit = s.transit ++ k.msgs := rfl
@[simp] theorem kPut_inj (s : State) (k : K) : (kPut s k).inj = s.inj ++ k.out := rfl
@[simp] theorem kPut_resp (s : State) (k : K) : (kPut s k).resp = k.resp := rfl
@[simp] theorem kPut_freeCtr (s : State) (k : K) : (kPut s k).freeCtr = k.free := rfl

/-- The slots after a step that makes progress and aborts nothing. -/
theorem putSlot_progress (k : K) (m : SMap SectionSlot) (ha : k.abort = none) (hp : k.progress = true) (n : Nat) :
    (putSlot k m).get .reset n =
      if n = k.slot then { m.get .reset n with progress := true } else m.get .reset n := by
  simp only [putSlot, ha, hp, SMap.get_upd, Bool.or_true]
  split
  · rename_i h; subst h; cases (SMap.get SectionSlot.reset m k.slot).abortLine <;> rfl
  · rfl

/-- A step of a core that configures and deconfigures nothing keeps what its slot holds (R217). -/
theorem freeLine_kept {s : State} {k : K} {m : SMap SectionSlot} (hd : k.core.df = (s.core k.c).df) : freeLine s k m = m := by
  unfold freeLine Core.configured
  rw [hd]; cases (s.core k.c).df != .idle <;> rfl

/-- A step of a core that sends nothing and keeps its router changes that core alone. -/
theorem kPut_onlyCore {s : State} {k : K} {c : CoreId} (hc : k.c = c) (hh : k.here = s.epOf c)
    (hr : k.rt = s.routers.get Router.reset (epKey (s.epOf c))) (ho : k.out = []) (hm : k.msgs = []) (ha : k.abort = none)
    (hp : k.progress = true) (hf : k.free = s.freeCtr) (hv : k.resp = s.resp) (hs : k.slot = (s.core c).slotNo) (hd : k.core.df = (s.core k.c).df) :
    s.onlyCore (kPut s k) c := by
  refine ⟨?_, kPut_other hc, fun n => ?_⟩
  · simp [kPut, hh, hr, ho, hm, hf, hv]
  · rw [← hs, show (kPut s k).slots = freeLine s k (putSlot k s.slots) from rfl, freeLine_kept hd]
    exact putSlot_progress k s.slots ha hp n

/-! ### Retirement -/

/-- Counters and registers after retiring. -/
theorem retire_core (k : K) (n : Nat) : (k.retire n).core =
    (({ (k.core.count rCORE_RETIRED 1).count rPWC_SEQ 1 with pc := n, seq := .run, stallOn := [], issued := true } : Core).setReg rDF_NOPROG 0) := rfl

@[simp] theorem pairAt_setPair (m : SMap Word) (lo : Nat) (v : DWord) : pairAt (setPair m lo v) lo = v := by
  rw [show setPair m lo v = (m.set lo (lo32 v)).set (lo + 4) (hi32 v) from rfl,
    show pairAt _ lo = pair64 (SMap.get 0 _ (lo + 4)) (SMap.get 0 _ lo) from rfl, SMap.get_set_self,
    SMap.get_set_other _ _ _ _ _ (by omega), SMap.get_set_self]
  ext i hi; simp [pair64, lo32, hi32]; grind

/-- A pair that a write of another pair does not touch. -/
theorem pairAt_setPair_other (m : SMap Word) (lo p : Nat) (v : DWord) (h1 : p ≠ lo) (h2 : p ≠ lo + 4) (h3 : p + 4 ≠ lo) :
    pairAt (setPair m lo v) p = pairAt m p := by
  simp [pairAt, setPair, SMap.get_set, h1, h2, h3]

theorem pairAt_set_other (m : SMap Word) (n p : Nat) (v : Word) (h1 : p ≠ n) (h2 : p + 4 ≠ n) :
    pairAt (SMap.set m n v) p = pairAt m p := by
  simp [pairAt, SMap.get_set, h1, h2]

/-- A counter that advances by one. -/
@[simp] theorem pairAt_bump (m : SMap Word) (lo n : Nat) : pairAt (bump m lo n) lo = pairAt m lo + BitVec.ofNat 64 n := by
  unfold bump; split
  · rename_i h; subst h; simp
  · simp

theorem pairAt_bump_other (m : SMap Word) (lo p n : Nat) (h1 : p ≠ lo) (h2 : p ≠ lo + 4) (h3 : p + 4 ≠ lo) :
    pairAt (bump m lo n) p = pairAt m p := by
  unfold bump; split
  · rfl
  · exact pairAt_setPair_other _ _ _ _ h1 h2 h3

/-- A register outside an advanced counter. -/
theorem get_bump_other (m : SMap Word) (lo n p : Nat) (d : Word) (h1 : p ≠ lo) (h2 : p ≠ lo + 4) :
    SMap.get d (bump m lo n) p = SMap.get d m p := by
  unfold bump; split
  · rfl
  · simp [setPair, SMap.get_set, h1, h2]

/-- What retiring does to the registers of the block. -/
theorem retire_retired (k : K) (n : Nat) : Core.retired k.core (k.retire n).core n [] := by
  refine ⟨rfl, rfl, rfl, rfl, ?_, ?_, ?_, ?_⟩
  · simp only [retire_core, Core.setReg, Core.count]
    rw [pairAt_set_other _ _ _ _ (by decide) (by decide), pairAt_bump_other _ _ _ _ (by decide) (by decide) (by decide),
      pairAt_bump]; rfl
  · simp only [retire_core, Core.setReg, Core.count]
    rw [pairAt_set_other _ _ _ _ (by decide) (by decide), pairAt_bump,
      pairAt_bump_other _ _ _ _ (by decide) (by decide) (by decide)]; rfl
  · simp [retire_core, Core.setReg, Core.reg, SMap.get_set]
  · intro off h _
    simp only [retireRegs, List.mem_cons, List.not_mem_nil, or_false, not_or] at h
    simp only [retire_core, Core.setReg, Core.count, Core.reg]
    rw [SMap.get_set_other _ _ _ _ _ h.2.2.2.2, get_bump_other _ _ _ _ _ h.2.2.1 h.2.2.2.1,
      get_bump_other _ _ _ _ _ h.1 h.2.1]

/-! ### Issue -/

theorem popcount_zero39 : popcount (0#39) = 0 := by decide

/-- Where an instruction issues, its command does what its body does on the core. -/
theorem issue_of_issues {s : State} {c : CoreId} {i : Instr} {body : Nat → Word → K → K} (h : s.issues c i) :
    issue c i s body = .next (kPut s (body (s.core c).pc ((s.core c).insnAt (s.core c).pc) (kOf s c))) := by
  obtain ⟨h1, h2, h3, h4, h5, h6⟩ := h
  have hr : istoreRead ((s.core c).insnAt (s.core c).pc) (0 : BitVec 39) = some ((s.core c).insnAt (s.core c).pc, false) := by
    rw [istoreRead, show popcount (0 : BitVec 39) = 0 from popcount_zero39]; rfl
  simp only [issue, onLive_of_alive h1, issueK, kOf_core, kOf_c, h2, h3, Bool.not_true, Bool.false_eq_true, if_false,
    show ¬ 16383 < (s.core c).pc by omega, h5, hr, h6, if_true]

/-- Registers that wait for nothing let an instruction go on. -/
theorem whenReady_of_free {s : State} {c : CoreId} {rs qs : List SReg} (h : s.free c rs) (hq : ∀ r ∈ qs, r ∈ rs)
    (f : K → K) : (kOf s c).whenReady qs f = f (kOf s c) := by
  have : qs.any (s.core c).awaits = false := by
    simp only [List.any_eq_false]; intro r hr; simp [h r (hq r hr)]
  simp [K.whenReady, this]

/-- A scalar register after a write of one. -/
theorem setS_sregs (k : Core) (d : SReg) (v : DWord) : k.sregsSet (k.setS d v) d v := by
  intro r
  simp only [Core.sreg, Core.setS]
  by_cases hr : r = 0
  · simp [hr]
  · by_cases hd : d = 0
    · subst hd; simp only [if_true, if_neg hr]
    · simp only [if_neg hd, if_neg hr, SMap.get_set, BitVec.toNat_inj]

/-- An instruction that issues and computes one scalar register. -/
theorem computes_of_body {s : State} {c : CoreId} {i : Instr} {d : SReg} {v : DWord} {pc : Nat} {body : Nat → Word → K → K}
    (he : exec i s = issue c i s body)
    (hb : ∀ w, body (s.core c).pc w (kOf s c) = K.retire { kOf s c with core := (s.core c).setS d v } pc) :
    s.computes c i d v pc := by
  intro hi
  refine ⟨_, (he.trans (issue_of_issues hi)).trans (by rw [hb]), ?_, ?_, ?_, ?_⟩
  · exact kPut_onlyCore rfl rfl rfl rfl rfl rfl rfl rfl rfl rfl (by show (Core.setS _ _ _).df = _; unfold Core.setS; split <;> rfl)
  · rw [kPut_core (show K.c _ = c from rfl)]
    simp only [Core.engineKept, retire_core, Core.setReg, Core.count, Core.setS]
    split <;> rfl
  · rw [kPut_core (show K.c _ = c from rfl)]
    have h := retire_retired { kOf s c with core := (s.core c).setS d v } pc
    have hr : ((s.core c).setS d v).regs = (s.core c).regs := by simp only [Core.setS]; split <;> rfl
    simpa only [Core.retired, Core.reg, hr] using h
  · rw [kPut_core (show K.c _ = c from rfl)]
    exact setS_sregs _ _ _

end Sys2Proof.Machine
end

