-- ==== Sys2Proof/Laws/Encoding.lean ====
section
/-! SUPPORT. The fields of the instruction words that the formats build. -/

namespace Sys2Proof.Machine

@[simp] theorem fOp_wordA (op : BitVec 6) (d a b : SReg) (func : BitVec 11) : fOp (wordA op d a b func) = (op).toNat := by
  rw [show fOp (wordA op d a b func) = ((wordA op d a b func).extractLsb' 26 6).toNat from rfl]; congr 1
  ext i hi; simp [wordA]; grind

@[simp] theorem fD_wordA (op : BitVec 6) (d a b : SReg) (func : BitVec 11) : fD (wordA op d a b func) = d := by
  ext i hi; simp [fD, wordA]; grind

@[simp] theorem fA_wordA (op : BitVec 6) (d a b : SReg) (func : BitVec 11) : fA (wordA op d a b func) = a := by
  ext i hi; simp [fA, wordA]; grind

@[simp] theorem fB_wordA (op : BitVec 6) (d a b : SReg) (func : BitVec 11) : fB (wordA op d a b func) = b := by
  ext i hi; simp [fB, wordA]; grind

@[simp] theorem fFunc_wordA (op : BitVec 6) (d a b : SReg) (func : BitVec 11) : fFunc (wordA op d a b func) = (func).toNat := by
  rw [show fFunc (wordA op d a b func) = ((wordA op d a b func).extractLsb' 0 11).toNat from rfl]; congr 1
  ext i hi; simp [wordA]; grind

@[simp] theorem fOp_wordI (op : BitVec 6) (d a : SReg) (imm : BitVec 16) : fOp (wordI op d a imm) = (op).toNat := by
  rw [show fOp (wordI op d a imm) = ((wordI op d a imm).extractLsb' 26 6).toNat from rfl]; congr 1
  ext i hi; simp [wordI]; grind

@[simp] theorem fD_wordI (op : BitVec 6) (d a : SReg) (imm : BitVec 16) : fD (wordI op d a imm) = d := by
  ext i hi; simp [fD, wordI]; grind

@[simp] theorem fA_wordI (op : BitVec 6) (d a : SReg) (imm : BitVec 16) : fA (wordI op d a imm) = a := by
  ext i hi; simp [fA, wordI]; grind

@[simp] theorem fImm_wordI (op : BitVec 6) (d a : SReg) (imm : BitVec 16) : fImm (wordI op d a imm) = imm := by
  ext i hi; simp [fImm, wordI]; grind

@[simp] theorem field_wordI (op : BitVec 6) (d a : SReg) (imm : BitVec 16) : field (wordI op d a imm) 0 16 = (imm).toNat := by
  rw [show field (wordI op d a imm) 0 16 = ((wordI op d a imm).extractLsb' 0 16).toNat from rfl]; congr 1
  ext i hi; simp [wordI]; grind

@[simp] theorem field_wordI_shift (op : BitVec 6) (d a : SReg) (k : BitVec 10) (amt : BitVec 6) : field (wordI op d a (k ++ amt)) 6 10 = (k).toNat := by
  rw [show field (wordI op d a (k ++ amt)) 6 10 = ((wordI op d a (k ++ amt)).extractLsb' 6 10).toNat from rfl]; congr 1
  ext i hi; simp [wordI]; grind

@[simp] theorem amt_wordI (op : BitVec 6) (d a : SReg) (k : BitVec 10) (amt : BitVec 6) : (wordI op d a (k ++ amt)).extractLsb' 0 6 = amt := by
  ext i hi; simp [wordI]; grind

@[simp] theorem fOp_wordJ (op : BitVec 6) (off : BitVec 26) : fOp (wordJ op off) = (op).toNat := by
  rw [show fOp (wordJ op off) = ((wordJ op off).extractLsb' 26 6).toNat from rfl]; congr 1
  ext i hi; simp [wordJ]; grind

@[simp] theorem off_wordJ (op : BitVec 6) (off : BitVec 26) : (wordJ op off).extractLsb' 0 26 = off := by
  ext i hi; simp [wordJ]; grind

@[simp] theorem fOp_wordV (vd va vb vc : VReg) (func : BitVec 10) : fOp (wordV vd va vb vc func) = (0x20#6).toNat := by
  rw [show fOp (wordV vd va vb vc func) = ((wordV vd va vb vc func).extractLsb' 26 6).toNat from rfl]; congr 1
  ext i hi; simp [wordV]; grind

@[simp] theorem vd_wordV (vd va vb vc : VReg) (func : BitVec 10) : (wordV vd va vb vc func).extractLsb' 22 4 = vd := by
  ext i hi; simp [wordV]; grind

@[simp] theorem va_wordV (vd va vb vc : VReg) (func : BitVec 10) : (wordV vd va vb vc func).extractLsb' 18 4 = va := by
  ext i hi; simp [wordV]; grind

@[simp] theorem vb_wordV (vd va vb vc : VReg) (func : BitVec 10) : (wordV vd va vb vc func).extractLsb' 14 4 = vb := by
  ext i hi; simp [wordV]; grind

@[simp] theorem vc_wordV (vd va vb vc : VReg) (func : BitVec 10) : (wordV vd va vb vc func).extractLsb' 10 4 = vc := by
  ext i hi; simp [wordV]; grind

@[simp] theorem func_wordV (vd va vb vc : VReg) (func : BitVec 10) : field (wordV vd va vb vc func) 0 10 = (func).toNat := by
  rw [show field (wordV vd va vb vc func) 0 10 = ((wordV vd va vb vc func).extractLsb' 0 10).toNat from rfl]; congr 1
  ext i hi; simp [wordV]; grind

@[simp] theorem fOp_wordVM (op : BitVec 6) (v : VReg) (sa : SReg) (off : BitVec 17) : fOp (wordVM op v sa off) = (op).toNat := by
  rw [show fOp (wordVM op v sa off) = ((wordVM op v sa off).extractLsb' 26 6).toNat from rfl]; congr 1
  ext i hi; simp [wordVM]; grind

@[simp] theorem v_wordVM (op : BitVec 6) (v : VReg) (sa : SReg) (off : BitVec 17) : (wordVM op v sa off).extractLsb' 22 4 = v := by
  ext i hi; simp [wordVM]; grind

@[simp] theorem sa_wordVM (op : BitVec 6) (v : VReg) (sa : SReg) (off : BitVec 17) : (wordVM op v sa off).extractLsb' 17 5 = sa := by
  ext i hi; simp [wordVM]; grind

@[simp] theorem off_wordVM (op : BitVec 6) (v : VReg) (sa : SReg) (off : BitVec 17) : (wordVM op v sa off).extractLsb' 0 17 = off := by
  ext i hi; simp [wordVM]; grind

@[simp] theorem fOp_wordM (sa sb : SReg) (fmt : BitVec 4) (acc : BitVec 2) (inc : Bool) (func : BitVec 3) : fOp (wordM sa sb fmt acc inc func) = (0x28#6).toNat := by
  rw [show fOp (wordM sa sb fmt acc inc func) = ((wordM sa sb fmt acc inc func).extractLsb' 26 6).toNat from rfl]; congr 1
  ext i hi; simp [wordM]; grind

@[simp] theorem fD_wordM (sa sb : SReg) (fmt : BitVec 4) (acc : BitVec 2) (inc : Bool) (func : BitVec 3) : fD (wordM sa sb fmt acc inc func) = sa := by
  ext i hi; simp [fD, wordM]; grind

@[simp] theorem fA_wordM (sa sb : SReg) (fmt : BitVec 4) (acc : BitVec 2) (inc : Bool) (func : BitVec 3) : fA (wordM sa sb fmt acc inc func) = sb := by
  ext i hi; simp [fA, wordM]; grind

@[simp] theorem fmt_wordM (sa sb : SReg) (fmt : BitVec 4) (acc : BitVec 2) (inc : Bool) (func : BitVec 3) : (wordM sa sb fmt acc inc func).extractLsb' 12 4 = fmt := by
  ext i hi; simp [wordM]; grind

@[simp] theorem acc_wordM (sa sb : SReg) (fmt : BitVec 4) (acc : BitVec 2) (inc : Bool) (func : BitVec 3) : (wordM sa sb fmt acc inc func).extractLsb' 10 2 = acc := by
  ext i hi; simp [wordM]; grind

@[simp] theorem inc_wordM (sa sb : SReg) (fmt : BitVec 4) (acc : BitVec 2) (inc : Bool) (func : BitVec 3) : (wordM sa sb fmt acc inc func)[9] = inc := by
  simp [wordM]; grind

@[simp] theorem func_wordM (sa sb : SReg) (fmt : BitVec 4) (acc : BitVec 2) (inc : Bool) (func : BitVec 3) : field (wordM sa sb fmt acc inc func) 6 3 = (func).toNat := by
  rw [show field (wordM sa sb fmt acc inc func) 6 3 = ((wordM sa sb fmt acc inc func).extractLsb' 6 3).toNat from rfl]; congr 1
  ext i hi; simp [wordM]; grind

@[simp] theorem low2_append (v : BitVec 2) : (0#2 ++ v).extractLsb' 0 2 = v := by
  ext i hi; simp; grind

@[simp] theorem low4_append (v : VReg) : (0#1 ++ v).extractLsb' 0 4 = v := by
  ext i hi; simp; grind

@[simp] theorem high_append (v : VReg) : (0#1 ++ v)[4] = false := by
  grind

end Sys2Proof.Machine
end

