-- ==== Sys2Proof/Laws/Span.lean ====
section
/-! SUPPORT. What is sealed opens: the lengths of blocks, counter mode undoes itself, and a packet or a flit read back is the one sent. -/

namespace Sys2Proof.Machine

theorem leBytes_length (n v : Nat) : (leBytes n v).length = n := by
  induction n generalizing v with
  | zero => rfl
  | succ n ih => simp [leBytes, ih]

theorem leNat_append (a b : List Byte) : leNat (a ++ b) = leNat a + 256 ^ a.length * leNat b := by
  induction a with
  | nil => simp [leNat]
  | cons x t ih => simp only [List.cons_append, leNat, ih, List.length_cons, Nat.pow_succ]; ring

/-- Bytes read as a number and written again are the same. -/
theorem leBytes_leNat (l : List Byte) : leBytes l.length (leNat l) = l := by
  induction l with
  | nil => rfl
  | cons b t ih =>
    have h : (b.toNat + 256 * leNat t) / 256 = leNat t := by have := b.isLt; omega
    simp only [List.length_cons, leBytes, leNat, h, ih]
    congr 1
    apply BitVec.eq_of_toNat_eq
    have := b.isLt
    simp only [BitVec.toNat_ofNat]
    omega

/-! ### Blocks -/

theorem xorBlock_length (a b : Block) : (xorBlock a b).length = min a.length b.length := by simp [xorBlock]

theorem nth_mem {α : Type} (d : α) (l : List α) (n : Nat) (h : n < l.length) : nth d l n ∈ l := by
  induction l generalizing n with
  | nil => simp at h
  | cons a t ih =>
    cases n with
    | zero => simp [nth]
    | succ n => exact List.mem_cons_of_mem _ (ih n (by simpa using h))

/-- Words of a key schedule under way: each of four bytes, and at least eight. -/
def goodWords (ws : List (List Byte)) : Prop := 8 ≤ ws.length ∧ ∀ w ∈ ws, w.length = 4

theorem nextKeyWord_good {ws : List (List Byte)} (h : goodWords ws) :
    goodWords (nextKeyWord ws) ∧ (nextKeyWord ws).length = ws.length + 1 := by
  obtain ⟨h8, hw⟩ := h
  have h0 := hw _ (nth_mem [] ws 0 (by omega))
  have h7 := hw _ (nth_mem [] ws 7 (by omega))
  refine ⟨⟨by simp [nextKeyWord]; omega, fun w hm => ?_⟩, by simp [nextKeyWord]⟩
  simp only [nextKeyWord, List.mem_cons] at hm
  rcases hm with rfl | hm
  · rw [xorBlock_length, h7]
    split
    · simp [xorBlock_length, h0]
    · split <;> simp [h0]
  · exact hw w hm

theorem keyWords_good (n : Nat) {ws : List (List Byte)} (h : goodWords ws) :
    goodWords ((List.range n).foldl (fun l _ => nextKeyWord l) ws) ∧
      ((List.range n).foldl (fun l _ => nextKeyWord l) ws).length = ws.length + n := by
  induction n with
  | zero => exact ⟨h, rfl⟩
  | succ n ih =>
    rw [List.range_succ, List.foldl_append]
    obtain ⟨a, b⟩ := nextKeyWord_good ih.1
    exact ⟨a, by simp only [List.foldl_cons, List.foldl_nil, b, ih.2]; omega⟩

theorem flatten_length4 (l : List (List Byte)) (h : ∀ w ∈ l, w.length = 4) : l.flatten.length = 4 * l.length := by
  induction l with
  | nil => rfl
  | cons a t ih =>
    simp only [List.flatten_cons, List.length_append, List.length_cons, h a (by simp), ih (fun w hw => h w (List.mem_cons_of_mem _ hw))]
    omega

/-- Every round key is a block. -/
theorem roundKeys_block (key : BitVec 256) (r : Nat) (h : r < 15) : (nth [] (roundKeys key) r).length = 16 := by
  have hf : goodWords ((List.range 8).map (fun i => ((leBytes 32 key.toNat).drop (4 * i)).take 4)).reverse := by
    refine ⟨by simp, fun w hw => ?_⟩
    simp only [List.mem_reverse, List.mem_map, List.mem_range] at hw
    obtain ⟨i, hi, rfl⟩ := hw
    simp [leBytes_length]
    omega
  obtain ⟨⟨_, hw⟩, hl⟩ := keyWords_good 52 hf
  have hm := nth_mem [] (roundKeys key) r (by simpa [roundKeys] using h)
  simp only [roundKeys, List.mem_map, List.mem_range] at hm
  obtain ⟨i, hi, hm⟩ := hm
  rw [show nth [] (roundKeys key) r = _ from hm.symm, flatten_length4]
  · simp only [List.length_take, List.length_drop, List.length_reverse, hl, List.length_map, List.length_range]
    omega
  · intro w hw'
    exact hw w (List.mem_reverse.mp (List.mem_of_mem_drop (List.mem_of_mem_take hw')))

theorem aes_block (key : BitVec 256) (b : Block) : (aes (roundKeys key) b).length = 16 := by
  simp [aes, xorBlock_length, shiftRows, roundKeys_block key 14 (by omega)]

/-! ### Counter mode -/

/-- The stream that counter mode adds: `n` blocks. -/
def gcmStream (key : BitVec 256) (iv : List Byte) (n : Nat) : List Byte :=
  (List.range n).flatMap (fun i => aes (roundKeys key) (iv ++ bigBytes 4 (i + 2)))

theorem gcmStream_length (key : BitVec 256) (iv : List Byte) (n : Nat) : (gcmStream key iv n).length = 16 * n := by
  induction n with
  | zero => rfl
  | succ n ih =>
    have : gcmStream key iv (n + 1) = gcmStream key iv n ++ aes (roundKeys key) (iv ++ bigBytes 4 (n + 2)) := by
      simp [gcmStream, List.range_succ, List.flatMap_append]
    rw [this, List.length_append, ih, aes_block]
    omega

theorem zipWith_take_left {α : Type} (f : α → α → α) (a b : List α) : List.zipWith f (a.take b.length) b = List.zipWith f a b := by
  induction b generalizing a with
  | nil => simp
  | cons y t ih => cases a with
    | nil => simp
    | cons x s => simp [ih]

theorem zipWith_append_both {α : Type} (f : α → α → α) (a b c : List α) :
    List.zipWith f a (b ++ c) = List.zipWith f (a.take b.length) b ++ List.zipWith f (a.drop b.length) c := by
  induction b generalizing a with
  | nil => simp
  | cons y t ih => cases a with
    | nil => simp
    | cons x s => simp [ih]

theorem gcmCrypt_stream (key : BitVec 256) (iv : List Byte) (n : Nat) (text : List Byte) :
    (List.range n).flatMap (fun i => xorBlock ((text.drop (16 * i)).take 16) (aes (roundKeys key) (iv ++ bigBytes 4 (i + 2)))) =
      xorBlock text (gcmStream key iv n) := by
  induction n with
  | zero => simp [gcmStream, xorBlock]
  | succ n ih =>
    have h : gcmStream key iv (n + 1) = gcmStream key iv n ++ aes (roundKeys key) (iv ++ bigBytes 4 (n + 2)) := by
      simp [gcmStream, List.range_succ, List.flatMap_append]
    rw [List.range_succ, List.flatMap_append, ih, h]
    simp only [xorBlock, List.flatMap_cons, List.flatMap_nil, List.append_nil]
    have a := zipWith_take_left (· ^^^ ·) text (gcmStream key iv n)
    have b := zipWith_take_left (· ^^^ ·) (text.drop (16 * n)) (aes (roundKeys key) (iv ++ bigBytes 4 (n + 2)))
    rw [gcmStream_length] at a
    rw [aes_block] at b
    rw [zipWith_append_both, gcmStream_length, a, b]

theorem gcmCrypt_eq (key : BitVec 256) (iv text : List Byte) :
    gcmCrypt (roundKeys key) iv text = xorBlock text (gcmStream key iv ((text.length + 15) / 16)) := gcmCrypt_stream key iv _ text

theorem gcmCrypt_length (key : BitVec 256) (iv text : List Byte) : (gcmCrypt (roundKeys key) iv text).length = text.length := by
  rw [gcmCrypt_eq, xorBlock_length, gcmStream_length]
  omega

theorem xorBlock_twice (a k : List Byte) (h : a.length ≤ k.length) : xorBlock (xorBlock a k) k = a := by
  induction a generalizing k with
  | nil => simp [xorBlock]
  | cons x t ih =>
    cases k with
    | nil => simp at h
    | cons y s =>
      have hx : x ^^^ y ^^^ y = x := by rw [BitVec.xor_assoc, BitVec.xor_self, BitVec.xor_zero]
      have := ih s (by simpa using h)
      simp only [xorBlock] at this
      simp [xorBlock, this, hx]

/-- Counter mode undoes itself (R308). -/
theorem gcmCrypt_twice (key : BitVec 256) (iv text : List Byte) :
    gcmCrypt (roundKeys key) iv (gcmCrypt (roundKeys key) iv text) = text := by
  rw [gcmCrypt_eq key iv (gcmCrypt _ iv text), gcmCrypt_length, gcmCrypt_eq, xorBlock_twice]
  rw [gcmStream_length]
  omega

theorem gcmTag_length (key : BitVec 256) (iv aad ct : List Byte) : (gcmTag (roundKeys key) iv aad ct).length = 16 := by
  simp [gcmTag, xorBlock_length, bigBytes, leBytes_length, aes_block]

/-! ### Packets and flits -/

theorem aad_length (q : SpanPacket) : q.aad.length = 16 := by simp [SpanPacket.aad, leBytes_length]

/-- The length of a sealed packet: its header's clear part, the rest, and the tag (R307). -/
theorem seal_length (key : BitVec 288) (q : SpanPacket) : (q.seal key).length = 32 + q.body.length := by
  simp only [SpanPacket.seal, List.length_append, aad_length, gcmCrypt_length, gcmTag_length]
  omega

/-- A packet that was sealed opens under the same key, with what was put into it (R308). -/
theorem spanOpen_seal (key : BitVec 288) (q : SpanPacket) : spanOpen key (q.seal key) = some (spanFields q.aad q.body) := by
  have ha := aad_length q
  have hn : (q.seal key).length - 32 = q.body.length := by rw [seal_length]; omega
  have hc := gcmCrypt_length (key.extractLsb' 0 256) (spanIv key (q.aad.take 8)) q.body
  have h1 : (q.seal key).take 16 = q.aad := by simp [SpanPacket.seal, ← ha]
  have h2 : ((q.seal key).drop 16).take q.body.length = gcmCrypt (roundKeys (key.extractLsb' 0 256)) (spanIv key (q.aad.take 8)) q.body := by
    simp only [SpanPacket.seal, List.append_assoc]
    rw [← ha, List.drop_left, ← hc, List.take_left]
  have h3 : (q.seal key).drop (16 + q.body.length) = gcmTag (roundKeys (key.extractLsb' 0 256)) (spanIv key (q.aad.take 8)) q.aad
      (gcmCrypt (roundKeys (key.extractLsb' 0 256)) (spanIv key (q.aad.take 8)) q.body) := by
    simp only [SpanPacket.seal]
    rw [show 16 + q.body.length = (q.aad ++ gcmCrypt (roundKeys (key.extractLsb' 0 256)) (spanIv key (q.aad.take 8)) q.body).length by
      rw [List.length_append, ha, hc], List.drop_left]
  simp only [spanOpen, hn, h1, h2, h3, bne_self_eq_false, Bool.false_eq_true, if_false, gcmCrypt_twice]

theorem crc32_bytes (f : SpanFlit) (h : f.payload.length = 248) : f.bytes.length = 252 := by simp [SpanFlit.bytes, leBytes_length, h]

theorem leNat_lt (l : List Byte) : leNat l < 256 ^ l.length := by
  induction l with
  | nil => simp [leNat]
  | cons b t ih =>
    have := b.isLt
    simp only [leNat, List.length_cons, Nat.pow_succ]
    omega

theorem leNat_leBytes (n v : Nat) : leNat (leBytes n v) = v % 256 ^ n := by
  induction n generalizing v with
  | zero => simp [leNat, leBytes, Nat.mod_one]
  | succ n ih =>
    simp only [leBytes, leNat, ih, BitVec.toNat_ofNat]
    rw [show (256 : Nat) ^ (n + 1) = 256 * 256 ^ n by rw [Nat.pow_succ, Nat.mul_comm], Nat.mod_mul]

/-- The first 32 bits of a flit. -/
def SpanFlit.head (f : SpanFlit) : BitVec 32 := f.type ++ f.xoff ++ f.fseq ++ f.first ++ (0 : Byte)

theorem flit_head (f : SpanFlit) : f.head.extractLsb' 29 3 = f.type ∧ f.head.extractLsb' 27 2 = f.xoff ∧
    f.head.extractLsb' 16 11 = f.fseq ∧ f.head.extractLsb' 8 8 = f.first := by
  refine ⟨?_, ?_, ?_, ?_⟩ <;> ext i hi <;>
    simp only [SpanFlit.head, BitVec.getElem_extractLsb', BitVec.getLsbD_append] <;>
    (repeat' split) <;> first
      | omega
      | (simp only [← BitVec.getLsbD_eq_getElem]; congr 1; omega)

theorem extract_low (w : BitVec 2048) (s l : Nat) (h : s + l ≤ 32) :
    w.extractLsb' s l = (w.extractLsb' 0 32).extractLsb' s l := by
  ext i hi
  simp only [BitVec.getElem_extractLsb', BitVec.getLsbD_extractLsb', Nat.zero_add]
  rw [show decide (s + i < 32) = true by simp; omega, Bool.true_and]

theorem toNat_ofNat_lt {w n : Nat} (h : n < 2 ^ w) : (BitVec.ofNat w n).toNat = n := by rw [BitVec.toNat_ofNat, Nat.mod_eq_of_lt h]

theorem pow256 (n : Nat) : (256 : Nat) ^ n = 2 ^ (8 * n) := by rw [show (256 : Nat) = 2 ^ 8 from rfl, ← Nat.pow_mul]

/-- A flit that was sent passes its CRC and carries what was put into it (R303). -/
theorem spanFlitOf_word (f : SpanFlit) (h : f.payload.length = 248) : spanFlitOf f.word = (f, true) := by
  have hb := crc32_bytes f h
  have hl : (f.bytes ++ leBytes 4 (crc32 f.bytes).toNat).length = 256 := by simp [hb, leBytes_length]
  have hlt := leNat_lt (f.bytes ++ leBytes 4 (crc32 f.bytes).toNat)
  rw [hl, pow256, show 8 * 256 = 2048 from rfl] at hlt
  have hw : f.word.toNat = leNat (f.bytes ++ leBytes 4 (crc32 f.bytes).toNat) := toNat_ofNat_lt hlt
  have hbs : leBytes 256 f.word.toNat = f.bytes ++ leBytes 4 (crc32 f.bytes).toNat := by
    rw [hw, ← hl, leBytes_leNat]
  have hcrc : f.word.extractLsb' 2016 32 = crc32 f.bytes := by
    apply BitVec.eq_of_toNat_eq
    rw [BitVec.extractLsb'_toNat, hw, leNat_append, hb, leNat_leBytes, pow256 252]
    have h1 := leNat_lt f.bytes
    rw [hb, pow256] at h1
    have h2 := (crc32 f.bytes).isLt
    rw [Nat.shiftRight_eq_div_pow, Nat.add_mul_div_left _ _ (by positivity), Nat.div_eq_of_lt h1, Nat.zero_add,
      pow256, Nat.mod_mod, Nat.mod_eq_of_lt h2]
  have hhead : f.word.extractLsb' 0 32 = f.head := by
    apply BitVec.eq_of_toNat_eq
    rw [BitVec.extractLsb'_toNat, hw, SpanFlit.bytes, List.append_assoc, leNat_append, leBytes_length, leNat_leBytes,
      pow256]
    have h2 := f.head.isLt
    rw [Nat.shiftRight_zero, Nat.add_mul_mod_self_left, Nat.mod_mod]
    exact Nat.mod_eq_of_lt h2
  obtain ⟨a, b, c, d⟩ := flit_head f
  have hp : ((f.bytes ++ leBytes 4 (crc32 f.bytes).toNat).drop 4).take 248 = f.payload := by
    simp only [SpanFlit.bytes, List.append_assoc]
    rw [List.drop_left' (leBytes_length 4 _), List.take_left' h]
  have ht : (f.bytes ++ leBytes 4 (crc32 f.bytes).toNat).take 252 = f.bytes := by rw [← hb, List.take_left]
  simp only [spanFlitOf, hbs, hp, ht, hcrc, extract_low f.word 29 3 (by omega), extract_low f.word 27 2 (by omega),
    extract_low f.word 16 11 (by omega), extract_low f.word 8 8 (by omega), hhead, a, b, c, d, beq_self_eq_true]

theorem nth_append {α : Type} (d : α) (a b : List α) (n : Nat) (h : n < a.length) : nth d (a ++ b) n = nth d a n := by
  induction a generalizing n with
  | nil => simp at h
  | cons x t ih => cases n with
    | zero => rfl
    | succ n => exact ih n (by simpa using h)

theorem lines_length (l : List Line) : (l.flatMap Line.bytes).length = 64 * l.length := by
  induction l with
  | nil => rfl
  | cons a t ih => simp only [List.flatMap_cons, List.length_append, ih, List.length_cons]; simp [Line.bytes]; omega

theorem body_length (q : SpanPacket) : q.body.length = 16 + (if q.hasHead then 64 else 0) + 64 * q.lines.length := by
  simp only [SpanPacket.body, List.length_append, leBytes_length, lines_length]
  split <;> simp [leBytes_length]

/-- Byte `8 + n` of the header. -/
theorem aad_byte (q : SpanPacket) (n : Nat) : nth 0 q.aad (8 + n) =
    nth 0 ([q.op ++ BitVec.ofBool q.vc ++ BitVec.ofNat 3 q.lines.length, BitVec.ofBool q.kepoch ++ BitVec.ofBool q.sys ++ q.mode ++ q.rpid] ++
      leBytes 2 q.stxid.toNat ++ [q.sz.setWidth 8, q.aux, 0, 0]) n := by
  rw [Nat.add_comm]
  simp [SpanPacket.aad, leBytes, nth]

/-- The bytes of a packet tell its length (R307). -/
theorem spanLength_seal (key : BitVec 288) (q : SpanPacket) (rest : List Byte)
    (hop : q.op = 0 ∨ q.op = 1 ∨ q.op = 9 ∨ q.op = 10 ∨ q.op = 11) (hl : q.lines.length ≤ 4) :
    spanLength (q.seal key ++ rest) = some (q.seal key).length := by
  have hlen := seal_length key q
  have hb := body_length q
  have h8 : ∀ n, n < 16 → nth 0 (q.seal key ++ rest) n = nth 0 q.aad n := fun n hn => by
    rw [SpanPacket.seal, List.append_assoc, List.append_assoc, nth_append _ _ _ _ (by rw [aad_length]; exact hn)]
  have e8 : nth 0 (q.seal key ++ rest) 8 = q.op ++ BitVec.ofBool q.vc ++ BitVec.ofNat 3 q.lines.length := by
    rw [h8 8 (by omega), aad_byte q 0]; rfl
  have e12 : nth 0 (q.seal key ++ rest) 12 = q.sz.setWidth 8 := by
    rw [h8 12 (by omega), aad_byte q 4]; rfl
  have hop8 : ∀ (o : BitVec 4) (v : Bool) (l : BitVec 3), ((o ++ BitVec.ofBool v ++ l : BitVec 8) >>> 4).toNat = o.toNat ∧
      ((o ++ BitVec.ofBool v ++ l : BitVec 8) &&& 7#8).toNat = l.toNat := by decide
  have hsz : ∀ z : BitVec 3, (z.setWidth 8 &&& 7#8).toNat = z.toNat := by decide
  have hln : (BitVec.ofNat 3 q.lines.length).toNat = q.lines.length := by rw [BitVec.toNat_ofNat]; omega
  have hin : ((q.op.toNat == 0 || q.op.toNat == 1 || q.op.toNat == 9 || q.op.toNat == 10 || q.op.toNat == 11) &&
      decide (q.lines.length ≤ 4)) = true := by
    rcases hop with h | h | h | h | h <;> simp [h, hl]
  have hone : q.op.toNat = 1 ↔ q.op = 1 := ⟨fun h => BitVec.eq_of_toNat_eq (by simpa using h), fun h => by simp [h]⟩
  have h13 : ¬ (q.seal key ++ rest).length < 13 := by rw [List.length_append]; omega
  simp only [spanLength, h13, if_false, e8, e12, (hop8 _ _ _).1, (hop8 _ _ _).2, hsz, hln, hin, if_true, hlen, hb, hone,
    SpanPacket.hasHead, Bool.and_eq_true, beq_iff_eq, decide_eq_true_eq]
  congr 1
  omega

/-- A data flit that begins with one packet and then holds bytes of ones carries that packet (R303, log entry 112). -/
theorem packets_seal (key : BitVec 288) (q : SpanPacket) (f : SpanFlit) (k : Nat)
    (hop : q.op = 0 ∨ q.op = 1 ∨ q.op = 9 ∨ q.op = 10 ∨ q.op = 11) (hl : q.lines.length ≤ 4) (hf : f.first = 0) (hk : 13 ≤ k)
    (hp : f.payload = q.seal key ++ List.replicate k 0xFF) : f.packets [] = ([q.seal key], []) := by
  have h0 : (q.seal key).length ≠ 0 := by rw [seal_length]; omega
  have hn : ¬ (q.seal key ++ List.replicate k (0xFF : Byte)).length < (q.seal key).length := by rw [List.length_append]; omega
  have hones : spanLength (List.replicate k (0xFF : Byte)) = some 0 := by
    obtain ⟨j, rfl⟩ : ∃ j, k = 13 + j := ⟨k - 13, by omega⟩
    rw [List.replicate_add]
    simp [spanLength, nth, List.replicate]
  have hff : (f.first == 255) = false := by rw [hf]; decide
  have hz : f.first.toNat = 0 := by rw [hf]; rfl
  simp only [SpanFlit.packets, hff, hz, hp, List.isEmpty_nil, if_true, Bool.false_eq_true, if_false, List.drop_zero,
    cutPackets, spanLength_seal key q _ hop hl, h0, hn, List.take_left, List.drop_left, hones, List.nil_append]

end Sys2Proof.Machine
end

