-- ==== Sys2Proof/Laws/Yard.lean ====
section
/-! SUPPORT. What the shared updates of the yard change, one lemma for each, and when a write to yard space is served. -/

namespace Sys2Proof.Machine

/-! ### Reading after an update -/

@[simp] theorem yreg_setYreg (s : State) (o p : Nat) (v : Word) : (s.setYreg o v).yreg p = if p = o then v else s.yreg p := by
  simp [State.yreg, State.setYreg, SMap.get_set]

/-- A counter of the yard advances by `n`, wherever it stands. -/
theorem get_setPair (m : SMap Word) (lo p : Nat) (v : DWord) (d : Word) :
    SMap.get d (setPair m lo v) p = if p = lo + 4 then hi32 v else if p = lo then lo32 v else SMap.get d m p := by
  simp [setPair, SMap.get_set]

/-- The halves of a doubleword give it back. -/
theorem pair64_halves (v : DWord) : pair64 (hi32 v) (lo32 v) = v := by
  simp only [pair64, hi32, lo32]
  ext i hi
  simp
  grind

theorem pairAt_bump_self (m : SMap Word) (lo n : Nat) : pairAt (bump m lo n) lo = pairAt m lo + BitVec.ofNat 64 n := by
  unfold bump
  split
  · rename_i h; subst h; simp
  · simp only [pairAt, get_setPair]
    simp only [show ¬ (lo = lo + 4) from by omega, ite_true, ite_false]
    exact pair64_halves _

theorem ycount_yadds (s : State) (lo n : Nat) : s.yadds (s.ycount lo n) lo n := pairAt_bump_self s.yregs lo n

@[simp] theorem cluster_setCluster (s : State) (n m : Nat) (f : Cluster → Cluster) :
    (s.setCluster n f).cluster m = if m = n then f (s.cluster n) else s.cluster m := by
  simp [State.cluster, State.setCluster, SMap.upd, SMap.get_set]

@[simp] theorem fieldPower_onField (s : State) (n m : Nat) (f : FieldPower → FieldPower) :
    (s.onField n f).fieldPower m = if m = n then f (s.fieldPower n) else s.fieldPower m := by
  simp [State.fieldPower, State.onField, SMap.upd, SMap.get_set]

@[simp] theorem terminus_onTerminus (s : State) (n m : Nat) (f : Terminus → Terminus) :
    (s.onTerminus n f).terminus m = if m = n then f (s.terminus n) else s.terminus m := by
  simp [State.terminus, State.onTerminus, SMap.upd, SMap.get_set]

@[simp] theorem spanPort_onPort (s : State) (n m : Nat) (f : SpanPort → SpanPort) :
    (s.onPort n f).spanPort m = if m = n then f (s.spanPort n) else s.spanPort m := by
  simp [State.spanPort, State.onPort, SMap.upd, SMap.get_set]

@[simp] theorem partition_onPart (s : State) (p q : Pid) (f : Partition → Partition) :
    (s.onPart p f).partition q = if q = p then f (s.partition p) else s.partition q := by
  simp [State.partition, State.onPart, SMap.upd, SMap.get_set, BitVec.toNat_inj]

@[simp] theorem box_setBox (s : State) (n m : Nat) (b : SignalBox) : (s.setBox n b).box m = if m = n then b else s.box m := by
  simp [State.box, State.setBox, SMap.get_set]

/-- One port updated leaves the others. -/
theorem onPort_portsKept (s : State) (n : Nat) (f : SpanPort → SpanPort) : s.portsKept (s.onPort n f) n := by
  intro m h; simp [h]

/-- One cluster updated leaves the others. -/
theorem setCluster_clustersKept (s : State) (n : Nat) (f : Cluster → Cluster) : s.clustersKept (s.setCluster n f) n := by
  intro m h; simp [h]

/-! ### Messages and writes -/

/-- A report is one message at the end. -/
theorem report_tells (s : State) (f b k d a : Nat) : s.tells (s.report f 0 0 b k d a) f b k d a :=
  ⟨_, rfl, rfl, rfl, rfl, rfl, rfl, rfl⟩

/-- A write to yard space that is served acts on the state as it stands. -/
theorem yardWrite_of_serves {s : State} {o : Origin} (h : s.yardServes o) (off : Nat) (f : State → State) :
    yardWrite o off s f = f s := by
  obtain ⟨-, hp, hs, rfl | ⟨rfl, hu⟩⟩ := h
  · simp [yardWrite, hs]
  · simp [yardWrite, hs, hu, State.recoveryHides, hp]

end Sys2Proof.Machine
end

