-- ==== Sys2Proof/Tests/Slice0.lean ====
section
/-! SUPPORT. Small checks: ill-formed commands are refused, words of the tables decode, and for every statement of Obligations
a state that meets its hypotheses. Expected values come from the tables and rules of the specification. -/

open Sys2Proof Sys2Proof.Machine

namespace Sys2Proof.Tests

set_option Elab.async false

/-! ### Ill-formed commands -/

def badCore : CoreId := { x := 558, y := 0 }
def c0 : CoreId := { x := 3, y := 4 }
def onTlp : Tlp := { tbit := false, stream := none, good := true }

theorem test_core_off_grid : wellFormed (.add badCore 1 2 3) = false ∧ wellFormed (.add c0 1 2 3) = true := by decide
theorem test_core_off_rows : wellFormed (.vectorComplete { x := 0, y := 576 }) = false := by decide
theorem test_odd_pair_register : wellFormed (.vadd2 c0 2 3 4) = false ∧ wellFormed (.vadd2 c0 2 6 4) = true := by decide
theorem test_no_such_format : wellFormed (.vcvt c0 1 2 0 11) = false ∧ wellFormed (.vcvt c0 1 2 0 10) = true := by decide
theorem test_no_such_cluster : wellFormed (.clusterReset 5184) = false ∧ wellFormed (.clusterReset 5183) = true := by decide
theorem test_no_such_field : wellFormed (.fieldPllLoss 81) = false ∧ wellFormed (.fieldPllLoss 80) = true := by decide
theorem test_no_such_row : wellFormed (.rowRegulatorFailure 9) = false ∧ wellFormed (.rowRegulatorFailure 8) = true := by decide
theorem test_no_such_function : wellFormed (.getReport 17 0) = false ∧ wellFormed (.getReport 16 0) = true := by decide
theorem test_no_such_router : wellFormed (.packetInjection { ext := false, py := 576, px := 0 }) = false := by decide
theorem test_no_such_target : wellFormed (.registerWrite (.core badCore 0) .ryist (.four 0) onTlp) = false := by decide
theorem test_no_such_place : wellFormed (.jobPlacement 0 0 [5184]) = false ∧ wellFormed (.jobPlacement 0 0 [5183]) = true := by decide
theorem test_no_such_change : wellFormed (.floorPlanChange (.hole 576 0)) = false := by decide
theorem test_no_such_length : wellFormed (.inboxRead 0 0xFFF 2 onTlp) = false ∧
    wellFormed (.inboxWrite 0 0 [] onTlp) = false := by decide
theorem test_no_such_word : wellFormed (.omExtWrite .pf 384 0) = false ∧ wellFormed (.omExtWrite .pf 383 0) = true := by decide
theorem test_no_such_memory : okSramFault { px := 0, py := 0, mem := 9, row := 0, mv := 700, pattern := .march } = false := by decide

/-! ### Words of the tables (R43, R44, R52, R58, R60, R178, R205): opcode, fields and function written out -/

theorem test_decode_sub : decodeInsn c0 0b000000_00011_00001_00010_00000000001 = some (.sub c0 3 1 2) := by decide +kernel
theorem test_decode_addi : decodeInsn c0 0b000001_00101_00110_1111111111111110 = some (.addi c0 5 6 0xFFFE) := by decide +kernel
theorem test_decode_ld : decodeInsn c0 0b001011_00111_01000_0000000000010000 = some (.ldD c0 7 8 16) := by decide +kernel
theorem test_decode_beq : decodeInsn c0 0b011000_00001_00010_1111111111111111 = some (.beq c0 1 2 0xFFFF) := by decide +kernel
theorem test_decode_vfma : decodeInsn c0 0b100000_0001_0010_0011_0100_0000000011 = some (.vfma c0 1 2 3 4) := by decide +kernel
theorem test_decode_vld : decodeInsn c0 0b100001_1111_00001_00000000001000000 = some (.vld c0 15 1 64) := by decide +kernel
theorem test_decode_mma : decodeInsn c0 0b101000_00001_00010_0111_11_1_000_000000 = some (.mma c0 1 2 7 3 true) := by decide +kernel
theorem test_decode_atom : decodeInsn c0 0b110000_00100_00101_00110_00000010010 = some (.atomCas c0 4 5 6) := by decide +kernel
theorem test_decode_end : decodeInsn c0 0b110100_00000_00000_00000_00000000000 = some (.endTask c0) := by decide +kernel
theorem test_decode_illegal : decodeInsn c0 0xFFFFFFFF = none ∧ decodeInsn c0 0b000000_00000_00000_00000_00000010000 = none := by
  decide +kernel

/-! ### Small states -/

/-- The block with power, in READY, its host link up. -/
def ready : State :=
  { State.reset with
    bu := { BringUp.reset with power := true, phase := 10 }, host := { HostPort.reset with up := true, width := 16, rate := 3 } }

/-- A core whose section runs a task. -/
def k0 : Core :=
  { Core.booted with df := .run, seq := .run, running := some { u := 0, tag := 0, ops := [] } }

/-- The block with one core. -/
def onK (k : Core) : State := ready.setCore c0 k

/-- The core with an instruction at its program counter. -/
def holds (k : Core) (i : Instr) : Core := { k with istore := [(k.pc, (encodeInsn i).getD 0)] }

/-- The block whose core issues an instruction. -/
def issuing (k : Core) (i : Instr) : State := onK (holds k i)

/-- The outcome's state. -/
def after (o : Host.Outcome State Fault Refusal) : State :=
  match o with
  | .next t => t
  | _ => ready

/-! ### Witnesses: the scalar instructions -/

/-- A line an engine has written, and a SEND that a window holds at channel 15 of unit 7. -/
def w0 : LineWr := { agent := agVEC, off := 0x1000, bytes := [1, 2], num := 0 }
def kwr : Core := { k0 with lineWr := [w0] }
def kstall : Core := { k0 with seq := .stall, stallOn := [rCH_OSTALL + 0x40 * 15, rDF_UWOUT + 0x40 * 7] }

theorem witness_EmptyQueueTicks : (onK kwr).pending = [] ∧ (onK kwr).jobs = [] ∧ (onK kwr).alive c0 = true ∧ (onK kwr).bu.fieldDs = [] ∧
    kwr.padHeld w0.off = false ∧ kwr.inWeights w0.off = false ∧ kwr.zeroing = false ∧ kwr.recode = 0 ∧ w0.agent ≠ agMV ∧ k0.lineWr = [] ∧
    k0.df = .run ∧ k0.running.isSome = true ∧ k0.issued = false ∧ k0.stallOn = [] ∧ kstall.seq = .stall ∧
    kstall.stallOn = [rCH_OSTALL + 0x40 * 15, rDF_UWOUT + 0x40 * 7] := by
  and_intros <;> decide +kernel

/-- A line goes into its bank in the next cycle, lowest byte first. -/
theorem test_tick_writes : Mem.read ((kOf (onK kwr) c0).bankCycle).core.mem 0x1001 = 2 := by decide +kernel

/-- A core with 0x1000 in s2. -/
def k1 : Core := { k0 with s := [(1, 7), (2, 0x1000), (5, mkAddr 0 { x := 9, y := 4 } 0x40)] }

theorem witness_ScalarResults : (issuing k1 (.add c0 3 1 2)).free c0 [3, 1, 2] ∧ (issuing k1 (.add c0 3 1 2)).issues c0 (.add c0 3 1 2) ∧
    (issuing k1 (.lih c0 3 1 5)).issues c0 (.lih c0 3 1 5) := by
  and_intros <;> decide +kernel

theorem test_add : ((after (exec (.add c0 3 1 2) (issuing k1 (.add c0 3 1 2)))).core c0).sreg 3 = 0x1007 := by decide +kernel

/-- Branches at both ends of the store, and fences that wait or do not (R133). -/
theorem witness_BranchesAndFences :
    (issuing k1 (.beq c0 1 1 0)).issues c0 (.beq c0 1 1 0) ∧ (issuing k1 (.beq c0 1 1 0)).free c0 [1, 1, 31] ∧
    (0 ≤ (0 : Int) + (0 : BitVec 16).toInt ∧ (0 : Int) + (0x3FFF : BitVec 16).toInt ≤ 16383) ∧
    ((issuing { k1 with s := [(1, 16383)] } (.jr c0 1)).core c0).sreg 1 = 16383 ∧
    (issuing k1 (.fence c0)).issues c0 (.fence c0) ∧ k1.released = true ∧ k1.loadsPending = false ∧
    ({ k1 with slots := [(0, { gen := 0, use := some (.load 3 0 8 false false none 0), limit := 0, age := 0 })] } : Core).loadsPending = true ∧
    ({ k1 with slots := [(0, { gen := 0, use := some (.store 0 0), limit := 0, age := 0 })] } : Core).released = false := by
  and_intros <;> decide +kernel

theorem witness_ExecutionFaults :
    (issuing k1 (.trap c0)).issues c0 (.trap c0) ∧ decodeInsn c0 (k1.insnAt 0) = none ∧ (onK k1).alive c0 = true ∧ k1.canIssue = true ∧
    16383 < (k1.sreg 5).toNat ∧ k1.awaits 5 = false ∧ (issuing k1 (.jr c0 5)).issues c0 (.jr c0 5) ∧
    (issuing k1 (.ldD c0 3 2 4)).issues c0 (.ldD c0 3 2 4) ∧ (k1.target 2 4).toNat % 8 ≠ 0 ∧
    (issuing k1 (.stW c0 3 2 2)).issues c0 (.stW c0 3 2 2) ∧ (k1.target 2 2).toNat % 4 ≠ 0 := by
  and_intros <;> decide +kernel

/-- Own accesses need the own address: core (3, 4) at offset 0x1000 and at the last bytes of the scratchpad. -/
def k2 : Core := { k0 with s := [(2, mkAddr 0 c0 0x1000), (3, mkAddr 0 c0 0x5FFF8), (5, mkAddr 0 { x := 9, y := 4 } 0x40)] }

theorem witness_LoadsAndStores :
    k2.localAccess c0 (k2.target 2 0) 8 false ∧ k2.localAccess c0 (k2.target 2 1) 1 false ∧ k2.localAccess c0 (k2.target 2 2) 2 false ∧
    k2.localAccess c0 (k2.target 2 4) 4 false ∧ k2.localAccess c0 (k2.target 2 0) 8 true ∧
    (issuing k2 (.ldAcq c0 3 2 0)).issues c0 (.ldAcq c0 3 2 0) ∧ (issuing k2 (.stRel c0 3 2 0)).issues c0 (.stRel c0 3 2 0) ∧
    k2.released = true ∧ k2.remoteAccess c0 (k2.target 5 0) 8 0 ∧ (issuing k2 (.ldD c0 3 5 0)).issues c0 (.ldD c0 3 5 0) ∧
    (issuing k2 (.stD c0 3 5 0)).issues c0 (.stD c0 3 5 0) ∧ (onK k2).free c0 [3, 5] := by
  and_intros <;> decide +kernel

/-- R11: a byte lies at the address of its lowest bits. -/
theorem test_store_byte : Mem.read ((after (exec (.stB c0 2 2 1) (issuing k2 (.stB c0 2 2 1)))).core c0).mem 0x1001 = 0 ∧
    Mem.read ((after (exec (.stH c0 2 2 0) (issuing k2 (.stH c0 2 2 0)))).core c0).mem 0x1001 = 0x10 := by decide +kernel

theorem witness_CsrAndIstore :
    (∃ r, coreRow rMX_ASTRIDE = some r ∧ r.pair = false ∧ r.acc ≠ .wo ∧ r.acc ≠ .rc) ∧
    (issuing k1 (.csrr c0 3 (BitVec.ofNat 16 rMX_ASTRIDE))).issues c0 (.csrr c0 3 (BitVec.ofNat 16 rMX_ASTRIDE)) ∧
    (issuing k1 (.csrw c0 1 (BitVec.ofNat 16 rMX_ASTRIDE))).issues c0 (.csrw c0 1 (BitVec.ofNat 16 rMX_ASTRIDE)) ∧
    (onK k1).alive c0 = true ∧ rMX_ASTRIDE % 4 = 0 ∧ rMX_ASTRIDE ≠ rSP_ERRADDR ∧
    rMX_ASTRIDE ∈ [rMX_ASTRIDE, rMX_BSTRIDE, rMX_MXCFG, rCORE_IADDR, rVEC_SRSEED_LO] ∧
    ({ k1 with istoreErr := [(9, 1)], istoreCounted := [(9, true)] } : Core).istoreCounted.get false 9 = true ∧
    istoreRead (k1.insnAt 9) 1 = some (k1.insnAt 9, true) := by
  refine ⟨⟨(coreRow rMX_ASTRIDE).getD (one 0 .rw 0), ?_⟩, ?_⟩
  · exact ⟨rfl, by decide, by decide, by decide⟩
  · and_intros <;> decide +kernel

/-! ### Witnesses: vector unit, matrix engine, mover -/

/-- A queued vector instruction. -/
def ventry (i : Instr) : VecEntry := { insn := i, addr := mkAddr 0 c0 0x1000, line := 0, got := none, pc := 0, word := 0, tag := 0, num := 0 }
def kv (i : Instr) : Core := { k0 with vecQ := [ventry i], vregs := [(1, [(0, 0x3F800000)]), (2, [(0, 0x40000000)])], num := 1 }

theorem witness_VectorIssue :
    (issuing k2 (.vadd c0 3 1 2)).issues c0 (.vadd c0 3 1 2) ∧ k2.vecQ.length < 8 ∧
    (issuing k2 (.vld c0 3 2 0x80)).issues c0 (.vld c0 3 2 0x80) ∧ k2.awaits 2 = false ∧
    isOwnSpad c0 (k2.sreg 2 + BitVec.ofInt 64 (0x80 : BitVec 17).toInt) = true ∧
    addrOff40 (k2.sreg 2 + BitVec.ofInt 64 (0x80 : BitVec 17).toInt) + 128 ≤ 0x60000 ∧
    (k2.sreg 2 + BitVec.ofInt 64 (0x80 : BitVec 17).toInt).toNat % 128 = 0 := by
  and_intros <;> decide +kernel

/-- The NaN trap on, and a NaN that VADD makes of its operands (R95). -/
def kn : Core := { kv (.vadd c0 3 1 2) with regs := [(rCORE_NUMCTL, 0x20)], vregs := [(1, [(0, 0x7F800000)]), (2, [(0, 0xFF800000)])] }

theorem witness_VectorNanTrap : (onK kn).alive c0 = true ∧ kn.df = .run ∧ kn.vecQ = [ventry (.vadd c0 3 1 2)] ∧
    kn.vecWaits (ventry (.vadd c0 3 1 2)) = false ∧ kn.nanTrapOn = true ∧
    isNaN (add32 (kn.lane 1 0) (kn.lane 2 0)) = true := by
  and_intros <;> decide +kernel

theorem witness_VectorResults : (onK (kv (.vadd c0 3 1 2))).alive c0 = true ∧
    (kv (.vadd c0 3 1 2)).vecWaits (ventry (.vadd c0 3 1 2)) = false ∧ (kv (.vadd c0 3 1 2)).nanTrapOn = false ∧
    (kv (.qvld c0 3 1)).vecWaits (ventry (.qvld c0 3 1)) = false ∧ isNaN 0x7FC00000 = true ∧ finite 0x3F800000 = true := by
  and_intros <;> decide +kernel

/-- R84: 1 + 2 is 3 in lane 0. -/
theorem test_vadd : ((after (exec (.vectorComplete c0) (onK (kv (.vadd c0 3 1 2))))).core c0).lane 3 0 = 0x40400000 := by decide +kernel

theorem witness_VectorMoves : (kv (.vadd2 c0 2 4 6)).vecWaits (ventry (.vadd2 c0 2 4 6)) = false ∧ okEven 2 = true ∧
    (kv (.vcvt c0 3 1 0 6)).vecWaits (ventry (.vcvt c0 3 1 0 6)) = false ∧ (kv (.vcvt c0 3 1 0 6)).stochastic = false ∧
    (kv (.vmova c0 3 0 3)).vecWaits (ventry (.vmova c0 3 0 3)) = false ∧ (kv (.vmovaw c0 3 1 3)).vecWaits (ventry (.vmovaw c0 3 1 3)) = false ∧
    (kv (.vld c0 3 1 0)).vecWaits (ventry (.vld c0 3 1 0)) = false ∧ (kv (.vst c0 3 1 0)).vecWaits (ventry (.vst c0 3 1 0)) = false ∧
    addrOff40 (ventry (.vld c0 3 1 0)).addr % 128 = 0 ∧ addrOff40 (ventry (.vld c0 3 1 0)).addr + 128 ≤ 0x60000 ∧
    (kv (.vld c0 3 1 0)).refusal false 0x1000 = none ∧ (kv (.vld c0 3 1 0)).refusal false 0x1040 = none ∧
    (kv (.vst c0 3 1 0)).refusal true 0x1000 = none ∧ (kv (.vst c0 3 1 0)).refusal true 0x1040 = none ∧
    (kv (.vld c0 3 1 0)).cleanLine 0x1000 = true ∧ (kv (.vld c0 3 1 0)).cleanLine 0x1040 = true ∧ (ventry (.vld c0 3 1 0)).got = none ∧
    ({ kv (.vld c0 3 1 0) with vecQ := [{ ventry (.vld c0 3 1 0) with got := some 5 }] } : Core).vecWaits
      { ventry (.vld c0 3 1 0) with got := some 5 } = false := by
  and_intros <;> decide +kernel

/-- A queued matrix instruction over rows 64 bytes apart. -/
def mentry (i : Instr) : MatEntry :=
  { insn := i, sa := mkAddr 0 c0 0x1000, sb := mkAddr 0 c0 0x2000, cfg := [(rMX_ASTRIDE, 1), (rMX_BSTRIDE, 1)], pc := 0, word := 0
    tag := 0, num := 0 }
def km (i : Instr) : Core := { k0 with matQ := [mentry i], num := 1 }
def mma0 : Instr := .mma c0 1 2 0 0 false
def step0 : MmaStep := { entry := mentry mma0, issued := 0, a := [], b := [], aScale := 0, bScale := 0 }

theorem witness_MatrixIssueAndReads :
    (issuing k2 mma0).issues c0 mma0 ∧ (issuing k2 mma0).free c0 [1, 2] ∧ k2.matQ.length < 4 ∧
    (issuing k2 (.mma c0 1 2 0 0 true)).issues c0 (.mma c0 1 2 0 0 true) ∧
    (issuing k2 (.mst c0 1 2 0 0 false)).issues c0 (.mst c0 1 2 0 0 false) ∧
    (issuing k2 (.msync c0 1 2 0 0 false)).issues c0 (.msync c0 1 2 0 0 false) ∧ k2.matQ = [] ∧ k2.steps = [] ∧
    (issuing (km mma0) (.msync c0 1 2 0 0 false)).issues c0 (.msync c0 1 2 0 0 false) ∧ (km mma0).matQ ≠ [] ∧
    (issuing k2 (.msync c0 1 2 0 0 true)).issues c0 (.msync c0 1 2 0 0 true) ∧
    (onK (km mma0)).alive c0 = true ∧ (mmaFmt 0).isSome = true ∧ (km mma0).accWaitMat (mentry mma0) = false ∧
    (km mma0).anyHeld (mentry mma0).reads = false ∧ (km mma0).mxFree = true ∧ (mmaFmt 0).any (fun f => !f.scaled) = true ∧
    (mentry mma0).sa.toNat % 64 = 0 ∧ (mentry mma0).sb.toNat % 64 = 0 ∧
    (km mma0).hazard 0 (mentry mma0).reads [] = false ∧ insidePad c0 (mentry mma0).sa (15 * (mentry mma0).aStep) = true ∧
    insidePad c0 (mentry mma0).sb (7 * (mentry mma0).bStep) = true ∧ (mentry mma0).aStep ≠ 0 ∧ (mentry mma0).bStep ≠ 0 ∧
    oddPair 0 false = false ∧ (∀ n ∈ (km mma0).matAccs (mentry mma0), ((km mma0).accAt n).tag = mmaTag 0) ∧
    (∀ o ∈ (mentry mma0).rows ++ (List.range 8).map (fun j => addrOff40 (mentry mma0).sb + j * (mentry mma0).bStep),
      (km mma0).refusal false o = none ∧ (km mma0).cleanLine o = true) := by
  and_intros <;> decide +kernel

/-- A step under way: the limit N of 64 admits its next issue, one of 0 withholds it. -/
def kst (n : Nat) (lim : Word) : Core := { k0 with steps := [{ step0 with issued := n }], regs := k0.regs.set rMX_LIMIT lim }

theorem witness_MmaStepResults : (onK (kst 31 64)).alive c0 = true ∧ (onK (kst 31 64)).pending = [] ∧ (onK (kst 31 64)).bu.fieldDs = [] ∧
    (onK (kst 31 64)).jobs = [] ∧ (kst 31 64).seq ≠ .stall ∧ popcount (setField (kst 31 64).mxHist 63 1 0) < field ((kst 31 64).reg rMX_LIMIT) 0 7 ∧
    field ((kst 31 0).reg rMX_LIMIT) 0 7 ≤ popcount (setField (kst 31 0).mxHist 63 1 0) ∧ step0.entry.insn = mma0 ∧
    (kst 32 64).trapWaitMat step0.entry.num = false ∧ (mmaFmt 0).isSome = true ∧ mmaTag 0 = .fp32 ∧ mmaTag 6 = .int32 ∧ mmaTag 13 = .pair := by
  and_intros <;> decide +kernel

def mst0 : Instr := .mst c0 1 2 0 0 false
def mlda0 : Instr := .mlda c0 1 2 0 0 false
def mzero0 : Instr := .mzero c0 1 2 0 0 false

theorem witness_AccumulatorMoves :
    (km mzero0).headWaits (mentry mzero0) = false ∧ (km mlda0).headWaits (mentry mlda0) = false ∧ (km mst0).headWaits (mentry mst0) = false ∧
    oddPair 0 false = false ∧ (km mlda0).anyHeld (mentry mlda0).reads = false ∧ (km mst0).anyHeld (mentry mst0).writes = false ∧
    (mentry mlda0).sa.toNat % 64 = 0 ∧ (km mlda0).hazard 0 (mentry mlda0).reads [] = false ∧
    (mentry mlda0).aStep ≠ 0 ∧ insidePad c0 (mentry mlda0).sa (15 * (mentry mlda0).aStep) = true ∧
    (∀ o ∈ (mentry mlda0).rows, (km mlda0).refusal false o = none ∧ (km mlda0).cleanLine o = true) ∧
    (km mst0).hazard 0 [] (mentry mst0).writes = false ∧ ((km mst0).tile 0).tag ≠ .pair ∧ (km mst0).stochastic = false ∧
    (∀ m, m < 128 → (((km mst0).tile 0).convert 0 .rne (km mst0).satFp8 m).nan = false) ∧
    ((km mst0).reg rMX_CTRL).getLsbD 2 = false ∧ ((km mst0).reg rMX_CTRL).getLsbD 3 = false ∧
    (∀ o ∈ (mentry mst0).rows, (km mst0).refusal true o = none) := by
  and_intros <;> decide +kernel

/-- A descriptor of R61: CTRL, LENGTH, SRC and DST. -/
def mvDesc (op len : Nat) (src dst : DWord) : BitVec 256 :=
  (0 : BitVec 64) ++ dst ++ src ++ BitVec.ofNat 32 len ++ BitVec.ofNat 32 (0x10000 + op)
def mvCmd (op len : Nat) (src dst : DWord) : MvCmd :=
  { desc := mvDesc op len src dst, descAddr := 0, seq := 0, pc := 0, tag := 0, num := 0 }
def here (o : Nat) : DWord := mkAddr 0 c0 o
def kq (m : MvCmd) : Core := { k0 with mvQ := [m] }
def act (m : MvCmd) (n : Nat) : MvActive := { cmd := m, next := n, err := none, stopped := false, data := [], sent := false }
def ka (m : MvCmd) (n : Nat) : Core := { k0 with mvAct := some (act m n) }

theorem witness_MoverQueue :
    (issuing k2 (.mvq c0 2 0)).issues c0 (.mvq c0 2 0) ∧ (k2.target 2 0).toNat % 32 = 0 ∧ k2.localAccess c0 (k2.target 2 0) 1 false ∧
    k2.mvIncomplete < 16 ∧ k2.mvIncomplete ≤ (0 : BitVec 16).toNat ∧ (issuing (kq (mvCmd 2 64 0 (here 0))) (.mvw c0 0)).issues c0 (.mvw c0 0) ∧
    (0 : BitVec 16).toNat < (kq (mvCmd 2 64 0 (here 0))).mvIncomplete ∧
    (onK (ka (mvCmd 2 64 0 (here 0)) 1)).alive c0 = true ∧ (ka (mvCmd 2 64 0 (here 0)) 1).mvOutst = 0 ∧
    (ka (mvCmd 2 64 0 (here 0)) 1).mvWrites = false ∧ (act (mvCmd 2 64 0 (here 0)) 1).issued c0 = true ∧
    (act (mvCmd 3 64 (here 0x1000) (here 0x40)) 1).issued c0 = true ∧ k0.scan = none ∧
    (ka (mvCmd 3 64 (here 0x1000) (here 0x40)) 1).refusal true 0x40 = none := by
  and_intros <;> decide +kernel

/-- COPY, FILL, DIGEST and CHUNK (whose record fields stand in the strides), and a length that R62 forbids. -/
def chunk0 : MvCmd :=
  { mvCmd 4 64 0 0 with desc := BitVec.ofNat 32 (2 ^ 16 + 8) ++ BitVec.ofNat 32 (64 * 2 ^ 16 + 1) ++ here 0x40 ++ here 0x1000 ++ 64#32 ++ 0x10004#32 }

theorem witness_MoverCommands :
    (onK (kq (mvCmd 1 64 (here 0x1000) (here 0x40)))).moverStarts c0 (mvCmd 1 64 (here 0x1000) (here 0x40)) [] 1 ∧
    (onK (kq (mvCmd 2 64 7 (here 0x40)))).moverStarts c0 (mvCmd 2 64 7 (here 0x40)) [] 1 ∧
    (onK (kq (mvCmd 3 64 (here 0x1000) (here 0x40)))).moverStarts c0 (mvCmd 3 64 (here 0x1000) (here 0x40)) [] 1 ∧
    (onK (kq chunk0)).moverStarts c0 chunk0 [] 1 ∧ chunk0.op = 4 ∧ (mvCmd 1 64 (here 0x1000) (here 0x40)).op = 1 ∧
    addrOff40 (here 0x40) + 64 ≤ addrOff40 (here 0x1000) ∧
    (mvCmd 1 63 (here 0x1000) (here 0x40)).valid c0 = false ∧ (mvCmd 1 63 (here 0x1000) (here 0x40)).op = 1 := by
  and_intros <;> decide +kernel

/-- R61: FILL writes its pattern, the byte at DST lowest. -/
theorem test_fill : (((after (exec (.fill c0) (onK (kq (mvCmd 2 64 0xAABB (here 0x40)))))).core c0).lineWr.map (fun w =>
    (w.off, w.bytes.take 2))) = [(0x40, [0xBB, 0xAA])] := by decide +kernel

/-! ### Witnesses: sync unit, channels and dataflow -/

def e0 : Endpoint := endpointAt 9 4
/-- A packet from another position. -/
def pkt (op space off : Nat) (head : BitVec 384) (lines : List Line) : Packet :=
  { op := BitVec.ofNat 4 op, aux := 0, off := BitVec.ofNat 44 off, space := BitVec.ofNat 4 space, src := e0, dst := noEndpoint, sz := 3
    len := 0, txid := 7, rclass := 0, wpy := 0, sys := false, pid := 0, head := head, lines := lines, killed := false }
/-- The block whose core has one packet in its inbox. -/
def gets (k : Core) (p : Packet) : State := { onK k with inbox := [(c0, p)] }

def c1 : CoreId := { x := 9, y := 4 }
/-- Signals name the first and the last counter, of the own and of another core. -/
def ks (c : CoreId) (n : Nat) : Core := { k0 with s := [(1, mkAddr 1 c (0x4040 + 8 * n)), (2, 5)] }

theorem witness_SignalsAndWatches :
    (issuing (ks c0 0) (.sig c0 1 2)).issues c0 (.sig c0 1 2) ∧ (issuing (ks c0 31) (.sig c0 1 2)).free c0 [1, 2] ∧
    onGrid c1 = true ∧ c1 ≠ c0 ∧ (issuing (ks c1 31) (.sig c0 1 2)).issues c0 (.sig c0 1 2) ∧
    (gets k0 (pkt 4 1 0x4138 5 [])).arrives c0 (pkt 4 1 0x4138 5 []) ∧ (pkt 4 1 0x4138 5 []).off.toNat = 0x4040 + 8 * 31 := by
  and_intros <;> decide +kernel

/-- R189: the counter adds the payload. -/
theorem test_sig_arrival :
    ((after (exec (.sigArrival c0) (gets k0 (pkt 4 1 0x4138 5 [])))).core c0).counter 31 = 5 := by decide +kernel

/-- A watch request on counter 3 for the value 9, and one whose value stands there already. -/
def wline (v : Nat) : Line := BitVec.ofNat 512 (v + 2 ^ 64 * (3 + 2 ^ 19 + 2 ^ 32 * 3 + 2 ^ 42 * 4))
def wof (v : Nat) : Watch := { value := BitVec.ofNat 64 v, ctrl := lineDWord (wline v) 1, sys := false }
def wpkt (v : Nat) : Packet := { pkt 1 1 0x4300 0 [wline v] with sz := 4 }
def kw : Core := { k0 with s := [(1, mkAddr 0 c0 0), (2, mkAddr 1 c0 0x4300)], mem := Mem.writeLine [] 0 (wline 9) }

theorem witness_WatchesRegister :
    kw.watchRefusal (wline 9) = none ∧ (wof 9).value = lineDWord (wline 9) 0 ∧ (wof 9).ctrl.getLsbD 22 = false ∧ kw.freeWatch = some 0 ∧
    (issuing kw (.watch c0 3 1 2)).issues c0 (.watch c0 3 1 2) ∧ kw.localAccess c0 (kw.sreg 1) 64 false ∧
    wline 9 = Mem.readLine kw.mem (addrOff40 (kw.sreg 1)) ∧ addrSpace (kw.sreg 2) = 1 ∧ addrCore (kw.sreg 2) = c0 ∧
    (wof 9).sys = (field ((kOf (issuing kw (.watch c0 3 1 2)) c0).rt.reg rRT_PID) 29 1 == 1) ∧ (wof 9).holds (kw.watched (wof 9)) = false ∧
    (gets k0 (wpkt 9)).arrives c0 (wpkt 9) ∧ isWatchRequest (wpkt 9) = true ∧ (gets k0 (wpkt 0)).arrives c0 (wpkt 0) ∧
    k0.watchRefusal (wline 0) = none ∧ (wof 0).holds (k0.watched (wof 0)) = true := by
  and_intros <;> decide +kernel

def atomPkt (code space off : Nat) : Packet := { pkt 2 space off 3 [] with aux := BitVec.ofNat 8 code }

theorem witness_Atomics :
    (issuing k2 (.atomCas c0 3 2 1)).issues c0 (.atomCas c0 3 2 1) ∧ (issuing k2 (.atomCas c0 3 2 1)).free c0 [3, 2, 1] ∧
    k2.localAccess c0 (k2.sreg 2) 8 false ∧ k2.localAccess c0 (k2.sreg 2) 8 true ∧
    k2.hazard k2.num [addrOff40 (k2.sreg 2)] [addrOff40 (k2.sreg 2)] = false ∧ (k2.freeSlot 0 8).isSome = true ∧
    (gets k0 (atomPkt 1 0 0x5FFF8)).arrives c0 (atomPkt 1 0 0x5FFF8) ∧ (atomPkt 1 0 0x5FFF8).op = 2 ∧
    ({ k0 with df := .idle } : Core).refusal true 0x5FFF8 = none ∧ k0.refusal true 0x1000 = none ∧ k0.cleanLine 0x1000 = true ∧
    (gets k0 (atomPkt 6 1 0x4138)).arrives c0 (atomPkt 6 1 0x4138) ∧ (atomPkt 6 1 0x4138).off.toNat = 0x4040 + 8 * 31 := by
  and_intros <;> decide +kernel

/-- R191: CAS at its home writes the new word where the old one equals the second operand. -/
theorem test_cas : Mem.read ((after (exec (.atomAtHome c0) (gets k0 (atomPkt 3 0 0x1000)))).core c0).mem 0x1000 = 3 := by decide +kernel

def kwait (full : BitVec 16) : Core := { k0 with s := [(1, 0x8001), (2, 4)], rfull := full }
def waits : Waiting := { d := 3, mask := 0x8001, limit := 4, elapsed := 4 }
def kwaits : Core := { kwait 0 with waiting := some waits }

theorem witness_WaitsAndReplies :
    (issuing (kwait 0x8000) (.wait c0 3 1 2)).issues c0 (.wait c0 3 1 2) ∧ (kwait 0x8000).fullReply 0x8001 = some 15 ∧
    (issuing (kwait 2) (.wait c0 3 1 2)).issues c0 (.wait c0 3 1 2) ∧ (kwait 2).fullReply 0x8001 = none ∧
    (onK kwaits).alive c0 = true ∧ kwaits.waiting = some waits ∧ waits.limit.toNat ≤ waits.elapsed ∧ kwaits.fullReply waits.mask = none ∧
    (gets kwaits (pkt 5 1 0x4278 6 [])).arrives c0 (pkt 5 1 0x4278 6 []) ∧ (pkt 5 1 0x4278 6 []).off.toNat = 0x4200 + 8 * 15 ∧
    waits.mask.getLsbD 15 = true ∧ (gets k0 (pkt 5 1 0x4200 6 [])).arrives c0 (pkt 5 1 0x4200 6 []) := by
  and_intros <;> decide +kernel

/-- Output channel 2 in a mode, its receiver entry 1 of core (9, 4). -/
def kout (mode : Nat) (out : List OutMsg) : Core :=
  { k0 with
    s := [(1, mkAddr 0 c0 0x1000), (2, 0x00050002)]
    regs := [(rCH_OCFG + 0x80, BitVec.ofNat 32 (2 ^ 31 + mode * 2 ^ 29 + 1)), (rCH_ODST + 0x80, BitVec.ofNat 32 (4 * 2 ^ 10 + 9 * 2 ^ 20 + 1))]
    outq := [(2, { next := 1, outst := out })] }
def sendI : Instr := .send c0 1 2

theorem witness_SendLeaves :
    (∀ m, m < 3 → (issuing (kout m []) sendI).issues c0 sendI ∧ (issuing (kout m []) sendI).free c0 [1, 2] ∧ (kout m []).ochActive 2 = true ∧
      (kout m []).localAccess c0 ((kout m []).sreg 1) 64 false ∧ (kout m []).omode 2 = m ∧ (kout m []).windowOpen 2 = true) ∧
    field ((kout 0 []).sreg 2) 0 4 = 2 ∧ (kout 0 [OutMsg.mk 0 0]).windowOpen 2 = false ∧ (kout 1 [OutMsg.mk 0 0]).windowOpen 2 = false := by
  and_intros <;> decide +kernel

/-- A delivered entry of input channel 3. -/
def qe (i : Nat) (tag : BitVec 16) : QEntry :=
  { k := i, tag := tag, seq := 4, och := 1, src := e0, order := 0, count := 0, whole := true, offered := true, reinj := false, owes := true }
def run3 : Running := { u := 1, tag := 5, ops := [.queue 3 0] }
/-- A task that runs on the operand in entry 0 of channel 3. -/
def kdf : Core :=
  { k0 with running := some run3, inq := [(3, [qe 0 5])], s := [(1, 3), (2, 0x1000)], mem := Mem.write [] (entryOff 3 0 + 9) 0x21 }

theorem witness_DataflowInstructions :
    kdf.running = some run3 ∧ (onK kdf).free c0 [4, 1, 2] ∧ (issuing kdf (.endTask c0)).issues c0 (.endTask c0) ∧
    (issuing kdf (.fin c0)).issues c0 (.fin c0) ∧ (issuing kdf (.tagI c0 4)).issues c0 (.tagI c0 4) ∧
    (issuing kdf (.argsI c0 4)).issues c0 (.argsI c0 4) ∧ (issuing kdf (.qld c0 4 1 2)).issues c0 (.qld c0 4 1 2) ∧
    (issuing kdf (.qvld c0 4 1)).issues c0 (.qvld c0 4 1) ∧ (issuing kdf (.qcp c0 1 2)).issues c0 (.qcp c0 1 2) ∧
    field (kdf.sreg 1) 0 4 = 3 ∧ run3.ops = [.queue (BitVec.ofNat 4 3) 0] ∧ kdf.cleanLine (entryOff 3 0) = true ∧ kdf.padHeld 0x1000 = false ∧ kdf.queuesOn ∧
    kdf.hazard kdf.num [] [0x1000] = false ∧ kdf.refusal true 0x1000 = none := by
  and_intros <;> decide +kernel

/-- R206: QLD gives a word of the operand line. -/
theorem test_qld : ((after (exec (.qld c0 4 1 0) (issuing kdf (.qld c0 4 1 0)))).core c0).sreg 4 = 0 ∧
    ((after (exec (.qld c0 4 1 5) (issuing { kdf with s := [(1, 3), (5, 1)] } (.qld c0 4 1 5)))).core c0).sreg 4 = 0x2100 := by
  decide +kernel

/-- A unit of a kind that reads channel 3, ready with tag 5; OUTT is 2, OUTF is 4, the predicate the data line's word 1. -/
def tm : TmEntry := { u := 1, tag := 5, mask := 8, ready := true }
def kunit (kind : Nat) (word : Byte) : Core :=
  { k0 with
    running := none, seq := .idle, inq := [(3, [qe 0 5])], store := [tm], readyQ := [tm], mem := Mem.write [] (entryOff 3 0 + 9) word
    regs := [(rDF_UCFG + 0x40, BitVec.ofNat 32 (2 ^ 31 + kind * 2 ^ 29 + 7 * 2 ^ 14)), (rDF_UREQ + 0x40, 8),
      (rDF_UPT + 0x40, BitVec.ofNat 32 (3 * 2 ^ 28 + 2 ^ 23 + 2 ^ 20 + 2 * 2 ^ 16 + 4 * 2 ^ 12 + 2 ^ 11 + 2 ^ 10)),
      (rCH_OCFG + 0x80, 0x80000001), (rCH_OCFG + 0x100, 0x80000001), (rCH_ICFG + 0xC0, 0x80000000)] }

theorem witness_FiringsBegin :
    (onK (kunit 0 0)).alive c0 = true ∧ (kunit 0 0).readyQ.find? (fun x => !(kunit 0 0).isPoint x.u.toNat) = some tm ∧
    ((kunit 0 0).consumed 1 ((kunit 0 0).maskOf tm)) = [3] ∧ ((kunit 0 0).inStore 3 tm.tag).isSome = true ∧
    (kunit 1 9).readyQ.find? (fun x => x.u.toNat == 1) = some tm ∧ (kunit 1 9).inStore 3 tm.tag = some 0 ∧
    (kunit 1 9).cleanLine (entryOff 3 0) = true ∧ (kunit 1 9).unitKind 1 = 1 ∧ 3 = (kunit 1 9).uptDin 1 ∧ (kunit 1 9).uptPsrc 1 = true ∧
    lineDWord (Mem.readLine (kunit 1 9).mem (entryOff 3 0)) ((kunit 1 9).uptPword 1) ≠ 0 ∧ (kunit 1 9).uptTen 1 = true ∧
    lineDWord (Mem.readLine (kunit 1 0).mem (entryOff 3 0)) ((kunit 1 0).uptPword 1) = 0 ∧ (kunit 1 0).uptFen 1 = true ∧
    (kunit 1 9).omode 2 = 0 ∧ (kunit 1 9).windowOpen 2 = true ∧ (kunit 1 9).omode 4 = 0 ∧ (kunit 1 9).windowOpen 4 = true ∧
    (kunit 1 9).queuesOn ∧ (kunit 1 9).forwardNext = some 1 ∧ (kunit 2 0).forwardNext = some 1 ∧ (kunit 0 0).waiting = none ∧
    (kunit 1 9).uptOutT 1 = 2 ∧ (kunit 1 9).uptOutF 1 = 4 ∧ (kunit 2 0).unitKind 2 = 0 ∧ (kunit 2 0).unitKind 1 = 2 ∧
    ((kunit 2 0).consumed 1 ((kunit 2 0).maskOf tm)).head? = some 3 ∧ (kunit 2 0).uptTen 1 = true := by
  and_intros <;> decide +kernel

/-- R210: a predicate that is not 0 selects OUTT. -/
theorem test_steer : (after (exec (.steerPointFire c0 1) (onK (kunit 1 9)))).inj.head?.map (fun e => e.pkt.och.toNat) = some 2 := by
  decide +kernel

/-- A core in RUN with channel 3 active, a token for it, one for channel 4 and one of another epoch. -/
def kch : Core := { k0 with running := none, seq := .idle, regs := [(rCH_ICFG + 0xC0, 0x80000000)] }
def token (n : Nat) (tag : Nat) : Packet :=
  { pkt 3 0 (0x54000 + 0x800 * n) (BitVec.ofNat 384 (tag * 2 ^ 128)) [5] with sz := 4, len := 1 }

theorem witness_TokensArrive :
    (gets kch (token 3 5)).arrives c0 (token 3 5) ∧ isToken (token 3 5) = true ∧ queueChannel (token 3 5).off.toNat = some 3 ∧
    kch.abDiscards = false ∧ field (token 3 5).tag 14 2 = kch.epoch ∧ kch.ichActive 3 = true ∧ kch.isJunction 3 = false ∧
    kch.freeEntry 3 = some 0 ∧ kch.queuesOn ∧ (gets kch (token 15 5)).arrives c0 (token 15 5) ∧ queueChannel (token 15 5).off.toNat = some 15 ∧
    kch.ichActive 15 = false ∧ (gets kch (token 3 0x4005)).arrives c0 (token 3 0x4005) ∧ field (token 3 0x4005).tag 14 2 ≠ kch.epoch := by
  and_intros <;> decide +kernel

/-- Channel 3 a junction for two REDUCE contributions of number 9, output channel 2 with one message outstanding. -/
def kjn : Core :=
  { kch with regs := [(rCH_ICFG + 0xC0, 0xE1F00002), (rCH_IRED + 0xC0, 9), (rCH_OCFG + 0x80, 0x80000001)]
             outq := [(2, { next := 5, outst := [OutMsg.mk 4 0] })] }
def reduce : Packet := { pkt 6 0 0 (BitVec.ofNat 384 (9 + 2 ^ 16)) [5] with sz := 4, len := 1 }
def creditOf (seq : Nat) : Packet := pkt 4 1 (0x5508 + 0x80) (BitVec.ofNat 384 seq) []

theorem witness_ReductionsAndCredits :
    (gets kjn reduce).arrives c0 reduce ∧ reduce.op = 6 ∧ kjn.abDiscards = false ∧
    (List.range 16).find? (fun j => kjn.configured && kjn.ichActive j && kjn.isJunction j && kjn.fedByReduce j
      && field (kjn.reg (rCH_IRED + 0x40 * j)) 0 12 == reduce.redid) = some 3 ∧ reduce.rop = kjn.junctionOp 3 ∧ kjn.entries 3 = [] ∧
    kjn.freeEntry 3 = some 0 ∧ kjn.queuesOn ∧ reduce.rcount ≤ kjn.jn 3 ∧ reduce.rcount = 1 ∧ kjn.jn 3 = 2 ∧
    (gets kjn (creditOf 4)).arrives c0 (creditOf 4) ∧ creditChannel (creditOf 4) = some 2 ∧
    (kjn.outq.get .reset 2).outst.any (fun e => e.seq == (creditOf 4).head.extractLsb' 0 16) = true ∧ field (kjn.ocfg 2) 0 19 ≤ 1 ∧
    (gets kjn (creditOf 3)).arrives c0 (creditOf 3) ∧
    (kjn.outq.get .reset 2).outst.any (fun e => e.seq == (creditOf 3).head.extractLsb' 0 16) = false := by
  and_intros <;> decide +kernel

/-- A held offer of channel 3, whose reader is unit 1. -/
def kheld : Core := { kunit 0 0 with store := [], readyQ := [], held := [(3, 0)] }
/-- The same channel full with a delivered entry, nothing retired for a deadlock window, in the lead core. -/
def kdead : Core :=
  { kunit 0 0 with regs := (kunit 0 0).regs ++ [(rDF_SECCFG, 0x200), (rDF_NOPROG, 0x200000)] }
def rec0 : SpillRec :=
  { r := 0, bound := false, jmsg := false, src := e0, ich := 3, och := 1, seq := 4, tag := 5, count := 0, whole := true, order := 0
    counted := true }
def krec : Core := { kunit 0 0 with inq := [], store := [], readyQ := [], spill := [rec0], freed := [(3, 1)] }

theorem witness_StallsAndProgress :
    (onK kheld).alive c0 = true ∧ kheld.held = [(BitVec.ofNat 4 3, 0)] ∧ (kheld.entries 3).find? (fun x => x.k == 0) = some (qe 0 5) ∧
    kheld.readerOf 3 = some 1 ∧ kheld.storeFind 1 (qe 0 5).tag = none ∧ kheld.inFlight.length < 16 ∧ kheld.store.length < 64 ∧ (qe 0 5).offered = true ∧ kdead.queuesOn ∧ 0 < krec.freed.get 0 3 ∧ krec.queuesOn ∧
   
    field (kdead.reg rDF_WINDOW) 0 24 ≤ (kdead.reg rDF_NOPROG).toNat ∧ 0 < kdead.used 3 ∧ kdead.toSpill = [(3, 0)] ∧
    kdead.bound 3 0 = false ∧ kdead.cleanLine (entryOff 3 0) = true ∧ (kdead.reg rDF_SECCFG).getLsbD 9 = true ∧
    field (kdead.reg rDF_STALL) 0 16 * 1024 ≤ (kdead.reg rDF_NOPROG).toNat ∧ krec.oldestRecord 3 = some rec0 ∧ rec0.whole = true ∧
    krec.freeEntry 3 = some 0 ∧ krec.cleanLine (recordOff 0) = true ∧ kdead.df = .run ∧ kdead.spill = [] := by
  and_intros <;> decide +kernel

/-- A slot that has made progress, and a core that has waited long enough to lend. -/
theorem witness_Progress :
    (({ onK k0 with slots := [(0, { SectionSlot.reset with cores := [c0], progress := true })] } : State).slots.get .reset 0).progress = true ∧
    k0.slotNo = 0 ∧ onGrid c0 = true ∧ ({ kch with idleCc := 4800 } : Core).lendable = true ∧
    (onK { kch with idleCc := 4800 }).alive c0 = true ∧ kch.df ≠ .idle := by
  and_intros <;> decide +kernel

/-! ### Witnesses: sections, registers, scratchpad and network -/

/-- The core in a section state, in the lead of slot 0. -/
def kdfs (d : DfState) : Core := { Core.booted with df := d, regs := [(rDF_SECCFG, 0x00010201)] }

theorem witness_SectionLife :
    (onK (kdfs .idle)).alive c0 = true ∧ isSystem .ryist = true ∧ isSystem .own = false ∧ (kdfs .idle).armCheck = none ∧
    (kdfs .loaded).topNext * 0x4000 ≤ (kdfs .loaded).weightsLimit ∧ (kdfs .loaded).topNext = (kdfs .loaded).wtop ∧
    ({ kdfs .loaded with shWtop := some 24 } : Core).weightsLimit < ({ kdfs .loaded with shWtop := some 24 } : Core).topNext * 0x4000 ∧ (kdfs .starting).waitingOffers = [] ∧
    ({ kdfs .idle with regs := [(rDF_UCFG + 0x40 * 7, 0x80000000), (rDF_UREQ + 0x40 * 7, 1)] } : Core).armCheck = some (1, 7) ∧
    (kdfs .idle).quiet = false ∧ (kdfs .idle).abortable = false ∧ (kdfs .run).quiet = true ∧ (kdfs .run).abortable = true ∧
    (kdfs .loaded).abortable = true ∧ (kdfs .starting).abortable = true ∧ (kdfs .aborting).enginesIdle = true ∧
    ((kdfs .aborting).reg rDF_SECCFG).getLsbD 9 = true ∧ (kdfs .run).slotNo = 0 := by
  and_intros <;> decide +kernel

/-- R214: the epoch advances with ARM, from 3 to 0. -/
theorem test_arm_epoch : ((after (exec (.arm c0 .ryist) (onK { kdfs .idle with regs := [(rDF_SECCFG, 0x00010203)] }))).core c0).epoch = 0 := by
  decide +kernel

/-- R217: END from RUN. -/
theorem test_end : ((after (exec (.dfCtrlEnd c0 .ryist) (onK (kdfs .run)))).core c0).df = .idle := by decide +kernel

theorem witness_RegisterAccesses :
    (onK Core.booted).servesReg c0 0x1C .ryist ∧ Core.booted.seq = .idle ∧ Core.booted.df = .idle ∧
    field (Core.booted.reg rCORE_IADDR) 0 14 + (List.replicate 64 (0 : Word)).length ≤ 16384 ∧ 1 ≤ ([0] : List Word).length ∧ (onK Core.booted).servesReg c0 0x180C .own ∧
    (onK Core.booted).servesReg c0 rFLT_WCTL .ryist ∧ (0x80000000 : Word).getLsbD 31 = true ∧
    (Core.booted.reg rFLT_WCTL).getLsbD 31 = false ∧ (onK Core.booted).servesReg c0 rSP_ERRINFO (.packet true 0 e0) ∧
    (onK Core.booted).servesReg c0 rCORE_RETIRED .ryist ∧ (onK Core.booted).servesReg c0 0x0008 .ryist := by
  and_intros <;> decide +kernel

def holed : State := { ready with fp := { FloorPlan.reset with holes := [coreKey c0] } }
/-- RT_PID at its reset value refuses, and absorbs with bit 31 (R176). -/
def walled (v : Word) : State := { onK Core.booted with routers := [(epKey (ready.epOf c0), Router.reset.setReg rRT_PID v)] }

theorem witness_AccessesRefused :
    (onK Core.booted).servesReg c0 0x0004 .ryist ∧ coreRow 0x0FF0 = none ∧ (onK Core.booted).servesReg c0 0x0FF0 .ryist ∧
    ready.bu.power = true ∧ onGrid badCore = false ∧ ready.fieldDead (fieldOf 3 4) = false ∧
    posState holed.fp c0 = .hole ∧ posState ({ FloorPlan.reset with isolated := [0] }) c0 = .isolated ∧ posState ready.fp c0 = .usable ∧
    ({ State.reset with bu := { BringUp.reset with power := true } } : State).core c0 = Core.reset ∧ Core.reset.seq = .reset ∧
    (walled 0x40000000).reach c0 0x0008 (.packet false 2 e0) = .firewall false 2 e0 ∧
    (walled 0x80000000).reach c0 0x0008 (.packet false 2 e0) = .firewall true 2 e0 := by
  and_intros <;> decide +kernel

/-- Bank 2 in a mode, with a change asked for. -/
def kbank (m : BankMode) (t : Option BankMode) (fill : Bool) : Core :=
  { Core.booted with banks := [(2, { Bank.reset with mode := m, target := t, filling := fill })] }
def bankReg (m : BankMode) (t : Option BankMode) (v : Word) : State := onK { kbank m t false with regs := [(rSP_BANKPWR, v)] }

theorem witness_BanksAndFills :
    (onK (kbank .on none false)).servesReg c0 rSP_BANKPWR .ryist ∧ (kbank .on none false).reg rSP_BANKPWR = 0 ∧
    ((kbank .on none false).bank 2).mode = .on ∧ (kbank .on none false).wlock = false ∧
    (bankReg .retain none 0x10).servesReg c0 rSP_BANKPWR .ryist ∧ ((bankReg .retain none 0x10).core c0).reg rSP_BANKPWR = BitVec.ofNat 32 (4 ^ 2) ∧
    ({ kbank .on none false with regs := [(rSP_REGION, 0x80000017)] } : Core).wlock = true ∧
    0xC000 * 2 < ({ kbank .on none false with regs := [(rSP_REGION, 0x80000017)] } : Core).wtop * 0x4000 ∧
    (onK (kbank .on (some .retain) false)).present c0 = true ∧ ((kbank .on (some .retain) false).bank 2).target = some .retain ∧
    ((kbank .off (some .on) false).bank 2).target = some .on ∧ ((kbank .retain (some .on) false).bank 2).owed = false ∧
    ((kbank .off (some .on) true).bank 2).filling = true ∧ ((kbank .on (some .off) false).bank 2).pendWr = 0 ∧
    ((kbank .on (some .off) false).bank 2).writeback = [] ∧ (kbank .on (some .off) false).lineWr = [] ∧ ((kbank .off (some .on) true).bank 2).later = none := by
  and_intros <;> decide +kernel

/-- A weights region of one step whose second word holds one wrong bit, its line queued for a write-back. -/
def kscrub : Core :=
  { Core.booted with regs := [(rSP_REGION, 0x80000001)], flips := [(1, 4)], mem := Mem.write [] 8 4,
                     banks := [(0, { Bank.reset with writeback := [0] })] }

theorem witness_ScrubAndZeroFill :
    (onK kscrub).present c0 = true ∧ (kscrub.bank 0).writeback = [0] ∧ kscrub.padHeld 0 = false ∧ kscrub.inWeights 0 = true ∧
    kscrub.padHeld (64 * 255) = false ∧ kscrub.cleanLine (64 * 255) = true ∧ (kscrub.bank (bankOf (64 * 255))).serves = true ∧ kscrub.wtop * 256 = 256 ∧
    (kscrub.scanLine 0).bad = false ∧ 0 < kscrub.wtop * 256 ∧ (kscrub.bank (bankOf 64)).serves = true ∧ kscrub.cleanLine 64 = true ∧
    ({ kscrub with zeroing := true } : Core).zeroing = true ∧ (∀ b, b < 8 → (kscrub.bank b).serves = true) := by
  and_intros <;> decide +kernel

/-- R116: the write-back stores the corrected word. -/
theorem test_writeback : Mem.read ((after (exec (.lineWriteback c0 0) (onK kscrub))).core c0).mem 8 = 0 := by decide +kernel

def lineReq (op off : Nat) : Packet := { pkt op 0 off 0 (if op = 1 then [5] else []) with sz := 4 }

/-- A write of `n` bytes of line 0 from place `a`, and a core with a write accepted. -/
def partReq (a n : Nat) : Packet := { lineReq 1 0 with head := (runMask a n).setWidth 384 }
def tailing (p : Packet) : State := { onK Core.booted with accepted := [{ core := c0, pkt := p, next := 0, bad := false }] }

theorem witness_RemoteAccesses :
    (lineReq 0 0x5FFC0).space = 0 ∧ (lineReq 0 0x5FFC0).sz = 4 ∧ (lineReq 0 0x5FFC0).off.toNat % 64 = 0 ∧
    (lineReq 0 0x5FFC0).killed = false ∧ (gets Core.booted (lineReq 0 0x5FFC0)).arrives c0 (lineReq 0 0x5FFC0) ∧
    Core.booted.refusal false 0x5FFC0 = none ∧ Core.booted.cleanLine 0x5FFC0 = true ∧
    (gets (kbank .retain none false) (lineReq 0 0x18000)).arrives c0 (lineReq 0 0x18000) ∧ bankOf 0x18000 = 2 ∧
    ((kbank .retain none false).bank 2).serves = false ∧ (gets Core.booted (lineReq 1 0)).arrives c0 (lineReq 1 0) ∧
    Core.booted.refusal true 0 = none ∧
    (tailing (lineReq 1 0)).present c0 = true ∧ Core.booted.padHeld 0 = false ∧
    (tailing (lineReq 1 0)).accepted.head? = some { core := c0, pkt := lineReq 1 0, next := 0, bad := false } ∧ (lineReq 1 0).enables = 0 ∧
    (partReq 8 4).enables = runMask 8 4 ∧ (partReq 0 63).enables = runMask 0 63 ∧ (partReq 63 1 ).enables = runMask 63 1 ∧
    Core.booted.cleanLine 0 = true ∧ (partReq 8 4).lines = [5] := by
  and_intros <;> decide +kernel

/-- R128: of a write of two lines the first goes into its bank, then the second. -/
theorem test_line_by_line :
    ((after (exec (.remoteWriteTail c0) (tailing { lineReq 1 0 with sz := 5, lines := [5, 6] }))).accepted.map (·.next)) = [1] ∧
    Mem.read ((after (exec (.remoteWriteTail c0) (tailing { lineReq 1 0 with sz := 5, lines := [5, 6] }))).core c0).mem 64 = 0 := by
  decide +kernel

/-- Slot 3 waits: a load into s4 or a store, under generation 1; the answer's TXID. -/
def kslot (u : SlotUse) (age : Nat) : Core := { k0 with slots := [(3, { gen := 1, use := some u, limit := 48000, age := age })] }
def answerOf (op : Nat) : Packet := { pkt op 0 0 9 [] with txid := 0x43 }

theorem witness_AnswersEndTransactions :
    (gets (kslot (.load 4 0x40 8 false false none 5) 9) (answerOf 9)).arrives c0 (answerOf 9) ∧
    (kslot (.load 4 0x40 8 false false none 5) 9).answered (answerOf 9) = some (3, .load 4 0x40 8 false false none 5) ∧
    (gets (kslot (.store 0x40 5) 9) (answerOf 10)).arrives c0 (answerOf 10) ∧
    (kslot (.store 0x40 5) 9).answered (answerOf 10) = some (3, .store 0x40 5) ∧ (kslot (.store 0x40 5) 9).abortable = true ∧
    (kslot (.store 0x40 5) 9).answered { answerOf 10 with txid := 0x03 } = none ∧
    (onK (kslot (.store 0x40 5) 48000)).present c0 = true ∧ ((kslot (.store 0x40 5) 48000).slots.get .reset 3).limit ≤ 48000 := by
  and_intros <;> decide +kernel

/-- A packet of core (3, 4) waiting at its source, for an address. -/
def wpacket (op : Nat) : Packet := { pkt op 0 0x40 0 [] with src := ready.epOf c0 }
def queued (op : Nat) (a : DWord) (m : RouteMap) : State := { ready with inj := [{ pkt := wpacket op, addr := some a, core := true }], map := m }
def rid (s : State) : Nat × Nat := ((s.epOf c0).px.toNat, (s.epOf c0).py.toNat)

theorem witness_PacketsEnter :
    ready.bu.power = true ∧ ready.fieldDead (fieldOfPhys 3 4) = false ∧ (ready.epOf c0).ext = false ∧
    ((ready.router 3 4).reg rRT_PID).getLsbD 31 = false ∧ (wpacket 0).multicast = false ∧ (wpacket 0).valid = true ∧
    (queued 0 (mkAddr 0 c1 0x40) .reset).resolve (mkAddr 0 c1 0x40) = .dst (ready.epOf c1) ∧
    RouteMap.reset.deadAt (ready.epOf c1).px.toNat (ready.epOf c1).py.toNat = false ∧
    RouteMap.reset.routeClass false (ready.epOf c0).px.toNat (ready.epOf c0).py.toNat (ready.epOf c1).px.toNat (ready.epOf c1).py.toNat = some 0 ∧
    RouteMap.reset.routeClass true 4 4 500 500 = some 1 ∧
    ready.resolve (mkAddr 0 badCore 0x40) = .err 0x06 false ∧ (wpacket 0).expectsAnswer = true ∧
    logOf ready.fp.skips (ready.epOf c0).px.toNat (ready.epOf c0).py.toNat = some c0 ∧ (wpacket 12).valid = false := by
  and_intros <;> decide +kernel

/-- One flight, fresh at its place or not. -/
def flight (p : Packet) (l : Loc) (fresh : Bool) : Flight := { pkt := p, loc := l, fresh := fresh, cast := .single }
def onWay (x : Flight) : State := { ready with flights := [x] }
def goTo (cls : Nat) (e : Endpoint) : Packet := { pkt 0 0 0x40 0 [] with dst := e, rclass := BitVec.ofNat 2 cls, wpy := 4 }

/-- A request of one line, an acknowledgement with counts, and one bit of a flit changed on its way. -/
def lined : Packet := { goTo 0 (endpointAt 9 4) with op := 1, sz := 4, len := 1, lines := [5] }
def ackTo (head : BitVec 384) : Packet := { goTo 0 (endpointAt 9 4) with op := 10, sz := 0, head := head }
def acks : State := { ready with flights := [flight (ackTo 1) (.router 3 4 1) true, flight (ackTo 2) (.router 4 4 1) true] }

/-- Routes in the four directions, a ring line's last position and its own, the ring router (4, 4), a waypoint in row 4 and its relay. -/
theorem witness_PacketsMove :
    (onWay (flight (goTo 0 (endpointAt 9 4)) (.router 3 4 0) true)).atPlace 0 (flight (goTo 0 (endpointAt 9 4)) (.router 3 4 0) true) ∧
    (goTo 0 (endpointAt 9 4)).valid = true ∧
    ready.stops 4 4 = false ∧ ready.stops 3 5 = false ∧ ready.stops 2 4 = false ∧ ready.stops 3 3 = false ∧
    (onWay (flight (goTo 1 (endpointAt 500 4)) (.station false 0 71 .before) true)).atPlace 0
      (flight (goTo 1 (endpointAt 500 4)) (.station false 0 71 .before) true) ∧ (71 : Nat) ≠ ringPos (500 / 8) ∧ ringPos (ringStation 71) = 71 ∧
    ready.stops (stationRouter false 0 0).1 (stationRouter false 0 0).2 = false ∧
    (onWay (flight (goTo 1 (endpointAt 500 4)) (.router 4 4 1) false)).atPlace 0 (flight (goTo 1 (endpointAt 500 4)) (.router 4 4 1) false) ∧
    (onWay (flight (goTo 2 (endpointAt 9 4)) (.router 3 4 1) true)).atPlace 0 (flight (goTo 2 (endpointAt 9 4)) (.router 3 4 1) true) ∧
    (onWay (flight (goTo 2 (endpointAt 9 4)) (.relay 3 4) false)).atPlace 0 (flight (goTo 2 (endpointAt 9 4)) (.relay 3 4) false) ∧
    (onWay (flight lined (.router 3 4 0) true)).atPlace 0 (flight lined (.router 3 4 0) true) ∧ lined.valid = true ∧
    acks.flights = [flight (ackTo 1) (.router 3 4 1) true, flight (ackTo 2) (.router (3 + 1) 4 1) true] ∧ (ackTo 1).valid = true ∧
    ackTo 2 = { ackTo 1 with head := 2 } ∧ (ackTo 1).killed = false ∧ (ackTo 1).rclass = 0 := by
  and_intros <;> decide +kernel

/-- A changed bit of the head or of the line shows in the flit's CRC (R141, R167). -/
theorem witness_BadFlits : ∀ n, n < 2 →
    lined.receive (flight lined (.router 3 4 0) true).vc (some (n, 1)) = .fails n := by
  set_option maxRecDepth 20000 in decide +kernel

/-- R163: the counts of two acknowledgements that meet are added. -/
theorem test_acks_merge : (after (exec (.flitArrival 0 none) acks)).flights.map (fun x => x.pkt.head) = [3] := by decide +kernel

/-- R151: a packet goes along its row first. -/
theorem test_row_first :
    (after (exec (.flitArrival 0 none) (onWay (flight (goTo 0 (endpointAt 9 5)) (.router 3 4 0) true)))).flights.map (·.loc) = [.router 4 4 1] := by
  decide +kernel

/-- At its destination, the position of core (3, 4), owned by partition 2 or not; at terminus 0; and a merge of two contributions of one. -/
def arrived (sys : Bool) (pid : Pid) : Flight := flight { goTo 0 (endpointAt 3 4) with sys := sys, pid := pid } (.router 3 4 1) false
def owned (x : Flight) : State := { onWay x with routers := [(routerKey 4 3, Router.reset.setReg rRT_PID 2)] }
def toTerminus : Flight := flight { goTo 0 (tEndpoint 0 0) with space := 2 } (.tport 0 240) false
def contribution (line : Line) : Packet := { goTo 0 (endpointAt 9 4) with op := 6, sz := 4, len := 1, head := 0x10005, lines := [line] }
def merging : State :=
  { ready with routers := [(routerKey 4 3, { Router.reset with
      regs := [(0x140, 0x81000005), (0x144, 1), (0x148, 1)]
      held := [(2, [{ port := 1, pkt := contribution 7 }, { port := 0, pkt := contribution 5 }])] })] }

theorem witness_PacketsLeave :
    (owned (arrived false 2)).atPlace 0 (arrived false 2) ∧ (owned (arrived true 9)).atPlace 0 (arrived true 9) ∧
    logOf ready.fp.skips 3 4 = some c0 ∧ ((ready.core c0).seq ≠ .reset) ∧
    ((owned (arrived false 2)).router 3 4).reg rRT_PID = 2 ∧ field (((owned (arrived false 3)).router 3 4).reg rRT_PID) 0 4 ≠ 3 ∧
    (onWay toTerminus).atPlace 0 toTerminus ∧ terminusOfRouter 0 240 = some 0 ∧ (ready.terminus 0).lost = false ∧ (ready.terminus 0).full = false ∧
    (tEndpoint 0 0).px.toNat = 0 ∧ (tEndpoint 0 0).py.toNat = 240 ∧ (tEndpoint 0 0).ext = true ∧
    ((merging.router 3 4).reg 0x140).getLsbD 31 = true ∧ ((merging.router 3 4).reg 0x140).getLsbD 30 = false ∧
    field ((merging.router 3 4).reg 0x140) 28 2 = 0 ∧ (contribution 5).rcount = 1 ∧
    (∀ i, i < 5 → field ((merging.router 3 4).reg (0x140 + 4 + 4 * i)) 0 19 = if i < 2 then 1 else 0) ∧
    nextHop (contribution 5) 3 4 = some (4, 4, 1) ∧ ready.stops 4 4 = false := by
  and_intros <;> decide +kernel

/-- R165: the folded packet carries the sum of the counts. -/
theorem test_merge : (after (exec (.reduceMergeSend 3 4 2) merging)).flights.map (fun x => x.pkt.rcount) = [2] := by decide +kernel

/-- Field 80 is declared dead, and every field of a powered module is in service. -/
theorem witness_FloorPlanAndMaps :
    ({ ready with routers := [(routerKey 575 575, { Router.reset with blocked := 5 })] } : State).blockedClusters = [5183] ∧
    ready.bu.phase = 10 ∧ (5183 : BitVec 13).toNat < 5184 ∧ ready.fp.dead.contains 80 = false ∧ ready.fc.safe = false ∧
    ({ ready with fp := { FloorPlan.reset with todo := [.deadField 80] } } : State).fp.todo = [.deadField (BitVec.ofNat 7 80)] ∧
    ready.inService (0 : BitVec 7).toNat = true ∧ ready.inService (80 : BitVec 7).toNat = true := by
  and_intros <;> decide +kernel

/-! ### Witnesses: jobs and partitions -/

/-- A section of one stage, and the package and record of a job of it. -/
def sec1 : SectionEntry :=
  { secid := 7, stage := 0, flags := 0, minCores := 1, maxCores := 1, grain := 1, work := 10, wbytes := 0, codeOff := 192, codeLen := 4
    graphLen := 0, graphOff := 192, wtsOff := 192, outs := [], blobOk := true, dbuf := false }
def pkg1 : Package :=
  { magic := pkgMagic, version := 0x10000, nsec := 1, nstage := 1, nargs := 0, zeros := true, outargs := 0, length := 256, digest := 1
    computed := 1, sections := [sec1], image := [] }
def rec1 : SubmitRecord := { recLen := 32, jobid := 11, pkg := 0x4000000000000000, pkgLen := 256, flags := 0, clusters := 1, args := [] }
def job1 : Job := newJob 2 3 rec1 pkg1

/-- Partition 2 with cluster 100, its ring pair 3 in space 4 enabled. -/
def part2 : State :=
  { ready with
    yregs := [(yJB + 0x180, 0x80000001), (ringOff 2 3, 0x80000000), (ringOff 2 3 + 8, 0x40000000), (ringOff 2 3 + 0xC, 0x1000),
      (ringOff 2 3 + 0x14, 0x40000000), (ringOff 2 3 + 0x10, 0x1000), (ringOff 2 3 + 0x18, 0x8000), (yJB + 0x10, 5183), (yJB + 0x14, 5182),
      (yJB + 0x18, 5181), (yJB + 0x1C, 5180)]
    parts := [(2, { Partition.reset with clusters := [100], state := 1 })] }
def withJob (j : Job) : State := { part2 with jobs := [j] }
def res1 : Resident := { p := 2, r := 3, digest := 1, clusters := [100], layout := [] }

/-- A record of a ring, and the payload of a SUBMIT of job 11 whose package stands in host memory. -/
def rawRec (kind : Nat) (payload : List Byte) : List Byte := le 4 payload.length ++ le 2 kind ++ [0, 0] ++ payload
def submitAt (pkg len : Nat) : List Byte := rawRec 1 (le 8 11 ++ le 8 pkg ++ le 8 len ++ le 4 0 ++ le 4 1)

/-- A package of one section and the digest its header names (R241, R242). -/
def pkgTail : List Byte :=
  le 2 7 ++ [0, 0] ++ le 4 1 ++ le 4 1 ++ le 4 1 ++ le 8 10 ++ le 8 0 ++ le 8 192 ++ le 4 4 ++ le 4 0 ++ le 8 192 ++ le 8 192 ++ List.replicate 64 0
def pkgBytes (version : Nat) : List Byte :=
  le 8 pkgMagic.toNat ++ le 4 version ++ le 2 1 ++ le 2 1 ++ le 2 0 ++ List.replicate 6 0 ++ le 8 0 ++ le 8 256 ++ sha384 pkgTail ++
    List.replicate 40 0 ++ pkgTail

/-- Partition 2 with submission WRIDX of its ring 3 at 64, in the index block at the start of core (3, 4); host memory open to set 0. -/
def ringState (m : State) : State :=
  { m with
    cores := [(coreKey c0, { Core.booted with mem := Mem.write [] 0 64 })]
    rings := [(ringKey 2 3, { Ring.reset with idx := some (c0, 0) })]
    host := { m.host with desc := [(0, 0xE0000000), (1, 0x7FFFFF)] } }
def finds (m : State) (h : List Byte) (ok : State → RawRecord → Bool) : Bool := ((ringState m).fetchRecord 2 3 h).any (fun e => ok e.1 e.2)

theorem witness_JobRecordsRead :
    finds part2 (submitAt 0x4000000000010001 256) (fun s x => x.kind == 1 && !s.pkgPlaced 2 (readSubmit x)) = true ∧
    finds part2 (submitAt 0x4000010000000000 256) (fun s x => x.kind == 1 && s.pkgPlaced 2 (readSubmit x) &&
      addrSpace (readSubmit x).pkg == 4 && !s.hostReach (readSubmit x).pkg (readSubmit x).pkgLen true) = true ∧
    finds part2 (submitAt 0x4000000000010000 256) (fun s x => x.kind == 1 && s.pkgPlaced 2 (readSubmit x) &&
      s.hostReach (readSubmit x).pkg (readSubmit x).pkgLen true && (s.readRecord 2 3 x.len).loadAt (readSubmit x).pkg 256 (pkgBytes 1) == some (pkgBytes 1)) = true ∧
    finds part2 (submitAt 0x2000000000010000 256) (fun s x => !s.pkgPlaced 2 (readSubmit x)) = true ∧
    finds part2 (rawRec 5 []) (fun _ x => x.kind == 5) = true ∧ finds part2 (rawRec 0xFFFF []) (fun _ x => x.kind == 0xFFFF) = true ∧
    finds part2 (rawRec 2 (le 8 12)) (fun _ x => x.kind == 2 && numAt x.payload 0 8 == 12) = true ∧ part2.job? 2 3 12 = none ∧
    finds part2 (rawRec 3 (le 8 12)) (fun _ x => x.kind == 3) = true ∧ part2.residentsOf 2 3 = [] ∧
    ({ part2 with residents := [res1] } : State).residentsOf 2 3 ≠ [] ∧ part2.fetchRecord 2 3 [] = none := by
  and_intros <;> decide +kernel

/-- The digest of the package is the one its header names (R241, R243). -/
theorem test_package_digest : (readPackage (pkgBytes 0x10000)).digest = (readPackage (pkgBytes 0x10000)).computed := by decide +kernel

/-- The record of the package of version 1, and that of the right version, which passes where its graph blob does (R243, log entry 48). -/
theorem witness_Packages (h : (Config.graphOf [] (pkgTail.take 64)).isSome = true) :
    (ringState part2).pkgReject 2 3 rec1 (readPackage (pkgBytes 1)) = some 1 ∧
    (ringState part2).pkgReject 2 3 rec1 { readPackage (pkgBytes 0x10000) with
      sections := [{ sec1 with blobOk := (Config.graphOf [] (pkgTail.take 64)).isSome }] } = none := by
  rw [h]
  and_intros <;> decide +kernel

theorem witness_RingPairs :
    part2.pfServes ∧ part2.tdiLocked 2 = false ∧ part2.helperCore 2 ≠ none ∧ (part2.ring 2 3).waiting = [] ∧
    part2.pvalid 2 = true ∧ part2.ringEn 2 4 = false ∧ part2.ringRegionsOk 2 3 = true ∧ part2.devicePair 2 3 = false ∧
    part2.ringRegionsOk 2 4 = false ∧ job1.phase ≠ .finished ∧
    ({ part2 with host := { part2.host with tdi := [(2, 1)] } } : State).tdiLocked 2 = true := by
  and_intros <;> decide +kernel

/-- A core of cluster 100, and Ryist's layout of the job on it. -/
def cJ : CoreId := (part2.usableCores 100).headD c0
def lay1 : List SectionPlace := [{ secid := 7, slot := 63, cores := [cJ] }]
def jobRun : Job := { job1 with phase := .running, clusters := [100], layout := lay1 }

theorem witness_JobsPlaced :
    (withJob job1).nextRing = some (ringKey 2 3) ∧ (withJob job1).guarded 2 = false ∧ (withJob job1).headJob 2 3 = some job1 ∧
    (withJob job1).nextRing ≠ some (ringKey 2 4) ∧
    ((withJob job1).residentsOf 2 3).find? (fun x => x.digest == job1.pkg.digest && job1.srec.flags.getLsbD 0) = none ∧
    placeMode [{ sec1 with minCores := 65, maxCores := 65 }] 1 ((withJob job1).placeable 2 [100]).length 64 = .wait ∧
    placeMode [sec1] 1 ((withJob job1).placeable 2 [100]).length 64 = .resident ∧ (withJob job1).choiceOk job1 [100] = true ∧
    ((withJob job1).cluster 100).testing = none ∧ ((withJob job1).cluster 100).testScrub = false ∧ (withJob job1).freeSlots.length = 64 ∧
    (withJob jobRun).job? 2 3 11 = some jobRun ∧ jobRun.stageCores 0 = [cJ] ∧ (withJob jobRun).startable (jobRun.stageCores 0) ∧
    jobRun.started = none ∧ jobRun.staged = false ∧ ((withJob jobRun).core cJ).shWtop = none := by
  and_intros <;> decide +kernel

/-- A ring that keeps its resident placement, and a job of its digest that allows its use. -/
def jobAgain : Job := { job1 with srec := { rec1 with flags := 1 } }
theorem witness_ResidentAgain :
    ({ withJob jobAgain with residents := [res1] } : State).headJob 2 3 = some jobAgain ∧
    (({ withJob jobAgain with residents := [res1] } : State).residentsOf 2 3).find?
      (fun x => x.digest == jobAgain.pkg.digest && jobAgain.srec.flags.getLsbD 0) = some res1 ∧ res1.clusters.all part2.sound = true := by
  and_intros <;> decide +kernel

/-- An output final at 0, just decided and not yet; an ended and a killed job; a quiet section. -/
def jobF : Job := { jobRun with outputs := [(5, .final 0)], stageEnds := [(1, .final 0)] }
def quietSlot : State := (ready.setCore c0 (kdfs .run)).setCore c1 (kdfs .run)
def jobEnded : Job := { job1 with phase := .ended, clusters := [100] }
def jobKilled : Job := { job1 with phase := .killed, clusters := [100], killYc := none }

theorem witness_JobsEnd :
    quietSlot.coresOfSlot 0 = [c0, c1] ∧ (∀ c ∈ quietSlot.coresOfSlot 0, quietSlot.alive c = true ∧ (quietSlot.core c).quiet = true) ∧
    (quietSlot.slots.get .reset 0).job = none ∧
    (withJob jobF).job? 2 3 11 = some jobF ∧ jobF.output 5 = .final 0 ∧ (0 : DWord).toNat + 125000 ≤ (125000 : DWord).toNat ∧
    (124999 : DWord).toNat < (0 : DWord).toNat + 125000 ∧ jobF.stageEnds.get .open 1 = .final 0 ∧ 1 + 1 ≠ jobF.pkg.nstage ∧
    (withJob jobEnded).job? 2 3 11 = some jobEnded ∧ jobEnded.allDecided = true ∧ jobEnded.outs = [] ∧
    (withJob jobEnded).scrubsDone jobEnded = true ∧ (withJob jobKilled).job? 2 3 11 = some jobKilled ∧ jobKilled.allDecided = true ∧
    (withJob jobKilled).scrubsDone jobKilled = true ∧ ((withJob jobKilled).partition 2).state ≠ 3 ∧
    ({ withJob jobEnded with clusters := [(100, { Cluster.reset with scrubPend := true })] } : State).scrubsDone jobEnded = false ∧
    finds (withJob job1) (rawRec 2 (le 8 11)) (fun _ x => x.kind == 2 && numAt x.payload 0 8 == 11) = true ∧
    (ringState (withJob job1)).job? 2 3 11 = some job1 ∧ (ringState (withJob jobRun)).job? 2 3 11 = some jobRun ∧
    (ringState part2).ringEn 2 3 = true ∧ ((ringState part2).idxLoad 2 3 3).2 = some 0 ∧
    ((ringState part2).ring 2 3).compRd.toNat ≤ (0 : DWord).toNat ∧ (0 : DWord).toNat ≤ ((ringState part2).ring 2 3).compWr.toNat := by
  and_intros <;> decide +kernel

/-- R375: 125,000 yc after it was final the output is released. -/
theorem test_release : ((after (exec (.outputDecision 2 3 11 5) { withJob jobF with yc := 125000 })).jobs.map (fun j => j.output 5)) =
    [.released 0 125000] := by decide +kernel

/-- Cluster 100 waits for its scrub, or is in it, with its first core still zeroing or done. -/
def scrubOf (pend busy : Bool) : State := { part2 with clusters := [(100, { Cluster.reset with scrubPend := pend, scrubbing := busy })] }
def zeroingAt (z : Bool) : State := { scrubOf true true with cores := [(coreKey cJ, { Core.booted with zeroing := z, mem := Mem.write [] 0x5FFFF 1 })] }

theorem witness_ClusterScrubs :
    part2.fc.safe = false ∧ part2.host.up = true ∧ part2.bu.phase = 10 ∧ ((scrubOf true false).cluster 100).scrubPend = true ∧
    ((scrubOf true false).cluster 100).scrubbing = false ∧ (scrubOf true false).clusterIdle 100 = true ∧
    cJ ∈ (scrubOf true false).scrubbed 100 ∧ cJ ∈ (zeroingAt true).scrubbed 100 ∧ ((zeroingAt true).cluster 100).scrubbing = true ∧
    ((zeroingAt true).core cJ).zeroing = true ∧ (∀ b, b < 8 → (((zeroingAt true).core cJ).bank b).serves = true) ∧
    cJ ∈ (zeroingAt false).scrubbed 100 ∧ ((zeroingAt false).core cJ).zeroing = false := by
  and_intros <;> decide +kernel

/-- Partition 2 in a state, drained or not, guarded or not; partition 5 free; a state whose TDI of partition 5 runs. -/
def partIn (st : BitVec 3) (since : Option DWord) : State :=
  { part2 with parts := [(2, { Partition.reset with clusters := [100], target := [100], state := st, resetYc := since })], yc := 3000 }
def assigning (cfg : Word) : State :=
  { part2 with
    yregs := (yJB + 0x180, cfg) :: part2.yregs.drop 1
    parts := [(2, { Partition.reset with target := [100], state := 4 })] }
def tdiRuns : State := { part2 with host := { part2.host with tdi := [(5, 2)] } }

theorem witness_PartitionsChange :
    part2.pfServes ∧ part2.tdiLocked 5 = false ∧ (part2.partition 5).state.toNat < 2 ∧ part2.cfgOk 5 0x80000001 = true ∧ part2.rngOk = true ∧
    part2.sec.debug = 0 ∧ cfgPinned 0x80000001 = false ∧ part2.chosen 5 0x80000001 [101] = some [101] ∧
    part2.cfgOk 5 0xA0000001 = false ∧ tdiRuns.pfServes ∧ tdiRuns.tdiLocked 5 = true ∧ (0 : Word) &&& 0xF3001FFF = tdiRuns.pcfg 5 ∧
    part2.pvalid 5 = false ∧ (161 : Byte).toNat < 162 ∧
    (partIn 1 none).pvalid 2 = true ∧ ((partIn 1 none).partition 2).state ≠ 3 ∧ ((partIn 3 (some 0)).partition 2).state = 3 ∧
    (partIn 3 (some 0)).draining 2 = false ∧ (partIn 3 (some 0)).ringEn 2 3 = true ∧
    ((partIn 3 (some 0)).partition 2).drained = false ∧ (0 : DWord).toNat + 3000 ≤ (partIn 3 (some 0)).yc.toNat ∧
    ((assigning 0x80000001).partition 2).clusters = [] ∧ ((assigning 0x80000001).partition 2).state = 4 ∧
    ((assigning 0x80000001).partition 2).target = [100] ∧
    ((assigning 0x80000001).cluster 100).scrubPend = false ∧ ((assigning 0x80000001).cluster 100).scrubbing = false ∧
    (assigning 0x80000001).guarded 2 = false ∧ (assigning 0xC0000001).guarded 2 = true ∧ cJ ∈ (assigning 0xC0000001).usableCores 100 ∧
    onGrid cJ = true := by
  and_intros <;> decide +kernel

/-! ### Witnesses: outer memory, host and span links -/

/-- Partition 2 owns extent 0 under key 4; a request of it at the terminus of offset 0x1000, which is terminus 1. -/
def keys2 : KeySlots := { KeySlots.reset with slot0 := some 4 }
def omWith (k : KeySlots) (e : Extent) (ps : List Packet) : State :=
  { part2 with
    om := { OuterMem.reset with extents := [(0, e)], keys := [(2, k)], nextKey := 5 }
    tin := ps.map (fun p => (1, p)) }
def ext2 : Extent := { owner := .part 2, zeroing := false, fill := { key := 4, epoch := false }, missed := [] }
def omReq (op sz : Nat) : Packet :=
  { pkt op 2 0x1000 3 (if op = 1 ∧ sz = 4 then [5] else []) with
    sz := BitVec.ofNat 3 sz, len := (if op = 1 ∧ sz = 4 then 1 else 0), pid := 2, aux := 1 }
def omState (p : Packet) : State := omWith keys2 ext2 [p]

theorem witness_OuterMemoryAccesses :
    (omState (omReq 0 4)).omServes 1 (omReq 0 4) ∧ (omState (omReq 0 4)).omVerifies 0x1000 ∧ (2 : BitVec 2).toNat = 2 ∧
    (omState { omReq 0 4 with pid := 3 }).extentRefusal false 3 0x1000 = some 1 ∧ (omReq 0 4).space = 2 ∧ (omReq 0 4).omFormed = true ∧
    (omState (omReq 1 4)).omServes 1 (omReq 1 4) ∧ (omReq 1 4).lines = [5] ∧ (omState (omReq 1 3)).omServes 1 (omReq 1 3) ∧
    (omState (omReq 1 3)).omVerifies (0x1000 / 64 * 64) ∧ (omState (omReq 2 3)).omServes 1 (omReq 2 3) ∧ (omReq 2 3).aux = 1 ∧
    ({ part2 with termini := [(1, { Terminus.reset with full := true })] } : State).omHeld 1 < 4096 := by
  and_intros <;> decide +kernel

/-- R191: the atomic adds at the terminus. -/
theorem test_om_atom : Mem.read (after (exec (.omAtom 1 0) (omState (omReq 2 3)))).om.mem 0x1000 = 3 := by decide +kernel

/-- R269: another partition's read is refused. -/
theorem test_om_refused : (after (exec (.omRead 1 []) (omState { omReq 0 4 with pid := 3 }))).inj.map (fun e => (e.pkt.op, e.pkt.aux)) =
    [(11, 0x0A)] := by decide +kernel

/-- Extent 0 being filled, of partition 2 in reset with its drain complete; a stack of terminus 1 lost. -/
def filling0 (st : BitVec 3) (lost : BitVec 3) : State :=
  let s := omWith keys2 { ext2 with zeroing := true } []
  { s with
    om := { s.om with fills := [0] }, parts := [(2, { Partition.reset with clusters := [100], state := st, drained := true })]
    termini := [(1, { Terminus.reset with stkLost := lost })] }
def ext2Locked : State := { omWith keys2 ext2 [] with host := { part2.host with tdi := [(2, 2)] } }

theorem witness_ExtentsAndLosses :
    part2.pfServes ∧ (383 : BitVec 9).toNat < 384 ∧ part2.lockedBy 0 0x82 = [] ∧
    (∀ b ∈ extBytes 0 0x82, part2.extWriteRefused .pf b.1 b.2 = false) ∧ (0, 0x82#8) ∈ extBytes 0 0x82 ∧
    extOwner 0x82 ≠ (part2.extent 0).owner ∧ part2.lockedBy 0 0x85 = [] ∧ (0, 0x85#8) ∈ extBytes 0 0x85 ∧
    part2.extWriteRefused .pf 0 0x85 = true ∧ ext2Locked.pfServes ∧ ext2Locked.lockedBy 0 0 = [2] ∧ part2.filling ≠ some 0 ∧
    (filling0 1 0).filling = some 0 ∧ ((filling0 1 0).extent 0).owner = .part 2 ∧ (filling0 3 0).filling = some 0 ∧
    ((filling0 3 0).partition 2).state = 3 ∧ ((filling0 3 0).partition 2).drained = true ∧ (filling0 3 0).extentsOf 2 = [0] ∧
    (filling0 1 7).filling = some 0 ∧ (filling0 1 7).onLostPart 0x1000 = true ∧ (filling0 1 7).onLostPart 0 = false ∧
    part2.fitted 7 = true ∧ (part2.terminus 7).lost = false ∧
    (part2.terminus 7).stkLost.getLsbD 2 = false ∧
    ({ part2 with fuses := { Fuses.reset with termini := 2 } } : State).fittedList = [1] ∧
    ({ part2 with fuses := { Fuses.reset with termini := 2 }, termini := [(1, { Terminus.reset with missed := 2 })] } : State).fitted 1 = true := by
  and_intros <;> decide +kernel

/-- A flip every terminus has applied, and a sweep with one line of the retired epoch, its terminus before it, at it and past it. -/
def keysFlip : KeySlots := { keys2 with slot1 := some 6, epoch := true, flipping := true, applied := [0, 1, 2, 3, 4, 5, 6, 7] }
def keysSweep (at_ : Nat) : KeySlots := { keysFlip with flipping := false, sweep := true, pos := [(1, at_)] }

theorem witness_KeysRotate :
    (omWith keys2 ext2 []).pfServes ∧ (omWith keys2 ext2 []).pvalid 2 = true ∧ keys2.retv = false ∧ (omWith keys2 ext2 []).sweeping = false ∧
    (omWith keys2 ext2 []).rngOk = true ∧ (omWith (keysSweep 0) ext2 []).sweeping = true ∧
    keysFlip.retv = true ∧ ({ keysFlip with applied := [] } : KeySlots).applied.contains 7 = false ∧ part2.fitted 7 = true ∧
    (∀ t ∈ part2.fittedList, t ∈ keysFlip.applied) ∧ 0x1000 < part2.capacity ∧ ((omWith (keysSweep 0) ext2 []).omPlace 0x1000).t = 1 ∧
    (omWith (keysSweep 0) ext2 []).sweeps 2 (0x1000 / 64) = true ∧ (keysSweep 0).pos.get 0 1 ≤ 0x1000 / 64 ∧
    (omWith (keysSweep 0x40) ext2 []).omVerifies 0x1000 ∧ (keysSweep 0x40).pos.get 0 1 = 0x1000 / 64 ∧
    (omWith (keysSweep 0x40) ext2 []).lineTag 0x1000 = { key := 4, epoch := false } ∧
    (keysSweep 0).slot (keysSweep 0).epoch = some 6 ∧ 0x1000 / 64 < (keysSweep 0x41).pos.get 0 1 := by
  and_intros <;> decide +kernel

/-- R278: the sweep takes the line to the current key. -/
theorem test_sweep_line : (after (exec (.sweepLine 2 0x1000 0) (omWith (keysSweep 0x40) ext2 []))).lineTag 0x1000 = { key := 6, epoch := true } := by
  decide +kernel

/-- A read outstanding at the host, and a link that trains. -/
def part5 : ReadPart := { tag := 5, haddr := 0x100, len := 64, data := [], done := false }
def hread : HostRead := { req := { pkt 0 4 0x40 0 [] with sz := 4 }, set := 1, answered := false, parts := [part5] }
def linked (h : HostPort) : State := { part2 with host := h }

theorem witness_HostLink :
    (linked { HostPort.reset with training := true }).host.training = true ∧ (part2.terminus 0).lost = false ∧ part2.fc.safe = false ∧
    (linked { HostPort.reset with fail := 1 }).host.fail ≠ 0 ∧ part2.host.up = true ∧ part2.pvalid 2 = true ∧
    (linked { part2.host with reads := [hread] }).host.reads = [hread] ∧ hread.answered = false := by
  and_intros <;> decide +kernel

/-- Page 1 of the inbox belongs to function 3 and maps to page 2 of core (3, 4). -/
def inbox : State :=
  { part2 with yregs := (yHP + 0x4004, BitVec.ofNat 32 (2 ^ 31 + 3 * 2 ^ 25 + 2 * 2 ^ 22 + 4 * 2 ^ 10 + 3)) :: part2.yregs }
def ordWr : InboxWr := { id := 0, fn := 3, core := c0, off := 0x20000, data := [1, 2, 3, 4, 5, 6, 7, 8], ord := true, sent := false }
def badTlp : Tlp := { tbit := true, stream := some 4, good := false }
def bound : State :=
  { inbox with host := { inbox.host with streams := [(4, { IdeStream.reset with secure := true })], tdi := [(2, 2)], tdiStream := [(2, 4)] } }

theorem witness_InboxWindow :
    isFn 16 = true ∧ onTlp.good = true ∧ inbox.inboxServed 3 0x10040 false none = true ∧ inbox.inboxServed 4 0x10040 false none = false ∧
    oneTlp 0x10040 8 = true ∧ inbox.freeIds.head? = some 0 ∧ pageCore (inbox.inboxPage 0x10040) = c0 ∧
    pageOff (inbox.inboxPage 0x10040) 0x10040 = 0x20040 ∧ headSized 0x20040 8 = true ∧ headSized 0x20041 63 = false ∧
    headSized 0x20040 64 = false ∧ pageOff (inbox.inboxPage 0x10041) 0x10041 % 64 + 63 ≤ 64 ∧ inbox.inboxServed 3 0x10041 false none = true ∧
    inbox.host.inbox = [] ∧ inbox.host.inReads = [] ∧ badTlp.good = false ∧ badTlp.stream = some 4 ∧ (bound.stream 4).secure = true ∧
    2 ∈ bound.boundTo 4 ∧ bound.inboxServed 3 0x10040 true (some 4) = true ∧ ordWr.fn = 3 ∧ ordWr.sent = false ∧
    ({ inbox with host := { inbox.host with inbox := [ordWr] } } : State).host.inbox = [ordWr] := by
  and_intros <;> decide +kernel

/-- R293: a part of a line leaves as one write, with the enables of its bytes; so does a whole line. -/
theorem test_inbox_parts :
    (after (exec (.inboxWrite 3 0x10041 (List.replicate 63 7) onTlp) inbox)).inj.map (fun e => (e.pkt.sz, e.pkt.head.getLsbD 384, e.pkt.lines.length)) =
      [(4, false, 1)] ∧
    (after (exec (.inboxWrite 3 0x10060 (List.replicate 64 7) onTlp) inbox)).inj.length = 2 := by
  and_intros <;> decide +kernel

/-- The answer of a core to a line of a host read, at terminus 0. -/
def inAns : InRead := { fn := 3, core := c0, off := 0x20041, len := 63, parts := [(0, none)], after := [], sent := true }
def ansFlight : Flight := flight { goTo 0 (tEndpoint 0 0) with op := 9, sz := 4, len := 1, lines := [7 * 2 ^ 8], txid := 0 } (.tport 0 240) false
def inState : State := { onWay ansFlight with host := { ready.host with inReads := [inAns] } }

theorem witness_InboxReadEnds :
    inState.flights[0]? = some ansFlight ∧ ansFlight.fresh = false ∧ ansFlight.cast = .single ∧ overtakes inState.flights 0 ansFlight = false ∧
    terminusOfRouter 0 240 = some 0 ∧ (inState.terminus 0).lost = false ∧ ansFlight.pkt.killed = false ∧ ansFlight.pkt.op = 9 ∧
    inState.host.inbox = [] ∧ inAns.parts = [(ansFlight.pkt.txid, none)] ∧ inState.host.up = true := by
  and_intros <;> decide +kernel

/-- R292: the read completes with the bytes it asked for. -/
theorem test_inbox_read : (after (exec (.packetDelivery 0) inState)).resp = .bytes (7 :: List.replicate 62 0) := by decide +kernel

/-- Descriptor 0 of set 3 lets partition 2 read and write one window of the host; a request of it to space 4. -/
def hostReq (op : Nat) : Packet :=
  { pkt op 4 0x40 3 (if op = 1 then [5] else []) with sz := 4, len := (if op = 1 then 1 else 0), pid := 2 }
def descs (w : Word) : SMap Word := [((64 * 3) * 4, w), ((64 * 3) * 4 + 1, 0x7FFFFF), ((64 * 3) * 4 + 2, 0x1000)]
def hostState (w : Word) (p : Packet) : State := { linked { part2.host with desc := descs w } with tin := [(0, p)] }
def reading : State := linked { part2.host with reads := [hread] }

theorem witness_HostMemoryWindow :
    part2.bu.phase ≠ 12 ∧ (1 : BitVec 5).toNat = 1 ∧ (16 : BitVec 5).toNat ≤ 16 ∧ part2.tdiLocked 15 = false ∧ tdiRuns.tdiLocked 5 = true ∧
    (0 : Word) = tdiRuns.descWord 6 0 2 ∧ (hostReq 0).off.toNat < 2 ^ 40 ∧ (hostReq 0).descSet = 3 ∧
    (hostReq 0).omFormed = true ∧ (hostReq 1).omFormed = true ∧
    (hostState 0xE0000000 (hostReq 0)).readParts (hostReq 0) = [(0x40, 64)] ∧ (hostState 0xE0000000 (hostReq 0)).freeTags 1 = [0] ∧
    (hostState 0xE0000000 (hostReq 0)).tagsOut.length < 4096 ∧
    (hostState 0 (hostReq 1)).descRefuses 3 0x40 64 false = true ∧ hread.req.sz = 4 ∧
    reading.readOf 5 = some (hread, []) ∧ hread.parts = [part5] ∧ part5.tag = 5 ∧ part5.done = false ∧ part5.len = 64 := by
  and_intros <;> decide +kernel

theorem witness_HostWindowOpen : (hostState 0xE0000000 (hostReq 0)).descRefuses 3 0x40 (hostReq 0).span true = false ∧
    (hostState 0xE0000000 (hostReq 1)).descRefuses 3 0x40 (hostReq 1).span false = false := by
  and_intros <;> decide +kernel

/-- R287: a write above 256 B, or one that would cross 256 B, leaves in parts. -/
theorem test_host_writes : ((part2.hostWrites 3 0x80 (List.replicate 256 1)).map (fun w => match w with
    | .write _ bs _ _ => bs.length
    | _ => 0)) = [128, 128] := by decide +kernel

/-- Streams: none keyed, one with an exchange of function 0. -/
def keyed : State :=
  linked { part2.host with streams := [(4, { IdeStream.reset with exch := some 0 })], debugNonce := some 1 }
def tdiIs (v : BitVec 2) : State := linked { part2.host with tdi := [(9, v)] }

theorem witness_MailboxAndDebug :
    part2.doeServes ∧ part2.bu.committing = false ∧ ({ part2 with bu := { part2.bu with committing := true } } : State).doeServes ∧
    part2.sec.debug ≠ 1 ∧ part2.mayKey 0 4 = true ∧ (part2.stream 4).exch = none ∧ (keyed.stream 4).exch.isSome = true ∧
    (keyed.stream 4).exchFn = 0 ∧ keyed.boundTo 4 = [] ∧ part2.tdi 9 = 0 ∧ (tdiIs 1).tdi 9 = 1 ∧ (tdiIs 2).tdi 9 = 2 ∧ part2.pvalid 9 = false ∧
    (∀ p ∈ pidNos, keyed.tdiLocked p = false) ∧ keyed.host.debugNonce = some 1 ∧ keyed.fuses.dbglock = false ∧ keyed.pfServes ∧
    field (0xD7000001 : Word) 24 8 = 0xD7 ∧ (0xD7000001 : Word).getLsbD 0 = true ∧ field (0xD6000001 : Word) 24 8 ≠ 0xD7 ∧
    part2.fitted 7 = true := by
  and_intros <;> decide +kernel

theorem test_no_parts_in_reset : ∀ p ∈ pidNos, (part2.partition p).state ≠ 3 := by decide +kernel

/-- Port 5 of terminus 1 in a state; window 0 leads to it. -/
def port5 (e : SpanPort) : State := { part2 with
    span := [(5, e)]
    yregs := [(spanOff 5, 0x80020004), (winOff 0, 0x80000522), (winOff 0 + 4, 0x100)] ++ part2.yregs }
def portIn (st : BitVec 3) : SpanPort := { SpanPort.reset with state := st, rxKey := some 7, txKey := some 7 }
def spanReq : Packet := { pkt 1 5 0x40 3 [5] with sz := 4, len := 1, pid := 2 }
def asks5 (st : BitVec 3) : State := { port5 (portIn st) with tin := [(1, spanReq)] }
def full5 : State := { port5 { portIn 3 with trans := (List.range 1024).map (fun i => (BitVec.ofNat 16 i, spanReq)) } with tin := [(1, spanReq)] }
def spkt (op : BitVec 4) (vc : Bool) (pid : Pid) : SpanPacket :=
  { pctr := 1, op := op, vc := vc, kepoch := false, sys := false, mode := 0, rpid := pid, stxid := 9, aux := 0, sz := 4, addr := 0x40, extra := 0
    head := 0, lines := [5] }
def sig5 : SpanIn := { id := 0, pkt := { spkt 1 false 2 with mode := 1, lines := [1, 2, 3, 4] }, left := 0, sig := true, bad := none }

theorem witness_SpanRequests :
    (asks5 3).bu.power = true ∧ ((asks5 3).terminus 1).lost = false ∧ (asks5 3).tin.head? = some (1, spanReq) ∧ spanReq.space = 5 ∧
    spanReq.isResponse = false ∧ spanReq.omFormed = true ∧ (asks5 3).windowRefuses 0 spanReq = false ∧ (asks5 3).fc.safe = false ∧
    ((asks5 3).partition 2).state ≠ 3 ∧ (asks5 4).windowRefuses 0 spanReq = true ∧ field ((asks5 3).yreg (winOff 0)) 8 5 = 5 ∧
    ((asks5 3).spanPort 5).trans.length < 1024 ∧ full5.windowRefuses 0 spanReq = false ∧ (full5.spanPort 5).trans.length = 1024 ∧
    (full5.spanPort 5).trans.head? = some (0, spanReq) ∧ sig5.pkt.lines.length = 4 ∧
    ((port5 { portIn 3 with inbound := [sig5] }).spanPort 5).inbound.head? = some sig5 := by
  and_intros <;> decide +kernel

/-- R306, R307: a request waits for the port with the window's fields; a port with 1,024 transactions takes none. -/
theorem test_span_request : ((after (exec (.spanRequest 1) (asks5 3))).spanPort 5).outq.map (fun x => (x.2.rpid, x.2.addr, x.2.stxid)) =
    [(2, 0x40, 0)] ∧ (after (exec (.spanRequest 1) full5)).tin = full5.tin := by
  and_intros <;> decide +kernel

/-- A packet under the port's key, number 7, and the flit that carries it and nothing else. -/
def sealed (q : SpanPacket) : List Byte := q.seal (Config.spanKey 7)
def carrying (bs : List Byte) : SpanFlit := { type := 1, xoff := 0, fseq := 3, first := 0, payload := bs ++ List.replicate (248 - bs.length) 0xFF }
def inFlit (q : SpanPacket) : BitVec 2048 := (carrying (sealed q)).word

/-- The state of the port with a transaction of number 9 and what it has seen before. -/
def takes (seen : Option DWord) : State := port5 { portIn 3 with trans := [(9, spanReq)], rxctr := seen }

theorem sealed_length {q : SpanPacket} (h : q.body.length = 80) : (sealed q).length = 112 := by rw [sealed, seal_length, h]

theorem carrying_length {q : SpanPacket} (h : q.body.length = 80) : (carrying (sealed q)).payload.length = 248 := by
  simp [carrying, sealed_length h]

/-- A flit with a packet passes its CRC, holds that one packet, and the packet opens under the key. -/
theorem carries (q : SpanPacket) (h : q.body.length = 80) (hop : q.op = 0 ∨ q.op = 1 ∨ q.op = 9 ∨ q.op = 10 ∨ q.op = 11)
    (hl : q.lines.length ≤ 4) (hq : spanFields q.aad q.body = q) :
    spanFlitOf (inFlit q) = (carrying (sealed q), true) ∧ (carrying (sealed q)).packets [] = ([sealed q], []) ∧
      spanOpen (Config.spanKey 7) (sealed q) = some q := by
  refine ⟨spanFlitOf_word _ (carrying_length h), packets_seal (Config.spanKey 7) q _ 136 hop hl rfl (by omega) ?_, ?_⟩
  · rw [carrying, sealed_length h, sealed]
  · rw [sealed, spanOpen_seal, hq]

/-- An answer and two requests come in such flits, to a port that has seen nothing, an earlier PCTR or this one. -/
theorem witness_SpanPackets :
    (∀ q ∈ [spkt 9 true 2, spkt 1 false 2, spkt 1 false 3], q.body.length = 80 ∧
      (q.op = 0 ∨ q.op = 1 ∨ q.op = 9 ∨ q.op = 10 ∨ q.op = 11) ∧ q.lines.length ≤ 4 ∧ spanFields q.aad q.body = q ∧
      leNat (q.aad.take 8) = 1 ∧ (nth 0 q.aad 9).getLsbD 7 = (portIn 3).kepoch) ∧
    (carrying []).type = 1 ∧ (portIn 3).rxKey = some 7 ∧ (port5 (portIn 3)).portLive 5 = true ∧
    (port5 (portIn 3)).spanIds (portTerm 5) ≠ [] ∧
    ((takes none).spanPort 5).rxctr = none ∧ ((takes (some 0)).spanPort 5).rxctr = some 0 ∧ (0 : DWord).toNat < 1 ∧
    ((takes (some 1)).spanPort 5).rxctr = some 1 ∧ ((takes none).spanPort 5).trans.head? = some (9, spanReq) ∧
    (port5 (portIn 3)).inboundOk 5 (spkt 1 false 2) = true ∧ (port5 (portIn 3)).inboundOk 5 (spkt 1 false 3) = false := by
  and_intros <;> decide +kernel

/-- Of two flits that differ in the CRC's field alone one fails. -/
theorem witness_BadSpanFlit : ∃ w, (spanFlitOf w).2 = false := by
  by_contra h
  have ok : ∀ w, (spanFlitOf w).2 = true := by simpa using h
  have a := beq_iff_eq.mp (ok 0)
  have b := beq_iff_eq.mp (ok (BitVec.ofNat 2048 (2 ^ 2016)))
  have same : (leBytes 256 (BitVec.ofNat 2048 (2 ^ 2016)).toNat).take 252 = (leBytes 256 (0 : BitVec 2048).toNat).take 252 := by decide +kernel
  rw [same, ← a] at b
  exact absurd b (by decide +kernel)

/-- Flits that fail: none yet of the two UCLIM allows, and two. -/
theorem witness_SpanFlitsFail :
    field ((port5 (portIn 3)).spanCtrl 5) 16 8 = 2 ∧ (port5 (portIn 3)).isLeadPort 5 = false ∧
    ((port5 { portIn 3 with badAt := [0, 0] }).spanPort 5).badAt.length = 2 ∧ (portIn 2).held = [] := by
  and_intros <;> decide +kernel

/-- A port that is UP with one packet to send. -/
theorem witness_SpanFlitLeaves :
    (portIn 3).txBuf = [] ∧ (portIn 3).xoffRx = 0 ∧ (portIn 3).txKey = some 7 ∧ (portIn 3).txctr.toNat < 2 ^ 47 ∧
    ({ portIn 3 with outq := [(2, spkt 1 false 2)] } : SpanPort).outq = [(2, spkt 1 false 2)] := by
  and_intros <;> decide +kernel

theorem witness_SpanPorts :
    (port5 (portIn 2)).portLive 5 = true ∧ (port5 { portIn 2 with badAt := [0, 0, 0] }).overUclim 5 = true ∧
    (port5 (portIn 2)).overUclim 5 = false ∧ (port5 (portIn 4)).portLive 5 = true ∧ (port5 (portIn 2)).isLeadPort 5 = false ∧
    (portIn 2).keyFail = false ∧ ((port5 (portIn 2)).terminus (portTerm 5)).rngHalted = false ∧ (port5 (portIn 2)).sec.debug = 0 ∧
    (port5 (portIn 2)).peerOk 0 = false ∧
    ({ port5 (portIn 2) with yregs := [(ySEC + 0x100, 1)] } : State).peerOk 7 = true ∧ (port5 (portIn 0)).yardServes .ryist ∧
    (port5 (portIn 0)).portFitted 5 = true ∧ (port5 (portIn 0)).yardServes .pf ∧ (0x80000000 : Word).getLsbD 31 = true ∧
    (∀ m, m < 8 → m ≠ 5 → ((port5 (portIn 3)).spanPort m).recal = false ∧ ((port5 (portIn 3)).spanPort m).state ≠ 4) := by
  and_intros <;> decide +kernel

/-! ### Witnesses: clocks, power and heat -/

/-- The clock lead enabled and locked, the reference on it or on the local oscillator. -/
def clocked (c : Clocks) : State := { ready with ck := c, yregs := [(ySL, 0x80000000), (yCK + 4, 0x40000000)], yc := 5000000 }
def locked : Clocks := { Clocks.reset with leadLock := true }

theorem witness_ReferenceSource :
    (clocked { locked with lead := true }).bu.power = true ∧ (clocked { locked with lead := true }).ck.switching = none ∧
    (clocked { locked with switching := some true }).wantsLead = true ∧ (clocked { Clocks.reset with leadLock := false }).refHold = false ∧
    ((clocked locked).yreg ySL).getLsbD 31 = true ∧ ready.yardServes .pf ∧ ready.yardServes .ryist ∧
    (clocked { locked with retPend := true }).refHold = false ∧
    (clocked { locked with retPend := true }).ck.retStart.toNat + 5000000 ≤ (clocked { locked with retPend := true }).yc.toNat := by
  and_intros <;> decide +kernel

/-- AUTORET is bit 30 of CK_REFCTL. -/
theorem witness_ReferenceReturn : (clocked locked).autoRet = true := by decide +kernel

/-- Cluster 5183 with its switch closed, its tree running or stopped. -/
def treed (e : Cluster) : State := { ready with clusters := [(5183, e), (ready.clusterNo c0, Cluster.reset)] }

theorem witness_TreesAndRegulators :
    ready.alive c0 = true ∧ (ready.cluster (ready.clusterNo c0)).tree = false ∧ ((treed { Cluster.reset with tree := true }).cluster 5183).tree = true ∧
    (∀ d ∈ (treed { Cluster.reset with tree := true }).usableCores 5183, (ready.core d).df = .idle ∧ (ready.core d).waiting = none) ∧
    ready.closedSwitch 5183 = true ∧ (ready.cluster 5183).heat.toNat ≤ 1 ∧ (80 : BitVec 7).toNat < 81 ∧
    5183 ∈ fieldClusters 80 ∧ (8 : BitVec 4).toNat < 9 ∧ ready.fieldDead (9 * 8 + 8) = false := by
  and_intros <;> decide +kernel

theorem witness_PowerBudget :
    ready.bu.phase = 10 ∧ ready.liveField 80 = true ∧ ready.closedSwitch 5183 = true ∧ ready.noBudget 5183 = false ∧
    ready.cappk < 65535 ∧ (ready.yreg yPW).getLsbD 30 = false := by
  and_intros <;> decide +kernel

def hot (h : BitVec 2) (temp : Int) (below : Nat) : State :=
  treed { Cluster.reset with heat := h, shift := 1, temp := temp, belowTr := below }

theorem witness_ThermalStages :
    ready.thrT2 ≤ 105 ∧ readable 105 = true ∧ ready.thrT1 ≤ 104 ∧ (104 : Int) < ready.thrT2 ∧ readable 104 = true ∧ (85 : Int) ≤ ready.thrTR ∧
    ((hot 2 85 199).cluster 5183).heat = 2 ∧ 199 ≤ ((hot 2 85 199).cluster 5183).belowTr ∧ readable 200 = false ∧
    ((hot 1 95 0).cluster 5183).heat = 1 ∧ (hot 1 95 0).thrT1 ≤ ((hot 1 95 0).cluster 5183).temp ∧
    ((hot 1 91 0).cluster 5183).temp < (hot 1 91 0).thrT1 - 3 ∧ ((hot 3 85 0).cluster 5183).heat = 3 ∧ ready.fc.safe = false ∧
    ready.liveField (fieldOfCluster 5183) = true ∧ thrOk 0x6E5A5500 = true ∧ thrOk 0x6F5A5500 = false ∧ thrOk 0x5A5A5500 = false := by
  and_intros <;> decide +kernel

/-- R340: at T2 a cluster is switched off. -/
theorem test_heat_off : ((after (exec (.thermalSample [(5183, 105)] []) ready)).cluster 5183).heat = 2 ∧
    ((after (exec (.thermalSample [(5183, 104)] []) ready)).cluster 5183).heat = 1 := by decide +kernel

/-! ### Witnesses: bring-up, resets, settings and faults -/

/-- A module without faults; helper clusters 5180 to 5183. -/
def found : BringUpFindings :=
  { sram := [], dram := [], failedCores := [], deadFields := [], lostStacks := [], lostTermini := [], dirOk := [true, true]
    imagesOk := [true, true, true, true, true, true, true, true], settingsOk := [true, true], repairOk := [true, true], screenOk := [true, true]
    yardOk := true, durationMs := 900, helpers := [5183, 5182, 5181, 5180], slotPins := 0x3F }

theorem witness_BringUpAndResets :
    State.reset.bu.power = false ∧ helpersOk found = true ∧ (State.reset.boot found).2 = some 0 ∧ State.reset.haltReason found = none ∧
    (State.reset.haltReason { found with yardOk := false }).isSome = true ∧ (State.reset.boot { found with yardOk := false }).2 = some 0 ∧
    (State.reset.boot { found with dirOk := [false, false] }).2 = none ∧ helpersOk { found with dirOk := [false, false] } = true ∧
    ready.yardServes .pf ∧ ready.fc.grave = false ∧ ready.bu.committing = false ∧ ready.bu.power = true ∧
    ({ ready with bu := { ready.bu with committing := true } } : State).yardServes .pf ∧
    ({ ready with fc := { Collector.reset with grave := true } } : State).yardServes .pf := by
  and_intros <;> decide +kernel

/-- R354: bring-up from State.reset ends in READY. -/
theorem test_bring_up : (after (exec (.powerOn found) State.reset)).bu.phase = 10 := by decide +kernel

/-- An update in a state, and a settings pass at field 0. -/
def upd (st : BitVec 4) : State := { ready with bu := { ready.bu with updState := st } }
def passing : State := { ready with bu := { ready.bu with mixed := true, dspend := List.range 81 } }

theorem witness_UpdatesAndSettings :
    (upd 0).yardServes .pf ∧ (upd 4).bu.updState.toNat = 4 ∧ (upd 5).bu.updState.toNat = 5 ∧ (upd 1).bu.power = true ∧
    ((upd 3).yreg (yBU + 0x110)).toNat ≤ 2 ^ 25 ∧ (upd 1).svnOk 1 0 = true ∧ (upd 1).svnOk 5 0 = true ∧
    ({ upd 1 with fuses := { Fuses.reset with svn := [(1, 1)] } } : State).svnOk 1 0 = false ∧
    (0 : DWord).toNat + 2000000 ≤ (2000000 : DWord).toNat ∧ ready.bu.pendingReset = none ∧ ready.bu.mixed = false ∧ passing.bu.mixed = true ∧
    passing.yardServes .pf ∧ passing.bu.front < 81 ∧ passing.liveField 0 = true ∧
    ({ passing with fp := { FloorPlan.reset with dead := [0] } } : State).liveField 0 = false ∧
    ({ ready with bu := { ready.bu with saving := some [] } } : State).bu.saving = some [] := by
  and_intros <;> decide +kernel

theorem witness_CoresResetAndTested :
    (onK k0).alive c0 = true ∧ k0.seq ≠ .reset ∧ k0.abortable = true ∧ (onK { k0 with seq := .reset }).alive c0 = true ∧
    ready.bu.fieldDs = [] ∧ (ready.cluster 5183).fuseOpen = false ∧ (ready.cluster 5183).heat.toNat ≤ 1 ∧ part2.testIdle 99 = true ∧
    part2.testIdle 5183 = false ∧ (part2.cluster 99).testWait = false ∧ part2.testsOn = true ∧ part2.yardServes .pf ∧
    (({ part2 with clusters := [(99, { Cluster.reset with testing := some true })] } : State).cluster 99).testing = some true ∧
    (logOf part2.fp.skips ((99 % 72) * 8 + 63 % 8) ((99 / 72) * 8 + 63 / 8)).isSome = true := by
  and_intros <;> decide +kernel

/-- The scan enabled with a weights region of `top` steps, at some line or none, and the reference digest of no lines or another; a job whose
stage 0 is to be replayed. -/
def kscan (top : Word) (x : Option Scan) : Core := { Core.booted with regs := [(rFLT_WCTL, 0x80000000), (rSP_REGION, top)], scan := x }
def noLines : BitVec 384 := BitVec.ofNat 384 (leNat (sha384 []))
def at_ (n : Nat) : Option Scan := some { next := n, lines := [] }
def jobReplay : Job := { jobRun with replaying := some 0 }

theorem witness_Scans :
    (onK (kscan 1 none)).alive c0 = true ∧ (kscan 1 none).scanEn = true ∧ ((onK (kscan 1 none)).coreCycle c0).toNat % 2400000 = 0 ∧
    ({ onK (kscan 1 none) with jobs := [{ jobRun with reload := [c0] }] } : State).scansAtOnce c0 = true ∧
    (kscan 1 (at_ 0)).wtop * 256 = 256 ∧ (kscan 1 (at_ 255)).mvHeld (64 * 255) = false ∧ (kscan 1 (at_ 255)).refusal false (64 * 255) = none ∧
    (kscan 1 (at_ 255)).cleanLine (64 * 255) = true ∧ (kscan 0 (at_ 0)).wtop * 256 = 0 ∧
    ((kscan 0 (at_ 0)).setDigest rFLT_WREF noLines).digestAt rFLT_WREF = noLines ∧ (kscan 0 (at_ 0)).digestAt rFLT_WREF ≠ noLines := by
  and_intros <;> decide +kernel

theorem witness_Replays (h1 : Config.coreLoad = fun _ _ _ => { code := [], regs := [], args := [], rings := [] })
    (h2 : Config.mergeSlots = fun _ _ => []) :
    (withJob jobReplay).job? 2 3 11 = some jobReplay ∧ (withJob jobReplay).fc.safe = false ∧ ((withJob jobReplay).cluster 100).testing = none ∧
    jobReplay.unplaced 0 = false ∧ (withJob jobReplay).movedLayout jobReplay = some lay1 ∧ (withJob jobReplay).allIdle [cJ] = true ∧
    jobReplay.stageCores 0 = [cJ] ∧
    ((withJob jobReplay).loadAll jobReplay ((withJob jobReplay).planKey jobReplay [100] 0) (fun _ => true) lay1).startable [cJ] := by
  unfold State.loadAll State.loadSection
  rw [h1, h2]
  and_intros <;> decide +kernel

/-- A message of field 0 in transit, or in its box; boxes with room, full of notices, and full of others. -/
def msg (kind : Byte) : Msg := { stamp := 0, address := 0, detail := 0, kind := kind, block := 8, core := 0, cluster := 0, field := 0 }
def boxed (q : List Msg) : State := { ready with boxes := [(0, { SignalBox.reset with queue := q })], transit := [msg 2] }
def inSafe : State := { boxed [msg 2] with fc := { Collector.reset with safe := true } }

theorem witness_SignalBoxes :
    (boxed []).transit.head? = some (msg 2) ∧ ((boxed []).box 0).silent = false ∧ ready.kclass (msg 0x50).kind.toNat ≠ 0 ∧
    256 ≤ ((boxed (List.replicate 256 (msg 0))).box 0).queue.length ∧ ready.kclass (msg 0).kind.toNat = 0 ∧
    ((boxed (List.replicate 256 (msg 0))).dropNotice (List.replicate 256 (msg 0))).isSome = true ∧ ready.fieldDead 0 = false ∧
    ready.kcfg 0xEE = kcfgReset 0xEE ∧ ready.krct 0xEE = krctReset 0xEE := by
  and_intros <;> decide +kernel

theorem witness_FaultsCollected :
    ((boxed [msg 0]).box 0).queue = msg 0 :: [] ∧ ((boxed [msg 0]).box 0).lostSlot = none ∧
    (boxed [msg 0]).classOf (msg 0) ((boxed [msg 0]).countEvent (msg 0)).2 ≠ 3 ∧
    (boxed [msg 0]).reactOf (msg 0) ((boxed [msg 0]).classOf (msg 0) ((boxed [msg 0]).countEvent (msg 0)).2) ≤ 1 ∧
    (boxed [msg 0xE4]).classOf (msg 0xE4) ((boxed [msg 0xE4]).countEvent (msg 0xE4)).2 = 3 ∧ inSafe.fc.safe = true ∧
    ready.kcfg 0xEF = kcfgReset 0xEF ∧ ready.kcfg 0xE4 = kcfgReset 0xE4 ∧ ready.yardServes .ryist ∧
    ready.kclass 2 ≤ 1 ∧ field (ready.kcfg 2) 0 8 ≠ 0 := by
  and_intros <;> decide +kernel

/-! ### The whole block -/

/-- Both outcomes of the queue, and the hypotheses of the invariants. -/
theorem witness_queue : ({ ready with pending := [.flrPf] } : State).pending = .flrPf :: [] ∧ ready.pending = [] := by
  and_intros <;> decide +kernel

theorem witness_MemoriesStayCanonical : State.reset.padsCanonical ∧ State.reset.outerCanonical := by
  constructor
  · intro e he; cases he
  · exact (by decide : Mem.wf ([] : Mem))

theorem witness_CommandsLeaveQueue : ∃ t, exec .flrPf State.reset = .next t := ⟨_, rfl⟩

/-- An instruction with a word, and the word of R44's ADD decodes to it. -/
theorem witness_WordsRoundTrip : wellFormed (.add c0 3 1 2) = true ∧ encodeInsn (.add c0 3 1 2) = some 0b000000_00011_00001_00010_00000000000 ∧
    okCore c0 = true ∧ decodeInsn c0 0b000000_00011_00001_00010_00000000000 = some (.add c0 3 1 2) := by
  and_intros <;> decide +kernel

end Sys2Proof.Tests
end

section
namespace Sys2Proof.Machine

/-! ### Instructions that retire -/

/-- The core after its instruction has retired, with `k` the core that the instruction's own effect left. -/
def Core.retireAt (k : Core) (n : Nat) : Core :=
  ({ (k.count rCORE_RETIRED 1).count rPWC_SEQ 1 with pc := n, seq := .run, stallOn := [], issued := true } : Core).setReg rDF_NOPROG 0

@[simp] theorem Core.retireAt_df (k : Core) (n : Nat) : (k.retireAt n).df = k.df := rfl

@[simp] theorem retire_c (k : K) (n : Nat) : (k.retire n).c = k.c := rfl

/-- A register that retiring does not count in. -/
theorem Core.retireAt_reg (k : Core) {off : Nat} (n : Nat) (h : off ∉ retireRegs) : (k.retireAt n).reg off = k.reg off := by
  simp only [retireRegs, List.mem_cons, List.not_mem_nil, or_false, not_or] at h
  obtain ⟨h1, h2, h3, h4, h5⟩ := h
  simp only [Core.retireAt, Core.reg, Core.setReg, Core.count]
  rw [SMap.get_set_other _ _ _ _ _ h5, get_bump_other _ _ _ _ _ h3 h4, get_bump_other _ _ _ _ _ h1 h2]

/-- A write of a scalar register changes the scalar registers alone. -/
theorem Core.setS_eq (k : Core) (d : SReg) (v : DWord) : k.setS d v = { k with s := (k.setS d v).s } := by
  unfold Core.setS; split <;> rfl

@[simp] theorem Core.setS_pc (k : Core) (d : SReg) (v : DWord) : (k.setS d v).pc = k.pc := by rw [Core.setS_eq]

theorem retire_core_eq (k : K) (n : Nat) : (k.retire n).core = k.core.retireAt n := rfl

/-- What retiring does to a core whose instruction has changed no register outside `also`, none that retiring counts in among them. -/
theorem Core.retired_retireAt {k k1 : Core} {n : Nat} {also : List Nat} (hq : ∀ off ∈ retireRegs, off ∉ also)
    (hr : ∀ off, off ∉ also → SMap.get (coreReset off) k1.regs off = SMap.get (coreReset off) k.regs off) :
    k.retired (k1.retireAt n) n also := by
  obtain ⟨hpc, hseq, hstall, hiss, hret, hseqc, hnp, hoff⟩ := retire_retired { kOf .reset noCore with core := k1 } n
  have hpair : ∀ lo, lo ∈ [rCORE_RETIRED, rPWC_SEQ] → pairAt k1.regs lo = pairAt k.regs lo := by
    intro lo hlo
    have h0 : ∀ off ∈ retireRegs, SMap.get 0 k1.regs off = SMap.get 0 k.regs off := by
      intro off hm
      have hz : ∀ off ∈ retireRegs, coreReset off = 0 := by decide
      simpa only [hz off hm] using hr off (hq off hm)
    have hm : ∀ lo ∈ [rCORE_RETIRED, rPWC_SEQ], lo ∈ retireRegs ∧ lo + 4 ∈ retireRegs := by decide
    rw [pairAt, pairAt, h0 lo (hm lo hlo).1, h0 (lo + 4) (hm lo hlo).2]
  refine ⟨hpc, hseq, hstall, hiss, ?_, ?_, hnp, fun off h1 h2 => ?_⟩
  · rw [← hpair _ (by simp)]; exact hret
  · rw [← hpair _ (by simp)]; exact hseqc
  · exact (hoff off h1 (by simp)).trans (hr off h2)

/-- An instruction that issues, changes its own core alone and retires. -/
theorem next_of_retires {s : State} {c : CoreId} {i : Instr} {k1 : Core} {n : Nat} {body : Nat → Word → K → K}
    (he : exec i s = issue c i s body) (hi : s.issues c i)
    (hb : ∀ w, body (s.core c).pc w (kOf s c) = K.retire { kOf s c with core := k1 } n) (hd : k1.df = (s.core c).df) :
    ∃ t : State, exec i s = .next t ∧ s.onlyCore t c ∧ t.core c = k1.retireAt n := by
  refine ⟨_, (he.trans (issue_of_issues hi)).trans (by rw [hb]), ?_, kPut_core (show K.c _ = c from rfl)⟩
  exact kPut_onlyCore rfl rfl rfl rfl rfl rfl rfl rfl rfl rfl (by simpa only [retire_core_eq, Core.retireAt_df, retire_c, kOf_c] using hd)

/-! ### CSRR and CSRW -/

/-- The request registers of the watches are write-only (R192, R201). -/
theorem coreRow_watchRequest {off : Nat} {r : RegRow} (h1 : rSY_WREQ ≤ off) (h2 : off < rSY_WREQ + 0x40) (hr : coreRow off = some r) :
    r.acc = .wo := by
  have h : ∀ i < 0x40, ∀ x ∈ coreRow (rSY_WREQ + i), x.acc = .wo := by decide
  have := h (off - rSY_WREQ) (by omega) r
  rw [show rSY_WREQ + (off - rSY_WREQ) = off by omega] at this
  exact this (by simp [hr])

/-- A read of a register that stands alone, is readable and has no side effect gives its value and changes nothing (R16). -/
theorem readReg_plain (k : K) {off : Nat} {r : RegRow} (hr : coreRow off = some r) (hp : r.pair = false) (hwo : r.acc ≠ .wo)
    (hrc : r.acc ≠ .rc) (hea : off ≠ rSP_ERRADDR) : k.readReg off = (k, some (k.regNow off)) := by
  have hreq : ¬ (rSY_WREQ ≤ off ∧ off < rSY_WREQ + 0x40) := fun h => hwo (coreRow_watchRequest h.1 h.2 hr)
  have hei : off ≠ rSP_ERRINFO := by
    rintro rfl
    exact hrc (by
      have h : ∀ x ∈ coreRow rSP_ERRINFO, x.acc = .rc := by decide
      exact h r (by simp [hr]))
  simp only [K.readReg, hr, if_neg hreq, if_neg hwo, RegRow.isLo, RegRow.isHi, hp, Bool.false_and, Bool.false_eq_true, if_false, if_neg hei,
    if_neg hea, if_neg hrc]

/-- A write of a register takes the bits that are not reserved. -/
def RegRow.keep (r : RegRow) (old v : Word) : Word := (old &&& ~~~ r.mask) ||| (v &&& r.mask)

/-- The offsets of a core's block whose writes do more or other than take the bits that are not reserved (R16). -/
def ownBehaviour (off : Nat) : Bool :=
  decide (0x8000 ≤ off ∧ off < 0xA000) || decide (rSY_WREQ ≤ off ∧ off < rSY_WREQ + 0x40) || chConfig off ||
    decide (0x5500 ≤ off ∧ off < 0x5900 ∧ off % 0x40 = 8) || dfConfig off || decide (rFLT_WREF ≤ off ∧ off < rFLT_WREF + 0x30) ||
    decide (rSY_CNT ≤ off ∧ off < rSY_CNT + 0x100) ||
    [0x6004, rFLT_WCTL, 0x01C, rSP_BANKPWR, rSP_REGION, rSP_SCRUB, rCORE_NUMCTL, rMX_CTRL, rMX_CKCFG, 0x180C].contains off

/-- A write of a plain register changes that register alone (R16). -/
theorem writeReg_plain (k : K) {off : Nat} {r : RegRow} (v : Word) (o : Origin) (hr : coreRow off = some r) (hacc : r.acc = .rw)
    (h : ownBehaviour off = false) :
    k.writeReg off v o = ({ k with core := k.core.setReg off (r.keep (k.core.reg off) v) }, none) := by
  simp only [ownBehaviour, Bool.or_eq_false_iff, decide_eq_false_iff_not, List.contains_eq_mem, List.mem_cons, List.not_mem_nil, or_false,
    not_or] at h
  obtain ⟨⟨⟨⟨⟨⟨⟨hrt, hreq⟩, hch⟩, hcred⟩, hdf⟩, hwref⟩, hcnt⟩, hctrl, hwctl, hidata, hbank, hregion, hscrub, hnum, hmx, hck, hseed⟩ := h
  simp only [K.writeReg, hr, if_neg hrt, if_neg hreq, hch, if_neg hcred, if_neg hctrl, hdf, if_neg hwctl, if_neg hwref, if_neg hidata,
    if_neg hbank, if_neg hregion, if_neg hscrub, if_neg hnum, if_neg hmx, if_neg hck, if_neg hseed, if_neg hcnt, hacc, if_true,
    Bool.false_eq_true, if_false, RegRow.keep]

/-- A register just written. -/
theorem Core.setReg_reg_self (k : Core) (off : Nat) (v : Word) : (k.setReg off v).reg off = v := SMap.get_set_self _ _ _ _

/-- A register beside one just written. -/
theorem Core.setReg_reg_other (k : Core) {off p : Nat} (v : Word) (h : p ≠ off) : (k.setReg off v).reg p = k.reg p :=
  SMap.get_set_other _ _ _ _ _ h

/-- The write-back of a corrected word changes the instruction store and the marks of its errors alone (R48). -/
theorem istoreWriteback_next {s : State} {c : CoreId} {index : BitVec 14} {w : Word} {fixed : Bool} (hl : s.alive c = true)
    (hc : (s.core c).istoreCounted.get false index.toNat = true)
    (hr : istoreRead ((s.core c).insnAt index.toNat) ((s.core c).istoreErr.get 0 index.toNat) = some (w, fixed)) :
    exec (.istoreWriteback c index) s = .next (kPut s { kOf s c with core := { s.core c with
      istore := (s.core c).istore.set index.toNat w, istoreErr := (s.core c).istoreErr.del index.toNat,
      istoreCounted := (s.core c).istoreCounted.del index.toNat } }) := by
  show execIstoreWriteback c index s = _
  simp only [execIstoreWriteback, onLive_of_alive hl, kOf_core, hc, hr]

/-- Settles O9. -/
theorem csrAndIstore : Obligations.CsrAndIstore := by
  unfold Obligations.CsrAndIstore
  refine ⟨fun s c d off r hfree hrow hal hpair => ⟨fun hwo hrc hea => ?_, fun hm hi => ?_⟩, fun s c index w fixed halive hcnt hread => ?_⟩
  · refine computes_of_body (i := .csrr c d off) rfl fun w => ?_
    simp only [whenReady_of_free hfree (fun _ h => h), if_neg (not_not.mpr hal), readReg_plain _ hrow hpair hwo hrc hea, K.advance,
      Core.setS_pc, kOf_core]
  · obtain ⟨hacc, hown, hret⟩ : r.acc = .rw ∧ ownBehaviour off.toNat = false ∧ off.toNat ∉ retireRegs := by
      have h : ∀ n ∈ [rMX_ASTRIDE, rMX_BSTRIDE, rMX_MXCFG, rCORE_IADDR, rVEC_SRSEED_LO],
        (∀ x ∈ coreRow n, x.acc = .rw) ∧ ownBehaviour n = false ∧ n ∉ retireRegs := by decide
      exact ⟨(h _ hm).1 r (by simp [hrow]), (h _ hm).2⟩
    let k1 := (s.core c).setReg off.toNat (r.keep ((s.core c).reg off.toNat) (lo32 ((s.core c).sreg d)))
    obtain ⟨t, ht, honly, hcore⟩ := next_of_retires (i := .csrw c d off) (k1 := k1) (n := (s.core c).pc + 1) rfl hi (fun w => by
      simp only [whenReady_of_free hfree (fun _ h => h), if_neg (not_not.mpr hal), writeReg_plain _ _ _ hrow hacc hown]
      rfl) rfl
    refine ⟨t, ht, honly, ?_, ?_, ?_, ?_⟩
    · rw [hcore]; rfl
    · rw [hcore]; exact fun _ => rfl
    · rw [hcore]
      refine Core.retired_retireAt ?_ ?_
      · rintro o ho h; exact hret (by simpa using List.mem_singleton.mp h ▸ ho)
      · intro o ho; exact SMap.get_set_other _ _ _ _ _ (by simpa using ho)
    · rw [hcore, Core.retireAt_reg _ _ hret, Core.setReg_reg_self]; rfl
  · refine ⟨_, istoreWriteback_next halive hcnt hread, ?_⟩
    rw [kPut_core (show K.c _ = c from rfl)]
    refine ⟨?_, ?_, fun n => ?_, fun n hn => ?_, rfl, rfl, rfl, kPut_other rfl⟩
    · rw [SMap.get_del, if_pos rfl]
    · rw [SMap.get_del, if_pos rfl]
    · exact SMap.get_set _ _ _ _ _
    · rw [SMap.get_del, if_neg hn]

end Sys2Proof.Machine
end

section
/-! SUPPORT. Bytes of memory: several bytes read at once, a list of bytes put at an offset, and a line of the scratchpad. -/

namespace Sys2Proof.Machine

/-! ### Several bytes read at once -/

theorem Mem.readN_lt (m : Mem) (a n : Nat) : Mem.readN m a n < 256 ^ n := by
  induction n generalizing a with
  | zero => simp [Mem.readN]
  | succ n ih =>
    have h1 := ih (a + 1)
    have h2 := (Mem.read m a).isLt
    rw [Mem.readN, Nat.pow_succ]; omega

theorem Mem.readN_add (m : Mem) (a i n : Nat) : Mem.readN m a (i + n) = Mem.readN m a i + 256 ^ i * Mem.readN m (a + i) n := by
  induction i generalizing a with
  | zero => simp [Mem.readN]
  | succ i ih =>
    rw [show i + 1 + n = (i + n) + 1 by omega, Mem.readN, Mem.readN, ih, show a + 1 + i = a + (i + 1) by omega, Nat.pow_succ]
    ring

/-- The bytes in the middle of several read at once. -/
theorem Mem.readN_part (m : Mem) (a i n r : Nat) : Mem.readN m a (i + n + r) / 256 ^ i % 256 ^ n = Mem.readN m (a + i) n := by
  have hi := Mem.readN_lt m a i
  rw [show i + n + r = i + (n + r) by omega, Mem.readN_add, Nat.add_mul_div_left _ _ (Nat.pow_pos (by omega)),
    Nat.div_eq_of_lt hi, Nat.zero_add, Mem.readN_add, Nat.add_mul_mod_self_left, Nat.mod_eq_of_lt (Mem.readN_lt m (a + i) n)]

/-- A byte of several read at once. -/
theorem Mem.readN_byte (m : Mem) (a n i : Nat) (h : i < n) : BitVec.ofNat 8 (Mem.readN m a n / 256 ^ i) = Mem.read m (a + i) := by
  have h1 := Mem.readN_part m a i 1 (n - i - 1)
  rw [show i + 1 + (n - i - 1) = n by omega] at h1
  apply BitVec.eq_of_toNat_eq
  rw [BitVec.toNat_ofNat, show (2 : Nat) ^ 8 = 256 ^ 1 from rfl, h1, Mem.readN, Mem.readN]; omega

theorem Mem.readLine_toNat (m : Mem) (a : Nat) : (Mem.readLine m a).toNat = Mem.readN m a 64 := by
  have h := Mem.readN_lt m a 64
  rw [pow256] at h
  exact toNat_ofNat_lt (w := 8 * 64) h

/-- A part of a line as a load takes it from the line that holds it (R11, R43). -/
theorem linePart_readLine (m : Mem) {off n : Nat} (h : off % 64 + n ≤ 64) :
    linePart (Mem.readLine m (off / 64 * 64)) (off % 64) n = BitVec.ofNat 64 (Mem.readN m off n) := by
  have h1 := Mem.readN_part m (off / 64 * 64) (off % 64) n (64 - off % 64 - n)
  rw [show off % 64 + n + (64 - off % 64 - n) = 64 by omega, show off / 64 * 64 + off % 64 = off by omega] at h1
  rw [linePart, Mem.readLine_toNat, ← pow256, ← pow256, h1]

/-! ### Bytes put at an offset -/

theorem Mem.read_put (m : Mem) (off : Nat) (bs : List Byte) (p : Nat) :
    Mem.read (Mem.put m off bs) p = if off ≤ p ∧ p < off + bs.length then nth 0 bs (p - off) else Mem.read m p := by
  induction bs generalizing m off with
  | nil => simp [Mem.put]
  | cons b t ih =>
    rw [Mem.put, ih, Mem.read_write, List.length_cons]
    by_cases h0 : p = off
    · subst h0
      rw [if_neg (by omega), if_pos rfl, if_pos (by omega), Nat.sub_self]; rfl
    · rw [if_neg h0]
      by_cases h1 : off + 1 ≤ p ∧ p < off + 1 + t.length
      · rw [if_pos h1, if_pos (by omega), show p - off = (p - (off + 1)) + 1 by omega]; rfl
      · rw [if_neg h1, if_neg (by omega)]

theorem nth_leBytes {n i : Nat} (v : Nat) (h : i < n) : nth 0 (leBytes n v) i = BitVec.ofNat 8 (v / 256 ^ i) := by
  induction n generalizing v i with
  | zero => omega
  | succ n ih =>
    cases i with
    | zero => simp [leBytes, nth]
    | succ i => rw [leBytes, nth, ih _ (by omega), Nat.div_div_eq_div_mul, Nat.pow_succ, Nat.mul_comm]

/-- The bytes of a line written back to where they were read change nothing. -/
theorem Mem.read_writeLine_readLine (m : Mem) (a p : Nat) : Mem.read (Mem.writeLine m a (Mem.readLine m a)) p = Mem.read m p := by
  rw [Mem.writeLine, Mem.readLine_toNat]
  by_cases h : p < a ∨ a + 64 ≤ p
  · exact Mem.read_writeN_other _ _ _ _ _ h
  · obtain ⟨i, rfl⟩ : ∃ i, p = a + i := ⟨p - a, by omega⟩
    rw [Mem.read_writeN_in _ _ _ _ _ (by omega), Mem.readN_byte _ _ _ _ (by omega)]

end Sys2Proof.Machine
end

section
/-! SUPPORT. Accesses to the scratchpad: a clean line read, bytes written to one, and the watches that a write fires. -/

namespace Sys2Proof.Machine

/-! ### Reads -/

theorem scanLine_clean {k : Core} {off : Nat} (h : k.cleanLine off = true) :
    k.scanLine off = { data := Mem.readLine k.mem off, ce := [], ue := [], crcBad := false, par := [] } := by
  rw [Core.scanLine, if_pos h]

/-- A read of a clean line that nothing refuses delivers it and reports nothing (R114, R116). -/
theorem readLine_clean {k : K} {agent acc : Nat} {req : Option CoreId} (hr : k.core.refusal false acc = none)
    (hc : k.core.cleanLine (acc / 64 * 64) = true) :
    k.readLine agent req acc = (k, Mem.readLine k.core.mem (acc / 64 * 64), .good) := by
  rw [K.readLine, hr]
  simp only [scanLine_clean hc]
  rfl

/-! ### Bytes written -/

/-- Two cores that differ in their marks of wrong bits alone. -/
def Core.CodesOnly (k k' : Core) : Prop := k' = { k with flips := k'.flips, crcErr := k'.crcErr }

theorem Core.CodesOnly.trans {a b c : Core} (h1 : a.CodesOnly b) (h2 : b.CodesOnly c) : a.CodesOnly c := by
  unfold Core.CodesOnly at h1 h2 ⊢
  rw [h1] at h2
  exact h2

/-- A run of steps each of which changes marks of wrong bits alone. -/
theorem codesOnly_foldl {α : Type} {f : Core → α → Core} (h : ∀ (k : Core) x, k.CodesOnly (f k x)) (l : List α) (k : Core) :
    k.CodesOnly (l.foldl f k) := by
  induction l generalizing k with
  | nil => exact rfl
  | cons x t ih => exact (h k x).trans (ih _)

theorem freshByte_codesOnly (k : Core) (off : Nat) : k.CodesOnly (k.freshByte off) := by
  unfold Core.freshByte
  dsimp only
  split <;> exact rfl

theorem freshParity_codesOnly (k : Core) (off n : Nat) : k.CodesOnly (k.freshParity off n) := by
  refine codesOnly_foldl (fun k i => ?_) _ k
  dsimp only
  split <;> exact rfl

/-- Bytes written outside the weights region, with the codes of their halfwords (R114). -/
theorem putBytes_activation {k : Core} {off : Nat} (bs : List Byte) (h : k.inWeights off = false) :
    ∃ k1 : Core, k.CodesOnly k1 ∧ k.putBytes off bs = { k1 with mem := Mem.put k.mem off bs } := by
  have h1 := (codesOnly_foldl (f := fun a i => a.freshByte (off + i)) (fun k i => freshByte_codesOnly k (off + i)) (List.range bs.length) k).trans
    (freshParity_codesOnly _ off bs.length)
  refine ⟨_, h1, ?_⟩
  rw [Core.putBytes, h]
  rw [h1]
  rfl

/-- Bytes written in the weights region, with a fresh code of their line (R114, R115). -/
theorem putBytes_weights {k : Core} {off : Nat} (bs : List Byte) (h : k.inWeights off = true) :
    k.putBytes off bs = { k.freshLine (off / 64 * 64) with
      mem := Mem.put (Mem.writeLine k.mem (off / 64 * 64) (k.scanLine (off / 64 * 64)).data) off bs } := by
  rw [Core.putBytes, if_pos h]
  rfl

/-- What bytes put under a line's code change: the memory and the marks of wrong bits. -/
theorem putBytes_eq (k : Core) (off : Nat) (bs : List Byte) :
    k.putBytes off bs = { k with mem := (k.putBytes off bs).mem, flips := (k.putBytes off bs).flips, crcErr := (k.putBytes off bs).crcErr } := by
  cases h : k.inWeights off with
  | true => rw [putBytes_weights bs h]; rfl
  | false =>
    obtain ⟨k1, h1, h2⟩ := putBytes_activation bs h
    rw [h2, h1]

theorem putBytes_read_activation {k : Core} {off : Nat} (bs : List Byte) (h : k.inWeights off = false) (p : Nat) :
    Mem.read (k.putBytes off bs).mem p = if off ≤ p ∧ p < off + bs.length then nth 0 bs (p - off) else Mem.read k.mem p := by
  obtain ⟨k1, -, h2⟩ := putBytes_activation bs h
  rw [h2]
  exact Mem.read_put _ _ _ _

/-- Bytes written to a clean line stand where they were put, and every other byte is as before (R114, R115, R128). -/
theorem putBytes_read_clean {k : Core} {off : Nat} (bs : List Byte) (hc : k.cleanLine (off / 64 * 64) = true) (p : Nat) :
    Mem.read (k.putBytes off bs).mem p = if off ≤ p ∧ p < off + bs.length then nth 0 bs (p - off) else Mem.read k.mem p := by
  cases h : k.inWeights off with
  | false => exact putBytes_read_activation bs h p
  | true => rw [putBytes_weights bs h, scanLine_clean hc, Mem.read_put, Mem.read_writeLine_readLine]

/-! ### Watches -/

/-- A step of a core that has done nothing but fire watches: entries freed, SY_FIRED counted, packets handed to the router (R193). -/
def K.FiredOnly (k k' : K) : Prop :=
  k' = { k with out := k'.out, core := { k.core with watches := k'.core.watches, regs := k'.core.regs } } ∧
    ∀ off, off ∉ [rSY_FIRED, rSY_FIRED + 4] → SMap.get (Machine.coreReset off) k'.core.regs off = SMap.get (Machine.coreReset off) k.core.regs off

theorem K.FiredOnly.refl (k : K) : k.FiredOnly k := ⟨rfl, fun _ _ => rfl⟩

theorem K.FiredOnly.trans {a b c : K} (h1 : a.FiredOnly b) (h2 : b.FiredOnly c) : a.FiredOnly c := by
  obtain ⟨e1, r1⟩ := h1
  obtain ⟨e2, r2⟩ := h2
  refine ⟨?_, fun off h => (r2 off h).trans (r1 off h)⟩
  rw [e1] at e2
  exact e2

theorem fire_firedOnly (k : K) (i : Nat) (w : Watch) (v : DWord) : k.FiredOnly (k.fire i w v) := by
  refine ⟨rfl, fun off h => ?_⟩
  simp only [List.mem_cons, List.not_mem_nil, or_false, not_or] at h
  exact get_bump_other k.core.regs rSY_FIRED 1 off _ h.1 h.2

/-- Watches evaluated fire or do nothing. -/
theorem evalWatches_firedOnly (k : K) (concerns : Watch → Bool) : k.FiredOnly (k.evalWatches concerns) := by
  unfold K.evalWatches
  generalize List.range 16 = l
  induction l generalizing k with
  | nil => exact .refl k
  | cons i t ih =>
    rw [List.foldl_cons]
    refine .trans ?_ (ih _)
    split
    · exact .refl k
    · split
      · exact fire_firedOnly k i _ _
      · exact .refl k

/-! ### Writes of the sequencer -/

/-- Bytes of a clean line written within it are stored, and of the rest of the core nothing changes but that watches fire. -/
theorem commitBytes_clean {k : K} {agent off : Nat} {req : Option CoreId} {bs : List Byte} (hc : k.core.cleanLine (off / 64 * 64) = true) :
    k.commitBytes agent req off bs = (K.wroteBytes { k with core := k.core.putBytes off bs } off bs.length, true) := by
  rw [K.commitBytes]
  split
  · simp only [scanLine_clean hc]
    rfl
  · rfl

theorem writeBytes_clean {k : K} {agent off : Nat} {req : Option CoreId} {bs : List Byte} (hr : k.core.refusal true off = none)
    (hc : k.core.cleanLine (off / 64 * 64) = true) :
    k.writeBytes agent req off bs = (K.wroteBytes { k with core := k.core.putBytes off bs } off bs.length, true) := by
  rw [K.writeBytes, hr]
  exact commitBytes_clean hc

end Sys2Proof.Machine
end

section
/-! SUPPORT. Loads and stores of the sequencer, one lemma for each place an access can go. -/

namespace Sys2Proof.Machine

/-! ### Addresses -/

/-- An offset of an aligned address is aligned. -/
theorem addrOff40_aligned {ad : DWord} {n : Nat} (hn : n ∈ [1, 2, 4, 8]) (h : ad.toNat % n = 0) : addrOff40 ad % n = 0 := by
  have ho : addrOff40 ad = ad.toNat % 2 ^ 40 := by simp [addrOff40, field]
  rw [ho]
  simp only [List.mem_cons, List.not_mem_nil, or_false] at hn
  rcases hn with rfl | rfl | rfl | rfl <;> omega

/-- An aligned access lies within one line. -/
theorem addrOff40_inLine {ad : DWord} {n : Nat} (hn : n ∈ [1, 2, 4, 8]) (h : ad.toNat % n = 0) : addrOff40 ad % 64 + n ≤ 64 := by
  have h1 := addrOff40_aligned hn h
  simp only [List.mem_cons, List.not_mem_nil, or_false] at hn
  rcases hn with rfl | rfl | rfl | rfl <;> omega

/-- The address of a load or store, as the statements write it. -/
theorem effAddr_target (k : Core) (a : SReg) (imm : BitVec 16) : k.effAddr a imm = k.target a imm := rfl

theorem addrClass_own {c : CoreId} {ad : DWord} (h : isOwnSpad c ad = true) : addrClass c ad = .pad (addrOff40 ad) := by
  rw [addrClass, if_pos h]

theorem aligned_of_mod {ad : DWord} {n : Nat} (h : ad.toNat % n = 0) : aligned ad n = true := by simp [aligned, h]

/-! ### What retiring and the writes of a load leave alone -/

@[simp] theorem Core.retireAt_mem (k : Core) (n : Nat) : (k.retireAt n).mem = k.mem := rfl
@[simp] theorem Core.retireAt_vregs (k : Core) (n : Nat) : (k.retireAt n).vregs = k.vregs := rfl
@[simp] theorem Core.retireAt_acc (k : Core) (n : Nat) : (k.retireAt n).acc = k.acc := rfl
@[simp] theorem Core.retireAt_rlb (k : Core) (n : Nat) : (k.retireAt n).rlb = k.rlb := rfl
@[simp] theorem Core.retireAt_slots (k : Core) (n : Nat) : (k.retireAt n).slots = k.slots := rfl
@[simp] theorem Core.retireAt_pc (k : Core) (n : Nat) : (k.retireAt n).pc = n := rfl
@[simp] theorem Core.retireAt_sreg (k : Core) (n : Nat) (r : SReg) : (k.retireAt n).sreg r = k.sreg r := rfl

@[simp] theorem Core.setS_regs (k : Core) (d : SReg) (v : DWord) : (k.setS d v).regs = k.regs := by rw [Core.setS_eq]
@[simp] theorem Core.setS_mem (k : Core) (d : SReg) (v : DWord) : (k.setS d v).mem = k.mem := by rw [Core.setS_eq]
@[simp] theorem Core.setS_vregs (k : Core) (d : SReg) (v : DWord) : (k.setS d v).vregs = k.vregs := by rw [Core.setS_eq]
@[simp] theorem Core.setS_acc (k : Core) (d : SReg) (v : DWord) : (k.setS d v).acc = k.acc := by rw [Core.setS_eq]
@[simp] theorem Core.setS_rlb (k : Core) (d : SReg) (v : DWord) : (k.setS d v).rlb = k.rlb := by rw [Core.setS_eq]
@[simp] theorem Core.setS_df (k : Core) (d : SReg) (v : DWord) : (k.setS d v).df = k.df := by rw [Core.setS_eq]

@[simp] theorem Core.rlbClear_regs (k : Core) : k.rlbClear.regs = bump k.regs rSP_RLBINV 1 := rfl
@[simp] theorem Core.rlbClear_mem (k : Core) : k.rlbClear.mem = k.mem := rfl
@[simp] theorem Core.rlbClear_vregs (k : Core) : k.rlbClear.vregs = k.vregs := rfl
@[simp] theorem Core.rlbClear_acc (k : Core) : k.rlbClear.acc = k.acc := rfl
@[simp] theorem Core.rlbClear_rlb (k : Core) : k.rlbClear.rlb = [] := rfl
@[simp] theorem Core.rlbClear_df (k : Core) : k.rlbClear.df = k.df := rfl

/-! ### Loads -/

/-- The core after a load's value has come; LD.ACQ invalidates the remote-line buffer before (R131). -/
def Core.loaded (k : Core) (acq : Bool) (d : SReg) (v : DWord) : Core := (if acq then k.rlbClear else k).setS d v

/-- A load from the core's own scratchpad gives its bytes and retires (R11, R45). -/
theorem load_own {s : State} {c : CoreId} {d a : SReg} {imm : BitVec 16} {n pc : Nat} {acq : Bool} {w : Word}
    (hf : s.free c [d, a]) (hn : n ∈ [1, 2, 4, 8]) (h : (s.core c).localAccess c ((s.core c).target a imm) n false) :
    load d a imm n acq pc w (kOf s c) = K.retire
      { kOf s c with
        core := ((s.core c).loaded acq d (BitVec.ofNat 64 (Mem.readN (s.core c).mem (addrOff40 ((s.core c).target a imm)) n))) }
      ((s.core c).pc + 1) := by
  obtain ⟨hown, hal, hlt, hheld, hhaz, href, hclean⟩ := h
  simp only [Bool.false_eq_true, if_false] at hhaz
  rw [load, whenReady_of_free hf (fun _ h => h)]
  simp only [effAddr_target, aligned_of_mod hal, kOf_c, kOf_core, addrClass_own hown,
    show ¬ padSize ≤ addrOff40 ((s.core c).target a imm) by simpa [padSize] using hlt, hheld, hhaz, readLine_clean (k := kOf s c) href hclean,
    linePart_readLine _ (addrOff40_inLine hn hal), Bool.not_true, Bool.false_eq_true, if_false, Bool.or_self]
  cases acq <;> simp only [K.advance, Core.loaded, Core.setS_pc] <;> rfl

/-- A pair that retiring does not count in. -/
theorem Core.retireAt_pairAt (k : Core) {lo : Nat} (n : Nat) (h : lo ∉ retireRegs) (h4 : lo + 4 ∉ retireRegs) :
    pairAt (k.retireAt n).regs lo = pairAt k.regs lo := by
  simp only [retireRegs, List.mem_cons, List.not_mem_nil, or_false, not_or] at h h4
  obtain ⟨h1, h2, h3, h4', h5⟩ := h
  obtain ⟨g1, g2, g3, g4, g5⟩ := h4
  simp only [Core.retireAt, Core.setReg, Core.count]
  rw [pairAt_set_other _ _ _ _ h5 g5, pairAt_bump_other _ _ _ _ h3 h4' g3, pairAt_bump_other _ _ _ _ h1 h2 g1]

/-- LD.ACQ from the core's own scratchpad gives its bytes and empties the remote-line buffer (R131). -/
theorem ldAcq_own {s : State} {c : CoreId} {d a : SReg} {imm : BitVec 16} (hf : s.free c [d, a])
    (h : (s.core c).localAccess c ((s.core c).target a imm) 8 false) (hi : s.issues c (.ldAcq c d a imm)) :
    ∃ t : State, exec (.ldAcq c d a imm) s = .next t ∧ s.onlyCore t c ∧
      (s.core c).retired (t.core c) ((s.core c).pc + 1) [rSP_RLBINV, rSP_RLBINV + 4] ∧
      (s.core c).sregsSet (t.core c) d (BitVec.ofNat 64 (Mem.readN (s.core c).mem (addrOff40 ((s.core c).target a imm)) 8)) ∧
      (t.core c).rlb = [] ∧ pairAt (t.core c).regs rSP_RLBINV = pairAt (s.core c).regs rSP_RLBINV + 1 ∧
      (t.core c).mem = (s.core c).mem ∧ (t.core c).vregs = (s.core c).vregs ∧ (t.core c).acc = (s.core c).acc := by
  generalize hv : BitVec.ofNat 64 (Mem.readN (s.core c).mem (addrOff40 ((s.core c).target a imm)) 8) = v
  obtain ⟨t, ht, honly, hcore⟩ := next_of_retires (i := .ldAcq c d a imm) (k1 := (s.core c).rlbClear.setS d v) (n := (s.core c).pc + 1) rfl hi
    (fun w => by rw [← hv]; exact load_own hf (by simp) h) (by simp)
  refine ⟨t, ht, honly, ?_, ?_, ?_, ?_, ?_, ?_, ?_⟩ <;> rw [hcore]
  · refine Core.retired_retireAt (by decide) fun off ho => ?_
    simp only [List.mem_cons, List.not_mem_nil, or_false, not_or] at ho
    rw [Core.setS_regs, Core.rlbClear_regs, get_bump_other _ _ _ _ _ ho.1 ho.2]
  · exact setS_sregs (s.core c).rlbClear d v
  · simp
  · rw [Core.retireAt_pairAt _ _ (by decide) (by decide), Core.setS_regs, Core.rlbClear_regs, pairAt_bump]
    rfl
  all_goals simp

/-! ### Stores -/

/-- A step of a core that keeps its router, reports nothing and takes no free value changes cores, slots and waiting packets alone. -/
theorem kPut_ofCore {s : State} {k : K} {c : CoreId} (hh : k.here = s.epOf c) (hr : k.rt = s.routers.get Router.reset (epKey (s.epOf c)))
    (hm : k.msgs = []) (hf : k.free = s.freeCtr) (hv : k.resp = s.resp) :
    kPut s k = { s with cores := (kPut s k).cores, slots := (kPut s k).slots, inj := (kPut s k).inj } := by
  simp [kPut, hh, hr, hm, hf, hv]

/-- The bytes a store puts at its offset are the low bytes of its register (R11, R45). -/
theorem putBytes_bytesSet {k : Core} {off n : Nat} {v : DWord} (hc : k.cleanLine (off / 64 * 64) = true) :
    k.bytesSet (k.putBytes off (storeBytes v n)) off n v := by
  intro p
  rw [putBytes_read_clean _ hc, storeBytes, leBytes_length]
  split
  · rename_i h
    rw [nth_leBytes _ (by omega)]
    apply BitVec.eq_of_toNat_eq
    rw [BitVec.extractLsb'_toNat, BitVec.toNat_ofNat, pow256, Nat.shiftRight_eq_div_pow]
  · rfl

/-- The core after a store has put its bytes, before the watches are looked at. -/
def Core.stored (k : Core) (d a : SReg) (imm : BitVec 16) (n : Nat) : Core :=
  k.putBytes (addrOff40 (k.target a imm)) (storeBytes (k.sreg d) n)

/-- A store to the core's own scratchpad puts its bytes, evaluates the watches and retires (R45, R193). -/
theorem store_own {s : State} {c : CoreId} {d a : SReg} {imm : BitVec 16} {n pc : Nat} {w : Word} (hf : s.free c [d, a])
    (h : (s.core c).localAccess c ((s.core c).target a imm) n true) :
    store d a imm n pc w (kOf s c) = (K.wroteBytes { kOf s c with core := (s.core c).stored d a imm n } (addrOff40 ((s.core c).target a imm))
      (storeBytes ((s.core c).sreg d) n).length).advance := by
  obtain ⟨hown, hal, hlt, hheld, hhaz, href, hclean⟩ := h
  simp only [if_true] at hhaz
  rw [store, whenReady_of_free hf (fun _ h => h)]
  simp only [effAddr_target, aligned_of_mod hal, kOf_c, kOf_core, addrClass_own hown,
    show ¬ padSize ≤ addrOff40 ((s.core c).target a imm) by simpa [padSize] using hlt, hheld, hhaz, writeBytes_clean (k := kOf s c) href hclean,
    Bool.not_true, Bool.false_eq_true, if_false, if_true, Bool.or_self]
  rfl

/-- What a store to the core's own scratchpad does, for every instruction that is one (R45, R128, R132, R193). -/
theorem store_own_next {s : State} {c : CoreId} {d a : SReg} {imm : BitVec 16} {n : Nat} {i : Instr} {body : Nat → Word → K → K}
    (he : exec i s = issue c i s body) (hb : ∀ w, body (s.core c).pc w (kOf s c) = store d a imm n (s.core c).pc w (kOf s c))
    (hf : s.free c [d, a]) (h : (s.core c).localAccess c ((s.core c).target a imm) n true) (hi : s.issues c i) :
    ∃ t : State, exec i s = .next t ∧ (s.core c).bytesSet (t.core c) (addrOff40 ((s.core c).target a imm)) n ((s.core c).sreg d) ∧
      (s.core c).sregsKept (t.core c) ∧ (s.core c).retired (t.core c) ((s.core c).pc + 1) [rSY_FIRED, rSY_FIRED + 4] ∧
      (t.core c).vregs = (s.core c).vregs ∧ (t.core c).acc = (s.core c).acc ∧ s.othersKept t c ∧
      t = { s with cores := t.cores, slots := t.slots, inj := t.inj } := by
  obtain ⟨k', hk', hs⟩ : ∃ k', K.FiredOnly { kOf s c with core := (s.core c).stored d a imm n } k' ∧
      ∀ w, store d a imm n (s.core c).pc w (kOf s c) = k'.advance :=
    ⟨_, evalWatches_firedOnly _ _, fun w => store_own hf h⟩
  obtain ⟨hk, hregs⟩ := hk'
  have hset := putBytes_bytesSet (n := n) (v := (s.core c).sreg d) h.2.2.2.2.2.2
  have hc : k'.advance.c = c := by rw [hk]; rfl
  refine ⟨kPut s k'.advance, (he.trans (issue_of_issues hi)).trans (by rw [hb, hs]), ?_⟩
  rw [kPut_core hc, K.advance, retire_core_eq]
  have hst := putBytes_eq (s.core c) (addrOff40 ((s.core c).target a imm)) (storeBytes ((s.core c).sreg d) n)
  have hcore : k'.core = { s.core c with
      mem := ((s.core c).stored d a imm n).mem, flips := ((s.core c).stored d a imm n).flips,
      crcErr := ((s.core c).stored d a imm n).crcErr, watches := k'.core.watches, regs := k'.core.regs } := by
    have h1 := congrArg K.core hk
    dsimp only at h1
    rw [Core.stored, hst] at h1
    exact h1
  have hr0 : ((s.core c).stored d a imm n).regs = (s.core c).regs := by rw [Core.stored, hst]
  refine ⟨?_, ?_, ?_, ?_, ?_, kPut_other hc, ?_⟩
  · intro p
    rw [Core.retireAt_mem, hcore]
    exact hset p
  · intro r
    rw [Core.retireAt_sreg, hcore]
    rfl
  · rw [show k'.core.pc = (s.core c).pc by rw [hcore]]
    exact Core.retired_retireAt (by decide) fun off ho => (hregs off ho).trans (by rw [hr0])
  · rw [Core.retireAt_vregs, hcore]
  · rw [Core.retireAt_acc, hcore]
  · refine kPut_ofCore (c := c) ?_ ?_ ?_ ?_ ?_ <;> rw [hk] <;> rfl

/-! ### Accesses that leave the core -/

/-- A remote read that joins no fetch under way takes its slot and leaves as a packet of its own (R124, R125, R143). -/
theorem remoteLoad_sent {k : K} {d : SReg} {ad : DWord} {n i pc : Nat} {fill acq : Bool} (hs : k.core.freeSlot 0 8 = some i)
    (hf : k.core.fetching ad = none) :
    k.remoteLoad d ad n fill acq pc = ((k.take i (.load d ad n fill acq none pc)).sendTo ad
      (k.packet 0 (addrSpace ad) (if fill then pktOff (lineAddr ad) else pktOff ad) (if fill then 4 else szOf n) 0 (k.core.txid i) 0 [])).advance := by
  rw [K.remoteLoad, hs]
  simp only [hf, ite_self]

/-- A slot just taken. -/
theorem take_slot_use (k : K) (i : Nat) (u : SlotUse) : (SMap.get Slot.reset (k.take i u).core.slots i).use = some u := by
  simp [K.take]

/-- Where a load looks for a remote line, a miss is counted (R125). -/
def Core.countMiss (k : Core) (ad : DWord) : Core := if buffered ad then k.count rSP_RLBMISS 1 else k

theorem countMiss_eq (k : Core) (ad : DWord) : k.countMiss ad = { k with regs := (k.countMiss ad).regs } := by
  unfold Core.countMiss; split <;> rfl

/-- A load of 8 bytes that finds its slot and no copy of its line becomes a remote read (R45, R125). -/
theorem load_remote {s : State} {c : CoreId} {d a : SReg} {imm : BitVec 16} {i pc : Nat} {w : Word} (hf : s.free c [d, a])
    (h : (s.core c).remoteAccess c ((s.core c).target a imm) 8 i) :
    load d a imm 8 false pc w (kOf s c) = K.remoteLoad { kOf s c with core := (s.core c).countMiss ((s.core c).target a imm) } d
      ((s.core c).target a imm) 8 (buffered ((s.core c).target a imm)) false pc := by
  obtain ⟨hclass, hal, hslot, hfind, -⟩ := h
  rw [load, whenReady_of_free hf (fun _ h => h)]
  simp only [effAddr_target, aligned_of_mod hal, kOf_c, kOf_core, hclass, hfind, hslot, Core.countMiss]
  cases buffered ((s.core c).target a imm) <;> simp
  rfl

/-- A remote load that leaves as a read packet of its own (R45, R125, R143, R168). -/
theorem ldD_remote {s : State} {c : CoreId} {d a : SReg} {imm : BitVec 16} {i : Nat} (hf : s.free c [d, a])
    (h : (s.core c).remoteAccess c ((s.core c).target a imm) 8 i) (hi : s.issues c (.ldD c d a imm)) :
    ∃ t : State, ∃ p, exec (.ldD c d a imm) s = .next t ∧ t.inj = s.inj ++ [Sent.mk p (some ((s.core c).target a imm)) true] ∧ p.op = 0 ∧
      p.src = s.epOf c ∧ p.txid = (s.core c).txid i ∧ p.sz.toNat = (if buffered ((s.core c).target a imm) then 4 else 3) ∧
      ((t.core c).slots.get .reset i).use =
        some (.load d ((s.core c).target a imm) 8 (buffered ((s.core c).target a imm)) false none (s.core c).pc) ∧
      (s.core c).sregsKept (t.core c) ∧ (t.core c).mem = (s.core c).mem ∧ (t.core c).pc = (s.core c).pc + 1 ∧ s.othersKept t c := by
  have hm := countMiss_eq (s.core c) ((s.core c).target a imm)
  have hb := fun w => (load_remote (pc := (s.core c).pc) (w := w) hf h).trans (remoteLoad_sent (i := i)
    (by rw [hm]; exact h.2.2.1) (by rw [hm]; exact h.2.2.2.2))
  refine ⟨_, _, (issue_of_issues hi).trans (by rw [hb]), rfl, rfl, rfl, ?_, ?_, ?_, ?_, ?_, ?_, kPut_other rfl⟩
  · rw [hm]; rfl
  · cases buffered ((s.core c).target a imm) <;> rfl
  all_goals rw [kPut_core (show K.c _ = c from rfl)]
  · exact take_slot_use _ i _
  · rw [hm]; exact fun _ => rfl
  · rw [hm]; rfl
  · rw [hm]; rfl

/-! ### Remote stores -/

/-- What a store changes of the remote-line buffer (R126, R129). -/
theorem rlbStore_eq (k : Core) (ad : DWord) (n : Nat) (v : DWord) :
    k.rlbStore ad n v = { k with slots := (k.rlbStore ad n v).slots, rlb := (k.rlbStore ad n v).rlb } := by
  unfold Core.rlbStore
  dsimp only
  split <;> rfl

/-- The core of a remote store once it has updated its own copy of the line. -/
def Core.storesRemote (k : Core) (ad : DWord) (n : Nat) (v : DWord) : Core := if buffered ad then k.rlbStore ad n v else k

theorem storesRemote_eq (k : Core) (ad : DWord) (n : Nat) (v : DWord) :
    k.storesRemote ad n v = { k with slots := (k.storesRemote ad n v).slots, rlb := (k.storesRemote ad n v).rlb } := by
  unfold Core.storesRemote
  split
  · exact rlbStore_eq k ad n v
  · rfl

/-- The packet of a remote store of 8 bytes. -/
def K.storePacket (k : K) (ad v : DWord) (i : Nat) : Packet :=
  k.packet 1 (addrSpace ad) (pktOff ad) (szOf 8) 0 (k.core.txid i) (subHead v 8 (pktOff ad)) []

theorem store_remote {s : State} {c : CoreId} {d a : SReg} {imm : BitVec 16} {i pc : Nat} {w : Word} (hf : s.free c [d, a])
    (h : (s.core c).remoteAccess c ((s.core c).target a imm) 8 i) :
    store d a imm 8 pc w (kOf s c) = ((K.take { kOf s c with core := (s.core c).storesRemote ((s.core c).target a imm) 8 ((s.core c).sreg d) } i
      (.store ((s.core c).target a imm) pc)).sendTo ((s.core c).target a imm)
        ((kOf s c).storePacket ((s.core c).target a imm) ((s.core c).sreg d) i)).advance := by
  obtain ⟨hclass, hal, hslot, -, -⟩ := h
  rw [store, whenReady_of_free hf (fun _ h => h)]
  simp only [effAddr_target, aligned_of_mod hal, kOf_c, kOf_core, hclass, hslot]
  rfl

/-- The bytes of an aligned 8-byte store stand at the start of its packet's head (R142). -/
theorem subHead_aligned {ad v : DWord} (h : ad.toNat % 8 = 0) : subHead v 8 (pktOff ad) = BitVec.ofNat 384 v.toNat := by
  have h0 : pktOff ad % 8 = 0 := by
    have h4 : addrOff44 ad % 8 = 0 := by
      rw [show addrOff44 ad = ad.toNat % 2 ^ 44 by simp [addrOff44, field]]; omega
    unfold pktOff
    split
    · exact addrOff40_aligned (by simp) h
    · exact h4
  rw [subHead, h0, headOf, Nat.mod_eq_of_lt v.isLt]
  simp

/-- A remote store leaves as a write packet with its register (R45, R125, R143, R168). -/
theorem stD_remote {s : State} {c : CoreId} {d a : SReg} {imm : BitVec 16} {i : Nat} (hf : s.free c [d, a])
    (h : (s.core c).remoteAccess c ((s.core c).target a imm) 8 i) (hi : s.issues c (.stD c d a imm)) :
    ∃ t : State, ∃ p, exec (.stD c d a imm) s = .next t ∧ t.inj = s.inj ++ [Sent.mk p (some ((s.core c).target a imm)) true] ∧ p.op = 1 ∧
      p.src = s.epOf c ∧ p.txid = (s.core c).txid i ∧ p.sz = 3 ∧ p.head = BitVec.ofNat 384 ((s.core c).sreg d).toNat ∧
      ((t.core c).slots.get .reset i).use = some (.store ((s.core c).target a imm) (s.core c).pc) ∧
      (s.core c).sregsKept (t.core c) ∧ (t.core c).mem = (s.core c).mem ∧ (t.core c).pc = (s.core c).pc + 1 ∧ s.othersKept t c := by
  have hm := storesRemote_eq (s.core c) ((s.core c).target a imm) 8 ((s.core c).sreg d)
  refine ⟨_, _, (issue_of_issues hi).trans (by rw [store_remote hf h]), rfl, rfl, rfl, rfl, rfl, subHead_aligned h.2.1, ?_, ?_, ?_, ?_,
    kPut_other rfl⟩
  all_goals rw [kPut_core (show K.c _ = c from rfl)]
  · exact take_slot_use _ i _
  · rw [hm]; exact fun _ => rfl
  · rw [hm]; rfl
  · rw [hm]; rfl

/-! ### The obligation -/

/-- Settles O8. -/
theorem loadsAndStores : Obligations.LoadsAndStores := by
  unfold Obligations.LoadsAndStores
  refine ⟨fun s c d a imm hf => ⟨fun h => ?_, fun h => ?_, fun h => ?_, fun h => ?_, fun h hi => ldAcq_own hf h hi⟩,
    fun s c d a imm hf => ⟨fun h hi => ?_, fun h hi => ?_, fun h hi => ?_, fun h hi => ?_, fun hrel h hi => ?_⟩,
    fun s c d a imm i hf h => ⟨ldD_remote hf h, stD_remote hf h⟩⟩
  · exact computes_of_body (i := .ldB c d a imm) rfl fun w => load_own hf (by simp) h
  · exact computes_of_body (i := .ldH c d a imm) rfl fun w => load_own hf (by simp) h
  · exact computes_of_body (i := .ldW c d a imm) rfl fun w => load_own hf (by simp) h
  · exact computes_of_body (i := .ldD c d a imm) rfl fun w => load_own hf (by simp) h
  · exact store_own_next (i := .stB c d a imm) rfl (fun _ => rfl) hf h hi
  · exact store_own_next (i := .stH c d a imm) rfl (fun _ => rfl) hf h hi
  · exact store_own_next (i := .stW c d a imm) rfl (fun _ => rfl) hf h hi
  · exact store_own_next (i := .stD c d a imm) rfl (fun _ => rfl) hf h hi
  · exact store_own_next (i := .stRel c d a imm) rfl (fun _ => by simp only [kOf_core, hrel, if_true]) hf h hi

end Sys2Proof.Machine
end

section
/-! SUPPORT. A packet at its source router: what receiving, counting, reporting and answering there change. -/

namespace Sys2Proof.Machine

/-! ### Counters and reports of a router -/

/-- A router just set. -/
theorem setRouter_router_self (s : State) (px py : Nat) (r : Router) : (s.setRouter px py r).router px py = r :=
  SMap.get_set_self _ _ _ _

theorem onRouter_router_self (s : State) (px py : Nat) (f : Router → Router) : (s.onRouter px py f).router px py = f (s.router px py) :=
  setRouter_router_self s px py _

/-- What a router's own count changes: its registers (R176). -/
theorem onRouter_eq (s : State) (px py : Nat) (f : Router → Router) : s.onRouter px py f = { s with routers := (s.onRouter px py f).routers } := rfl

theorem received_eq (s : State) (px py n : Nat) : s.received px py n = { s with routers := (s.received px py n).routers } := rfl

/-- The message that a router's report sends (R385). -/
def State.routerMsg (s : State) (px py block kind detail addr : Nat) : Msg :=
  mkMsg px py (s.cycle (fieldOfPhys px py)) block kind detail addr

/-- What a router's report changes: the messages under way and the message counter of its position's core (R177, R400). -/
theorem routerReport_eq (s : State) (px py block kind detail addr : Nat) :
    s.routerReport px py block kind detail addr = { s with
      transit := s.transit ++ [s.routerMsg px py block kind detail addr]
      cores := (s.routerReport px py block kind detail addr).cores } := by
  unfold State.routerReport
  dsimp only
  split <;> rfl

/-- What a router counts and reports at once. -/
theorem routerEvent_eq (s : State) (px py ctr kind detail addr : Nat) :
    s.routerEvent px py ctr kind detail addr = { s with
      routers := (s.onRouter px py (fun r => r.count ctr 1)).routers
      transit := s.transit ++ [s.routerMsg px py 10 kind detail addr]
      cores := (s.routerEvent px py ctr kind detail addr).cores } := by
  unfold State.routerEvent
  rw [routerReport_eq]
  rfl

theorem routerEvent_router (s : State) (px py ctr kind detail addr : Nat) :
    (s.routerEvent px py ctr kind detail addr).router px py = (s.router px py).count ctr 1 := by
  rw [routerEvent_eq]
  show (s.onRouter px py (fun r => r.count ctr 1)).router px py = _
  exact onRouter_router_self s px py _

/-- What an event of a router advances, after the flits of its packet have been received (R176). -/
theorem routerEvent_counts (s : State) (px py n ctr kind detail addr : Nat) (hc : ctr ∈ [rRT_NOROUTE, rRT_INVAL]) :
    pairAt (((s.received px py n).routerEvent px py ctr kind detail addr).router px py).regs ctr = pairAt (s.router px py).regs ctr + 1 := by
  rw [routerEvent_router, State.received, onRouter_router_self]
  simp only [Router.count, pairAt_bump]
  simp only [List.mem_cons, List.not_mem_nil, or_false] at hc
  rcases hc with rfl | rfl <;> rw [pairAt_bump_other _ _ _ _ (by decide) (by decide) (by decide)] <;> rfl

/-! ### Injection -/

/-- The answer that a source router gives its own core (R13, R156). -/
def Packet.localAnswer (p : Packet) (code : Nat) : Packet :=
  { p with op := 11, aux := BitVec.ofNat 8 code, src := p.src, dst := p.src, sz := 0, len := 0, head := 0, lines := [], off := 0, space := 0,
           rclass := 0 }

theorem localErr_core {s : State} {p : Packet} {c : CoreId} (code : Nat) (he : p.src.ext = false)
    (hc : logOf s.fp.skips p.src.px.toNat p.src.py.toNat = some c) :
    s.localErr p.src p code = { s with inbox := s.inbox ++ [(c, p.localAnswer code)] } := by
  simp only [State.localErr, he, hc, Bool.false_eq_true, if_false]
  rfl

/-- PACKET_INJECTION takes the oldest packet of its source where the router may inject (R172). -/
theorem packetInjection_head {s : State} {e : Sent} (hp : s.bu.power = true)
    (hd : s.fieldDead (fieldOfPhys e.pkt.src.px.toNat e.pkt.src.py.toNat) = false)
    (ho : e.pkt.src.ext = false → ((s.router e.pkt.src.px.toNat e.pkt.src.py.toNat).reg rRT_PID).getLsbD 31 = false) (hi : s.inj.head? = some e) :
    exec (.packetInjection e.pkt.src) s = .next (State.inject { s with inj := s.inj.tail } e) := by
  obtain ⟨rest, hr⟩ : ∃ rest, s.inj = e :: rest := by
    cases h : s.inj with
    | nil => simp [h] at hi
    | cons a t => exact ⟨t, by simp [h] at hi; rw [hi]⟩
  have hopen : (!e.pkt.src.ext && ((s.router e.pkt.src.px.toNat e.pkt.src.py.toNat).reg rRT_PID).getLsbD 31) = false := by
    cases he : e.pkt.src.ext with
    | true => rfl
    | false => rw [ho he]; rfl
  show execPacketInjection e.pkt.src s = _
  rw [execPacketInjection, if_neg (by simp [hp, hd])]
  simp only [hopen, hr, takeFirst, List.tail_cons, beq_self_eq_true, Bool.not_false, Bool.true_or, Bool.true_and, if_true]

/-- A packet whose destination is known enters the mesh in the class its route has, or has no route (R151, R156). -/
theorem inject_dst {s : State} {e : Sent} {a : DWord} {d : Endpoint} (hv : e.pkt.valid = true) (hm : e.pkt.multicast = false)
    (ha : e.addr = some a) (hr : s.resolve a = .dst d) : s.inject e = s.route { e.pkt with dst := d } := by
  simp only [State.inject, hv, hm, ha, hr, Bool.not_true, Bool.false_eq_true, if_false]

/-- The class of a packet's route at its source router (R151, R156). -/
def State.classOfRoute (s : State) (p : Packet) (d : Endpoint) : Option Nat :=
  s.map.routeClass (((s.router p.src.px.toNat p.src.py.toNat).reg rRT_ROUTE).getLsbD 0 && p.op != 6) p.src.px.toNat p.src.py.toNat
    d.px.toNat d.py.toNat

section
variable {s : State} {p : Packet} (hd : s.map.deadAt p.dst.px.toNat p.dst.py.toNat = false)
include hd

theorem route_mesh (hc : s.classOfRoute p p.dst = some 0) : s.route p = s.launch { p with rclass := 0 } .single := by
  rw [State.classOfRoute] at hc
  simp only [State.route, hd, hc, Bool.false_eq_true, if_false]
  rfl

theorem route_express (hc : s.classOfRoute p p.dst = some 1) : s.route p = s.launch { p with rclass := 1 } .single := by
  rw [State.classOfRoute] at hc
  simp only [State.route, hd, hc, Bool.false_eq_true, if_false]
  rfl

theorem route_waypoint (hc : s.classOfRoute p p.dst = some 2) (ho : p.op ≠ 6) :
    s.route p = s.launch { p with rclass := 2, wpy := p.dst.py } .single := by
  rw [State.classOfRoute] at hc
  simp only [State.route, hd, hc, Bool.false_eq_true, if_false, if_neg ho, BitVec.ofNat_toNat, BitVec.setWidth_eq]

theorem route_none (hc : s.classOfRoute p p.dst = none) : s.route p = s.noRoute p p.dst := by
  rw [State.classOfRoute] at hc
  simp only [State.route, hd, hc, Bool.false_eq_true, if_false]

end

/-- An address that leads nowhere is answered at once (R13). -/
theorem inject_err {s : State} {e : Sent} {a : DWord} {code : Nat} {c : CoreId} (hv : e.pkt.valid = true) (hm : e.pkt.multicast = false)
    (ha : e.addr = some a) (hr : s.resolve a = .err code false) (hx : e.pkt.expectsAnswer = true) (he : e.pkt.src.ext = false)
    (hc : logOf s.fp.skips e.pkt.src.px.toNat e.pkt.src.py.toNat = some c) :
    s.inject e = { s.received e.pkt.src.px.toNat e.pkt.src.py.toNat e.pkt.flits with
      inbox := s.inbox ++ [(c, e.pkt.localAnswer code)] } := by
  simp only [State.inject, hv, hm, ha, hr, hx, Bool.not_true, Bool.false_eq_true, if_false, if_true]
  exact localErr_core (s := s.received e.pkt.src.px.toNat e.pkt.src.py.toNat e.pkt.flits) code he hc

/-- A packet without a route is counted, reported and answered (R156). -/
theorem noRoute_answered {s : State} {p : Packet} {c : CoreId} (d : Endpoint) (hx : p.expectsAnswer = true) (he : p.src.ext = false)
    (hc : logOf s.fp.skips p.src.px.toNat p.src.py.toNat = some c) :
    s.noRoute { p with dst := d } d = { (s.received p.src.px.toNat p.src.py.toNat p.flits).routerEvent p.src.px.toNat p.src.py.toNat rRT_NOROUTE
      0x24 p.op.toNat (epBits d) with inbox := s.inbox ++ [(c, Packet.localAnswer { p with dst := d } 0x04)] } := by
  have hbox (n ctr kind detail addr : Nat) (x y : Nat) : ((s.received x y n).routerEvent x y ctr kind detail addr).inbox = s.inbox := by
    rw [routerEvent_eq]; rfl
  have hx' : Packet.expectsAnswer { p with dst := d } = true := hx
  rw [State.noRoute, if_pos hx', localErr_core (p := { p with dst := d }) 0x04 he (by rw [routerEvent_eq]; exact hc), hbox]
  rfl

/-- A malformed packet is counted and reported (R145). -/
theorem inject_malformed {s : State} {e : Sent} (hv : e.pkt.valid = false) :
    s.inject e = (s.received e.pkt.src.px.toNat e.pkt.src.py.toNat e.pkt.flits).routerEvent e.pkt.src.px.toNat e.pkt.src.py.toNat rRT_INVAL
      0x29 e.pkt.op.toNat (epBits e.pkt.src) := by
  simp only [State.inject, hv, Bool.not_false, if_true]

/-- What a packet that goes no further than its source router leaves there: its counter one higher and a report with its operation; no packet
moves (R145, R156, R177). -/
theorem event_counted (s : State) (px py n ctr kind addr : Nat) (op : BitVec 4) (hc : ctr ∈ [rRT_NOROUTE, rRT_INVAL]) :
    ∃ t : State, (s.received px py n).routerEvent px py ctr kind op.toNat addr = t ∧ t.inj = s.inj ∧ t.flights = s.flights ∧ t.inbox = s.inbox ∧
      pairAt (t.router px py).regs ctr = pairAt (s.router px py).regs ctr + 1 ∧
      ∃ m : Msg, t.transit = s.transit ++ [m] ∧ m.kind = BitVec.ofNat 8 kind ∧ m.block = 10 ∧ m.detail.toNat = op.toNat := by
  refine ⟨_, rfl, ?_, ?_, ?_, routerEvent_counts s px py n ctr kind _ addr hc, s.routerMsg px py 10 kind op.toNat addr, ?_, rfl, rfl,
    toNat_ofNat_lt (Nat.lt_trans op.isLt (by decide))⟩
  all_goals rw [routerEvent_eq]; rfl

/-! ### The obligation -/

/-- Settles O32. -/
theorem packetsEnter : Obligations.PacketsEnter := by
  unfold Obligations.PacketsEnter
  intro s e a d code c p x y r cls enters counted answered hpow hdead hopen hhead hmc
  have hex : exec (.packetInjection p.src) s = .next (State.inject { s with inj := s.inj.tail } e) := packetInjection_head hpow hdead hopen hhead
  have hdst := inject_dst (s := { s with inj := s.inj.tail }) (e := e) (a := a) (d := d)
  have herr := inject_err (s := { s with inj := s.inj.tail }) (e := e) (a := a) (code := code) (c := c)
  refine ⟨fun hv ha hr hd => ⟨fun hc => ?_, fun hc => ?_, fun hc ho => ?_⟩, fun hv ha hr hx he hl => ?_, fun hv ha hr hd hc hx he hl => ?_,
    fun hv => ?_⟩
  · exact ⟨_, hex, (hdst hv hmc ha hr).trans (route_mesh (s := { s with inj := s.inj.tail }) hd hc)⟩
  · exact ⟨_, hex, (hdst hv hmc ha hr).trans (route_express (s := { s with inj := s.inj.tail }) hd hc)⟩
  · exact ⟨_, hex, (hdst hv hmc ha hr).trans (route_waypoint (s := { s with inj := s.inj.tail }) hd hc ho)⟩
  · refine ⟨_, hex, ?_⟩
    rw [herr hv hmc ha hr hx he hl]
    exact ⟨rfl, rfl, rfl, _, rfl, rfl, rfl, rfl, rfl⟩
  · refine ⟨_, hex, ?_⟩
    have hnone := route_none (s := { s with inj := s.inj.tail }) (p := { p with dst := d }) hd hc
    rw [hdst hv hmc ha hr, hnone, noRoute_answered (s := { s with inj := s.inj.tail }) d hx he hl]
    obtain ⟨t, ht, hinj, hfl, -, hctr, hmsg⟩ := event_counted { s with inj := s.inj.tail } x y p.flits rRT_NOROUTE 0x24 (epBits d) p.op (by simp)
    rw [ht]
    exact ⟨⟨hinj, hfl, hctr, hmsg⟩, _, rfl, rfl, rfl, rfl⟩
  · refine ⟨_, hex, ?_⟩
    rw [inject_malformed hv]
    obtain ⟨t, ht, hinj, hfl, hbox, hctr, hmsg⟩ :=
      event_counted { s with inj := s.inj.tail } x y p.flits rRT_INVAL 0x29 (epBits p.src) p.op (by simp)
    rw [ht]
    exact ⟨⟨hinj, hfl, hctr, hmsg⟩, hbox⟩

end Sys2Proof.Machine
end

section
/-! SUPPORT. Accesses to the registers of a core from outside: where they are served, what writes and reads of single registers do. -/

namespace Sys2Proof.Machine

/-! ### Accesses that are served -/

theorem reach_served_onGrid {s : State} {c : CoreId} {off : Nat} {o : Origin} (h : s.reach c off o = .served) : onGrid c = true := by
  cases hg : onGrid c with
  | true => rfl
  | false => simp [State.reach, hg] at h

theorem settled_of_noSettings {s : State} (c : CoreId) (h : s.bu.fieldDs = []) : s.settled c = s := by
  simp [State.settled, h]

/-- An access that is served is a step of its core (R16, R33). -/
theorem coreAccess_served {s : State} {c : CoreId} {off : Nat} {o : Origin} (h : s.servesReg c off o) (f : K → K) :
    s.coreAccess c off o f = kPut s (f (kOf s c)) := by
  obtain ⟨hp, hpf, hvf, hr, hd⟩ := h
  have hg := reach_served_onGrid hr
  have hs : onCoreSettled c s f = kPut s (f (kOf s c)) := by
    rw [onCoreSettled, onCore, if_pos hg, settled_of_noSettings c (by exact hd)]
  cases o with
  | pf => exact absurd rfl hpf
  | vf p => exact absurd rfl (hvf p)
  | own => simp only [State.coreAccess, hp, hr, Bool.not_true, Bool.false_eq_true, if_false, hs]
  | ryist => simp only [State.coreAccess, hp, hr, Bool.not_true, Bool.false_eq_true, if_false, hs]
  | packet a b e => simp only [State.coreAccess, hp, hr, Bool.not_true, Bool.false_eq_true, if_false, hs]

/-- A step of a core that is no more than an access to its registers. -/
theorem kPut_accessed {s : State} {c : CoreId} {k1 : Core} (r : Resp) (hd : k1.df = (s.core c).df) :
    s.accessed (kPut s { kOf s c with core := k1, resp := r }) c r ∧ (kPut s { kOf s c with core := k1, resp := r }).core c = k1 := by
  refine ⟨⟨?_, kPut_other rfl⟩, kPut_core rfl⟩
  have hf : freeLine s { kOf s c with core := k1, resp := r } (putSlot { kOf s c with core := k1, resp := r } s.slots) = s.slots :=
    freeLine_kept hd
  rw [kPut, hf]
  simp

/-- A write that a core's register takes, for every command that is one. -/
theorem write_takes {s : State} {c : CoreId} {off : Nat} {o : Origin} {v : Word} {k1 : Core} {cmd : Instr}
    (he : exec cmd s = .next (s.coreWrite c off o v)) (h : s.servesReg c off o)
    (hw : (kOf s c).writeReg off v o = ({ kOf s c with core := k1 }, none)) (hd : k1.df = (s.core c).df) :
    ∃ t : State, exec cmd s = .next t ∧ s.accessed t c .done ∧ t.core c = k1 :=
  ⟨_, he.trans (by rw [State.coreWrite, coreAccess_served h, hw]; rfl), kPut_accessed .done hd⟩

/-- A read that a core's register answers, for every command that is one. -/
theorem read_gives {s : State} {c : CoreId} {off : Nat} {o : Origin} {v : Word} {k1 : Core} {cmd : Instr}
    (he : exec cmd s = .next (s.coreRead c off o)) (h : s.servesReg c off o)
    (hr : (kOf s c).readReg off = ({ kOf s c with core := k1 }, some v)) (hd : k1.df = (s.core c).df) :
    ∃ t : State, exec cmd s = .next t ∧ s.accessed t c (.value (v.setWidth 64)) ∧ t.core c = k1 :=
  ⟨_, he.trans (by rw [State.coreRead, coreAccess_served h, hr]; rfl), kPut_accessed _ hd⟩

/-- A write of 4 bytes to a register of a core under power. -/
theorem registerWrite_four {s : State} {c : CoreId} {off : BitVec 16} {o : Origin} {v : Word} {tlp : Tlp} (hp : s.bu.power = true)
    (hq : ¬ (rSY_WREQ ≤ off.toNat ∧ off.toNat < rSY_WREQ + 0x40)) (ha : off.toNat % 4 = 0) :
    exec (.registerWrite (.core c off) o (.four v) tlp) s = .next (s.coreWrite c off.toNat o v) := by
  have hal : regAligned off.toNat (dataSize (.four v)) = true := by simp [regAligned, dataSize, ha]
  show execRegisterWrite (.core c off) o (.four v) tlp s = _
  simp only [execRegisterWrite, hp, if_true, registerWrite, State.coreWriteData, if_neg hq, hal, Bool.not_true, Bool.false_eq_true, if_false]

/-- A read of 4 bytes of a register of a core under power. -/
theorem pairLoRead_four {s : State} {c : CoreId} {off : BitVec 16} {o : Origin} {tlp : Tlp} (hp : s.bu.power = true)
    (hq : ¬ (rSY_WREQ ≤ off.toNat ∧ off.toNat < rSY_WREQ + 0x40)) (ha : off.toNat % 4 = 0) :
    exec (.pairLoRead (.core c off) o 4 tlp) s = .next (s.coreRead c off.toNat o) := by
  have hal : regAligned off.toNat 4 = true := by simp [regAligned, ha]
  show execPairLoRead (.core c off) o 4 tlp s = _
  simp only [execPairLoRead, hp, if_true, registerRead, State.coreReadSize, if_neg hq, hal, Bool.not_true, Bool.false_eq_true, if_false]

/-! ### Writes of single registers -/

theorem writeReg_seedHi (k : K) (v : Word) (o : Origin) :
    k.writeReg 0x180C v o = ({ k with core := { k.core.setReg 0x180C v with rng := seedState (pair64 v (k.core.reg rVEC_SRSEED_LO)) } }, none) := by
  rw [← Core.setReg_reg_other k.core v (show rVEC_SRSEED_LO ≠ 0x180C by decide)]
  rfl

theorem writeReg_numctl (k : K) (v : Word) (o : Origin) :
    k.writeReg 0x000C v o = ({ k with core := { k.core with shNumctl := some (forceNan k.guarded (v &&& 0x2E)) } }, none) := rfl

theorem writeReg_mxctrl (k : K) (v : Word) (o : Origin) :
    k.writeReg 0x1000 v o = ({ k with core := { k.core with shMxctrl := some (v &&& 0xC) } }, none) := rfl

theorem writeReg_ckcfg (k : K) (v : Word) (o : Origin) :
    k.writeReg 0x1450 v o = ({ k with core := { k.core with shCkcfg := some (v &&& 0x3F1F) } }, none) := rfl

theorem writeReg_region (k : K) (v : Word) (o : Origin) :
    k.writeReg 0x2004 v o = ({ k with core := { k.core.setReg rSP_REGION (setField (k.core.reg rSP_REGION) 31 1 (field v 31 1)) with
      shWtop := some (BitVec.ofNat 5 (min 23 (field v 0 5))) } }, none) := rfl

theorem clampNat_eq {lo hi : Nat} (v : Nat) (h : lo ≤ hi) : clampNat lo hi v = max lo (min hi v) := by
  unfold clampNat
  split
  · omega
  · split <;> omega

/-- A register of the configuration takes the nearer limit (R231). -/
theorem writeReg_window {k : K} {o : Origin} (v : Word) (ho : isSystem o = true) (hd : k.core.df = .idle) :
    k.writeReg 0x6010 v o =
      ({ k with core := k.core.setReg rDF_WINDOW (BitVec.ofNat 32 (max 4096 (min 16777215 (field v 0 24)))) }, none) := by
  have hc : k.core.configured = false := by rw [Core.configured, hd]; rfl
  rw [← clampNat_eq (field v 0 24) (by decide : 4096 ≤ 16777215)]
  show (if !isSystem o || k.core.configured then (k, some 0x09) else _) = _
  rw [ho, hc]
  rfl

/-- A write of FLT_WCTL by Ryist (R379, R400). -/
theorem writeReg_wctl {k : K} {o : Origin} (v : Word) (ho : isSystem o = true) :
    k.writeReg rFLT_WCTL v o = ({ k with core := k.core.setWctl (v.getLsbD 31) }, none) := by
  show (if isSystem o then ({ k with core := k.core.setWctl (v.getLsbD 31) }, none) else (k, some 0x09)) = _
  rw [if_pos ho]

theorem setWctl_abandons (k : Core) : k.setWctl false = { k.setReg rFLT_WCTL 0 with scan := none } := rfl

theorem setWctl_enables {k : Core} (h : (k.reg rFLT_WCTL).getLsbD 31 = false) :
    k.setWctl true = (k.setReg rFLT_WSTAT 0).setReg rFLT_WCTL 0x80000000 := by
  simp only [Core.setWctl, h, if_true, Bool.false_eq_true, if_false]

theorem writeReg_stride (k : K) (v : Word) (o : Origin) :
    k.writeReg 0x1008 v o =
      ({ k with core := k.core.setReg rMX_ASTRIDE ((k.core.reg rMX_ASTRIDE &&& ~~~0x3FF#32) ||| (v &&& 0x3FF)) }, none) :=
  writeReg_plain k v o (r := one 0x1008 .rw 0x000003FF) rfl rfl (by decide)

/-! ### Reads of single registers -/

theorem readReg_errinfo (k : K) : k.readReg rSP_ERRINFO =
    ({ k with core := { k.core.setReg rSP_ERRINFO 0 with errAddrLatch := some (k.core.reg rSP_ERRADDR) } }, some (k.core.reg rSP_ERRINFO)) := rfl

theorem readReg_mvErr (k : K) : k.readReg rMV_ERR = ({ k with core := k.core.setReg rMV_ERR 0 }, some (k.core.reg rMV_ERR)) := rfl

theorem readReg_istoreErr (k : K) :
    k.readReg rCORE_ISTORE_ERR = ({ k with core := k.core.setReg rCORE_ISTORE_ERR 0 }, some (k.core.reg rCORE_ISTORE_ERR)) := rfl

/-- The core after a read of CORE_RETIRED's lower half, with the upper half latched (R16). -/
def Core.latched (k : Core) : Core := { k with hiLatch := k.hiLatch.set (rCORE_RETIRED + 4) (k.reg (rCORE_RETIRED + 4)) }

theorem readReg_retiredLo (k : K) : k.readReg 0x0030 = ({ k with core := k.core.latched }, some (k.core.reg rCORE_RETIRED)) := rfl

/-- A key just set is the first of its kind in the table. -/
theorem SMap.find_set_self {α : Type} (m : SMap α) (n : Nat) (v : α) :
    (SMap.set m n v).find? (fun (e : Nat × α) => e.1 == n) = some (n, v) := by
  induction m with
  | nil => simp [SMap.set]
  | cons e t ih =>
    obtain ⟨a, w⟩ := e
    simp only [SMap.set]
    split
    · simp
    · split
      · simp
      · rename_i h1 h2
        rw [List.find?_cons_of_neg (by simpa using Ne.symm h2), ih]

/-- A read of the upper half takes what the read of the lower half has latched (R16). -/
theorem readReg_retiredHi {k : K} {k0 : Core} (h : k.core = k0.latched) :
    k.readReg 0x0034 = (k.dropLatch 0x0034, some (k0.reg (rCORE_RETIRED + 4))) := by
  have hf : k.core.hiLatch.find? (fun (e : Nat × Word) => e.1 == 0x0034) = some (0x0034, k0.reg (rCORE_RETIRED + 4)) := by
    rw [h]; exact SMap.find_set_self _ _ _
  show (match k.core.hiLatch.find? (fun (e : Nat × Word) => e.1 == 0x0034) with
    | some e => (k.dropLatch 0x0034, some e.2)
    | none => (k, some (k.regNow 0x0034))) = _
  rw [hf]

/-- A read of 8 bytes gives both halves of one instant (R16). -/
theorem readReg8_retired (k : K) :
    k.readReg8 0x0030 = (K.dropLatch { k with core := k.core.latched } 0x0034, some (pairAt k.core.regs rCORE_RETIRED)) := by
  simp only [K.readReg8, readReg_retiredLo, readReg_retiredHi (k := { k with core := k.core.latched }) (k0 := k.core) rfl]
  rfl

/-! ### CORE_IDATA -/

/-- One word of a write to CORE_IDATA (R47). -/
def Core.idataWord (ws : List Word) (i : Nat) (k : Core) (j : Nat) : Core :=
  { k with istore := k.istore.set (i + j) (nth 0 ws j), istoreErr := k.istoreErr.del (i + j), istoreCounted := k.istoreCounted.del (i + j) }

/-- The first `n` words of a write to CORE_IDATA at index `i`. -/
def Core.idataWords (ws : List Word) (i n : Nat) (k : Core) : Core := (List.range n).foldl (Core.idataWord ws i) k

theorem idataWords_succ (ws : List Word) (i n : Nat) (k : Core) :
    k.idataWords ws i (n + 1) = (k.idataWords ws i n).idataWord ws i n := by
  rw [Core.idataWords, List.range_succ, List.foldl_append]
  rfl

/-- Loading words changes the instruction store and the marks of its errors alone. -/
theorem idataWords_eq (ws : List Word) (i n : Nat) (k : Core) : k.idataWords ws i n = { k with
    istore := (k.idataWords ws i n).istore, istoreErr := (k.idataWords ws i n).istoreErr,
    istoreCounted := (k.idataWords ws i n).istoreCounted } := by
  induction n with
  | zero => rfl
  | succ n ih => rw [idataWords_succ, Core.idataWord, ih]

theorem idataWords_insnAt (ws : List Word) (i n : Nat) (k : Core) (p : Nat) :
    (k.idataWords ws i n).insnAt p = if i ≤ p ∧ p < i + n then nth 0 ws (p - i) else k.insnAt p := by
  induction n with
  | zero => rw [if_neg (by omega)]; rfl
  | succ n ih =>
    rw [idataWords_succ, show ((k.idataWords ws i n).idataWord ws i n).insnAt p =
      if p = i + n then nth 0 ws n else (k.idataWords ws i n).insnAt p from SMap.get_set _ _ _ _ _, ih]
    by_cases h : p = i + n
    · rw [if_pos h, if_pos (by omega), h, Nat.add_sub_cancel_left]
    · rw [if_neg h]
      by_cases h1 : i ≤ p ∧ p < i + n
      · rw [if_pos h1, if_pos (by omega)]
      · rw [if_neg h1, if_neg (by omega)]

theorem idataWords_istoreErr (ws : List Word) (i n : Nat) (k : Core) (p : Nat) :
    (k.idataWords ws i n).istoreErr.get 0 p = if i ≤ p ∧ p < i + n then 0 else k.istoreErr.get 0 p := by
  induction n with
  | zero => rw [if_neg (by omega)]; rfl
  | succ n ih =>
    rw [idataWords_succ, show SMap.get 0 ((k.idataWords ws i n).idataWord ws i n).istoreErr p =
      if p = i + n then 0 else (k.idataWords ws i n).istoreErr.get 0 p from SMap.get_del _ _ _ _, ih]
    by_cases h : p = i + n
    · rw [if_pos h, if_pos (by omega)]
    · rw [if_neg h]
      by_cases h1 : i ≤ p ∧ p < i + n
      · rw [if_pos h1, if_pos (by omega)]
      · rw [if_neg h1, if_neg (by omega)]

/-- The core after a write to CORE_IDATA. -/
def Core.idataLoaded (k : Core) (ws : List Word) : Core :=
  (k.idataWords ws (field (k.reg rCORE_IADDR) 0 14) ws.length).setReg rCORE_IADDR (place 32 0 14 (field (k.reg rCORE_IADDR) 0 14 + ws.length))

/-- A write to CORE_IDATA that fits stores its words and advances CORE_IADDR (R47). -/
theorem writeIdata_stores {k : K} {ws : List Word} (hs : k.core.seq = .idle) (hd : k.core.df = .idle)
    (hf : field (k.core.reg rCORE_IADDR) 0 14 + ws.length ≤ 16384) :
    k.writeIdata ws = ({ k with core := k.core.idataLoaded ws }, none) := by
  have hc : k.core.configured = false := by rw [Core.configured, hd]; rfl
  have h0 : (k.core.seq != .idle || k.core.configured || decide (16384 < field (k.core.reg rCORE_IADDR) 0 14 + ws.length)) = false := by
    rw [hs, hc, decide_eq_false (by omega)]; rfl
  simp only [K.writeIdata, h0, Bool.false_eq_true, if_false]
  rfl

/-- A field of a register that holds nothing else. -/
theorem field_place (x : Nat) : field (place 32 0 14 x) 0 14 = x % 16384 := by
  simp only [field, place, BitVec.shiftLeft_zero, BitVec.extractLsb'_toNat, BitVec.toNat_ofNat, Nat.shiftRight_zero]
  omega

/-- CORE_IDATA_WRITE (R47). -/
theorem coreIdataWrite_stores {s : State} {c : CoreId} {o : Origin} {words : List Word} (h : s.servesReg c 0x1C o)
    (hs : (s.core c).seq = .idle) (hd : (s.core c).df = .idle) (h1 : 1 ≤ words.length) (h64 : words.length ≤ 64)
    (hf : field ((s.core c).reg rCORE_IADDR) 0 14 + words.length ≤ 16384) :
    ∃ t : State, exec (.coreIdataWrite c o words) s = .next t ∧ s.accessed t c .done ∧ t.core c = (s.core c).idataLoaded words := by
  have hdf : ((s.core c).idataLoaded words).df = (s.core c).df := by rw [Core.idataLoaded, idataWords_eq]; rfl
  have hn : (words.isEmpty || decide (64 < words.length)) = false := by
    rw [decide_eq_false (by omega), Bool.or_false]
    cases words with
    | nil => simp at h1
    | cons a t => rfl
  refine ⟨_, ?_, kPut_accessed .done hdf⟩
  show execCoreIdataWrite c o words s = _
  rw [execCoreIdataWrite, coreAccess_served h, hn, writeIdata_stores (k := kOf s c) hs hd hf]
  rfl

/-- A read of the lower half of CORE_RETIRED under power. -/
theorem read_retiredLo {s : State} {c : CoreId} {o : Origin} {tlp : Tlp} (h : s.servesReg c rCORE_RETIRED o) :
    ∃ t : State, exec (.pairLoRead (.core c 0x0030) o 4 tlp) s = .next t ∧
      s.accessed t c (.value (((s.core c).reg rCORE_RETIRED).setWidth 64)) ∧ t.core c = (s.core c).latched :=
  read_gives (pairLoRead_four h.1 (by decide) (by decide)) h (readReg_retiredLo _) rfl

/-- A read of all 8 bytes of CORE_RETIRED under power. -/
theorem read_retired8 {s : State} {c : CoreId} {o : Origin} {tlp : Tlp} (h : s.servesReg c rCORE_RETIRED o) :
    ∃ t : State, exec (.pairLoRead (.core c 0x0030) o 8 tlp) s = .next t ∧
      s.accessed t c (.value (pairAt (s.core c).regs rCORE_RETIRED)) ∧ (t.core c).regs = (s.core c).regs := by
  have he : exec (.pairLoRead (.core c 0x0030) o 8 tlp) s = .next (s.coreAccess c 0x0030 o (fun k => K.readAnswer8 (k.readReg8 0x0030))) := by
    show execPairLoRead (.core c 0x0030) o 8 tlp s = _
    rw [execPairLoRead, if_pos h.1]
    rfl
  obtain ⟨hacc, hcore⟩ := kPut_accessed (s := s) (c := c) (k1 := { (s.core c).latched with hiLatch := (s.core c).latched.hiLatch.del 0x0034 })
    (.value (pairAt (s.core c).regs rCORE_RETIRED)) rfl
  refine ⟨_, he.trans ?_, hacc, by rw [hcore]; rfl⟩
  rw [coreAccess_served h, readReg8_retired]
  rfl

/-- A register access leaves a core's registers served to the same sender, where it changes neither the sequencer nor anything beside the
core. -/
theorem servesReg_after {s t : State} {c : CoreId} {o : Origin} {r : Resp} (h : s.servesReg c rCORE_RETIRED o) (ha : s.accessed t c r)
    (hs : (t.core c).seq = (s.core c).seq) : t.servesReg c (rCORE_RETIRED + 4) o := by
  obtain ⟨hp, hpf, hvf, hr, hd⟩ := h
  obtain ⟨ht, -⟩ := ha
  have hreach : t.reach c (rCORE_RETIRED + 4) o = s.reach c rCORE_RETIRED o := by
    unfold State.reach
    rw [hs]
    rw [ht]
    rfl
  refine ⟨by rw [ht]; exact hp, hpf, hvf, hreach.trans hr, by rw [ht]; exact hd⟩

/-! ### The obligation -/

/-- Settles O29. -/
theorem registerAccesses : Obligations.RegisterAccesses := by
  unfold Obligations.RegisterAccesses
  refine ⟨fun s c o v words tlp => ?_, fun s c o tlp => ?_⟩
  · intro k i becomes
    refine ⟨fun h hs hd h1 h64 hfit => ?_, fun h => write_takes rfl h (writeReg_seedHi _ v o) rfl,
      fun h => write_takes rfl h (writeReg_numctl _ v o) rfl, fun h => write_takes rfl h (writeReg_mxctrl _ v o) rfl,
      fun h => write_takes rfl h (writeReg_ckcfg _ v o) rfl, fun h => write_takes rfl h (writeReg_region _ v o) rfl,
      fun h => write_takes (registerWrite_four h.1 (by decide) (by decide)) h (writeReg_stride _ v o) rfl,
      fun ho hd h => write_takes (registerWrite_four h.1 (by decide) (by decide)) h (writeReg_window v ho hd) rfl,
      fun ho hv h => write_takes rfl h ((writeReg_wctl v ho).trans (by rw [hv, setWctl_abandons]; rfl)) rfl,
      fun ho hv hw h => write_takes rfl h ((writeReg_wctl v ho).trans (by rw [hv, setWctl_enables (k := (kOf s c).core) hw]; rfl)) rfl⟩
    obtain ⟨t, ht, hacc, hcore⟩ := coreIdataWrite_stores h hs hd h1 h64 hfit
    refine ⟨t, ht, hacc, ?_⟩
    rw [hcore, Core.idataLoaded]
    refine ⟨?_, ?_, fun n => idataWords_insnAt words i _ k n, fun n => idataWords_istoreErr words i _ k n, ?_, fun off ho => ?_⟩
    · rw [idataWords_eq]; exact ⟨rfl, rfl, rfl, rfl, rfl, rfl, rfl, rfl, rfl⟩
    · rw [idataWords_eq]; rfl
    · rw [Core.setReg_reg_self, field_place]
    · rw [Core.setReg_reg_other _ _ (by simpa using ho), idataWords_eq]; rfl
  · intro k gives
    refine ⟨fun h => read_gives rfl h (readReg_errinfo _) rfl, fun h => read_gives rfl h (readReg_mvErr _) rfl,
      fun h => read_gives rfl h (readReg_istoreErr _) rfl, fun h => read_retiredLo h, fun h t ht => ?_, fun h => ?_⟩
    · obtain ⟨t', ht', hacc, hcore⟩ := read_retiredLo (tlp := tlp) h
      obtain rfl : t' = t := Host.Outcome.next.inj (ht'.symm.trans ht)
      have h2 := servesReg_after h hacc (by rw [hcore]; rfl)
      obtain ⟨u, hu, hacc', hcore'⟩ := read_gives (pairLoRead_four (off := 0x0034) (tlp := tlp) h2.1 (by decide) (by decide)) h2
        (readReg_retiredHi (k0 := s.core c) hcore) rfl
      refine ⟨u, hu, by rw [hacc'.1], ?_⟩
      rw [hcore']
      show (t'.core c).regs = _
      rw [hcore]
      rfl
    · exact read_retired8 h

end Sys2Proof.Machine
end

section
/-! SUPPORT. Settings that a core takes when it is IDLE, and accesses and section commands that are refused. -/

namespace Sys2Proof.Machine

/-! ### Settings taken after a step -/

/-- What a settings pass changes outside the cores: itself and what the host is told (R362). -/
theorem passProgress_eq (s : State) (f : Nat) : s.passProgress f =
    { s with bu := { s.bu with dspend := (s.passProgress f).bu.dspend, mixed := (s.passProgress f).bu.mixed },
             host := (s.passProgress f).host } := by
  unfold State.passProgress State.notify State.msixSend
  dsimp only
  split
  · split
    · split
      · rfl
      · split <;> rfl
    · rfl
  · rfl

/-- The core after it has taken DF_WINDOW and DF_STALL (R361). -/
def Core.withSettings (k : Core) (w st : Word) : Core := (k.setReg rDF_WINDOW w).setReg rDF_STALL st

theorem routeItem_eq (s : State) (px py : Nat) (v : Word) : s.routeItem px py v = { s with routers := (s.routeItem px py v).routers } := by
  unfold State.routeItem
  split <;> rfl

/-- What a core takes of a settings pass: two of its registers, and its router's RT_ROUTE (R361). -/
theorem takeItems_eq (s : State) (c : CoreId) : ∃ rs, s.takeItems c = { s with routers := rs } ∨
    ∃ w st, s.takeItems c = { s with routers := rs, cores := s.cores.set (coreKey c) ((s.core c).withSettings w st) } := by
  unfold State.takeItems
  cases s.fieldItems (fieldOf c.x.toNat c.y.toNat) with
  | none => exact ⟨s.routers, .inl rfl⟩
  | some ds =>
    dsimp only
    by_cases hidle : ((s.core c).df != .idle) = true
    · rw [if_pos hidle]
      exact ⟨s.routers, .inl rfl⟩
    · rw [if_neg hidle]
      by_cases hsame : ((s.core c).reg rDF_WINDOW == SMap.get 65536 ds 2 && (s.core c).reg rDF_STALL == SMap.get 1024 ds 3) = true
      · simp only [if_pos hsame]
        split
        · exact ⟨_, .inl (routeItem_eq _ _ _ _)⟩
        · exact ⟨s.routers, .inl rfl⟩
      · simp only [if_neg hsame]
        split
        · exact ⟨_, .inr ⟨SMap.get 65536 ds 2, SMap.get 1024 ds 3,
            routeItem_eq (s.setCore c ((s.core c).withSettings (SMap.get 65536 ds 2) (SMap.get 1024 ds 3))) _ _ _⟩⟩
        · exact ⟨s.routers, .inr ⟨_, _, rfl⟩⟩

/-- The core is as before but for registers of its block, and of those none outside a list has changed. -/
def Core.RegsOnly (k k' : Core) (also : List Nat) : Prop := k' = { k with regs := k'.regs } ∧ k.regsKept k' also

theorem Core.RegsOnly.refl (k : Core) (also : List Nat) : k.RegsOnly k also := ⟨rfl, fun _ _ => rfl⟩

theorem Core.RegsOnly.trans {a b c : Core} {l1 l2 : List Nat} (h1 : a.RegsOnly b l1) (h2 : b.RegsOnly c l2) : a.RegsOnly c (l1 ++ l2) := by
  obtain ⟨e1, r1⟩ := h1
  obtain ⟨e2, r2⟩ := h2
  refine ⟨?_, fun off h => ?_⟩
  · rw [e1] at e2
    exact e2
  · rw [List.mem_append, not_or] at h
    exact (r2 off h.2).trans (r1 off h.1)

theorem withSettings_regsOnly (k : Core) (w st : Word) : k.RegsOnly (k.withSettings w st) [rDF_WINDOW, rDF_STALL] := by
  refine ⟨rfl, fun off h => ?_⟩
  simp only [List.mem_cons, List.not_mem_nil, or_false, not_or] at h
  rw [Core.withSettings, Core.setReg_reg_other _ _ h.2, Core.setReg_reg_other _ _ h.1]

/-- What follows a step of a core that may have become IDLE changes of it two registers, answers nobody and reports nothing (R361, R362). -/
theorem settled_keeps (s : State) (c : CoreId) : (s.core c).RegsOnly ((s.settled c).core c) [rDF_WINDOW, rDF_STALL] ∧
    (s.settled c).resp = s.resp ∧ (s.settled c).transit = s.transit ∧ s.othersKept (s.settled c) c := by
  unfold State.settled
  split
  · exact ⟨.refl _ _, rfl, rfl, rfl, fun _ _ => rfl⟩
  · rw [passProgress_eq]
    obtain ⟨rs, h | ⟨w, st, h⟩⟩ := takeItems_eq s c
    · rw [h]
      exact ⟨.refl _ _, rfl, rfl, rfl, fun _ _ => rfl⟩
    · rw [h]
      refine ⟨?_, rfl, rfl, rfl, fun n hn => SMap.get_set_other _ _ _ _ _ hn⟩
      have hc : (s.cores.set (coreKey c) ((s.core c).withSettings w st)).get s.blankCore (coreKey c) = (s.core c).withSettings w st :=
        SMap.get_set_self _ _ _ _
      show (s.core c).RegsOnly ((s.cores.set (coreKey c) ((s.core c).withSettings w st)).get s.blankCore (coreKey c)) _
      rw [hc]
      exact withSettings_regsOnly _ w st

/-! ### Accesses that reach no register -/

/-- A register write of 4 bytes whose sender is refused is answered with the code, wherever it points (R13, R33). -/
theorem registerWrite_refused {s : State} {c : CoreId} {off : BitVec 16} {v : Word} {tlp : Tlp} {e : Nat} (hp : s.bu.power = true)
    (hr : s.reach c off.toNat .ryist = .refused e) :
    exec (.registerWrite (.core c off) .ryist (.four v) tlp) s = .next (s.answer (some e)) := by
  have hacc : ∀ f, s.coreAccess c off.toNat .ryist f = s.answer (some e) := by
    intro f
    simp only [State.coreAccess, hp, hr, Bool.not_true, Bool.false_eq_true, if_false]
  show execRegisterWrite (.core c off) .ryist (.four v) tlp s = _
  simp only [execRegisterWrite, hp, if_true, registerWrite, State.coreWriteData, State.coreWrite, hacc, ite_self]

section
variable {s : State} {c : CoreId} {off : Nat}

theorem reach_offGrid (o : Origin) (hg : onGrid c = false) : s.reach c off o = .refused 0x06 := by
  simp [State.reach, hg]

variable (hg : onGrid c = true) (hd : s.fieldDead (fieldOf c.x.toNat c.y.toNat) = false) (ho : off < 0x8000)
include hg hd ho

theorem reach_hole (o : Origin) (hh : s.posOf c = .hole) : s.reach c off o = .refused 0x01 := by
  have h1 : ¬ 0x8000 ≤ off := by omega
  simp [State.reach, hg, hd, hh, h1]

theorem reach_isolated (o : Origin) (hh : s.posOf c = .isolated) : s.reach c off o = .refused 0x02 := by
  have h1 : ¬ 0x8000 ≤ off := by omega
  simp [State.reach, hg, hd, hh, h1]

/-- A core in reset serves none but the blocks of its base (R366). -/
theorem reach_inReset (hh : s.posOf c = .usable) (hs : (s.core c).seq = .reset) : s.reach c off .ryist = .refused 0x09 := by
  have h1 : ¬ 0x8000 ≤ off := by omega
  have h2 : servedBase off = false := by simp only [servedBase, Bool.or_eq_false_iff, Bool.and_eq_false_iff, decide_eq_false_iff_not]; omega
  simp [State.reach, hg, hd, hh, hs, h2, Router.firewall]

end

/-! ### Accesses that the firewall takes -/

theorem noteMsg_regsOnly (k : Core) (m : Msg) : k.noteMsg m = { k with regs := (k.noteMsg m).regs } := by
  unfold Core.noteMsg
  split <;> rfl

/-- A router's report changes of any core no more than the registers that count messages (R400). -/
theorem routerReport_core (s : State) (px py block kind detail addr : Nat) (c : CoreId) :
    ∃ rs, (s.routerReport px py block kind detail addr).core c = { s.core c with regs := rs } := by
  unfold State.routerReport
  dsimp only
  split
  · exact ⟨_, rfl⟩
  · rename_i d hd
    by_cases hk : coreKey c = coreKey d
    · refine ⟨((s.core d).noteMsg (mkMsg px py (s.cycle (fieldOfPhys px py)) block kind detail addr)).regs, ?_⟩
      have hcd : s.core c = s.core d := by rw [State.core, hk]; rfl
      rw [hcd, ← noteMsg_regsOnly]
      show SMap.get s.blankCore (SMap.set s.cores (coreKey d) _) (coreKey c) = _
      rw [hk]
      exact SMap.get_set_self _ _ _ _
    · exact ⟨_, SMap.get_set_other _ _ _ _ _ hk⟩

theorem routerEvent_core (s : State) (px py ctr kind detail addr : Nat) (c : CoreId) :
    ∃ rs, (s.routerEvent px py ctr kind detail addr).core c = { s.core c with regs := rs } :=
  routerReport_core (s.onRouter px py (fun r => r.count ctr 1)) px py 10 kind detail addr c

/-- A register write of 4 bytes that the firewall takes (R171, R172), wherever it points. -/
theorem registerWrite_firewall {s : State} {c : CoreId} {off : BitVec 16} {v : Word} {tlp : Tlp} {pid : Pid} {src : Endpoint} {absorbed : Bool}
    (hp : s.bu.power = true) (hr : s.reach c off.toNat (.packet false pid src) = .firewall absorbed pid src) :
    exec (.registerWrite (.core c off) (.packet false pid src) (.four v) tlp) s = .next
      { s.routerEvent (s.phys c).1 (s.phys c).2 rRT_FWREF 0x25 (16 * absorbed.toNat + pid.toNat) (epBits src) with
        resp := if absorbed then .none else .err 0x05 } := by
  have hacc : ∀ f, s.coreAccess c off.toNat (.packet false pid src) f =
      { s.routerEvent (s.phys c).1 (s.phys c).2 rRT_FWREF 0x25 (16 * absorbed.toNat + pid.toNat) (epBits src) with
        resp := if absorbed then .none else .err 0x05 } := by
    intro f
    simp only [State.coreAccess, hp, hr, Bool.not_true, Bool.false_eq_true, if_false]
    cases absorbed <;> rfl
  show execRegisterWrite (.core c off) (.packet false pid src) (.four v) tlp s = _
  simp only [execRegisterWrite, hp, if_true, registerWrite, State.coreWriteData, State.coreWrite, hacc, ite_self]

/-- An access that the firewall takes is counted and reported by the router, and reaches neither core nor yard (R171, R172). -/
theorem registerWrite_walled {s : State} {c : CoreId} {off : BitVec 16} {v : Word} {tlp : Tlp} {pid : Pid} {src : Endpoint} {absorbed : Bool}
    (hp : s.bu.power = true) (hr : s.reach c off.toNat (.packet false pid src) = .firewall absorbed pid src) :
    ∃ t : State, ∃ m : Msg, exec (.registerWrite (.core c off) (.packet false pid src) (.four v) tlp) s = .next t ∧
      t.resp = (if absorbed then .none else .err 0x05) ∧ t.transit = s.transit ++ [m] ∧ m.kind = 0x25 ∧ m.block = 10 ∧
      m.detail.toNat = 16 * absorbed.toNat + pid.toNat ∧
      pairAt (t.router (s.phys c).1 (s.phys c).2).regs rRT_FWREF = pairAt (s.router (s.phys c).1 (s.phys c).2).regs rRT_FWREF + 1 ∧
      (t.core c).s = (s.core c).s ∧ (t.core c).mem = (s.core c).mem ∧ t.yregs = s.yregs := by
  have hdet : 16 * absorbed.toNat + pid.toNat < 2 ^ 16 := by
    have := pid.isLt
    have := Bool.toNat_le absorbed
    omega
  generalize hev : s.routerEvent (s.phys c).1 (s.phys c).2 rRT_FWREF 0x25 (16 * absorbed.toNat + pid.toNat) (epBits src) = u
  obtain ⟨rs, hcore⟩ : ∃ rs, u.core c = { s.core c with regs := rs } := hev ▸ routerEvent_core s _ _ _ _ _ _ c
  have hrt : u.router (s.phys c).1 (s.phys c).2 = (s.router (s.phys c).1 (s.phys c).2).count rRT_FWREF 1 := hev ▸ routerEvent_router s _ _ _ _ _ _
  have heq := routerEvent_eq s (s.phys c).1 (s.phys c).2 rRT_FWREF 0x25 (16 * absorbed.toNat + pid.toNat) (epBits src)
  rw [hev] at heq
  refine ⟨{ u with resp := if absorbed then .none else .err 0x05 },
    s.routerMsg (s.phys c).1 (s.phys c).2 10 0x25 (16 * absorbed.toNat + pid.toNat) (epBits src), (registerWrite_firewall hp hr).trans (by rw [hev]), rfl,
    (congrArg State.transit heq :), rfl, rfl, toNat_ofNat_lt hdet, ?_, ?_, ?_, (congrArg State.yregs heq :)⟩
  · show pairAt (u.router (s.phys c).1 (s.phys c).2).regs rRT_FWREF = _
    rw [hrt, Router.count, pairAt_bump]
    rfl
  · show (u.core c).s = _
    rw [hcore]
  · show (u.core c).mem = _
    rw [hcore]

/-! ### Registers that take no write -/

/-- The watch request registers are assigned (R201). -/
theorem coreRow_watchRequest_some {off : Nat} (h1 : rSY_WREQ ≤ off) (h2 : off < rSY_WREQ + 0x40) (ha : off % 4 = 0) : coreRow off ≠ none := by
  have h : ∀ i < 0x40, (rSY_WREQ + i) % 4 = 0 → coreRow (rSY_WREQ + i) ≠ none := by decide
  have := h (off - rSY_WREQ) (by omega)
  rw [show rSY_WREQ + (off - rSY_WREQ) = off by omega] at this
  exact this ha

/-- A write of an unassigned offset is refused (R16). -/
theorem registerWrite_unassigned {s : State} {c : CoreId} {o : Origin} {off : BitVec 16} {v : Word} {tlp : Tlp} (h : s.servesReg c off.toNat o)
    (ha : off.toNat % 4 = 0) (hr : coreRow off.toNat = none) :
    ∃ t : State, exec (.registerWrite (.core c off) o (.four v) tlp) s = .next t ∧ s.accessed t c (.err 0x09) ∧ t.core c = s.core c := by
  have hw : (kOf s c).writeReg off.toNat v o = (kOf s c, some 0x09) := by unfold K.writeReg; rw [hr]
  refine ⟨_, (registerWrite_four h.1 (fun hq => coreRow_watchRequest_some hq.1 hq.2 ha hr) ha).trans ?_,
    kPut_accessed (k1 := s.core c) (.err 0x09) rfl⟩
  rw [State.coreWrite, coreAccess_served h, hw]
  rfl

/-- CORE_PC is read-only: a write of it is ignored (R16, R73). -/
theorem writeReg_pc (k : K) (v : Word) (o : Origin) : k.writeReg 0x0008 v o = (k, none) := rfl

/-! ### Section commands that are refused -/

theorem othersKept_trans {s t u : State} {c : CoreId} (h1 : s.othersKept t c) (h2 : t.othersKept u c) : s.othersKept u c := by
  obtain ⟨hp1, ho1⟩ := h1
  obtain ⟨hp2, ho2⟩ := h2
  have hb : t.blankCore = s.blankCore := by rw [State.blankCore, State.blankCore, hp1]
  rw [hb] at ho2
  exact ⟨hp2.trans hp1, fun n hn => (ho2 n hn).trans (ho1 n hn)⟩

/-- What a section command asks of a live core's working context (R231). -/
def dfStep (o : Origin) (f : K → K × Option Nat) (k : K) : K := if isSystem o then K.answer (f k) else k.refuse 0x09

/-- A section command's answer and reports are those of its step of the core, and what follows changes two registers at most. -/
theorem dfCommand_keeps {s : State} {c : CoreId} {o : Origin} {f : K → K × Option Nat} {k1 : K} (ha : s.alive c = true)
    (h : dfStep o f (kOf s c) = k1) (hc : k1.c = c) :
    k1.core.RegsOnly ((dfCommand c o s f).core c) [rDF_WINDOW, rDF_STALL] ∧ (dfCommand c o s f).resp = k1.resp ∧
      (dfCommand c o s f).transit = s.transit ++ k1.msgs ∧ s.othersKept (dfCommand c o s f) c := by
  have hd : dfCommand c o s f = (kPut s k1).settled c := by
    rw [dfCommand, if_pos ha, onCoreSettled, onCore, if_pos (alive_onGrid ha), ← h]
    rfl
  obtain ⟨hcore, hresp, htr, hoth⟩ := settled_keeps (kPut s k1) c
  rw [kPut_core hc] at hcore
  rw [hd]
  exact ⟨hcore, hresp, htr, othersKept_trans (kPut_other hc) hoth⟩

/-- A section command that its state does not allow, or whose sender may not give it, is refused and changes nothing of the section
(R214, R231). -/
theorem dfCommand_refused {s : State} {c : CoreId} {o : Origin} {f : K → K × Option Nat} {i : Instr} (he : exec i s = .next (dfCommand c o s f))
    (ha : s.alive c = true) (hf : isSystem o = true → f (kOf s c) = (kOf s c, some 0x09)) :
    ∃ t : State, exec i s = .next t ∧ t.resp = .err 0x09 ∧ (t.core c).df = (s.core c).df ∧ (t.core c).mem = (s.core c).mem ∧
      (t.core c).inq = (s.core c).inq ∧ (t.core c).s = (s.core c).s ∧ (t.core c).pc = (s.core c).pc ∧ s.othersKept t c := by
  have h : dfStep o f (kOf s c) = (kOf s c).refuse 0x09 := by
    unfold dfStep
    split
    · rename_i ho
      rw [hf ho]
      rfl
    · rfl
  obtain ⟨⟨hcore, -⟩, hresp, -, hoth⟩ := dfCommand_keeps ha h rfl
  refine ⟨_, he, hresp, ?_, ?_, ?_, ?_, ?_, hoth⟩ <;> rw [hcore] <;> rfl

/-- A message that a core counts touches none of the registers below its fault block (R400). -/
theorem noteMsg_reg (k : Core) (m : Msg) {off : Nat} (h : off < 0xC000) : (k.noteMsg m).reg off = k.reg off := by
  unfold Core.noteMsg
  split
  · show SMap.get _ _ off = _
    rw [SMap.get_set_other _ _ _ _ _ (by simp only [rFLT_LAST]; omega), SMap.get_set_other _ _ _ _ _ (by simp only [rFLT_LAST]; omega),
      SMap.get_set_other _ _ _ _ _ (by simp only [rFLT_LAST]; omega), SMap.get_set_other _ _ _ _ _ (by simp only [rFLT_LAST]; omega),
      get_bump_other _ _ _ _ _ (by simp only [rFLT_MSGS]; omega) (by simp only [rFLT_MSGS]; omega)]
    rfl
  · rfl

/-- ARM with a configuration that breaks a rule names the first one broken (R215, R232). -/
theorem arm_names {s : State} {c : CoreId} {o : Origin} {reason who : Nat} (ha : s.alive c = true) (ho : isSystem o = true)
    (hd : (s.core c).df = .idle) (hk : (s.core c).armCheck = some (reason, who)) :
    ∃ t : State, ∃ m : Msg, exec (.arm c o) s = .next t ∧ t.resp = .err 0x09 ∧ (t.core c).df = .idle ∧ t.transit = s.transit ++ [m] ∧
      m.kind = 0x69 ∧ m.block = 7 ∧ m.detail = BitVec.ofNat 16 reason ∧ (t.core c).epoch = (s.core c).epoch ∧
      (t.core c).mem = (s.core c).mem := by
  have harm : K.arm (kOf s c) = ((kOf s c).report 7 0x69 reason ((s.core c).secid * 2 ^ 32 + who), some 0x09) := by
    simp only [K.arm, kOf_core, hd, hk, bne_self_eq_false, Bool.false_eq_true, if_false]
  have h : dfStep o K.arm (kOf s c) = K.answer ((kOf s c).report 7 0x69 reason ((s.core c).secid * 2 ^ 32 + who), some 0x09) := by
    rw [dfStep, if_pos ho, harm]
  obtain ⟨⟨hcore, hregs⟩, hresp, htr, -⟩ := dfCommand_keeps ha h rfl
  have hn := noteMsg_regsOnly (s.core c)
  refine ⟨_, _, rfl, hresp, ?_, htr, rfl, rfl, rfl, ?_, ?_⟩
  · rw [hcore]
    show (Core.noteMsg (s.core c) _).df = _
    rw [hn]
    exact hd
  · rw [Core.epoch, hregs rDF_SECCFG (by decide)]
    show field ((Core.noteMsg (s.core c) _).reg rDF_SECCFG) 0 2 = _
    rw [noteMsg_reg _ _ (by decide)]
    rfl
  · rw [hcore]
    show (Core.noteMsg (s.core c) _).mem = _
    rw [hn]

theorem arm_refused {k : K} (h : k.core.df ≠ .idle) : k.arm = (k, some 0x09) := by
  rw [K.arm, if_pos (by simpa using h)]

theorem start_refused {k : K} (h : k.core.df ≠ .loaded) : k.start = (k, some 0x09) := by
  rw [K.start, if_pos (by simpa using h)]

theorem dfEnd_refused {k : K} (h : k.core.quiet = false) : k.dfEnd = (k, some 0x09) := by
  rw [K.dfEnd, h]; rfl

theorem dfAbort_refused {k : K} (h : k.core.abortable = false) : k.dfAbort = (k, some 0x09) := by
  rw [K.dfAbort, h]; rfl

theorem dfClear_refused {k : K} (h : k.core.df ≠ .aborted) : k.dfClear = (k, some 0x09) := by
  rw [K.dfClear, if_neg (by simpa using h)]

/-! ### The obligation -/

/-- Settles O28. -/
theorem accessesRefused : Obligations.AccessesRefused := by
  unfold Obligations.AccessesRefused
  refine ⟨fun s c o off v pid src tlp => ?_, fun s c o reason who => ?_⟩
  · intro k q answers
    refine ⟨registerWrite_unassigned, fun h => ?_, fun hp hg => ?_, fun hp hg hd ho => ⟨fun hh => ?_, fun hh => ?_, fun hh hs => ?_⟩,
      fun absorbed hp hr => registerWrite_walled hp hr⟩
    · exact write_takes (registerWrite_four (off := 0x0008) h.1 (by decide) (by decide)) h (writeReg_pc _ v o) rfl
    · exact registerWrite_refused hp (reach_offGrid _ hg)
    · exact registerWrite_refused hp (reach_hole hg hd ho _ hh)
    · exact registerWrite_refused hp (reach_isolated hg hd ho _ hh)
    · exact registerWrite_refused hp (reach_inReset hg hd ho hh hs)
  · intro k refused ha
    refine ⟨arm_names ha, fun ho h => dfCommand_refused rfl ha fun _ => arm_refused h,
      fun _ h => dfCommand_refused rfl ha fun _ => start_refused h, fun _ h => dfCommand_refused rfl ha fun _ => dfEnd_refused h,
      fun _ h => dfCommand_refused rfl ha fun _ => dfAbort_refused h, fun _ h => dfCommand_refused rfl ha fun _ => dfClear_refused h, fun ho => ?_⟩
    have hno : isSystem o = true → ∀ {p : Prop}, p := fun h => absurd h (by simp [ho])
    exact ⟨dfCommand_refused rfl ha (fun h => hno h), dfCommand_refused rfl ha (fun h => hno h), dfCommand_refused rfl ha (fun h => hno h),
      dfCommand_refused rfl ha (fun h => hno h), dfCommand_refused rfl ha (fun h => hno h)⟩

end Sys2Proof.Machine
end

section
/-! SUPPORT. A cycle with an empty queue: an engine's write beyond the scratchpad's eight banks stays on its way. -/

namespace Sys2Proof.Machine

/-! ### A write beyond the banks -/

/-- A write of one byte, 1, that an engine has on its way to the first offset past bank 7 of a scratchpad (R11, R109). -/
def writePastBanks : LineWr := { agent := agVEC, off := 0x60000, bytes := [1], num := 0 }

/-- The core that has it. -/
def farCore : CoreId := { x := 0, y := 0 }

/-- The reset state with power, and the write alone on its way at one core. -/
def farState : State :=
  { State.reset with
    bu := { BringUp.reset with power := true }
    cores := [(0, { Core.reset with lineWr := [writePastBanks] })] }

/-- The state that a cycle of the network clock gives, but for the yard's part of it. -/
def farNext : State := ({ farState with cc := farState.cc + 1 } : State).coresTick.lendEvents.bankTick.blockTick

theorem tick_farState :
    tick farState = if Config.yardEdge farState.cc then farNext.yardTick else farNext := rfl

/-- The banks that drain are 0 to 7, so the write stays where it was and its byte is not stored. -/
theorem farNext_read : Mem.read (farNext.core farCore).mem 0x60000 = 0 := by decide +kernel

/-- A yard cycle leaves the scratchpad as it is. -/
theorem farNext_yardTick_read : Mem.read (farNext.yardTick.core farCore).mem 0x60000 = 0 := by decide +kernel

theorem tick_farState_read : Mem.read ((tick farState).core farCore).mem 0x60000 = 0 := by
  rw [tick_farState]
  split
  · exact farNext_yardTick_read
  · exact farNext_read

/-- Refutes O2: the clause on a lone write of an engine does not bound the write's offset. A cycle drains the banks 0 to 7
only, so a write past them is not stored, where the statement has its byte in the scratchpad. -/
theorem not_emptyQueueTicks : ¬ Obligations.EmptyQueueTicks := by
  unfold Obligations.EmptyQueueTicks
  intro h
  obtain ⟨t, ht, -, -, -, -, hcores⟩ := h farState rfl
  obtain rfl : tick farState = t := Host.Outcome.next.inj ht
  obtain ⟨-, -, -, hwrite, -⟩ := hcores (by decide) farCore
  obtain ⟨hmem, -⟩ := hwrite writePastBanks (by decide +kernel) rfl rfl (by decide +kernel) (by decide +kernel) rfl rfl
  have hread := hmem 0x60000
  rw [tick_farState_read] at hread
  exact absurd hread (by decide +kernel)

end Sys2Proof.Machine
end

section
/-! SUPPORT. The block before power is applied: every register reads as its table's reset value. -/

namespace Sys2Proof.Machine

@[simp] theorem reset_core (c : CoreId) : State.reset.core c = Core.reset := rfl
@[simp] theorem reset_router (px py : Nat) : State.reset.router px py = Router.reset := rfl
@[simp] theorem reset_yreg (off : Nat) : State.reset.yreg off = yardReset off := rfl
@[simp] theorem coreReset_reg (off : Nat) : Core.reset.reg off = coreReset off := rfl
@[simp] theorem routerReset_reg (off : Nat) : Router.reset.reg off = routerReset off := rfl
@[simp] theorem coreReset_sreg (r : SReg) : Core.reset.sreg r = 0 := ite_self _

/-- Settles O57. Nothing of the reset state lists a register, so each reads as the table of its block gives it; a scalar register reads as 0 and
memory is empty by log entries 7 and 8. -/
theorem resetValues : Obligations.ResetValues := by
  unfold Obligations.ResetValues
  refine ⟨rfl, rfl, rfl, rfl, rfl, rfl, rfl, rfl, rfl, rfl, rfl, rfl, rfl, fun c => ?_, fun c => ?_, fun x y => ?_, ?_⟩
  · rw [reset_core]
    exact ⟨rfl, rfl, rfl, rfl, rfl, coreReset_sreg⟩
  · simp only [reset_core, coreReset_reg]
    decide
  · simp only [reset_router, routerReset_reg]
    decide
  · simp only [reset_yreg]
    decide

end Sys2Proof.Machine
end

section
/-! SUPPORT. A packet that leaves the mesh at its destination router or at a T port, and a merge slot that sends its fold on. -/

namespace Sys2Proof.Machine

/-! ### Flights taken out, set and put at the end -/

theorem dropAt_eq_eraseIdx {α : Type} (l : List α) (n : Nat) : dropAt l n = l.eraseIdx n := by
  induction l generalizing n with
  | nil => rfl
  | cons a t ih => cases n with
    | zero => rfl
    | succ n => simp [dropAt, ih]

theorem dropFlight_length {s : State} {f : Nat} {x : Flight} (h : s.flights[f]? = some x) :
    (s.dropFlight f).flights.length + 1 = s.flights.length := by
  obtain ⟨hf, -⟩ := List.getElem?_eq_some_iff.mp h
  show (dropAt s.flights f).length + 1 = _
  rw [dropAt_eq_eraseIdx, List.length_eraseIdx_add_one hf]

theorem updAt_last {α : Type} (g : α → α) (l : List α) (a : α) : updAt g (l ++ [a]) l.length = l ++ [g a] := by
  induction l with
  | nil => rfl
  | cons b t ih => simp [updAt, ih]

/-! ### A packet at its position -/

/-- The state once flight `f`, of `n` flits, has left the mesh at a router (R176). -/
def State.leftMesh (s : State) (f px py n : Nat) : State := (s.dropFlight f).passed px py n

theorem leftMesh_router (s : State) (f px py n : Nat) : (s.leftMesh f px py n).router px py = (s.router px py).count rRT_FLITSOUT n :=
  onRouter_router_self (s.dropFlight f) px py _

/-- Counting flits leaves the firewall of the position as it is. -/
theorem leftMesh_pid (s : State) (f px py n : Nat) : ((s.leftMesh f px py n).router px py).reg rRT_PID = (s.router px py).reg rRT_PID := by
  rw [leftMesh_router]
  exact get_bump_other _ _ _ _ _ (by decide) (by decide)

/-- PACKET_DELIVERY at the destination router (R33). -/
theorem packetDelivery_router {s : State} {f px py port : Nat} {x : Flight} (ha : s.atPlace f x) (hf : x.fresh = false) (hc : x.cast = .single)
    (hl : x.loc = .router px py port) (hx : px = x.pkt.dst.px.toNat) (hy : py = x.pkt.dst.py.toNat) (he : x.pkt.dst.ext = false) :
    exec (.packetDelivery f) s = .next ((s.leftMesh f px py x.pkt.flits).atPosition px py x.pkt) := by
  obtain ⟨hget, hover⟩ := ha
  show execPacketDelivery f s = _
  simp only [execPacketDelivery, hget, hf, hc, hover, hl, he, ← hx, ← hy, ne_eq, not_true_eq_false, decide_false, Bool.or_self,
    Bool.false_eq_true, if_false]
  rfl

section
variable {s : State} {px py : Nat} {p : Packet} {c : CoreId} (hc : logOf s.fp.skips px py = some c) (hk : p.killed = false)
include hc hk

/-- A usable position takes a packet (R33). -/
theorem atPosition_usable (hp : s.posOf c = .usable) : s.atPosition px py p = s.handOver c px py p := by
  simp only [State.atPosition, hc, hk, hp, Bool.false_eq_true, if_false]

/-- A read for a hole, a dead cluster or a dead field is answered with the code of its position (R33). -/
theorem atPosition_refused {code : Nat} (ho : p.op = 0) (hs : p.space = 0)
    (hp : (s.posOf c, code) ∈ [(PosState.hole, 1), (.isolated, 2), (.dead, 3)]) :
    s.atPosition px py p = s.routerRefuse px py p code := by
  have hm : p.multicast = false := by simp [Packet.multicast, ho]
  have hx : p.expectsAnswer = true := by simp [Packet.expectsAnswer, ho]
  have h7 : p.op ≠ 7 := by simp [ho]
  have hrt : (p.space == 1) = false := by simp [hs]
  have hrefuse (code : Nat) : s.refuseAt px py p code = s.routerRefuse px py p code := by
    simp only [State.refuseAt, hm, hx, if_neg h7, Bool.false_and, Bool.false_eq_true, if_false, if_true]
  have hdead : s.deadEnd p px py = s.routerRefuse px py p 0x03 := by
    simp only [State.deadEnd, hk, hx, Bool.false_eq_true, if_false, if_true]
  simp only [List.mem_cons, Prod.mk.injEq, List.not_mem_nil, or_false] at hp
  rcases hp with ⟨hp, rfl⟩ | ⟨hp, rfl⟩ | ⟨hp, rfl⟩ <;>
    simp only [State.atPosition, hc, hk, hp, hrt, hrefuse, hdead, Bool.false_and, Bool.false_eq_true, if_false]

end

/-- A read of the scratchpad that the firewall lets through joins the packets delivered to a core that is not in reset (R33, R171). -/
theorem handOver_read {s : State} {px py : Nat} {p : Packet} {c : CoreId} (ho : p.op = 0) (hs : p.space = 0)
    (hadm : s.admits px py p = true) (hq : (s.core c).seq ≠ .reset) : s.handOver c px py p = { s with inbox := s.inbox ++ [(c, p)] } := by
  have hpost : p.posted = false := by simp [Packet.posted, ho]
  have hreg : p.regRequest = false := by simp [Packet.regRequest, hs]
  have hplain : p.plainReg = false := by simp [Packet.plainReg, hreg]
  have hop : ¬ (p.op = 2 ∧ p.space = 1 ∧ 0x8000 ≤ p.off.toNat ∧ p.off.toNat < 0xA000) := by simp [ho]
  have hseq : ((s.core c).seq == .reset) = false := by simpa using hq
  simp only [State.handOver, hadm, hpost, hreg, hplain, hseq, if_neg hop, Bool.not_true, Bool.false_and, Bool.false_eq_true, if_false]

/-- A request that an open firewall refuses is counted, reported and answered (R171). -/
theorem handOver_walled {s : State} {px py : Nat} {p : Packet} {c : CoreId} (hx : p.expectsAnswer = true)
    (hadm : s.admits px py p = false) (hopen : ((s.router px py).reg rRT_PID).getLsbD 31 = false) :
    s.handOver c px py p = (s.routerEvent px py rRT_FWREF 0x25 p.pid.toNat (epBits p.src)).routerRefuse px py p 0x05 := by
  simp only [State.handOver, hadm, hopen, hx, Bool.not_false, Bool.and_self, if_true, Bool.toNat_false, Nat.zero_mul, Nat.zero_add]

theorem admits_iff (s : State) (px py : Nat) (p : Packet) : s.admits px py p = true ↔ p.sys = true ∨
    ((s.router px py).reg rRT_PID).getLsbD 31 = false ∧ ((s.router px py).reg rRT_PID).getLsbD 30 = false ∧
      field ((s.router px py).reg rRT_PID) 0 4 = p.pid.toNat := by
  simp [State.admits, and_assoc]

/-! ### Answers of a router -/

/-- The ERR with which a router answers a request (R33, R171). -/
def State.errPacket (s : State) (px py : Nat) (p : Packet) (code : Nat) : Packet :=
  { p with op := 11, aux := BitVec.ofNat 8 code, off := 0, space := 0, src := endpointAt px py, dst := p.src, sz := 0, len := 0, rclass := 0,
           wpy := 0, head := 0, lines := [], killed := false
           sys := field ((s.router px py).reg rRT_PID) 29 1 == 1
           pid := BitVec.ofNat 4 (field ((s.router px py).reg rRT_PID) 0 4) }

theorem routerRefuse_read {s : State} {px py : Nat} {p : Packet} (code : Nat) (ho : p.op = 0) :
    s.routerRefuse px py p code = { s with inj := s.inj ++ [Sent.mk (s.errPacket px py p code) none false] } := by
  have h7 : p.op ≠ 7 := by simp [ho]
  rw [State.routerRefuse, if_neg h7]
  rfl

/-- A flight has left the mesh and its packet is answered with ERR; no core but for its counters, and nothing delivered, has changed. -/
def State.refusedWith (s t : State) (p : Packet) (code : Byte) : Prop :=
  ∃ q : Packet, t.flights.length + 1 = s.flights.length ∧ t.inbox = s.inbox ∧ t.inj = s.inj ++ [Sent.mk q none false] ∧ q.op = 11 ∧
    q.aux = code ∧ q.dst = p.src ∧ q.txid = p.txid ∧ ∀ c, (t.core c).mem = (s.core c).mem ∧ (t.core c).s = (s.core c).s

theorem leftMesh_refusedWith {s : State} {f px py n : Nat} {x : Flight} {p : Packet} (code : Nat) (h : s.flights[f]? = some x) (ho : p.op = 0) :
    s.refusedWith ((s.leftMesh f px py n).routerRefuse px py p code) p (BitVec.ofNat 8 code) := by
  rw [routerRefuse_read code ho]
  exact ⟨_, dropFlight_length h, rfl, rfl, rfl, rfl, rfl, rfl, fun _ => ⟨rfl, rfl⟩⟩

theorem event_refusedWith {s : State} {f px py n ctr kind detail addr : Nat} {x : Flight} {p : Packet} (code : Nat) (h : s.flights[f]? = some x)
    (ho : p.op = 0) :
    s.refusedWith (((s.leftMesh f px py n).routerEvent px py ctr kind detail addr).routerRefuse px py p code) p (BitVec.ofNat 8 code) := by
  have hcore := routerEvent_core (s.leftMesh f px py n) px py ctr kind detail addr
  have heq := routerEvent_eq (s.leftMesh f px py n) px py ctr kind detail addr
  generalize (s.leftMesh f px py n).routerEvent px py ctr kind detail addr = u at hcore heq
  rw [routerRefuse_read code ho]
  refine ⟨u.errPacket px py p code, ?_, ?_, ?_, rfl, rfl, rfl, rfl, fun c => ?_⟩
  · rw [heq]
    exact dropFlight_length h
  · rw [heq]
    rfl
  · show u.inj ++ _ = _
    rw [heq]
    rfl
  · obtain ⟨rs, hc⟩ := hcore c
    show (u.core c).mem = _ ∧ (u.core c).s = _
    rw [hc]
    exact ⟨rfl, rfl⟩

/-- The counter of packets that the firewall refused, once it has refused one (R171). -/
theorem event_counts_refusal (s : State) (f px py n kind detail addr : Nat) :
    pairAt (((s.leftMesh f px py n).routerEvent px py rRT_FWREF kind detail addr).router px py).regs rRT_FWREF =
      pairAt (s.router px py).regs rRT_FWREF + 1 := by
  rw [routerEvent_router, leftMesh_router]
  simp only [Router.count, pairAt_bump]
  rw [pairAt_bump_other _ _ _ _ (by decide) (by decide) (by decide)]
  rfl

/-! ### A read of the scratchpad at its destination -/

section
variable {s : State} {f px py port : Nat} {x : Flight} {c : CoreId} (hat : s.atPlace f x) (hfresh : x.fresh = false) (hcast : x.cast = .single)
  (hkill : x.pkt.killed = false) (hloc : x.loc = .router px py port) (hpx : px = x.pkt.dst.px.toNat) (hpy : py = x.pkt.dst.py.toNat)
  (hext : x.pkt.dst.ext = false) (hop : x.pkt.op = 0) (hc : logOf s.fp.skips px py = some c)
include hat hfresh hcast hkill hloc hpx hpy hext hop hc

/-- One that the firewall lets through joins the packets delivered to its core (R33). -/
theorem packetDelivery_joins (hspace : x.pkt.space = 0) (hpos : s.posOf c = .usable) (hseq : (s.core c).seq ≠ .reset)
    (hopen : x.pkt.sys = true ∨ ((s.router px py).reg rRT_PID).getLsbD 31 = false ∧ ((s.router px py).reg rRT_PID).getLsbD 30 = false ∧
      field ((s.router px py).reg rRT_PID) 0 4 = x.pkt.pid.toNat) :
    exec (.packetDelivery f) s = .next { s.leftMesh f px py x.pkt.flits with inbox := s.inbox ++ [(c, x.pkt)] } := by
  have hadm : (s.leftMesh f px py x.pkt.flits).admits px py x.pkt = true := by
    rw [admits_iff, leftMesh_pid]
    exact hopen
  rw [packetDelivery_router hat hfresh hcast hloc hpx hpy hext, atPosition_usable (s := s.leftMesh f px py x.pkt.flits) hc hkill hpos,
    handOver_read hop hspace hadm hseq]
  rfl

/-- One of another partition is answered with ERR 0x05, counted and reported (R171). -/
theorem packetDelivery_walled (hpos : s.posOf c = .usable) (hsys : x.pkt.sys = false)
    (h31 : ((s.router px py).reg rRT_PID).getLsbD 31 = false) (hpid : field ((s.router px py).reg rRT_PID) 0 4 ≠ x.pkt.pid.toNat) :
    ∃ t : State, ∃ m : Msg, exec (.packetDelivery f) s = .next t ∧ s.refusedWith t x.pkt 0x05 ∧ t.transit = s.transit ++ [m] ∧
      m.kind = 0x25 ∧ m.block = 10 ∧ pairAt (t.router px py).regs rRT_FWREF = pairAt (s.router px py).regs rRT_FWREF + 1 := by
  have hx : x.pkt.expectsAnswer = true := by simp [Packet.expectsAnswer, hop]
  have hwall : (s.leftMesh f px py x.pkt.flits).admits px py x.pkt = false := by
    rw [← Bool.not_eq_true, admits_iff, leftMesh_pid, hsys]
    exact not_or.mpr ⟨Bool.false_ne_true, fun ⟨_, _, h⟩ => hpid h⟩
  have hopen : (((s.leftMesh f px py x.pkt.flits).router px py).reg rRT_PID).getLsbD 31 = false := by rw [leftMesh_pid]; exact h31
  refine ⟨_, (s.leftMesh f px py x.pkt.flits).routerMsg px py 10 0x25 x.pkt.pid.toNat (epBits x.pkt.src),
    (packetDelivery_router hat hfresh hcast hloc hpx hpy hext).trans (congrArg _ ((atPosition_usable (s := s.leftMesh f px py x.pkt.flits) hc hkill
      hpos).trans (handOver_walled hx hwall hopen))), event_refusedWith 5 hat.1 hop, ?_, rfl, rfl, ?_⟩
  · rw [routerRefuse_read 5 hop, routerEvent_eq]
    rfl
  · rw [routerRefuse_read 5 hop]
    exact event_counts_refusal s f px py x.pkt.flits 0x25 x.pkt.pid.toNat (epBits x.pkt.src)

/-- One for a hole, a dead cluster or a dead field is answered with the code of its position (R33). -/
theorem packetDelivery_refused {code : Nat} (hspace : x.pkt.space = 0)
    (hp : (s.posOf c, code) ∈ [(PosState.hole, 1), (.isolated, 2), (.dead, 3)]) :
    ∃ t : State, exec (.packetDelivery f) s = .next t ∧ s.refusedWith t x.pkt (BitVec.ofNat 8 code) :=
  ⟨_, (packetDelivery_router hat hfresh hcast hloc hpx hpy hext).trans (congrArg _ (atPosition_refused (s := s.leftMesh f px py x.pkt.flits)
    hc hkill hop hspace hp)), leftMesh_refusedWith code hat.1 hop⟩

end

/-! ### A packet at a T port -/

/-- A read of outer memory joins its terminus, which is full once it holds 4,096 requests (R144, R275). -/
theorem packetDelivery_terminus {s : State} {f px py t0 : Nat} {x : Flight} (ha : s.atPlace f x) (hf : x.fresh = false) (hc : x.cast = .single)
    (hk : x.pkt.killed = false) (hl : x.loc = .tport px py) (ht : terminusOfRouter px py = some t0) (hlost : (s.terminus t0).lost = false)
    (hfull : (s.terminus t0).full = false) (ho : x.pkt.op = 0) (hs : x.pkt.space = 2) :
    ∃ e, exec (.packetDelivery f) s = .next { s.dropFlight f with tin := s.tin ++ [(t0, x.pkt)], termini := e } := by
  obtain ⟨hget, hover⟩ := ha
  have hresp : x.pkt.isResponse = false := by simp [Packet.isResponse, ho]
  have hholds : s.termHolds t0 x.pkt = false := by simp [State.termHolds, hfull, hs]
  have h3 : x.pkt.space ≠ 3 := by simp [hs]
  have hex : exec (.packetDelivery f) s = .next ((s.dropFlight f).atTerminus t0 x.pkt) := by
    show execPacketDelivery f s = _
    simp [execPacketDelivery, hget, hf, hc, hover, hl, ht, hholds]
  have hlost' : ((s.dropFlight f).terminus t0).lost = false := hlost
  simp only [hex, State.atTerminus, hlost', hk, hresp, if_neg h3, Bool.or_self, Bool.false_eq_true, if_false]
  split
  · exact ⟨_, rfl⟩
  · exact ⟨s.termini, rfl⟩

/-! ### A packet that moves on -/

/-- A packet that is no acknowledgement of a multicast write merges with none (R163). -/
theorem sendOn_of_notAck {s : State} {f : Nat} {x : Flight} (h : x.pkt.op ≠ 10) : s.sendOn f x = (s.setFlight f x, false) := by
  have hop : (x.pkt.op == 10) = false := by simpa using h
  have hack (y : Flight) : x.mergesAck y = false := by simp only [Flight.mergesAck, hop, Bool.false_and]
  unfold State.sendOn
  split
  · rfl
  · rename_i i hi
    have hmerges := List.find?_some hi
    split at hmerges <;> simp [hack] at hmerges

theorem moveOn_hop {s : State} {f px py : Nat} {x : Flight} {q : Nat × Nat × Nat} (hn : nextHop x.pkt px py = some q)
    (hs : s.stops q.1 q.2.1 = false) (ho : x.pkt.op ≠ 10) :
    s.moveOn f x px py = (s.setFlight f { x with loc := .router q.1 q.2.1 q.2.2, fresh := true }).passed px py x.pkt.flits := by
  have hsend := sendOn_of_notAck (s := s) (f := f) (x := { x with loc := .router q.1 q.2.1 q.2.2, fresh := true }) ho
  simp only [State.moveOn, hn, hs, hsend, Bool.false_eq_true, if_false]

/-! ### A merge slot of two contributions -/

theorem field_headOf {v lo n : Nat} (h : lo + n ≤ 384) : field (headOf v) lo n = v / 2 ^ lo % 2 ^ n := by
  rw [show field (headOf v) lo n = ((BitVec.ofNat 384 v).extractLsb' lo n).toNat from rfl, BitVec.extractLsb'_toNat, BitVec.toNat_ofNat,
    Nat.shiftRight_eq_div_pow]
  refine Nat.eq_of_testBit_eq fun i => ?_
  simp only [Nat.testBit_mod_two_pow, Nat.testBit_div_two_pow]
  by_cases hi : i < n
  · simp [hi, show i + lo < 384 by omega]
  · simp [hi]

/-- The head of the packet that a slot sends: REDID, operation, saturation and count (R164). -/
def mergedHead (redid rop count : Nat) (sat : Bool) : BitVec 384 := headOf (redid + rop * 2 ^ 12 + sat.toNat * 2 ^ 14 + count * 2 ^ 16)

theorem mergedHead_redid {redid rop count : Nat} {sat : Bool} (h : redid < 2 ^ 12) : field (mergedHead redid rop count sat) 0 12 = redid := by
  rw [mergedHead, field_headOf (by decide)]
  omega

theorem mergedHead_rcount {redid rop count : Nat} {sat : Bool} (h : redid < 2 ^ 12) (hr : rop < 4) :
    field (mergedHead redid rop count sat) 16 19 = count % 2 ^ 19 := by
  rw [mergedHead, field_headOf (by decide)]
  have := Bool.toNat_le sat
  omega

/-- What a slot sends on that holds the contributions `a` of port 0 and `b` of port 1, of one line each, and adds them as operation `rop` does. -/
def mergedPacket (redid rop : Nat) (a b : Packet) (la lb : Line) : Packet :=
  { a with
    head := mergedHead redid rop (a.rcount + b.rcount) ((a.rsat || b.rsat) || (combineLine rop la lb).2)
    lines := [(combineLine rop la lb).1] }

/-- A packet that a router itself sends, before it has left. -/
def ownFlight (px py : Nat) (p : Packet) : Flight := { pkt := p, loc := .router px py 0, fresh := false, cast := .single }

/-- Slot `n` of a router is empty and packet `p`, which it has sent, moves on (R165). -/
def State.mergeSent (s : State) (px py n : Nat) (p : Packet) : State :=
  State.moveOn { s.onRouter px py (fun r => { r with held := r.held.del n }) with flights := s.flights ++ [ownFlight px py p] } s.flights.length
    (ownFlight px py p) px py

section
variable {s : State} {px py : BitVec 10} {n : BitVec 3} {a b : Packet} {la lb : Line}

/-- A slot whose two ports have given what they expect sends their fold on, in port order (R164, R165). -/
theorem reduceMergeSend_two (hv : ((s.router px.toNat py.toNat).reg (rRT_RED + 0x20 * n.toNat)).getLsbD 31 = true)
    (hb : ((s.router px.toNat py.toNat).reg (rRT_RED + 0x20 * n.toNat)).getLsbD 30 = false)
    (hh : (s.router px.toNat py.toNat).held.get [] n.toNat = [{ port := 1, pkt := b }, { port := 0, pkt := a }])
    (hla : a.lines = [la]) (hlb : b.lines = [lb])
    (hx : ∀ i, i < 5 → (s.router px.toNat py.toNat).expected n.toNat i = if i = 0 then a.rcount else if i = 1 then b.rcount else 0) :
    let w := (s.router px.toNat py.toNat).reg (rRT_RED + 0x20 * n.toNat)
    exec (.reduceMergeSend px py n) s =
      .next (s.mergeSent px.toNat py.toNat n.toNat (mergedPacket (field w 0 12) (field w 28 2) a b la lb)) := by
  intro w
  have hgot : ((List.range 5).any fun p =>
      (s.router px.toNat py.toNat).got n.toNat p != (s.router px.toNat py.toNat).expected n.toNat p) = false := by
    simp only [List.any_eq_false, List.mem_range]
    intro i hi
    rw [hx i hi]
    simp only [Router.got, hh]
    interval_cases i <;> simp
  show execReduceMergeSend px py n s = _
  have horder : ((List.range 5).flatMap fun p => ([{ port := 1, pkt := b }, { port := 0, pkt := a }] : List Contribution).filter fun e => e.port == p)
      = [{ port := 0, pkt := a }, { port := 1, pkt := b }] := rfl
  simp only [execReduceMergeSend, hv, hb, hh, hgot, horder, List.isEmpty_cons, Bool.not_true, Bool.or_self, Bool.false_eq_true, if_false,
    List.foldl_cons, List.foldl_nil, hla, hlb, List.map_cons, List.map_nil, List.zipWith_cons_cons, List.zipWith_nil_left, List.any_cons,
    List.any_nil, Bool.or_false, Bool.false_or]
  rfl

end

/-- The merged packet moves on to the next router of its way, and the slot is empty (R165). -/
theorem mergeSent_moves {s : State} {px py n : Nat} {p : Packet} {q : Nat × Nat × Nat} (ho : p.op ≠ 10) (hn : nextHop p px py = some q)
    (hs : s.stops q.1 q.2.1 = false) :
    (s.mergeSent px py n p).flights = s.flights ++ [{ ownFlight px py p with loc := .router q.1 q.2.1 q.2.2, fresh := true }] ∧
      ((s.mergeSent px py n p).router px py).held.get [] n = [] ∧ (s.mergeSent px py n p).inbox = s.inbox ∧
      (s.mergeSent px py n p).cores = s.cores := by
  let s1 : State := { s.onRouter px py (fun r => { r with held := r.held.del n }) with flights := s.flights ++ [ownFlight px py p] }
  have ht : s.mergeSent px py n p = _ := moveOn_hop (s := s1) (f := s.flights.length) (x := ownFlight px py p) hn hs ho
  rw [ht]
  refine ⟨updAt_last _ _ _, ?_, rfl, rfl⟩
  rw [State.passed, onRouter_router_self]
  show SMap.get [] ((s.onRouter px py (fun r => { r with held := r.held.del n })).router px py).held n = []
  rw [onRouter_router_self]
  simp [SMap.get_del]

/-! ### The obligation -/

/-- Settles O34: a packet at its destination by the state of its position, one at a T port, and a merge slot of two contributions. -/
theorem packetsLeave : Obligations.PacketsLeave := by
  unfold Obligations.PacketsLeave
  intro s f x px py port t0 c a b la lb n p r w left err red
  refine ⟨fun hat hfresh hcast hkill => ⟨fun hloc hpx hpy hext hop hspace hc => ?_, fun hloc ht hlost hfull hop hspace => ?_⟩, ?_⟩
  · have herr {code : Nat} (hp : (s.posOf c, code) ∈ [(PosState.hole, 1), (.isolated, 2), (.dead, 3)]) : err (BitVec.ofNat 8 code) := by
      obtain ⟨t, hex, q, hq⟩ := packetDelivery_refused hat hfresh hcast hkill hloc hpx hpy hext hop hc hspace hp
      exact ⟨t, q, hex, hq⟩
    refine ⟨fun hpos hopen hseq => ?_, fun hpos hsys h31 _ hpid => ?_, fun hpos => herr (code := 1) (by simp [hpos]),
      fun hpos => herr (code := 2) (by simp [hpos]), fun hpos => herr (code := 3) (by simp [hpos])⟩
    · exact ⟨_, packetDelivery_joins hat hfresh hcast hkill hloc hpx hpy hext hop hc hspace hpos hseq hopen, dropFlight_length hat.1, rfl, rfl,
        rfl⟩
    · obtain ⟨t, m, hex, ⟨q, hq⟩, hm⟩ := packetDelivery_walled hat hfresh hcast hkill hloc hpx hpy hext hop hc hpos hsys h31 hpid
      exact ⟨⟨t, q, hex, hq⟩, t, m, hex, hm⟩
  · obtain ⟨e, he⟩ := packetDelivery_terminus hat hfresh hcast hkill hloc ht hlost hfull hop hspace
    exact ⟨_, he, dropFlight_length hat.1, rfl, rfl, rfl⟩
  · intro hv hb hrop hheld ha hla hlb hx hra hrb hhop hpx hpy
    obtain ⟨q, hq, hstop⟩ := hhop
    have hpx' : (BitVec.ofNat 10 px).toNat = px := toNat_ofNat_lt (by omega)
    have hpy' : (BitVec.ofNat 10 py).toNat = py := toNat_ofNat_lt (by omega)
    generalize BitVec.ofNat 10 px = vx at hpx' ⊢
    generalize BitVec.ofNat 10 py = vy at hpy' ⊢
    subst hpx' hpy'
    have hex := reduceMergeSend_two hv hb hheld hla hlb hx
    have hop : (mergedPacket (field (r.reg red) 0 12) (field (r.reg red) 28 2) a b la lb).op ≠ 10 := by
      show a.op ≠ 10
      simp [ha]
    obtain ⟨hfl, hslot, hbox, hcores⟩ := mergeSent_moves (n := n.toNat) hop hq hstop
    refine ⟨_, _, hex, hfl, ha, rfl, ?_, ?_, ?_, hslot, hbox, hcores⟩
    · exact mergedHead_redid (BitVec.isLt _)
    · exact mergedHead_rcount (BitVec.isLt _) (BitVec.isLt _)
    · rw [← hrop]
      rfl

end Sys2Proof.Machine
end

section
/-! SUPPORT. The congestion map and the route map as they are written in service. -/

namespace Sys2Proof.Machine

/-! ### The congestion map -/

/-- A table without the keys that fail a test. -/
theorem SMap.get_filter_key {α : Type} (d : α) (m : SMap α) (p : Nat → Bool) (n : Nat) :
    SMap.get d (m.filter fun e => p e.1) n = if p n then SMap.get d m n else d := by
  induction m with
  | nil => simp
  | cons e t ih =>
    obtain ⟨k, v⟩ := e
    by_cases hn : n = k
    · subst hn
      cases hp : p n <;> simp [hp, SMap.get, ih]
    · cases hp : p k <;> simp [hp, SMap.get, ih, hn]

theorem field_setField {w : Nat} (v : BitVec w) {lo n : Nat} (x : Nat) (h : lo + n ≤ w) : field (setField v lo n x) lo n = x % 2 ^ n := by
  have hbits : (setField v lo n x).extractLsb' lo n = BitVec.ofNat n x := by
    ext i hi
    have hw : lo + i < w := by omega
    have hof (y : Nat) {u j : Nat} (hj : j < u) : (BitVec.ofNat u y)[j] = y.testBit j := by
      simp [BitVec.getElem_eq_testBit_toNat, hj]
    simp [setField, hw, hi, hof]
  rw [field, hbits, BitVec.toNat_ofNat]

/-- The registers of the congestion map read as 0 where nothing is listed (R175). -/
theorem yardReset_congestion {o : Nat} (h1 : 0x1000 ≤ o) (h2 : o < 0x1000 + 0x40 * 81) : yardReset (yFM + o) = 0 := by
  have h : ∀ a, 0x60000 + 0x1000 ≤ a → a < 0x60000 + 0x1000 + 0x40 * 81 → yardReset a = 0 := by
    intro a h1 h2
    unfold yardReset
    simp only [yCK, yPW, yFC, yBU, yFM, yJB, ySL]
    repeat rw [if_neg (by omega)]
  exact h _ (by simp only [yFM]; omega) (by simp only [yFM]; omega)

theorem congestion_le (s : State) (cl : Nat) : s.congestion cl ≤ 255 := by
  unfold State.congestion
  split <;> omega

/-- FM_SEQ is even after it has advanced: by 1 where it is odd, else by 2 (R175). -/
theorem seq_even (v : Word) : (v + (if v.getLsbD 0 then 1 else 2)).getLsbD 0 = false := by
  have hbit (u : Word) : u.getLsbD 0 = decide (u.toNat % 2 = 1) := Nat.testBit_zero _
  have hv := v.isLt
  rw [hbit, hbit v, decide_eq_false_iff_not, BitVec.toNat_add]
  have h1 : (1 : Word).toNat = 1 := rfl
  have h2 : (2 : Word).toNat = 2 := rfl
  by_cases h : v.toNat % 2 = 1
  · rw [if_pos (decide_eq_true h), h1]
    omega
  · rw [if_neg (by simpa using h), h2]
    omega

/-- The offset of the word that holds a cluster's byte, from the block (R175). -/
def congestionOff (cl : Nat) : Nat := 0x1000 + 0x40 * fieldOfCluster cl + 4 * (clusterInField cl / 4)

/-- The state while the map is written: the old one is gone, and the next interval counts from 0 (R174). -/
def State.mapCleared (s : State) : State :=
  { s with
    yregs := s.yregs.filter (fun (e : Nat × Word) => e.1 < yFM + 0x1000 || yFM + 0x1000 + 0x40 * 81 ≤ e.1)
    routers := s.routers.map (fun (e : Nat × Router) => (e.1, { e.2 with blocked := 0 })) }

theorem mapCleared_yreg (s : State) {o : Nat} (h1 : 0x1000 ≤ o) (h2 : o < 0x1000 + 0x40 * 81) : s.mapCleared.yreg (yFM + o) = 0 := by
  have hkey : (decide (yFM + o < yFM + 0x1000) || decide (yFM + 0x1000 + 0x40 * 81 ≤ yFM + o)) = false := by
    simp only [Bool.or_eq_false_iff, decide_eq_false_iff_not]
    omega
  show SMap.get _ (s.yregs.filter _) _ = _
  rw [SMap.get_filter_key _ _ (fun k => decide (k < yFM + 0x1000) || decide (yFM + 0x1000 + 0x40 * 81 ≤ k)), hkey]
  exact yardReset_congestion h1 h2

theorem mapCleared_blocked (s : State) : s.mapCleared.blockedClusters = [] := by
  have hnone : s.mapCleared.routers.filter (fun (e : Nat × Router) => e.2.blocked != 0) = [] := by
    rw [List.filter_eq_nil_iff]
    rintro e he
    obtain ⟨e', -, rfl⟩ := List.mem_map.mp he
    simp
  rw [State.blockedClusters, hnone]
  rfl

/-- The map with the byte of one cluster, the stamp and the generation written (R175). -/
def State.mapWritten (s : State) (cl : Nat) : State :=
  ((((s.mapCleared.setYreg (yFM + congestionOff cl)
    (setField (s.mapCleared.yreg (yFM + congestionOff cl)) (8 * (clusterInField cl % 4)) 8 (s.congestion cl))).setYreg (yFM + 8)
    (lo32 s.yc)).setYreg (yFM + 0xC) (hi32 s.yc)).setYreg yFM (s.yreg yFM + (if (s.yreg yFM).getLsbD 0 then 1 else 2)))

theorem congestionMapPublish_one {s : State} {cl : Nat} (hp : s.bu.phase = 10) (hb : s.blockedClusters = [cl]) :
    exec .congestionMapPublish s = .next (s.mapWritten cl) := by
  have hoff : yFM + 0x1000 + 0x40 * fieldOfCluster cl + 4 * (clusterInField cl / 4) = yFM + congestionOff cl := by
    simp only [congestionOff, Nat.add_assoc]
  show execCongestionMapPublish s = _
  rw [execCongestionMapPublish, if_neg (by simp [hp])]
  simp only [hb, List.foldl_cons, List.foldl_nil, hoff]
  rfl

theorem mapWritten_yreg (s : State) (cl : Nat) {o : Nat} (h : 0x1000 ≤ o) : (s.mapWritten cl).yreg (yFM + o) =
    if o = congestionOff cl then setField (s.mapCleared.yreg (yFM + o)) (8 * (clusterInField cl % 4)) 8 (s.congestion cl)
    else s.mapCleared.yreg (yFM + o) := by
  simp only [State.mapWritten, yreg_setYreg]
  rw [if_neg (by omega), if_neg (by omega), if_neg (by omega)]
  by_cases ho : o = congestionOff cl
  · subst ho
    simp
  · simp [ho]

/-! ### The route map -/

theorem without_skips (m : RouteMap) (l : List Nat) : (l.foldl (fun m f => m.without f) m).skips = m.skips := by
  induction l generalizing m with
  | nil => rfl
  | cons f t ih => exact (ih _).trans rfl

theorem without_dead (m : RouteMap) (l : List Nat) (g : Nat) :
    (l.foldl (fun m f => m.without f) m).dead.contains g = (m.dead.contains g || l.contains g) := by
  induction l generalizing m with
  | nil => simp
  | cons f t ih =>
    have hone : (m.without f).dead.contains g = (m.dead.contains g || g == f) := by
      simp only [RouteMap.without]
      split
      · rename_i hf
        by_cases hg : g = f
        · rw [hg, hf, Bool.true_or]
        · simp [hg]
      · simp [List.contains_eq_mem, Bool.beq_eq_decide_eq]
    rw [List.foldl_cons, ih, hone, List.contains_cons, Bool.or_assoc]

/-- The ring lines that a list of dead fields takes out of service, and those that were out before (R152). -/
theorem without_rings (m : RouteMap) (l : List Nat) :
    (∀ x, x ∈ (l.foldl (fun m f => m.without f) m).ringXOut ↔ x ∈ m.ringXOut ∨ ∃ g ∈ l, ∃ i < 8, 8 * (g / 9) + i = x) ∧
    (∀ y, y ∈ (l.foldl (fun m f => m.without f) m).ringYOut ↔ y ∈ m.ringYOut ∨ ∃ g ∈ l, ∃ i < 8, 8 * (g % 9) + i = y) := by
  induction l generalizing m with
  | nil => simp
  | cons f t ih =>
    have hx (x : Nat) : x ∈ (m.without f).ringXOut ↔ x ∈ m.ringXOut ∨ ∃ i < 8, 8 * (f / 9) + i = x := by
      simp only [RouteMap.without, List.mem_append, List.mem_filter, List.mem_map, List.mem_range, List.contains_eq_mem]
      by_cases h : x ∈ m.ringXOut <;> simp [h]
    have hy (y : Nat) : y ∈ (m.without f).ringYOut ↔ y ∈ m.ringYOut ∨ ∃ i < 8, 8 * (f % 9) + i = y := by
      simp only [RouteMap.without, List.mem_append, List.mem_filter, List.mem_map, List.mem_range, List.contains_eq_mem]
      by_cases h : y ∈ m.ringYOut <;> simp [h]
    obtain ⟨ihx, ihy⟩ := ih (m.without f)
    refine ⟨fun x => ?_, fun y => ?_⟩
    · rw [List.foldl_cons, ihx, hx, List.exists_mem_cons_iff, or_assoc]
    · rw [List.foldl_cons, ihy, hy, List.exists_mem_cons_iff, or_assoc]

/-- Reports of ring lines out of service change the messages under way alone (R152). -/
theorem ringReports_eq (s : State) (l : List Nat) : ∃ ms : List Msg,
    l.foldl (fun a d => a.yardReport 24 0x28 d 0) s = { s with transit := s.transit ++ ms } ∧ ∀ m ∈ ms, m.kind = 0x28 ∧ m.block = 24 := by
  induction l generalizing s with
  | nil => exact ⟨[], by simp, by simp⟩
  | cons d t ih =>
    obtain ⟨ms, h, hms⟩ := ih (s.yardReport 24 0x28 d 0)
    obtain ⟨m, hm, -, hblock, hkind, -⟩ := report_tells s srcYard 24 0x28 d 0
    refine ⟨m :: ms, h.trans ?_, List.forall_mem_cons.mpr ⟨⟨hkind, hblock⟩, hms⟩⟩
    have htr : (s.yardReport 24 0x28 d 0).transit = s.transit ++ [m] := hm
    rw [htr, List.append_assoc]
    rfl

end Sys2Proof.Machine
end

section
/-! SUPPORT. What the loss of cores leaves alone, and the death of a field. -/

namespace Sys2Proof.Machine

/-! ### Notifications -/

theorem notify_eq (s : State) (fn vec : Nat) : ∃ pend out, s.notify fn vec = { s with host := { s.host with msixPend := pend, out := out } } ∧
    s.host.msixPend ⊆ pend ∧ s.host.out ⊆ out ∧ (s.fc.safe = false → s.host.up = true → s.notified (s.notify fn vec) fn vec) := by
  unfold State.notified State.notify
  by_cases hoff : (s.fc.safe || !s.host.up) = true
  · rw [if_pos hoff]
    exact ⟨_, _, rfl, fun _ h => h, fun _ h => h, fun h1 h2 => absurd hoff (by simp [h1, h2])⟩
  · rw [if_neg hoff]
    by_cases hmask : (s.msixWord fn vec 3).getLsbD 0 = true
    · simp only [if_pos hmask]
      refine ⟨_, s.host.out, rfl, ?_, fun _ h => h, fun _ _ => ?_⟩
      · split
        · exact fun _ h => h
        · exact List.subset_append_left _ _
      · split
        · assumption
        · simp
    · simp only [if_neg hmask]
      exact ⟨s.host.msixPend, _, rfl, fun _ h => h, List.subset_append_left _ _, fun _ _ => List.mem_append_right _ (List.mem_singleton_self _)⟩

/-- Several functions are notified one after another: each has its notification in the end (R297). -/
theorem foldl_notify (s : State) (l : List Nat) (v : Nat → Nat) :
    ∃ pend out, l.foldl (fun a fn => a.notify fn (v fn)) s = { s with host := { s.host with msixPend := pend, out := out } } ∧
      s.host.msixPend ⊆ pend ∧ s.host.out ⊆ out ∧
      (s.fc.safe = false → s.host.up = true → ∀ fn ∈ l,
        s.notified { s with host := { s.host with msixPend := pend, out := out } } fn (v fn)) := by
  induction l generalizing s with
  | nil => exact ⟨s.host.msixPend, s.host.out, rfl, fun _ h => h, fun _ h => h, by simp⟩
  | cons a t ih =>
    obtain ⟨p1, o1, h1, hp1, ho1, hn1⟩ := notify_eq s a (v a)
    obtain ⟨p2, o2, h2, hp2, ho2, hn2⟩ := ih (s.notify a (v a))
    rw [h1] at h2 hp2 ho2 hn1 hn2
    refine ⟨p2, o2, ?_, List.Subset.trans hp1 hp2, List.Subset.trans ho1 ho2, fun hs hu => List.forall_mem_cons.mpr ⟨?_, hn2 hs hu⟩⟩
    · rw [List.foldl_cons, h1, h2]
    · have hn := hn1 hs hu
      unfold State.notified at hn ⊢
      split
      · rename_i hm
        rw [if_pos hm] at hn
        simp only [List.contains_eq_mem, decide_eq_true_eq] at hn ⊢
        exact hp2 hn
      · rename_i hm
        rw [if_neg hm] at hn
        exact ho2 hn

/-! ### What keeps fields and stores -/

/-- The fields' power and clocks, every scratchpad, outer memory, the NVM and the fuses are as before. -/
def State.fieldsKept (s t : State) : Prop := t.fields = s.fields ∧ s.storesKept t

theorem fieldsKept_refl (s : State) : s.fieldsKept s := ⟨rfl, rfl, rfl, rfl, fun _ => rfl⟩

theorem State.fieldsKept.trans {s t u : State} (h1 : s.fieldsKept t) (h2 : t.fieldsKept u) : s.fieldsKept u := by
  obtain ⟨f1, o1, n1, z1, m1⟩ := h1
  obtain ⟨f2, o2, n2, z2, m2⟩ := h2
  exact ⟨f2.trans f1, o2.trans o1, n2.trans n1, z2.trans z1, fun c => (m2 c).trans (m1 c)⟩

/-- A chain from its last step back. -/
theorem State.fieldsKept.after {s t u : State} (h2 : t.fieldsKept u) (h1 : s.fieldsKept t) : s.fieldsKept u := h1.trans h2

theorem fieldsKept_foldl {α : Type} {f : State → α → State} (h : ∀ (s : State) (x : α), s.fieldsKept (f s x)) (l : List α) (s : State) :
    s.fieldsKept (l.foldl f s) := by
  induction l generalizing s with
  | nil => exact fieldsKept_refl s
  | cons x t ih => exact (h s x).trans (ih _)

/-- Where cores are as before, and bring-up too, so are their scratchpads. -/
theorem fieldsKept_of_cores {s t : State} (hf : t.fields = s.fields) (ho : t.om = s.om) (hn : t.nvm = s.nvm) (hz : t.fuses = s.fuses)
    (hc : t.cores = s.cores) (hb : t.bu.phase = s.bu.phase) : s.fieldsKept t :=
  ⟨hf, ho, hn, hz, fun c => by simp only [State.core, State.blankCore, hc, hb]⟩

/-! ### Steps of cores -/

/-- A step of one core that leaves its scratchpad as it is. -/
theorem onCore_fieldsKept {f : K → K} (hc : ∀ k, (f k).c = k.c) (hm : ∀ k, (f k).core.mem = k.core.mem) (c : CoreId) (s : State) :
    s.fieldsKept (onCore c s f) := by
  unfold onCore
  split
  · refine ⟨rfl, rfl, rfl, rfl, fun d => ?_⟩
    show (SMap.get s.blankCore (s.cores.set (coreKey (f (kOf s c)).c) (f (kOf s c)).core) (coreKey d)).mem = _
    rw [hc, SMap.get_set]
    split
    · rename_i hd
      rw [hm, kOf_core, State.core, State.core, hd]
      rfl
    · rfl
  · exact fieldsKept_refl s

theorem onCores_fieldsKept {f : K → K} (hc : ∀ k, (f k).c = k.c) (hm : ∀ k, (f k).core.mem = k.core.mem) (cs : List CoreId) (s : State) :
    s.fieldsKept (onCores cs s f) :=
  fieldsKept_foldl (fun s c => onCore_fieldsKept hc hm c s) cs s

theorem settled_fieldsKept (s : State) (c : CoreId) : s.fieldsKept (s.settled c) := by
  unfold State.settled
  split
  · exact fieldsKept_refl s
  · rw [passProgress_eq]
    obtain ⟨rs, h | ⟨w, st, h⟩⟩ := takeItems_eq s c
    · rw [h]
      exact ⟨rfl, rfl, rfl, rfl, fun _ => rfl⟩
    · rw [h]
      refine ⟨rfl, rfl, rfl, rfl, fun d => ?_⟩
      show (SMap.get s.blankCore (s.cores.set (coreKey c) ((s.core c).withSettings w st)) (coreKey d)).mem = _
      rw [SMap.get_set]
      split
      · rename_i hd
        rw [State.core, State.core, hd]
        rfl
      · rfl

theorem coreReset_c (k : K) : k.coreReset.c = k.c := by
  unfold K.coreReset
  split
  · rfl
  · dsimp only
    split <;> rfl

/-- A core reset leaves the scratchpad as it is (R365). -/
theorem coreReset_mem (k : K) : k.coreReset.core.mem = k.core.mem := by
  unfold K.coreReset
  split <;> rfl

theorem coreResetEnd_c (k : K) : k.coreResetEnd.c = k.c := by
  unfold K.coreResetEnd
  split <;> rfl

theorem coreResetEnd_mem (k : K) : k.coreResetEnd.core.mem = k.core.mem := by
  unfold K.coreResetEnd
  split <;> rfl

theorem resetCore_fieldsKept (s : State) (c : CoreId) : s.fieldsKept (s.resetCore c) := by
  unfold State.resetCore
  split
  · refine (onCore_fieldsKept ?_ ?_ c s).trans (settled_fieldsKept _ c)
    · exact fun k => (coreResetEnd_c _).trans (coreReset_c k)
    · exact fun k => (coreResetEnd_mem _).trans (coreReset_mem k)
  · exact fieldsKept_refl s

theorem setCluster_fieldsKept (s : State) (cl : Nat) (f : Cluster → Cluster) : s.fieldsKept (s.setCluster cl f) :=
  fieldsKept_of_cores rfl rfl rfl rfl rfl rfl

theorem askScrub_fieldsKept (s : State) (cl : Nat) : s.fieldsKept (s.askScrub cl) := setCluster_fieldsKept s cl _

theorem askScrubs_fieldsKept (l : List Nat) (s : State) : s.fieldsKept (l.foldl (fun a cl => a.askScrub cl) s) :=
  fieldsKept_foldl askScrub_fieldsKept l s

theorem resetCluster_fieldsKept (s : State) (cl : Nat) : s.fieldsKept (s.resetCluster cl) := by
  unfold State.resetCluster
  split
  · exact fieldsKept_refl s
  · refine (onCores_fieldsKept ?_ ?_ _ _).after ((setCluster_fieldsKept _ _ _).after (fieldsKept_foldl resetCore_fieldsKept _ s)) <;>
      exact fun _ => rfl

theorem setYreg_fieldsKept (s : State) (off : Nat) (v : Word) : s.fieldsKept (s.setYreg off v) := fieldsKept_of_cores rfl rfl rfl rfl rfl rfl

theorem report_fieldsKept (s : State) (fld cluster core block kind detail addr : Nat) :
    s.fieldsKept (s.report fld cluster core block kind detail addr) := fieldsKept_of_cores rfl rfl rfl rfl rfl rfl

theorem abandonTest_fieldsKept (s : State) (cl : Nat) : s.fieldsKept (s.abandonTest cl) := by
  unfold State.abandonTest
  split
  · exact fieldsKept_refl s
  · refine (report_fieldsKept _ _ _ _ _ _ _ _).after ?_
    have hreset := (setCluster_fieldsKept _ cl (fun e => { e with testing := none, testWait := false, testScrub := false })).after
      (resetCluster_fieldsKept s cl)
    split <;> split
    · exact (setYreg_fieldsKept _ _ _).after ((askScrub_fieldsKept _ _).after hreset)
    · exact (setYreg_fieldsKept _ _ _).after hreset
    · exact (askScrub_fieldsKept _ _).after hreset
    · exact hreset

/-! ### Sections and jobs -/

theorem onRouter_fieldsKept (s : State) (px py : Nat) (f : Router → Router) : s.fieldsKept (s.onRouter px py f) :=
  fieldsKept_of_cores rfl rfl rfl rfl rfl rfl

theorem clearMerges_fieldsKept (s : State) (n : Nat) : s.fieldsKept (s.clearMerges n) :=
  fieldsKept_foldl (fun s (e : Nat × Nat × Nat) => onRouter_fieldsKept s e.1 e.2.1 _) _ s

theorem freeSection_fieldsKept (s : State) (n : Nat) : s.fieldsKept (s.freeSection n) :=
  (clearMerges_fieldsKept s n).trans (fieldsKept_of_cores rfl rfl rfl rfl rfl rfl)

theorem freeSections_fieldsKept (l : List Nat) (s : State) : s.fieldsKept (l.foldl (fun a n => a.freeSection n) s) :=
  fieldsKept_foldl freeSection_fieldsKept l s

theorem dfAbort_c (k : K) : k.dfAbort.1.c = k.c := by
  unfold K.dfAbort
  split <;> rfl

theorem dfAbort_mem (k : K) : k.dfAbort.1.core.mem = k.core.mem := by
  unfold K.dfAbort
  split <;> rfl

theorem abortSlot_fieldsKept (s : State) (n : Nat) : s.fieldsKept (s.abortSlot n) := by
  unfold State.abortSlot
  split
  · exact fieldsKept_refl s
  · exact (clearMerges_fieldsKept s n).trans (onCores_fieldsKept dfAbort_c dfAbort_mem _ _)

theorem abortSlots_fieldsKept (l : List Nat) (s : State) : s.fieldsKept (l.foldl (fun a n => a.abortSlot n) s) :=
  fieldsKept_foldl abortSlot_fieldsKept l s

theorem onJob_fieldsKept (s : State) (p : Pid) (r : BitVec 3) (id : DWord) (f : Job → Job) : s.fieldsKept (s.onJob p r id f) :=
  fieldsKept_of_cores rfl rfl rfl rfl rfl rfl

theorem onPart_fieldsKept (s : State) (p : Pid) (f : Partition → Partition) : s.fieldsKept (s.onPart p f) :=
  fieldsKept_of_cores rfl rfl rfl rfl rfl rfl

theorem abortJob_fieldsKept (s : State) (j : Job) (secid : BitVec 16) (cause kind : Byte) (core : Word) :
    s.fieldsKept (s.abortJob j secid cause kind core) := by
  unfold State.abortJob
  split
  · exact fieldsKept_refl s
  · exact (askScrubs_fieldsKept _ _).after ((onJob_fieldsKept _ _ _ _ _).after (abortSlots_fieldsKept _ s))

theorem removeResident_fieldsKept (s : State) (x : Resident) : s.fieldsKept (s.removeResident x) :=
  State.fieldsKept.trans (t := x.layout.foldl (fun (a : State) pl => a.freeSection pl.slot.toNat) s)
    (fieldsKept_foldl (fun s (pl : SectionPlace) => freeSection_fieldsKept s pl.slot.toNat) _ s) (fieldsKept_of_cores rfl rfl rfl rfl rfl rfl)

theorem dropResident_fieldsKept (s : State) (x : Resident) : s.fieldsKept (s.dropResident x) :=
  (askScrubs_fieldsKept _ _).after ((removeResident_fieldsKept _ x).after (fieldsKept_of_cores rfl rfl rfl rfl rfl rfl))

theorem rePlace_fieldsKept (s : State) (j : Job) : s.fieldsKept (s.rePlace j) :=
  (askScrubs_fieldsKept _ _).after ((onJob_fieldsKept _ _ _ _ _).after (freeSections_fieldsKept _ s))

/-! ### Replays -/

theorem endReplay_fieldsKept (s : State) (j : Job) (g why : Nat) : s.fieldsKept (s.endReplay j g why) :=
  (report_fieldsKept _ _ _ _ _ _ _ _).after (abortJob_fieldsKept s j _ _ _ _)

theorem moveCluster_fieldsKept (s : State) (j : Job) (cl sb : Nat) : s.fieldsKept (s.moveCluster j cl sb) :=
  (askScrub_fieldsKept _ _).after ((onJob_fieldsKept _ _ _ _ _).after ((onPart_fieldsKept _ _ _).after (abandonTest_fieldsKept s sb)))

theorem moveAll_fieldsKept {j : Job} {l : List Nat} {s t : State} (h : moveAll j l s = some t) : s.fieldsKept t := by
  induction l generalizing s with
  | nil =>
    obtain rfl : s = t := Option.some.inj h
    exact fieldsKept_refl s
  | cons cl l ih =>
    unfold moveAll at h
    split at h
    · exact ih h
    · split at h
      · exact absurd h (by simp)
      · exact (moveCluster_fieldsKept s j cl _).trans (ih h)

theorem rewind_fieldsKept (s : State) (j : Job) (g : Nat) : s.fieldsKept (s.rewind j g) :=
  (onJob_fieldsKept _ _ _ _ _).after (abortSlots_fieldsKept _ s)

theorem askReplay_fieldsKept (s : State) (j : Job) (lost : List Nat) : s.fieldsKept (s.askReplay j lost) := by
  unfold State.askReplay
  split
  · exact fieldsKept_refl s
  · split
    · exact fieldsKept_refl s
    · dsimp only
      split
      · exact endReplay_fieldsKept s j _ 0
      · split
        · exact endReplay_fieldsKept s j _ 1
        · rename_i s1 hmove
          split
          · exact moveAll_fieldsKept hmove
          · exact (moveAll_fieldsKept hmove).trans (rewind_fieldsKept s1 _ _)

/-! ### Cores lost -/

theorem loseIn_fieldsKept (s : State) (cause : Byte) (j : Job) (hit : CoreId → Bool) (lost : List Nat) :
    s.fieldsKept (s.loseIn cause j hit lost) := by
  unfold State.loseIn
  split
  · exact fieldsKept_refl s
  · split
    · exact fieldsKept_refl s
    · split
      · exact rePlace_fieldsKept s j
      · dsimp only
        split
        · exact (askReplay_fieldsKept _ _ _).after (abortSlots_fieldsKept _ s)
        · exact (abortJob_fieldsKept _ _ _ _ _ _).after (abortSlots_fieldsKept _ s)

theorem loseCores_fieldsKept (s : State) (cause : Byte) (hit : CoreId → Bool) (lost : List Nat) :
    s.fieldsKept (s.loseCores cause hit lost) := by
  refine (fieldsKept_foldl (fun a j => ?_) _ _).after (fieldsKept_foldl dropResident_fieldsKept _ s)
  split
  · exact fieldsKept_refl a
  · exact loseIn_fieldsKept a cause _ hit lost

/-! ### The death of a field -/

/-- What the loss of a terminus changes: marks, a message, and with terminus 0 the host port (R281, R282). -/
theorem loseTerminus_eq (s : State) (t cause : Nat) : ∃ b e m h, s.loseTerminus t cause =
    { s with bu := { s.bu with lostSeen := b }, termini := e, transit := m, host := h } := by
  unfold State.loseTerminus
  split
  · exact ⟨_, _, _, _, rfl⟩
  · dsimp only
    split <;> exact ⟨_, _, _, _, rfl⟩

theorem loseTermini_eq (s : State) (l : List Nat) (cause : Nat) : ∃ b e m h, l.foldl (fun a t => a.loseTerminus t cause) s =
    { s with bu := { s.bu with lostSeen := b }, termini := e, transit := m, host := h } := by
  induction l generalizing s with
  | nil => exact ⟨_, _, _, _, rfl⟩
  | cons t l ih =>
    obtain ⟨b1, e1, m1, h1, eq1⟩ := loseTerminus_eq s t cause
    obtain ⟨b2, e2, m2, h2, eq2⟩ := ih (s.loseTerminus t cause)
    exact ⟨b2, e2, m2, h2, by rw [List.foldl_cons, eq2, eq1]⟩

/-- The trees of several clusters stop (R29). -/
def State.treesStopped (s : State) (l : List Nat) : State := l.foldl (fun a cl => a.setCluster cl (fun e => { e with tree := false })) s

theorem treesStopped_eq (s : State) (l : List Nat) : ∃ cs, s.treesStopped l = { s with clusters := cs } := by
  induction l generalizing s with
  | nil => exact ⟨s.clusters, rfl⟩
  | cons cl l ih =>
    obtain ⟨cs, h⟩ := ih (s.setCluster cl (fun e => { e with tree := false }))
    exact ⟨cs, h⟩

/-- A tree that has stopped stays so while others stop. -/
theorem treesStopped_tree (s : State) (l : List Nat) (cl : Nat) :
    ((s.treesStopped l).cluster cl).tree = ((s.cluster cl).tree && !l.contains cl) := by
  induction l generalizing s with
  | nil => simp [State.treesStopped]
  | cons x l ih =>
    refine (ih (s.setCluster x (fun e => { e with tree := false }))).trans ?_
    rw [cluster_setCluster, List.contains_cons]
    by_cases h : cl = x
    · simp [h]
    · rw [if_neg h, beq_false_of_ne h, Bool.false_or]

/-- Field `n` has died: its spine and trees stand still, what was in it is gone, and every other field and every store is as before. -/
def State.fieldLost (s t : State) (n : Nat) : Prop :=
  (t.fieldPower n).dead = true ∧ (t.fieldPower n).spine = false ∧ (∀ g, g ≠ n → t.fieldPower g = s.fieldPower g) ∧
    (∀ cl ∈ fieldClusters n, (t.cluster cl).tree = false) ∧ (∀ x ∈ t.flights, x.loc.fieldNo ≠ n) ∧
    (∀ x ∈ t.inbox, fieldOf x.1.x.toNat x.1.y.toNat ≠ n) ∧ s.storesKept t

/-- A field's base logic fails: its spine stops, and its PLL where that has lost lock (R29, R317). -/
def FieldPower.failed (e : FieldPower) (pllLost : Bool) : FieldPower := { e with dead := true, pll := e.pll && !pllLost, spine := false }

/-- The packets that stand in a field, wait for injection there or are delivered there, are gone (R29). -/
def State.fieldEmptied (s : State) (n : Nat) : State :=
  { s with
    flights := s.flights.filter (fun x => x.loc.fieldNo != n)
    inj := s.inj.filter (fun x => fieldOfPhys x.pkt.src.px.toNat x.pkt.src.py.toNat != n)
    inbox := s.inbox.filter (fun (x : CoreId × Packet) => !(fieldOf x.1.x.toNat x.1.y.toNat == n))
    accepted := s.accepted.filter (fun (x : Accepted) => !(fieldOf x.core.x.toNat x.core.y.toNat == n)) }

/-- The death of a live field, step by step: cores lost, the field and its trees stopped, its packets gone, its termini lost (R29, R30). -/
theorem fieldDies_eq {s : State} {n : Nat} (pllLost : Bool) (hd : (s.fieldPower n).dead = false) (hn : n < 81) :
    ∃ s1 b e m h, s.fieldsKept s1 ∧ s.fieldDies n pllLost =
      { ((s1.onField n (·.failed pllLost)).treesStopped (fieldClusters n)).fieldEmptied n with
        bu := { s1.bu with lostSeen := b }, termini := e, transit := m, host := h } := by
  have hlive : ¬ (s.fieldDead n || decide (81 ≤ n)) = true := by
    have hd' : s.fieldDead n = false := hd
    simp [hd', hn]
  have hbu (s1 : State) : (((s1.onField n (·.failed pllLost)).treesStopped (fieldClusters n)).fieldEmptied n).bu = s1.bu := by
    obtain ⟨cs, h⟩ := treesStopped_eq (s1.onField n (·.failed pllLost)) (fieldClusters n)
    rw [h]
    rfl
  let s1 := s.loseCores 4 (fun c => fieldOf c.x.toNat c.y.toNat == n || s.routeThrough n c) (fieldClusters n)
  obtain ⟨b, e, m, h, hterm⟩ :=
    loseTermini_eq (((s1.onField n (·.failed pllLost)).treesStopped (fieldClusters n)).fieldEmptied n) (s.attached n) 1
  rw [hbu] at hterm
  refine ⟨s1, b, e, m, h, loseCores_fieldsKept s 4 _ _, ?_⟩
  rw [← hterm, State.fieldDies, if_neg hlive]
  rfl

/-- A live field dies (R29, R30, R317, R318). -/
theorem fieldDies_fieldLost {s : State} {n : Nat} (pllLost : Bool) (hd : (s.fieldPower n).dead = false) (hn : n < 81) :
    s.fieldLost (s.fieldDies n pllLost) n ∧ ((s.fieldDies n pllLost).fieldPower n).pll = ((s.fieldPower n).pll && !pllLost) := by
  obtain ⟨s1, b, e, m, h, ⟨hfields, hstores⟩, heq⟩ := fieldDies_eq pllLost hd hn
  obtain ⟨hom, hnvm, hfuses, hmem⟩ := hstores
  have htree := treesStopped_tree (s1.onField n (·.failed pllLost)) (fieldClusters n)
  obtain ⟨cs, hstop⟩ := treesStopped_eq (s1.onField n (·.failed pllLost)) (fieldClusters n)
  rw [hstop] at htree
  rw [heq, hstop]
  have hpower (g : Nat) : (s1.onField n (·.failed pllLost)).fieldPower g =
      if g = n then (s.fieldPower n).failed pllLost else s.fieldPower g := by
    have hs1 (g : Nat) : s1.fieldPower g = s.fieldPower g := by rw [State.fieldPower, hfields]; rfl
    rw [fieldPower_onField, hs1, hs1]
  have hself := (hpower n).trans (if_pos rfl)
  refine ⟨⟨congrArg FieldPower.dead hself, congrArg FieldPower.spine hself, fun g hg => (hpower g).trans (if_neg hg), fun cl hcl => ?_, ?_, ?_,
    hom, hnvm, hfuses, hmem⟩, congrArg FieldPower.pll hself⟩
  · refine (htree cl).trans ?_
    simp [hcl]
  · simp [State.fieldEmptied]
  · simp only [State.fieldEmptied, List.mem_filter]
    rintro x ⟨-, hx⟩
    simpa using hx

end Sys2Proof.Machine
end

section
/-! SUPPORT. A declared change of the floor plan, and the maps and the fields of the wafer in service. -/

namespace Sys2Proof.Machine

/-! ### The floor plan -/

theorem published_eq (s t : State) : ∃ ys, published s t = { t with yregs := ys } := by
  unfold published
  split <;> exact ⟨_, rfl⟩

/-- A change of the table advances its generation and is notified to every function (R35, R297). -/
theorem fpChange_eq (s : State) (g : FloorPlan → FloorPlan) : ∃ pend out, s.fpChange g =
      { s with fp := { g s.fp with gen := (g s.fp).gen + 2 }, host := { s.host with msixPend := pend, out := out } } ∧
    (s.fc.safe = false → s.host.up = true → ∀ fn < 17, s.notified (s.fpChange g) fn (if fn = 0 then 1 else 9)) := by
  obtain ⟨pend, out, hfold, -, -, hnot⟩ := foldl_notify { s with fp := { g s.fp with gen := (g s.fp).gen + 2 } } (List.range 17)
    (fun fn => if fn = 0 then 1 else 9)
  have heq : s.fpChange g = _ := hfold
  refine ⟨pend, out, heq, fun hs hu fn hfn => ?_⟩
  rw [heq]
  exact hnot hs hu fn (List.mem_range.mpr hfn)

/-- What a declared change leaves of the state: the table, its notifications, partitions and the registers of the map (R35, R39). -/
theorem floorPlanChange_eq {s : State} {ev : FloorChange} (hp : s.bu.phase = 10) (ht : s.fp.todo = [ev]) :
    ∃ t : State, exec (.floorPlanChange ev) s = .next t ∧ t.fp = { s.fp.apply ev with todo := [], gen := (s.fp.apply ev).gen + 2 } ∧
      t.cores = s.cores ∧ t.map = s.map ∧
      (s.fc.safe = false → s.host.up = true → ∀ fn < 17, s.notified t fn (if fn = 0 then 1 else 9)) := by
  let g : FloorPlan → FloorPlan := fun fp => { fp.apply ev with todo := fp.todo.filter (· != ev) }
  have hex : exec (.floorPlanChange ev) s = .next (published s (s.fpChange g).loseClusters) := if_pos ⟨hp, by simp [ht]⟩
  have htodo : s.fp.todo.filter (· != ev) = [] := by simp [ht]
  have hchange := fpChange_eq s g
  generalize s.fpChange g = u at hex hchange
  obtain ⟨pend, out, heq, hnot⟩ := hchange
  obtain ⟨ys, hpub⟩ := published_eq s u.loseClusters
  rw [hpub] at hex
  refine ⟨_, hex, ?_, ?_, ?_, hnot⟩
  · rw [heq, ← htodo]
    rfl
  · rw [heq]
    rfl
  · rw [heq]
    rfl

theorem apply_deadField {fp : FloorPlan} {f : BitVec 7} (h : fp.dead.contains f.toNat = false) :
    fp.apply (.deadField f) = { fp with dead := fp.dead ++ [f.toNat] } := by
  rw [FloorPlan.apply, if_neg (Bool.not_eq_true _ ▸ h)]

/-! ### The maps in service -/

/-- The byte published of a cluster (R174). -/
theorem mapWritten_byte (s : State) (cl : Nat) :
    field ((s.mapWritten cl).yreg (yFM + congestionOff cl)) (8 * (clusterInField cl % 4)) 8 = s.congestion cl := by
  have hle := congestion_le s cl
  have hlane : 8 * (clusterInField cl % 4) + 8 ≤ 32 := by omega
  rw [mapWritten_yreg _ _ (by unfold congestionOff; omega), if_pos rfl, field_setField _ _ hlane, Nat.mod_eq_of_lt (by omega)]

/-- The map of an interval in which routers of one cluster were blocked (R174, R175). -/
theorem congestionMapPublish_publishes {s : State} {cl : Nat} (hp : s.bu.phase = 10) (hb : s.blockedClusters = [cl]) :
    let off := 0x1000 + 0x40 * fieldOfCluster cl + 4 * (clusterInField cl / 4)
    ∃ t : State, exec .congestionMapPublish s = .next t ∧
      field (t.yreg (yFM + off)) (8 * (clusterInField cl % 4)) 8 =
        (if s.fp.dead.contains (fieldOfCluster cl) then 0 else min 255 (256 * s.clusterBlocked cl / 15360000)) ∧
      (∀ o, 0x1000 ≤ o → o < 0x1000 + 0x40 * 81 → o ≠ off → t.yreg (yFM + o) = 0) ∧
      t.yreg (yFM + 8) = lo32 s.yc ∧ t.yreg (yFM + 0xC) = hi32 s.yc ∧ (t.yreg yFM).getLsbD 0 = false ∧
      t.blockedClusters = [] ∧ t = { s with yregs := t.yregs, routers := t.routers } := by
  refine ⟨s.mapWritten cl, congestionMapPublish_one hp hb, mapWritten_byte s cl, fun o h1 h2 ho => ?_, ?_, ?_, ?_, mapCleared_blocked s, rfl⟩
  · rw [mapWritten_yreg _ _ h1, if_neg (show o ≠ congestionOff cl from ho), mapCleared_yreg _ h1 h2]
  · simp [State.mapWritten]
  · simp [State.mapWritten]
  · rw [State.mapWritten, yreg_setYreg, if_pos rfl]
    exact seq_even _

/-- The route map takes the dead fields, the ring lines that have a station in one, and the lost termini (R150, R152, R282). -/
theorem routeMapRewrite_rewrites {s : State} (hp : s.bu.phase = 10) :
    ∃ t : State, exec .routeMapRewrite s = .next t ∧ t.map.skips = s.map.skips ∧
      t.map.lostTermini = s.fittedList.filter (fun t => (s.terminus t).lost) ∧
      (∀ g, t.map.dead.contains g = (s.map.dead.contains g || s.fp.dead.contains g)) ∧
      (∀ l, s.map.ringXOut.contains l = true → t.map.ringXOut.contains l = true) ∧
      (∀ g ∈ s.fp.dead, ∀ i, i < 8 → t.map.ringXOut.contains (8 * (g / 9) + i) = true ∧
        t.map.ringYOut.contains (8 * (g % 9) + i) = true) ∧
      (∃ ms, t.transit = s.transit ++ ms ∧ ∀ m ∈ ms, m.kind = 0x28 ∧ m.block = 24) ∧ t.cores = s.cores ∧ t.flights = s.flights := by
  let m1 : RouteMap := { s.fp.dead.foldl (fun m f => m.without f) s.map with
    lostTermini := s.fittedList.filter (fun t => (s.terminus t).lost)
    lostStacks := s.fittedList.flatMap (fun t => ((List.range 3).filter (fun k => (s.terminus t).stkLost.getLsbD k)).map (fun k => (t, k))) }
  obtain ⟨ms, heq, hms⟩ := ringReports_eq { s with map := m1 } (newlyOut s.map m1)
  have hex : exec .routeMapRewrite s = .next { s with map := m1, transit := s.transit ++ ms } := by
    show execRouteMapRewrite s = _
    rw [execRouteMapRewrite, if_neg (by simp [hp])]
    exact congrArg _ heq
  obtain ⟨hx, hy⟩ := without_rings s.map s.fp.dead
  refine ⟨_, hex, without_skips _ _, rfl, without_dead _ _, fun l hl => ?_, fun g hg i hi => ⟨?_, ?_⟩, ⟨ms, rfl, hms⟩, rfl, rfl⟩
  · rw [List.contains_iff_mem] at hl ⊢
    exact (hx l).mpr (.inl hl)
  · exact List.contains_iff_mem.mpr ((hx _).mpr (.inr ⟨g, hg, i, hi, rfl⟩))
  · exact List.contains_iff_mem.mpr ((hy _).mpr (.inr ⟨g, hg, i, hi, rfl⟩))

theorem inService_live {s : State} {n : Nat} (h : s.inService n = true) : (s.fieldPower n).dead = false ∧ n < 81 := by
  simp only [State.inService, State.liveField, Bool.and_eq_true, Bool.not_eq_true', decide_eq_true_eq] at h
  obtain ⟨⟨-, hdead, -⟩, hn⟩ := h
  exact ⟨hdead, hn⟩

/-- The message that a field's death ends with leaves the field as it has died. -/
theorem fieldLost_report {s t : State} {n : Nat} (h : s.fieldLost t n) (f block kind detail addr : Nat) :
    s.fieldLost (t.fieldReport f block kind detail addr) n ∧ (t.fieldReport f block kind detail addr).lastTold f block kind detail addr :=
  ⟨h, _, List.getLast?_concat, rfl, rfl, rfl, rfl, rfl⟩

/-! ### The obligation -/

/-- Settles O35: what the loss of cores may do to jobs and sections never reaches a store or a field's clock, so a field's death is the
last steps of `fieldDies_eq`. -/
theorem floorPlanAndMaps : Obligations.FloorPlanAndMaps := by
  unfold Obligations.FloorPlanAndMaps
  constructor
  · intro s cl f off live hp
    refine ⟨fun hb _ => congestionMapPublish_publishes hp hb, routeMapRewrite_rewrites hp, fun hf ht hd hs => ?_⟩
    have hnum : (BitVec.ofNat 7 f).toNat = f := toNat_ofNat_lt (by omega)
    obtain ⟨t, hex, hfp, hcores, hmap, hnot⟩ := floorPlanChange_eq hp ht
    rw [apply_deadField (by rw [hnum]; exact hd), hnum] at hfp
    exact ⟨t, hex, by rw [hfp], by rw [hfp], by rw [hfp], by rw [hfp], by rw [hfp], hnot hs, hcores, hmap⟩
  · intro s f side n dies hserv
    obtain ⟨hdead, hn⟩ := inService_live hserv
    obtain ⟨hlost, hpll⟩ := fieldDies_fieldLost true hdead hn
    obtain ⟨hlost', hpll'⟩ := fieldDies_fieldLost false hdead hn
    obtain ⟨hd, htold⟩ := fieldLost_report hlost n 14 0x82 n 0
    obtain ⟨hd', htold'⟩ := fieldLost_report hlost' n 15 0x83 (n + 128 * side.toNat) 0
    refine ⟨⟨_, if_pos hserv, hd, ?_, htold⟩, _, if_pos hserv, hd', ?_, htold'⟩
    · exact hpll.trans (by simp)
    · exact hpll'.trans (by simp)

end Sys2Proof.Machine
end

section
/-! SUPPORT. Instruction words: what the formats decode to, and the words of the instructions that decode. -/

namespace Sys2Proof.Machine

/-- An instruction of core `c` that is well formed and has a word, which decodes to it. -/
def Encodes (c : CoreId) (i : Instr) : Prop := wellFormed i = true ∧ ∃ v, encodeInsn i = some v ∧ decodeInsn c v = some i

/-! ### Each group of instructions that a decoder gives -/

section
variable {c : CoreId} {w : Word} {i : Instr} (hc : okCore c = true)
include hc

theorem decodeAlu_encodes (h : decodeAlu c w = some i) : Encodes c i := by
  unfold decodeAlu at h
  split at h <;> cases h <;> exact ⟨hc, _, rfl, by simp [decodeInsn, decodeAlu]⟩

theorem decodeShiftImm_encodes (h : decodeShiftImm c w = some i) : Encodes c i := by
  unfold decodeShiftImm at h
  split at h <;> cases h <;> exact ⟨hc, _, rfl, by simp [decodeInsn, decodeShiftImm]⟩

theorem decodeFence_encodes (h : decodeFence c w = some i) : Encodes c i := by
  unfold decodeFence at h
  split at h <;> cases h <;> exact ⟨hc, _, rfl, by simp [decodeInsn, decodeFence]⟩

theorem decodeMat_encodes (h : decodeMat c w = some i) : Encodes c i := by
  unfold decodeMat at h
  split at h <;> cases h <;> exact ⟨hc, _, rfl, by simp [decodeInsn, decodeMat]⟩

theorem decodeChan_encodes (h : decodeChan c w = some i) : Encodes c i := by
  unfold decodeChan at h
  split at h <;> cases h <;> exact ⟨hc, _, rfl, by simp [decodeInsn, decodeChan]⟩

theorem decodeSys_encodes (h : decodeSys c w = some i) : Encodes c i := by
  unfold decodeSys at h
  split at h <;> cases h <;> exact ⟨hc, _, rfl, by simp [decodeInsn, decodeSys]⟩

/-- A register of QVLD is named by the low bits of the field d alone (R205). -/
theorem decodeFlow_encodes (h : decodeFlow c w = some i) : Encodes c i := by
  unfold decodeFlow at h
  dsimp only at h
  split at h
  case h_6 =>
    split at h
    · cases h
    · cases h; exact ⟨hc, _, rfl, by simp [decodeInsn, decodeFlow]⟩
  all_goals cases h <;> exact ⟨hc, _, rfl, by simp [decodeInsn, decodeFlow]⟩

/-- A conversion names one of the eleven formats, and a pair operation even registers (R58, R86). -/
theorem decodeVec_encodes (h : decodeVec c w = some i) : Encodes c i := by
  unfold decodeVec at h
  dsimp only at h
  split at h
  case h_17 =>
    split at h
    · rename_i hf
      cases h
      exact ⟨by simpa [wellFormed, hc, okFormat] using hf, _, rfl, by simpa [decodeInsn, decodeVec] using hf⟩
    · cases h
  case h_18 | h_19 =>
    split at h
    · rename_i he
      cases h
      exact ⟨by simpa [wellFormed, hc, okEven, evenReg] using he, _, rfl, by simpa [decodeInsn, decodeVec, and_assoc] using he⟩
    · cases h
  all_goals cases h <;> exact ⟨hc, _, rfl, by simp [decodeInsn, decodeVec]⟩

/-- Every instruction that a word decodes to is well formed and has a word of its own, which decodes to it. -/
theorem decodeInsn_encodes (h : decodeInsn c w = some i) : Encodes c i := by
  unfold decodeInsn at h
  dsimp only at h
  split at h
  case h_1 => exact decodeAlu_encodes hc h
  case h_6 => exact decodeShiftImm_encodes hc h
  case h_18 => exact decodeFence_encodes hc h
  case h_28 => exact decodeVec_encodes hc h
  case h_31 => exact decodeMat_encodes hc h
  case h_32 =>
    split at h
    · cases h; exact ⟨hc, _, rfl, by simp [decodeInsn]⟩
    · cases h
  case h_34 => exact decodeChan_encodes hc h
  case h_35 => exact decodeFlow_encodes hc h
  case h_36 => exact decodeSys_encodes hc h
  all_goals cases h <;> exact ⟨hc, _, rfl, by simp [decodeInsn]⟩

end

/-! ### The words of well-formed instructions -/

/-- The word of a well-formed instruction decodes to it on the instruction's own core. -/
theorem decodeInsn_of_encodeInsn {i : Instr} {w : Word} (hw : wellFormed i = true) (h : encodeInsn i = some w) :
    ∃ c, okCore c = true ∧ decodeInsn c w = some i := by
  cases i
  case vcvt c vd va src dst =>
    simp only [wellFormed, Bool.and_eq_true, okFormat, decide_eq_true_eq] at hw
    cases h
    exact ⟨c, hw.1, by simpa [decodeInsn, decodeVec] using hw.2⟩
  case vadd2 c vd va vb | vmul2 c vd va vb =>
    simp only [wellFormed, Bool.and_eq_true, and_assoc] at hw
    cases h
    exact ⟨c, hw.1, by simpa [decodeInsn, decodeVec, okEven, evenReg] using hw.2⟩
  all_goals cases h
  all_goals exact ⟨_, hw, by simp [decodeInsn, decodeAlu, decodeShiftImm, decodeFence, decodeVec, decodeMat, decodeChan, decodeFlow, decodeSys]⟩

/-- Settles O3. -/
theorem wordsRoundTrip : Obligations.WordsRoundTrip := by
  unfold Obligations.WordsRoundTrip
  exact ⟨fun _ _ => decodeInsn_of_encodeInsn, fun _ _ _ => decodeInsn_encodes⟩

/-- Settles O4. -/
theorem sampleWordsDecode : Obligations.SampleWordsDecode := by
  unfold Obligations.SampleWordsDecode
  intro c
  and_intros <;> rfl

end Sys2Proof.Machine
end

section
/-! SUPPORT. The scalar ALU: the operand forms and the counts of bits as the rules write them. -/

namespace Sys2Proof.Machine

/-! ### Operands and counts -/

theorem shiftAmt_eq (v : DWord) : shiftAmt v = v.toNat % 64 := by simp [shiftAmt, field]

theorem zext16_eq (imm : BitVec 16) : zext16 imm = BitVec.ofNat 64 imm.toNat := by
  apply BitVec.eq_of_toNat_eq
  simp [zext16]

theorem add_sext16 (x : DWord) (imm : BitVec 16) : x + sext16 imm = BitVec.ofInt 64 (x.toInt + imm.toInt) := by
  rw [BitVec.ofInt_add, BitVec.ofInt_toInt]; rfl

theorem popcount_eq_countP {w : Nat} (v : BitVec w) : popcount v = (List.range w).countP (fun i => v.getLsbD i) := by
  suffices h : ∀ (l : List Nat) (n : Nat), l.foldl (fun n i => n + (v.getLsbD i).toNat) n = n + l.countP (fun i => v.getLsbD i) by
    simpa [popcount] using h (List.range w) 0
  intro l
  induction l with
  | nil => simp
  | cons i l ih => intro n; rw [List.foldl_cons, ih, List.countP_cons]; cases v.getLsbD i <;> simp; omega

/-- The leading zeros of a value that is not 0 end at its highest bit. -/
theorem clz64_eq (v : DWord) : clz64 v = BitVec.ofNat 64 (if v = 0 then 64 else 63 - Nat.log2 v.toNat) := by
  unfold clz64
  congr 1
  by_cases h : v = 0
  · rw [List.find?_eq_none.2 (by simp [h]), if_pos h]
  · have h0 : v.toNat ≠ 0 := by simpa [← BitVec.toNat_inj] using h
    have hlt : Nat.log2 v.toNat < 64 := (Nat.log2_lt h0).2 v.isLt
    have hf : (List.range 64).find? (fun i => v.getLsbD (63 - i)) = some (63 - Nat.log2 v.toNat) := by
      rw [List.find?_range_eq_some]
      refine ⟨?_, by simp; omega, fun j hj => ?_⟩
      · rw [show 63 - (63 - Nat.log2 v.toNat) = Nat.log2 v.toNat by omega, BitVec.getLsbD, Nat.testBit_log2 h0]
      · have : v.getLsbD (63 - j) = false := Nat.testBit_lt_two_pow ((Nat.log2_lt h0).1 (by omega))
        simp [this]
    rw [hf, if_neg h]

/-! ### The forms of the ALU -/

/-- An instruction of three registers writes its result (R44). -/
theorem alu3_computes {s : State} {c : CoreId} {i : Instr} {d a b : SReg} {f : DWord → DWord → DWord}
    (he : exec i s = issue c i s (alu3 d a b f)) (hf : s.free c [d, a, b]) :
    s.computes c i d (f ((s.core c).sreg a) ((s.core c).sreg b)) ((s.core c).pc + 1) :=
  computes_of_body he fun w => by simp only [alu3, whenReady_of_free hf (fun _ h => h), K.advance, Core.setS_pc, kOf_core]

/-- An instruction of two registers and an immediate writes its result (R43, R44). -/
theorem alu2_computes {s : State} {c : CoreId} {i : Instr} {d a : SReg} {f : DWord → DWord}
    (he : exec i s = issue c i s (alu2 d a f)) (hf : s.free c [d, a]) :
    s.computes c i d (f ((s.core c).sreg a)) ((s.core c).pc + 1) :=
  computes_of_body he fun w => by simp only [alu2, whenReady_of_free hf (fun _ h => h), K.advance, Core.setS_pc, kOf_core]

/-! ### The obligation -/

/-- Settles O5. -/
theorem scalarResults : Obligations.ScalarResults := by
  unfold Obligations.ScalarResults
  refine ⟨fun s c d a b hf => ?_, fun s c d a imm amt hf => ?_⟩
  · have hf2 : s.free c [d, a] := fun r hr => hf r (by simp only [List.mem_cons] at hr ⊢; tauto)
    dsimp only
    have h3 := fun (i : Instr) (f : DWord → DWord → DWord) he => alu3_computes (i := i) (f := f) he hf
    have h2 := fun (i : Instr) (f : DWord → DWord) he => alu2_computes (i := i) (f := f) he hf2
    simp only [← shiftAmt_eq, ← clz64_eq, ← popcount_eq_countP]
    refine ⟨h3 _ (· + ·) rfl, h3 _ (· - ·) rfl, h3 _ (· &&& ·) rfl, h3 _ (· ||| ·) rfl, h3 _ (· ^^^ ·) rfl,
      h3 _ (fun x y => x <<< shiftAmt y) rfl, h3 _ (fun x y => x >>> shiftAmt y) rfl, h3 _ (fun x y => x.sshiftRight (shiftAmt y)) rfl,
      h3 _ (fun x y => boolWord (sltFlag x y)) rfl, ?_, h3 _ (· * ·) rfl, ?_,
      h3 _ (fun x y => if sltFlag x y then x else y) rfl, h3 _ (fun x y => if sltFlag x y then y else x) rfl, h2 _ clz64 rfl,
      h2 _ popc64 rfl⟩
    · simpa [boolWord, sltuFlag] using h3 (.sltu c d a b) _ rfl
    · simpa [mulhu64] using h3 (.mulhu c d a b) _ rfl
  · dsimp only
    have h2 := fun (i : Instr) (f : DWord → DWord) he => alu2_computes (i := i) (f := f) he hf
    rw [← zext16_eq, ← add_sext16]
    exact ⟨h2 _ (· + sext16 imm) rfl, h2 _ (· &&& zext16 imm) rfl, h2 _ (· ||| zext16 imm) rfl, h2 _ (· ^^^ zext16 imm) rfl,
      h2 _ (· <<< amt.toNat) rfl, h2 _ (· >>> amt.toNat) rfl, h2 _ (·.sshiftRight amt.toNat) rfl, h2 _ (· <<< 16 ||| zext16 imm) rfl⟩

end Sys2Proof.Machine
end

section
/-! SUPPORT. An execution fault: what it records, reports and aborts, and what it leaves alone. -/

namespace Sys2Proof.Machine

/-! ### What a fault leaves of the core -/

/-- CORE_TRAP and CORE_TRAPPC as a fault records it (R49). -/
def Core.trapNoted (k : Core) (kind pc : Nat) : Core :=
  (k.setReg rCORE_TRAP (place 32 31 1 1 ||| place 32 0 8 kind)).setReg rCORE_TRAPPC (place 32 0 14 pc)

/-- The message of a core's block (R384, R385). -/
def K.msgOf (k : K) (block kind detail addr : Nat) : Msg := mkMsg k.here.px.toNat k.here.py.toNat k.cyc block kind detail addr

/-- A core whose section can be aborted, after an execution fault that sent message `m` (R49, R219). -/
def Core.faulted (k : Core) (kind pc : Nat) (m : Msg) (src : CoreId) : Core :=
  { ((k.trapNoted kind pc).noteMsg m).enterAbort 0 (BitVec.ofNat 8 kind) src with seq := .trapped }

/-- An execution fault of a core whose section can be aborted (R49, R219). -/
theorem execFault_eq {k : K} {block kind pc detail addr : Nat} (h : k.core.abortable = true) :
    k.execFault block kind pc detail addr =
      { k with core := k.core.faulted kind pc (k.msgOf block kind detail addr) k.c,
               msgs := k.msgs ++ [k.msgOf block kind detail addr], abort := some (0, BitVec.ofNat 8 kind) } := by
  have h2 : ((k.core.trapNoted kind pc).noteMsg (k.msgOf block kind detail addr)).abortable = true := by
    rw [noteMsg_regsOnly]; exact h
  change (let k2 := K.abortNow { k with core := (k.core.trapNoted kind pc).noteMsg (k.msgOf block kind detail addr),
                                        msgs := k.msgs ++ [k.msgOf block kind detail addr] } 0 kind
          { k2 with core := { k2.core with seq := .trapped } } : K) = _
  simp only [K.abortNow, h2, if_true]
  rfl

section
variable (k : Core) (kind pc : Nat) (m : Msg) (src : CoreId)

@[simp] theorem faulted_seq : (k.faulted kind pc m src).seq = .trapped := rfl
@[simp] theorem faulted_df : (k.faulted kind pc m src).df = .aborting := rfl
@[simp] theorem faulted_s : (k.faulted kind pc m src).s = k.s := by rw [Core.faulted, noteMsg_regsOnly]; rfl
@[simp] theorem faulted_mem : (k.faulted kind pc m src).mem = k.mem := by rw [Core.faulted, noteMsg_regsOnly]; rfl
@[simp] theorem faulted_vregs : (k.faulted kind pc m src).vregs = k.vregs := by rw [Core.faulted, noteMsg_regsOnly]; rfl
@[simp] theorem faulted_acc : (k.faulted kind pc m src).acc = k.acc := by rw [Core.faulted, noteMsg_regsOnly]; rfl
@[simp] theorem faulted_slots : (k.faulted kind pc m src).slots = k.slots := by rw [Core.faulted, noteMsg_regsOnly]; rfl

end

/-- A register of the engines' block after a section has begun to abort. -/
theorem enterAbort_reg (k : Core) (cause kind : Byte) (src : CoreId) {off : Nat} (h : off < 0x6000) :
    (k.enterAbort cause kind src).reg off = k.reg off := by
  simp only [Core.enterAbort, Core.reg]
  have hne : off ≠ rDF_NOPROG ∧ off ≠ rDF_ABSRC ∧ off ≠ rDF_ABREC := by
    refine ⟨?_, ?_, ?_⟩ <;> rintro rfl <;> exact absurd h (by decide)
  rw [SMap.get_set_other _ _ _ _ _ hne.1, SMap.get_set_other _ _ _ _ _ hne.2.1, SMap.get_set_other _ _ _ _ _ hne.2.2]

/-- A register of the engines' block after a fault. -/
theorem faulted_reg {off : Nat} (k : Core) (kind pc : Nat) (m : Msg) (src : CoreId) (h : off < 0x6000) :
    (k.faulted kind pc m src).reg off = (k.trapNoted kind pc).reg off :=
  (enterAbort_reg _ _ _ _ h).trans (noteMsg_reg _ _ (by omega))

/-- CORE_TRAP holds V and the kind (R49, R73). -/
theorem faulted_trap {kind : Nat} (k : Core) (pc : Nat) (m : Msg) (src : CoreId) (h : kind < 256) :
    (k.faulted kind pc m src).reg rCORE_TRAP = BitVec.ofNat 32 (2 ^ 31 + kind) := by
  rw [faulted_reg _ _ _ _ _ (by decide), Core.trapNoted, Core.setReg_reg_other _ _ (by decide), Core.setReg_reg_self]
  have hv : (place 32 31 1 1 : Word) = BitVec.ofNat 32 (2 ^ 31 * 1) := by decide
  rw [hv, place, Nat.mod_eq_of_lt (show kind < 2 ^ 8 from h), BitVec.shiftLeft_zero, ← BitVec.ofNat_or, ← Nat.two_pow_add_eq_or_of_lt (by omega), Nat.mul_one]

/-- CORE_TRAPPC holds the index (R49, R73). -/
theorem faulted_trappc (k : Core) (kind pc : Nat) (m : Msg) (src : CoreId) :
    (k.faulted kind pc m src).reg rCORE_TRAPPC = BitVec.ofNat 32 (pc % 16384) := by
  rw [faulted_reg _ _ _ _ _ (by decide), Core.trapNoted, Core.setReg_reg_self]
  simp [place]

/-! ### What a fault leaves of the block -/

/-- The abort line of the slot of a core that aborts (R219). -/
theorem kPut_abortLine {s : State} {k : K} {a : Byte × Byte} (h : k.abort = some a) :
    ((kPut s k).slots.get .reset k.slot).abortLine.isSome = true := by
  obtain ⟨cause, kind⟩ := a
  have : (kPut s k).slots = putSlot k s.slots := by
    show freeLine s k (putSlot k s.slots) = _
    simp [freeLine, h]
  rw [this]
  simp only [putSlot, h, SMap.get_upd, if_true]
  cases (SMap.get SectionSlot.reset s.slots k.slot).abortLine <;> rfl

/-- An execution fault that arises with the core otherwise as it was (R49, R77, R219). -/
theorem execFault_execFaulted {s : State} {c : CoreId} {block kind pc : Nat} (detail addr : Nat) (h : (s.core c).abortable = true)
    (hk : kind < 256) (hp : pc ≤ 16383) :
    s.execFaulted (kPut s ((kOf s c).execFault block kind pc detail addr)) c block kind pc detail addr := by
  rw [execFault_eq h]
  unfold State.execFaulted
  rw [kPut_core (show K.c _ = c from rfl)]
  refine ⟨rfl, rfl, faulted_trap _ _ _ _ hk, ?_, ⟨_, rfl, rfl, rfl, rfl, rfl⟩, kPut_abortLine (a := (0, BitVec.ofNat 8 kind)) rfl,
    faulted_s .., faulted_mem .., faulted_vregs .., faulted_acc .., kPut_other rfl, ?_⟩
  · rw [faulted_trappc, Nat.mod_eq_of_lt (by omega)]
  · simp [kPut]

/-- A core whose task can issue has a section that can be aborted. -/
theorem abortable_of_canIssue {k : Core} (h : k.canIssue = true) : k.abortable = true := by
  simp only [Core.canIssue, Bool.and_eq_true, beq_iff_eq] at h
  simp [Core.abortable, h.1.1.1]

/-- An instruction that issues and faults (R49). -/
theorem issue_faults {s : State} {c : CoreId} {i : Instr} {body : Nat → Word → K → K} {block kind detail addr : Nat}
    (he : exec i s = issue c i s body) (hi : s.issues c i) (hk : kind < 256)
    (hb : body (s.core c).pc ((s.core c).insnAt (s.core c).pc) (kOf s c) = (kOf s c).execFault block kind (s.core c).pc detail addr) :
    ∃ t : State, exec i s = .next t ∧ s.execFaulted t c block kind (s.core c).pc detail addr :=
  ⟨_, (he.trans (issue_of_issues hi)).trans (by rw [hb]),
    execFault_execFaulted detail addr (abortable_of_canIssue hi.2.1) hk hi.2.2.2.1⟩

/-! ### The obligation -/

/-- A word that stands for no instruction faults whatever command fetches it (R49, R77). -/
theorem illegal_faults {s : State} {c : CoreId} {i : Instr} {body : Nat → Word → K → K} (he : exec i s = issue c i s body)
    (hl : s.alive c = true) (hi : (s.core c).canIssue = true) (ha : (s.core c).acquiring = false) (hp : (s.core c).pc ≤ 16383)
    (hc : (s.core c).istoreErr.get 0 (s.core c).pc = 0) (hd : decodeInsn c ((s.core c).insnAt (s.core c).pc) = none) :
    ∃ t : State, exec i s = .next t ∧
      s.execFaulted t c 0 0x50 (s.core c).pc (s.core c).pc ((s.core c).insnAt (s.core c).pc).toNat := by
  have hr : istoreRead ((s.core c).insnAt (s.core c).pc) (0 : BitVec 39) = some ((s.core c).insnAt (s.core c).pc, false) := by
    rw [istoreRead, show popcount (0 : BitVec 39) = 0 from popcount_zero39]; rfl
  refine ⟨_, ?_, execFault_execFaulted _ _ (abortable_of_canIssue hi) (by decide) hp⟩
  rw [he, issue, onLive_of_alive hl]
  simp only [issueK, kOf_core, kOf_c, hi, ha, hc, hr, hd, Bool.not_true, Bool.false_eq_true, if_false,
    show ¬ 16383 < (s.core c).pc by omega]

theorem aligned_of_ne {ad : DWord} {n : Nat} (h : ad.toNat % n ≠ 0) : aligned ad n = false := by simp [aligned, h]

theorem addr48_eq (ad : DWord) : addr48 ad = ad.toNat % 2 ^ 48 := by simp [addr48, field]

/-- Settles O7. -/
theorem executionFaults : Obligations.ExecutionFaults := by
  unfold Obligations.ExecutionFaults
  refine fun s c d a b imm => ⟨fun hi => ?_, fun hl hi ha hp hc hd => ?_, fun hi ha hx => ?_, fun hi hf hx => ?_, fun hi hf hx => ?_⟩
  · exact issue_faults (i := .trap c) rfl hi (by decide) rfl
  · exact illegal_faults (i := .add c d a b) rfl hl hi ha hp hc hd
  · refine issue_faults (i := .jr c a) rfl hi (by decide) ?_
    have hf : s.free c [a] := fun r hr => List.mem_singleton.1 hr ▸ ha
    rw [whenReady_of_free hf (fun _ h => h), K.jump, if_neg (by simp only [kOf_core]; omega)]
    rfl
  · refine issue_faults (i := .ldD c d a imm) rfl hi (by decide) ?_
    rw [← addr48_eq, load, whenReady_of_free hf (fun _ h => h)]
    simp only [kOf_core, effAddr_target, aligned_of_ne hx, Bool.not_false, if_true]
    rfl
  · refine issue_faults (i := .stW c d a imm) rfl hi (by decide) ?_
    rw [← addr48_eq, store, whenReady_of_free hf (fun _ h => h)]
    simp only [kOf_core, effAddr_target, aligned_of_ne hx, Bool.not_false, if_true]
    rfl

end Sys2Proof.Machine
end

section
/-! SUPPORT. Vector instructions enter their queue, and a produced NaN that traps. -/

namespace Sys2Proof.Machine

/-! ### Lists that a range gives -/

theorem nth_eq_getD {α : Type} (d : α) (l : List α) (n : Nat) : nth d l n = l.getD n d := by
  induction l generalizing n with
  | nil => rfl
  | cons a l ih => cases n with
    | zero => rfl
    | succ n => simpa [nth] using ih n

theorem nth_map_range {α : Type} (d : α) (f : Nat → α) {l n : Nat} (h : l < n) : nth d ((List.range n).map f) l = f l := by
  simp [nth_eq_getD, h]

/-! ### Issue -/

/-- The core after a vector instruction has entered the unit's queue (R42). -/
def Core.vecQueued (k : Core) (e : VecEntry) : Core := { k with vecQ := k.vecQ ++ [e], num := k.num + 1 }

/-- A vector instruction as it enters the queue of a core (R42, R58). -/
def Core.vecEntry (k : Core) (i : Instr) (a : DWord) : VecEntry :=
  { insn := i, addr := a, line := 0, got := none, pc := k.pc, word := k.insnAt k.pc, tag := k.runTag, num := k.num }

theorem vecPush_retires {s : State} {c : CoreId} {i : Instr} {a : DWord} (h : (s.core c).vecQ.length < 8) :
    (kOf s c).vecPush i a 0 (s.core c).pc ((s.core c).insnAt (s.core c).pc) =
      K.retire { kOf s c with core := (s.core c).vecQueued ((s.core c).vecEntry i a) } ((s.core c).pc + 1) := by
  rw [K.vecPush, if_neg (by simpa using h)]
  rfl

/-- What a vector instruction does that enters the queue: it retires, and nothing else changes (R42, R58). -/
theorem vecQueued_next {s : State} {c : CoreId} {i : Instr} {a : DWord} {body : Nat → Word → K → K} (he : exec i s = issue c i s body)
    (hb : body (s.core c).pc ((s.core c).insnAt (s.core c).pc) (kOf s c) =
      (kOf s c).vecPush i a 0 (s.core c).pc ((s.core c).insnAt (s.core c).pc))
    (hi : s.issues c i) (hq : (s.core c).vecQ.length < 8) :
    ∃ t : State, ∃ e, exec i s = .next t ∧ s.onlyCore t c ∧ (t.core c).vecQ = (s.core c).vecQ ++ [e] ∧ e.insn = i ∧ e.addr = a ∧
      e.pc = (s.core c).pc ∧ e.word = (s.core c).insnAt (s.core c).pc ∧ e.tag = (s.core c).runTag ∧
      (s.core c).retired (t.core c) ((s.core c).pc + 1) [] ∧ (s.core c).sregsKept (t.core c) ∧ (t.core c).vregs = (s.core c).vregs ∧
      (t.core c).mem = (s.core c).mem ∧ (t.core c).acc = (s.core c).acc := by
  refine ⟨_, (s.core c).vecEntry i a, (he.trans (issue_of_issues hi)).trans (by rw [hb, vecPush_retires hq]), ?_, ?_⟩
  · exact kPut_onlyCore rfl rfl rfl rfl rfl rfl rfl rfl rfl rfl rfl
  · rw [kPut_core (show K.c _ = c from rfl), retire_core_eq]
    exact ⟨rfl, rfl, rfl, rfl, rfl, rfl, Core.retired_retireAt (by decide) (fun _ _ => rfl), fun _ => rfl, rfl, rfl, rfl⟩

/-- VLD and VST at an address that the rules allow (R58). -/
theorem vecMemIssue_push {s : State} {c : CoreId} {i : Instr} {sa : SReg} {off : BitVec 17} {pc : Nat} {w : Word}
    (ha : (s.core c).awaits sa = false) (hown : isOwnSpad c ((s.core c).sreg sa + BitVec.ofInt 64 off.toInt) = true)
    (hin : addrOff40 ((s.core c).sreg sa + BitVec.ofInt 64 off.toInt) + 128 ≤ 0x60000)
    (hal : ((s.core c).sreg sa + BitVec.ofInt 64 off.toInt).toNat % 128 = 0) :
    vecMemIssue i sa off pc w (kOf s c) = (kOf s c).vecPush i ((s.core c).sreg sa + BitVec.ofInt 64 off.toInt) 0 pc w := by
  have hf : s.free c [sa] := fun r hr => List.mem_singleton.1 hr ▸ ha
  have hv : (s.core c).vecAddr sa off = (s.core c).sreg sa + BitVec.ofInt 64 off.toInt := rfl
  rw [vecMemIssue, whenReady_of_free hf (fun _ h => h)]
  simp only [kOf_core, kOf_c, hv, hown, aligned_of_mod hal, show ¬ padSize < addrOff40 ((s.core c).sreg sa + BitVec.ofInt 64 off.toInt) + 128 by
    simpa [padSize] using hin, Bool.not_true, decide_false, Bool.or_self, Bool.false_eq_true, if_false]

/-! ### A NaN that traps -/

/-- The core once the trap has recorded its NaN and cancelled what was issued later (R95, R97). -/
def K.nanCancelled (k : K) (n : NumSrc) (carried : Bool) (elem : Nat) : Core :=
  let c := (k.nanRecord n true carried elem).core
  { c with vecQ := c.vecQ.filter (fun e => e.num < n.num), matQ := c.matQ.filter (fun e => e.num < n.num),
           steps := c.steps.filter (fun e => e.entry.num < n.num) }

/-- The message of kind 0x40 (R95, R107). -/
def K.nanMsg (k : K) (n : NumSrc) (carried : Bool) (elem : Nat) : Msg :=
  k.msgOf n.block 0x40 n.tag.toNat (numAddr k.core.secid n.pc (nanHigh n carried elem))

/-- A trap is an execution fault of what the cancellation leaves (R95). -/
theorem nanTrap_eq {k : K} (n : NumSrc) (carried : Bool) (elem : Nat) (h : k.core.df = .run) :
    k.nanTrap n carried elem =
      { k with core := (k.nanCancelled n carried elem).faulted 0x40 n.pc (k.nanMsg n carried elem) k.c,
               msgs := k.msgs ++ [k.nanMsg n carried elem], abort := some (0, 0x40) } := by
  have habort : (k.nanCancelled n carried elem).abortable = true := by
    show (match k.core.df with | .loaded | .starting | .run => true | _ => false) = true
    rw [h]
  exact execFault_eq (k := { k with core := k.nanCancelled n carried elem }) habort

/-- A register outside the NaN record. -/
theorem nanRecord_reg (k : K) (n : NumSrc) (trapped carried : Bool) (elem : Nat) {off : Nat}
    (h : off ∉ [rMX_NANREC0, rMX_NANREC1, rMX_NANREC2, rMX_NANSTAMP, rMX_NANSTAMP + 4]) :
    (k.nanRecord n trapped carried elem).core.reg off = k.core.reg off := by
  simp only [List.mem_cons, List.not_mem_nil, or_false, not_or] at h
  obtain ⟨h0, h1, h2, h3, h4⟩ := h
  simp only [K.nanRecord, Core.reg, Core.setReg, setPair]
  rw [SMap.get_set_other _ _ _ _ _ h4, SMap.get_set_other _ _ _ _ _ h3, SMap.get_set_other _ _ _ _ _ h2, SMap.get_set_other _ _ _ _ _ h1,
    SMap.get_set_other _ _ _ _ _ h0]

/-- The V bit of MX_NANREC0 stands once a NaN is recorded (R97). -/
theorem nanRecord_valid (k : K) (n : NumSrc) (trapped carried : Bool) (elem : Nat) :
    ((k.nanRecord n trapped carried elem).core.reg rMX_NANREC0).getLsbD 31 = true := by
  have h : (k.nanRecord n trapped carried elem).core.reg rMX_NANREC0 =
      place 32 31 1 1 ||| flag 32 30 carried ||| flag 32 29 trapped ||| place 32 16 8 n.opkind ||| place 32 0 14 n.pc := by
    simp only [K.nanRecord, Core.reg, Core.setReg, setPair]
    rw [SMap.get_set_other _ _ _ _ _ (by decide), SMap.get_set_other _ _ _ _ _ (by decide), SMap.get_set_other _ _ _ _ _ (by decide),
      SMap.get_set_other _ _ _ _ _ (by decide), SMap.get_set_self]
  have hv : (place 32 31 1 1 : Word).getLsbD 31 = true := by decide
  rw [h]
  simp only [BitVec.getLsbD_or, hv, Bool.true_or]

/-- The V bit of MX_NANREC0 after a trap (R95, R97). -/
theorem nanTrap_valid (k : K) (n : NumSrc) (carried : Bool) (elem : Nat) (m : Msg) :
    (((k.nanCancelled n carried elem).faulted 0x40 n.pc m k.c).reg rMX_NANREC0).getLsbD 31 = true := by
  rw [faulted_reg _ _ _ _ _ (by decide), Core.trapNoted, Core.setReg_reg_other _ _ (by decide), Core.setReg_reg_other _ _ (by decide)]
  exact nanRecord_valid k n true carried elem

/-! ### Completion -/

/-- The context in which the oldest vector instruction takes its effect (R58, R347). -/
def State.vecTurn (s : State) (c : CoreId) (e : VecEntry) (rest : List VecEntry) : K :=
  { kOf s c with core := (({ s.core c with vecQ := rest }).count rVEC_OPS 1).count (vecCounter e.insn) 1 }

/-- The oldest vector instruction takes its effect, where it is no VLD that has yet to read its first line (R58). -/
theorem vectorComplete_next {s : State} {c : CoreId} {e : VecEntry} {rest : List VecEntry} (hl : s.alive c = true)
    (hq : (s.core c).vecQ = e :: rest) (hw : (s.core c).vecWaits e = false) (hf : (kOf s c).vecFirst e rest = none) :
    exec (.vectorComplete c) s = .next (kPut s ((s.vecTurn c e rest).vecEffect e)) := by
  show execVectorComplete c s = _
  simp only [execVectorComplete, onLive_of_alive hl, kOf_core, hq, hw, hf, Bool.false_eq_true, if_false]
  rfl

/-- The counters of the vector unit are none of the registers named below 0x1800. -/
theorem vecTurn_reg (s : State) (c : CoreId) (e : VecEntry) (rest : List VecEntry) {off : Nat} (h : off < 0x1800) :
    (s.vecTurn c e rest).core.reg off = (s.core c).reg off := by
  have hc : off ≠ vecCounter e.insn ∧ off ≠ vecCounter e.insn + 4 := by
    unfold vecCounter
    split <;> constructor <;> rintro rfl <;> exact absurd h (by decide)
  have ho : off ≠ rVEC_OPS ∧ off ≠ rVEC_OPS + 4 := by constructor <;> rintro rfl <;> exact absurd h (by decide)
  show SMap.get (coreReset off) (bump (bump (s.core c).regs rVEC_OPS 1) (vecCounter e.insn) 1) off = _
  rw [get_bump_other _ _ _ _ _ hc.1 hc.2, get_bump_other _ _ _ _ _ ho.1 ho.2]
  rfl

theorem vecTurn_nanTrapOn (s : State) (c : CoreId) (e : VecEntry) (rest : List VecEntry) :
    (s.vecTurn c e rest).core.nanTrapOn = (s.core c).nanTrapOn := by
  rw [Core.nanTrapOn, vecTurn_reg _ _ _ _ (by decide)]; rfl

/-- With the trap on, an instruction with a NaN among its results traps (R95). -/
theorem settle_traps {k : K} {n : NumSrc} {nans : List (Nat × Bool)} (f : K → K) (ht : k.core.nanTrapOn = true) (hn : nans ≠ []) :
    ∃ elem carried, k.settle n nans f = k.nanTrap n carried elem := by
  obtain ⟨⟨elem, carried⟩, t, rfl⟩ := List.exists_cons_of_ne_nil hn
  exact ⟨elem, carried, by simp only [K.settle, ht, if_true]⟩

/-- A lane that comes out as NaN is among the NaNs of an operation (R94). -/
theorem lanes_nan {ops : List (List Word)} {f : List Word → Word} {l : Nat} (hl : l < 32)
    (h : isNaN (f (ops.map (fun o => nth 0 o l))) = true) : (lanes ops f).2 ≠ [] := by
  intro he
  have := List.filterMap_eq_nil_iff.1 he l (by simpa using hl)
  rw [nth_map_range _ _ hl, h] at this
  simp at this

/-! ### The obligation -/

/-- Settles O10. -/
theorem vectorIssue : Obligations.VectorIssue := by
  unfold Obligations.VectorIssue
  refine ⟨fun s c vd va vb vc src p acc dst sa off => ?_, fun s c e rest vd va vb l hl hd hq hw ht he hlane hnan => ?_⟩
  · dsimp only
    have push := fun (i : Instr) (he : exec i s = issue c i s (vecIssue i)) => vecQueued_next (a := 0) he rfl
    refine ⟨push _ rfl, push _ rfl, push _ rfl, push _ rfl, push _ rfl, push _ rfl, push _ rfl, push _ rfl, push _ rfl, push _ rfl,
      push _ rfl, push _ rfl, push _ rfl, push _ rfl, push _ rfl, push _ rfl, push _ rfl, push _ rfl, push _ rfl, push _ rfl, push _ rfl,
      fun ha hown hin hal => ⟨?_, ?_⟩⟩
    · exact vecQueued_next (i := .vld c vd sa off) rfl (vecMemIssue_push ha hown hin hal)
    · exact vecQueued_next (i := .vst c vd sa off) rfl (vecMemIssue_push ha hown hin hal)
  · have hf : (kOf s c).vecFirst e rest = none := by simp only [K.vecFirst, he]
    have ht' := (vecTurn_nanTrapOn s c e rest).trans ht
    obtain ⟨elem, carried, hs⟩ := settle_traps (k := s.vecTurn c e rest) (n := e.src)
      (nans := (lanes [(s.core c).vreg va, (s.core c).vreg vb] (lane2 add32)).2)
      (fun k => { k with core := k.core.setV vd (lanes [(s.core c).vreg va, (s.core c).vreg vb] (lane2 add32)).1 }) ht'
      (lanes_nan hlane (by simpa [lane2, nth, Core.vreg, nth_map_range _ _ hlane] using hnan))
    have heff : (s.vecTurn c e rest).vecEffect e = (s.vecTurn c e rest).nanTrap e.src carried elem := by
      rw [← hs]; simp only [K.vecEffect, he]; rfl
    rw [vectorComplete_next hl hq hw hf, heff, nanTrap_eq e.src carried elem hd]
    refine ⟨_, (s.vecTurn c e rest).nanMsg e.src carried elem, rfl, ?_⟩
    rw [kPut_core (show K.c _ = c from rfl)]
    exact ⟨faulted_vregs .., faulted_acc .., faulted_s .., faulted_mem .., rfl, rfl, faulted_trap _ _ _ _ (by decide), faulted_trappc ..,
      nanTrap_valid .., rfl, rfl, rfl, BitVec.ofNat_toNat .., kPut_other rfl⟩

end Sys2Proof.Machine
end

section
/-! SUPPORT. The results of vector instructions lane by lane, and the special values of the number formats. -/

namespace Sys2Proof.Machine

/-! ### Vector registers -/

/-- A table that a list of numbers gives. -/
theorem SMap.get_map_range {α : Type} (d : α) (f : Nat → α) (l : List Nat) (p : Nat) :
    SMap.get d (l.map (fun i => (i, f i))) p = if p ∈ l then f p else d := by
  induction l with
  | nil => simp
  | cons a l ih =>
    by_cases h : p = a
    · subst h; simp [SMap.get]
    · simp [SMap.get, h, ih]

theorem get_elemsOf (ws : List Word) (n : Nat) : SMap.get 0 (elemsOf ws) n = nth 0 ws n := by
  rw [elemsOf, SMap.get_map_range, nth_eq_getD]
  split
  · rfl
  · rename_i h
    simp only [List.mem_range, Nat.not_lt] at h
    simp [h]

/-- A lane of a register just written. -/
theorem setV_lane_self (k : Core) (v : VReg) (ws : List Word) (l : Nat) : (k.setV v ws).lane v.toNat l = nth 0 ws l := by
  rw [Core.lane, Core.setV, SMap.get_set_self, get_elemsOf]

/-- A lane of another register. -/
theorem setV_lane_other {n : Nat} (k : Core) (v : VReg) (ws : List Word) (l : Nat) (h : n ≠ v.toNat) : (k.setV v ws).lane n l = k.lane n l := by
  rw [Core.lane, Core.setV, SMap.get_set_other _ _ _ _ _ h, Core.lane]

theorem nth_vreg (k : Core) (v : VReg) {l : Nat} (h : l < 32) : nth 0 (k.vreg v) l = k.lane v.toNat l := nth_map_range _ _ h

/-! ### NaNs that are counted -/

/-- The registers of the NaN record and its counter (R97, R106). -/
def nanRegs : List Nat := [rMX_NANREC0, rMX_NANREC1, rMX_NANREC2, rMX_NANSTAMP, rMX_NANSTAMP + 4, rMX_NANCNT, rMX_NANCNT + 4]

/-- Nothing but the NaN record, its counter, the record of messages and the messages have changed (R96). -/
def K.NanNoted (k k' : K) : Prop :=
  k' = { k with core := { k.core with regs := k'.core.regs }, msgs := k'.msgs } ∧
    ∀ off, off < 0xC000 → off ∉ nanRegs → k'.core.reg off = k.core.reg off

theorem nanCount_noted (k : K) (n : NumSrc) (nans : List (Nat × Bool)) : k.NanNoted (k.nanCount n nans) := by
  have hcnt : ∀ off, off ∉ nanRegs → (k.core.count rMX_NANCNT nans.length).reg off = k.core.reg off := by
    intro off h
    simp only [nanRegs, List.mem_cons, List.not_mem_nil, or_false, not_or] at h
    obtain ⟨-, -, -, -, -, h5, h6⟩ := h
    exact get_bump_other _ _ _ _ _ h5 h6
  unfold K.nanCount
  split
  · exact ⟨rfl, fun _ _ _ => rfl⟩
  · rename_i elem carried rest
    dsimp only
    split
    · exact ⟨rfl, fun off _ h => hcnt off h⟩
    · refine ⟨?_, fun off h1 h2 => ?_⟩
      · simp only [K.report]
        rw [noteMsg_regsOnly]
        rfl
      · refine (noteMsg_reg _ _ h1).trans ((nanRecord_reg _ n false carried elem ?_).trans (hcnt off h2))
        simp only [nanRegs, List.mem_cons, List.not_mem_nil, or_false, not_or] at h2 ⊢
        tauto

/-- What differs from a context in its core and its messages alone still does after NaNs are counted. -/
theorem K.NanNoted.ofCore {k0 k k' : K} (h : k.NanNoted k') (h0 : k = { k0 with core := k.core, msgs := k.msgs }) :
    k' = { k0 with core := k'.core, msgs := k'.msgs } := by
  rw [h.1, h0]

/-- With the trap off an instruction takes its effect, and its NaNs are counted (R96). -/
theorem settle_noted {k : K} (n : NumSrc) (nans : List (Nat × Bool)) (f : K → K) (ht : k.core.nanTrapOn = false) :
    (f k).NanNoted (k.settle n nans f) := by
  unfold K.settle
  split
  · exact ⟨rfl, fun _ _ _ => rfl⟩
  · simp only [ht, Bool.false_eq_true, if_false]
    exact nanCount_noted _ _ _

/-! ### Completion -/

/-- A step of a core that keeps its section's state and sends messages alone changes cores and messages alone. -/
theorem kPut_ofMessages {s : State} {k : K} {c : CoreId} (hk : k = { kOf s c with core := k.core, msgs := k.msgs })
    (hd : k.core.df = (s.core c).df) : kPut s k = { s with cores := (kPut s k).cores, transit := (kPut s k).transit } := by
  have hslots : (kPut s k).slots = s.slots := by
    show freeLine s k (putSlot k s.slots) = _
    rw [freeLine_kept (by rw [hd]; rw [hk]; rfl)]
    rw [hk]; rfl
  have hrest : (kPut s k).routers = s.routers ∧ (kPut s k).inj = s.inj ∧ (kPut s k).freeCtr = s.freeCtr ∧ (kPut s k).resp = s.resp := by
    rw [hk]
    exact ⟨by simp [kPut], by simp, rfl, rfl⟩
  obtain ⟨hr, hi, hf, hv⟩ := hrest
  calc kPut s k = { s with cores := (kPut s k).cores, transit := (kPut s k).transit, slots := (kPut s k).slots, routers := (kPut s k).routers,
                           inj := (kPut s k).inj, freeCtr := (kPut s k).freeCtr, resp := (kPut s k).resp } := rfl
    _ = _ := by rw [hslots, hr, hi, hf, hv]

/-- An instruction that is no VLD takes its effect at once. -/
theorem vecFirst_none {k : K} {e : VecEntry} {rest : List VecEntry} {i : Instr} (hi : e.insn = i) (h : ∀ c v sa off, i ≠ .vld c v sa off) :
    k.vecFirst e rest = none := by
  unfold K.vecFirst
  split
  · rename_i hv _; exact absurd (hi.symm.trans hv) (h _ _ _ _)
  · rfl

/-- A vector operation that writes one register: the register, and what stays (R58). -/
theorem vecWrites_next {s : State} {c : CoreId} {e : VecEntry} {rest : List VecEntry} {vd : VReg} {f : Nat → Word}
    (hl : s.alive c = true) (hq : (s.core c).vecQ = e :: rest) (hw : (s.core c).vecWaits e = false) (ht : (s.core c).nanTrapOn = false)
    (hf : (kOf s c).vecFirst e rest = none) (ws : List Word) (nans : List (Nat × Bool))
    (he : (s.vecTurn c e rest).vecEffect e = (s.vecTurn c e rest).settle e.src nans (fun k => { k with core := k.core.setV vd ws }))
    (hlane : ∀ l, l < 32 → nth 0 ws l = f l) :
    ∃ t : State, exec (.vectorComplete c) s = .next t ∧ (∀ l, l < 32 → (t.core c).lane vd.toNat l = f l) ∧
      (∀ (v : VReg) l, v ≠ vd → (t.core c).lane v.toNat l = (s.core c).lane v.toNat l) ∧ (t.core c).vecQ = rest ∧
      pairAt (t.core c).regs rVEC_OPS = pairAt (s.core c).regs rVEC_OPS + 1 ∧ (t.core c).s = (s.core c).s ∧
      (t.core c).mem = (s.core c).mem ∧ (t.core c).acc = (s.core c).acc ∧ (t.core c).pc = (s.core c).pc ∧ s.othersKept t c ∧
      t = { s with cores := t.cores, transit := t.transit } := by
  obtain ⟨k', hk', hnoted⟩ : ∃ k', (s.vecTurn c e rest).vecEffect e = k' ∧
      K.NanNoted { s.vecTurn c e rest with core := (s.vecTurn c e rest).core.setV vd ws } k' :=
    ⟨_, rfl, by rw [he]; exact settle_noted _ _ _ ((vecTurn_nanTrapOn s c e rest).trans ht)⟩
  have hof : k' = { kOf s c with core := k'.core, msgs := k'.msgs } := hnoted.ofCore rfl
  obtain ⟨hk, hreg⟩ := hnoted
  have hc : k'.c = c := by rw [hk]; rfl
  have hcore : k'.core = { (s.vecTurn c e rest).core.setV vd ws with regs := k'.core.regs } := congrArg K.core hk
  have hops : pairAt k'.core.regs rVEC_OPS = pairAt (s.vecTurn c e rest).core.regs rVEC_OPS := by
    have h0 := hreg rVEC_OPS (by decide) (by decide)
    have h4 := hreg (rVEC_OPS + 4) (by decide) (by decide)
    exact congrArg₂ pair64 h4 h0
  refine ⟨kPut s k', (vectorComplete_next hl hq hw hf).trans (by rw [hk']), ?_⟩
  rw [kPut_core hc, hops]
  refine ⟨fun l h => ?_, fun v l h => ?_, ?_, ?_, ?_, ?_, ?_, ?_, kPut_other hc, kPut_ofMessages hof ?_⟩
  · rw [hcore]; exact (setV_lane_self _ vd ws l).trans (hlane l h)
  · rw [hcore]; exact setV_lane_other _ vd ws l (by simpa [← BitVec.toNat_inj] using h)
  · rw [hcore]; rfl
  · have hne : rVEC_OPS ≠ vecCounter e.insn ∧ rVEC_OPS ≠ vecCounter e.insn + 4 ∧ rVEC_OPS + 4 ≠ vecCounter e.insn := by
      unfold vecCounter; split <;> decide
    show pairAt (bump (bump (s.core c).regs rVEC_OPS 1) (vecCounter e.insn) 1) rVEC_OPS = _
    rw [pairAt_bump_other _ _ _ _ hne.1 hne.2.1 hne.2.2, pairAt_bump]
    rfl
  · rw [hcore]; rfl
  · rw [hcore]; rfl
  · rw [hcore]; rfl
  · rw [hcore]; rfl
  · rw [hcore]; rfl

/-- The lanes of a lane-wise operation. -/
theorem nth_lanes (ops : List (List Word)) (f : List Word → Word) {l : Nat} (h : l < 32) :
    nth 0 (lanes ops f).1 l = f (ops.map (fun o => nth 0 o l)) := nth_map_range _ _ h

/-- The lanes of an operation on each lane of one register. -/
theorem nth_map_vreg (k : Core) (v : VReg) (f : Word → Word) {l : Nat} (h : l < 32) : nth 0 ((k.vreg v).map f) l = f (k.lane v.toNat l) := by
  rw [Core.vreg, List.map_map, nth_map_range _ _ h]; rfl

/-- The lanes of a reduction. -/
theorem nth_reduce (f : Word → Word → Word) (ws : List Word) {l : Nat} (h : l < 32) :
    nth 0 (reduce f ws).1 l = if l = 0 then tree32 f ws else 0 := by
  cases l with
  | zero => rfl
  | succ l =>
    show nth 0 (List.replicate 31 0) l = _
    rw [nth_eq_getD, List.getD_replicate _ (show l < 31 by omega), if_neg (Nat.succ_ne_zero l)]

/-! ### Values of binary32 -/

theorem b32_nan (r : Rnd) : b32 r .nan = 0x7FC00000 := rfl

theorem fadd_nan_right (a : FVal) : fadd a .nan = .nan := by cases a <;> rfl
theorem fmul_nan_right (a : FVal) : fmul a .nan = .nan := by cases a <;> rfl

theorem fv_of_isNaN {a : Word} (h : isNaN a = true) : fv a = .nan := beq_iff_eq.1 h

/-- A NaN operand gives the canonical NaN (R84, R88). -/
theorem nan_operand {a b : Word} (h : isNaN a = true ∨ isNaN b = true) :
    add32 a b = 0x7FC00000 ∧ sub32 a b = 0x7FC00000 ∧ mul32 a b = 0x7FC00000 ∧ min32 a b = 0x7FC00000 ∧ max32 a b = 0x7FC00000 ∧
      less32 a b = false ∧ fma32 a b 0 = 0x7FC00000 ∧ fma32 0 a b = 0x7FC00000 := by
  rcases h with h | h
  · have hv := fv_of_isNaN h
    simp only [add32, sub32, mul32, fma32, min32, max32, less32, h, hv, fmul_nan_right]
    and_intros <;> trivial
  · have hv := fv_of_isNaN h
    simp only [add32, sub32, mul32, fma32, min32, max32, less32, h, hv, fmul_nan_right, fadd_nan_right, fneg, Bool.or_true, Bool.not_true,
      Bool.and_false, Bool.false_and]
    and_intros <;> trivial

theorem fadd_comm (x y : FVal) : fadd x y = fadd y x := by
  cases x with
  | nan => rw [fadd_nan_right]; rfl
  | inf s => cases y with
    | nan => rfl
    | inf t => cases s <;> cases t <;> rfl
    | fin t n g => rfl
  | fin s m e => cases y with
    | nan => rfl
    | inf t => rfl
    | fin t n g => simp only [fadd, min_comm e g, add_comm (sgn s m * _)]

theorem fmul_comm (x y : FVal) : fmul x y = fmul y x := by
  cases x with
  | nan => rw [fmul_nan_right]; rfl
  | inf s => cases y with
    | nan => rfl
    | inf t => cases s <;> cases t <;> rfl
    | fin t n g => cases s <;> cases t <;> rfl
  | fin s m e => cases y with
    | nan => rfl
    | inf t => cases s <;> cases t <;> rfl
    | fin t n g => simp only [fmul, Nat.mul_comm m n, add_comm e g, bne_comm (a := s)]

/-- A value less itself is +0 (R84, R87). -/
theorem b32_fadd_fneg (s : Bool) (m : Nat) (e : Int) : b32 .rne (fadd (.fin s m e) (fneg (.fin s m e))) = 0 := by
  have h : fadd (.fin s m e) (fneg (.fin s m e)) = .fin false 0 e := by
    cases s <;> simp [fadd, fneg, sgn]
  rw [h]
  simp [b32, Fmt.roundMag]

/-- The value of a binary32 word by its three fields (R78). -/
theorem fv_eq (a : Word) : fv a =
    if a.toNat / 2 ^ 23 % 2 ^ 8 = 255 then (if a.toNat % 2 ^ 23 = 0 then .inf (a.toNat / 2 ^ 31 % 2 == 1) else .nan)
    else if a.toNat / 2 ^ 23 % 2 ^ 8 = 0 then .fin (a.toNat / 2 ^ 31 % 2 == 1) (a.toNat % 2 ^ 23) (-149)
    else .fin (a.toNat / 2 ^ 31 % 2 == 1) (a.toNat % 2 ^ 23 + 2 ^ 23) (-149 + (a.toNat / 2 ^ 23 % 2 ^ 8 : Nat) - 1) := by
  simp [fv, Fmt.decode, Fmt.signW, Fmt.qmin, fB32]
  rfl

/-- A word whose value is an infinity is one of the two encodings of R78. -/
theorem isInf_of_fv {a : Word} {s : Bool} (h : fv a = .inf s) : isInf a = true := by
  have hlt := a.isLt
  rw [fv_eq] at h
  split_ifs at h with hex hman
  have : a.toNat = 0x7F800000 ∨ a.toNat = 0xFF800000 := by omega
  simpa [isInf, ← BitVec.toNat_inj] using this

/-- A finite word has an exact value. -/
theorem fv_of_finite {a : Word} (h : finite a = true) : ∃ s m e, fv a = .fin s m e := by
  simp only [finite, Bool.and_eq_true, Bool.not_eq_true'] at h
  cases hv : fv a with
  | nan => simp [isNaN, hv] at h
  | inf s => rw [isInf_of_fv hv] at h; simp at h
  | fin s m e => exact ⟨s, m, e, rfl⟩

/-- VNEG negates the value (R58, R87). -/
theorem fv_neg32 (a : Word) : fv (neg32 a) = fneg (fv a) := by
  have hx : (neg32 a).toNat = a.toNat ^^^ 2 ^ 31 := by simp [neg32]
  have hman : (a.toNat ^^^ 2 ^ 31) % 2 ^ 23 = a.toNat % 2 ^ 23 := by rw [Nat.xor_mod_two_pow]; simp
  have hex : (a.toNat ^^^ 2 ^ 31) / 2 ^ 23 % 2 ^ 8 = a.toNat / 2 ^ 23 % 2 ^ 8 := by rw [Nat.xor_div_two_pow, Nat.xor_mod_two_pow]; simp
  have hneg : ((a.toNat ^^^ 2 ^ 31) / 2 ^ 31 % 2 == 1) = !(a.toNat / 2 ^ 31 % 2 == 1) := by
    rw [Nat.xor_div_two_pow]
    generalize a.toNat / 2 ^ 31 = x
    rw [Nat.xor_mod_two_pow (n := 1), pow_one]
    rcases Nat.mod_two_eq_zero_or_one x with h | h <;> simp [h]
  rw [fv_eq, fv_eq, hx, hman, hex, hneg]
  split_ifs <;> rfl

/-- What VRCP, VRSQ, VEXP2 and VLOG2 give for the special values (R89). -/
theorem approximations_special (g : BitVec 384) :
    vrcp1 g 0 = 0x7F800000 ∧ vrcp1 g 0x80000000 = 0xFF800000 ∧ vrcp1 g 0x7F800000 = 0 ∧ vrsq1 g 0 = 0x7F800000 ∧
      vexp21 g 0xFF800000 = 0 ∧ vlog21 g 0 = 0xFF800000 ∧ vlog21 g 0x7F800000 = 0x7F800000 := by
  have h0 : fv 0#32 = .fin false 0 (-149) := by decide
  have hm : fv 0x80000000#32 = .fin true 0 (-149) := by decide
  have hi : fv 0x7F800000#32 = .inf false := by decide
  have hn : fv 0xFF800000#32 = .inf true := by decide
  simp [vrcp1, vrsq1, vexp21, vlog21, h0, hm, hi, hn]

/-! ### The obligation -/

/-- Settles O11. -/
theorem vectorResults : Obligations.VectorResults := by
  unfold Obligations.VectorResults
  refine ⟨fun s c e rest vd va vb vc sa hl hq hw ht => ?_, fun a b h => nan_operand h, fun a b => ⟨?_, ?_⟩, fun a h => ?_, by decide, by decide,
    fun g a h => ?_, approximations_special⟩
  · have run := fun (f : Nat → Word) hf ws nans => vecWrites_next (f := f) (vd := vd) hl hq hw ht hf ws nans
    have two := fun (op : Word → Word → Word) hf he => run (fun l => op ((s.core c).lane va.toNat l) ((s.core c).lane vb.toNat l)) hf
      (lanes [(s.core c).vreg va, (s.core c).vreg vb] (lane2 op)).1 (lanes [(s.core c).vreg va, (s.core c).vreg vb] (lane2 op)).2 he
      (fun l h => by rw [nth_lanes _ _ h]; simp only [lane2, nth, List.map, nth_vreg _ _ h])
    have one := fun (op : Word → Word) hf he => run (fun l => op ((s.core c).lane va.toNat l)) hf
      (lanes [(s.core c).vreg va] (fun ws => op (nth 0 ws 0))).1 (lanes [(s.core c).vreg va] (fun ws => op (nth 0 ws 0))).2 he
      (fun l h => by rw [nth_lanes _ _ h]; simp only [nth, List.map, nth_vreg _ _ h])
    have each := fun (f : Nat → Word) hf he => run f hf ((List.range 32).map f) [] he (fun l h => nth_map_range _ _ h)
    have whole := fun (op : Word → Word) hf he => run (fun l => op ((s.core c).lane va.toNat l)) hf (((s.core c).vreg va).map op) [] he
      (fun l h => nth_map_vreg _ _ _ h)
    have tree := fun (op : Word → Word → Word) hf he => run (fun l => if l = 0 then tree32 op ((s.core c).vreg va) else 0) hf
      (reduce op ((s.core c).vreg va)).1 (reduce op ((s.core c).vreg va)).2 he (fun l h => nth_reduce _ _ h)
    refine ⟨fun hi => two add32 (vecFirst_none hi nofun) (by simp only [K.vecEffect, hi]; rfl),
      fun hi => two sub32 (vecFirst_none hi nofun) (by simp only [K.vecEffect, hi]; rfl),
      fun hi => two mul32 (vecFirst_none hi nofun) (by simp only [K.vecEffect, hi]; rfl),
      fun hi => run _ (vecFirst_none hi nofun) _ _ (by simp only [K.vecEffect, hi]; rfl) (fun l h => by
        rw [nth_lanes _ _ h]; simp only [nth, List.map, nth_vreg _ _ h]; rfl),
      fun hi => two min32 (vecFirst_none hi nofun) (by simp only [K.vecEffect, hi]; rfl),
      fun hi => two max32 (vecFirst_none hi nofun) (by simp only [K.vecEffect, hi]; rfl),
      fun hi => whole abs32 (vecFirst_none hi nofun) (by simp only [K.vecEffect, hi]; rfl),
      fun hi => whole neg32 (vecFirst_none hi nofun) (by simp only [K.vecEffect, hi]; rfl),
      fun hi => each _ (vecFirst_none hi nofun) (by simp only [K.vecEffect, hi]; rfl),
      fun hi => each _ (vecFirst_none hi nofun) (by simp only [K.vecEffect, hi, ne_eq, ite_not]; rfl),
      fun hi => one (vrcp1 (kOf s c).image) (vecFirst_none hi nofun) (by simp only [K.vecEffect, hi]; rfl),
      fun hi => one (vrsq1 (kOf s c).image) (vecFirst_none hi nofun) (by simp only [K.vecEffect, hi]; rfl),
      fun hi => one (vexp21 (kOf s c).image) (vecFirst_none hi nofun) (by simp only [K.vecEffect, hi]; rfl),
      fun hi => one (vlog21 (kOf s c).image) (vecFirst_none hi nofun) (by simp only [K.vecEffect, hi]; rfl),
      fun hi => tree add32 (vecFirst_none hi nofun) (by simp only [K.vecEffect, hi]; rfl),
      fun hi => tree max32 (vecFirst_none hi nofun) (by simp only [K.vecEffect, hi]; rfl),
      fun hi => each _ (vecFirst_none hi nofun) (by simp only [K.vecEffect, hi]; rfl)⟩
  · rw [add32, fadd_comm]; rfl
  · rw [mul32, fmul_comm]; rfl
  · obtain ⟨s, m, e, hv⟩ := fv_of_finite h
    rw [sub32, add32, fv_neg32, hv]
    exact ⟨b32_fadd_fneg s m e, b32_fadd_fneg s m e⟩
  · simp only [vrcp1, vrsq1, vexp21, vlog21, fv_of_isNaN h]
    exact ⟨trivial, trivial, trivial, trivial⟩

end Sys2Proof.Machine
end

section
/-! SUPPORT. A VLD whose address is no multiple of 64 reads the line that holds it. -/

namespace Sys2Proof.Machine

/-! ### A VLD of an address within a line -/

/-- A queued VLD of v1 at offset 0x1001, its first line not yet read (R58). -/
def vldWithinLine : VecEntry :=
  { insn := .vld farCore 1 1 0, addr := 0x1001, line := 0, got := none, pc := 0, word := 0, tag := 0, num := 0 }

/-- The reset state with power, the VLD alone in the queue of one core, and the byte 1 at offset 0x1001 of its scratchpad. -/
def vldState : State :=
  { State.reset with
    bu := { BringUp.reset with power := true }
    cores := [(0, { Core.reset with vecQ := [vldWithinLine], mem := Mem.write [] 0x1001 1 })] }

/-- The low byte of the first line that the oldest vector instruction of a core has read. -/
def State.firstByte (s : State) (c : CoreId) : Option Byte :=
  ((s.core c).vecQ.head?.bind (·.got)).map (fun l => l.extractLsb' 0 8)

/-- The low byte of what the VLD has read, after a completion. -/
def completedByte (o : Host.Outcome State Fault Refusal) : Option Byte :=
  match o with
  | .next t => t.firstByte farCore
  | _ => none

/-- The line that holds offset 0x1001 begins at 0x1000, with a byte that is 0. -/
theorem vldState_completedByte : completedByte (exec (.vectorComplete farCore) vldState) = some 0 := by decide +kernel

/-- Refutes O12: the clause on the first line of a VLD does not ask for an address on a multiple of 64, as the one on the second line does.
Of the address 0x1001 the vector unit reads the line from 0x1000, where the statement has the 64 bytes from 0x1001. -/
theorem not_vectorMoves : ¬ Obligations.VectorMoves := by
  unfold Obligations.VectorMoves
  rintro ⟨-, h⟩
  obtain ⟨t, ht, hq, -⟩ := (h vldState farCore vldWithinLine [] 1 1 0 (by decide +kernel) rfl (by decide +kernel)).1 rfl rfl
    (by decide +kernel) (by decide +kernel)
  have hbyte := vldState_completedByte
  rw [ht] at hbyte
  simp only [completedByte, State.firstByte, hq] at hbyte
  exact absurd hbyte (by decide +kernel)

end Sys2Proof.Machine
end

section
/-! SUPPORT. Matrix instructions enter their queue, and a tile step reads its operands. -/

namespace Sys2Proof.Machine

/-! ### Steps that change one core and no more -/

/-- A step that changes the core and nothing it sends or signals leaves the rest of the block as it is. -/
theorem kPut_coresOnly {s : State} {c : CoreId} {k : Core} (hd : k.df = (s.core c).df) :
    kPut s { kOf s c with core := k } = { s with cores := (kPut s { kOf s c with core := k }).cores } := by
  have hslots : (kPut s { kOf s c with core := k }).slots = s.slots := freeLine_kept hd
  have hinj : (kPut s { kOf s c with core := k }).inj = s.inj := List.append_nil _
  conv_lhs => rw [kPut_ofCore rfl rfl rfl rfl rfl, hslots, hinj]

/-- A hold changes nothing but the sequencer (R18). -/
theorem kPut_hold (s : State) (c : CoreId) (cs : List Nat) : s.held (kPut s ((kOf s c).hold cs)) c cs :=
  ⟨kPut_coresOnly (k := { s.core c with seq := .stall, stallOn := cs }) rfl, kPut_core rfl, kPut_other rfl⟩

/-! ### Issue -/

/-- The configuration a matrix instruction takes along is that of its issue (R74, R106). -/
theorem matCfg_get (k : Core) {off : Nat} (h : off ∈ [rMX_ASTRIDE, rMX_BSTRIDE, rMX_MXCFG, rMX_RCFG]) :
    k.matCfg.get (coreReset off) off = k.reg off := by
  let p := fun (n : Nat) => n == rMX_ASTRIDE || n == rMX_BSTRIDE || n == rMX_MXCFG || n == rMX_RCFG || rMX_RLO ≤ n && n < 0x1700
  have hp : ∀ off ∈ [rMX_ASTRIDE, rMX_BSTRIDE, rMX_MXCFG, rMX_RCFG], p off = true := by decide
  exact (SMap.get_filter_key (coreReset off) k.regs p off).trans (by rw [hp off h, if_pos rfl]; rfl)

/-- A matrix instruction as it enters the queue of a core (R42, R52). -/
def Core.matEntry (k : Core) (i : Instr) (sa sb : SReg) : MatEntry :=
  { insn := i, sa := k.sreg sa, sb := k.sreg sb, cfg := k.matCfg, pc := k.pc, word := k.insnAt k.pc, tag := k.runTag, num := k.num }

/-- The core after a matrix instruction has entered the engine's queue (R42). -/
def Core.matQueued (k : Core) (e : MatEntry) : Core := { k with matQ := k.matQ ++ [e], num := k.num + 1 }

/-- A change of scalar registers alone. -/
def Core.SregsOnly (k k1 : Core) : Prop := k1 = { k with s := k1.s }

theorem setS_sregsOnly (k : Core) (d : SReg) (v : DWord) : k.SregsOnly (k.setS d v) := by
  unfold Core.setS
  split <;> exact rfl

theorem Core.SregsOnly.trans {a b c : Core} (h1 : a.SregsOnly b) (h2 : b.SregsOnly c) : a.SregsOnly c := by
  unfold Core.SregsOnly at h1 h2 ⊢
  rw [h1] at h2
  exact h2

/-- A matrix instruction enters the queue with the registers as they stand, and retires (R42, R52). -/
theorem matQueued_next {s : State} {c : CoreId} {i : Instr} {sa sb : SReg} {after : Core → Core} {regs : Core → Prop}
    {body : Nat → Word → K → K} (he : exec i s = issue c i s body)
    (hb : ∀ pc w, body pc w (kOf s c) = (kOf s c).matPush i sa sb pc w after)
    (ha : ∀ k : Core, k.SregsOnly (after k))
    (hr : ∀ k : Core, k.s = (after ((s.core c).matQueued ((s.core c).matEntry i sa sb))).s → regs k)
    (hi : s.issues c i) (hq : (s.core c).matQ.length < 4) :
    ∃ t : State, ∃ e, exec i s = .next t ∧ s.onlyCore t c ∧ (t.core c).matQ = (s.core c).matQ ++ [e] ∧ e.insn = i ∧
      e.sa = (s.core c).sreg sa ∧ e.sb = (s.core c).sreg sb ∧ e.pc = (s.core c).pc ∧ e.tag = (s.core c).runTag ∧
      (∀ off, off ∈ [rMX_ASTRIDE, rMX_BSTRIDE, rMX_MXCFG, rMX_RCFG] → e.reg off = (s.core c).reg off) ∧
      (s.core c).retired (t.core c) ((s.core c).pc + 1) [] ∧ regs (t.core c) ∧ (t.core c).acc = (s.core c).acc ∧
      (t.core c).mem = (s.core c).mem ∧ (t.core c).vregs = (s.core c).vregs := by
  have hk := ha ((s.core c).matQueued ((s.core c).matEntry i sa sb))
  generalize hk1 : after ((s.core c).matQueued ((s.core c).matEntry i sa sb)) = k1 at hk hr
  have hbody : body (s.core c).pc ((s.core c).insnAt (s.core c).pc) (kOf s c) = K.retire { kOf s c with core := k1 } ((s.core c).pc + 1) := by
    have hpc : k1.pc = (s.core c).pc := by rw [hk]; rfl
    rw [hb, K.matPush, if_neg (by simpa using hq)]
    show K.retire { kOf s c with core := after ((s.core c).matQueued ((s.core c).matEntry i sa sb)) }
      ((after ((s.core c).matQueued ((s.core c).matEntry i sa sb))).pc + 1) = _
    rw [hk1, hpc]
  refine ⟨_, (s.core c).matEntry i sa sb, (he.trans (issue_of_issues hi)).trans (by rw [hbody]), ?_, ?_⟩
  · exact kPut_onlyCore rfl rfl rfl rfl rfl rfl rfl rfl rfl rfl (by show k1.df = _; rw [hk]; rfl)
  · rw [kPut_core (show K.c _ = c from rfl), retire_core_eq]
    have hf : k1.matQ = (s.core c).matQ ++ [(s.core c).matEntry i sa sb] ∧ k1.acc = (s.core c).acc ∧ k1.mem = (s.core c).mem ∧
        k1.vregs = (s.core c).vregs ∧ k1.regs = (s.core c).regs := by rw [hk]; exact ⟨rfl, rfl, rfl, rfl, rfl⟩
    obtain ⟨hmq, hacc, hmem, hv, hregs⟩ := hf
    exact ⟨hmq, rfl, rfl, rfl, rfl, rfl, fun off ho => matCfg_get _ ho,
      Core.retired_retireAt (by decide) (fun _ _ => by rw [hregs]), hr _ rfl, hacc, hmem, hv⟩

theorem sreg_congr {k k1 : Core} (h : k1.s = k.s) (r : SReg) : k1.sreg r = k.sreg r := by rw [Core.sreg, Core.sreg, h]

/-- INC adds 64 to both address registers (R52, log entry 19). -/
theorem sreg_inc (k : Core) {sa sb : SReg} (h : sa ≠ sb) (r : SReg) :
    ((k.setS sa (k.sreg sa + 64)).setS sb (k.sreg sb + 64)).sreg r =
      if r = 0 then 0 else if r = sa ∨ r = sb then k.sreg r + 64 else k.sreg r := by
  rw [setS_sregs _ sb _ r, setS_sregs k sa _ r]
  by_cases h0 : r = 0
  · simp [h0]
  · by_cases hb : r = sb <;> by_cases ha : r = sa <;> simp_all

/-! ### A tile step begins -/

/-- Clean lines that nothing refuses are read as they stand (R51, R112). -/
theorem matLines_clean {k : K} {offs : List Nat} (h : ∀ o ∈ offs, k.core.refusal false o = none ∧ k.core.cleanLine o = true)
    (hal : ∀ o ∈ offs, o % 64 = 0) : k.matLines offs = (k, offs.map (Mem.readLine k.core.mem)) := by
  have hread : ∀ (ls : List Line), offs.foldl (fun a off =>
      let r := K.readLine a.1 agMX none off
      (r.1, a.2 ++ [if r.2.2 = .refused then 0 else r.2.1])) (k, ls) = (k, ls ++ offs.map (Mem.readLine k.core.mem)) := by
    induction offs with
    | nil => exact fun ls => congrArg (k, ·) (List.append_nil ls).symm
    | cons o t ih =>
      intro ls
      obtain ⟨⟨hr, hc⟩, ht⟩ := List.forall_mem_cons.1 h
      have ho : o / 64 * 64 = o := Nat.div_mul_cancel (Nat.dvd_of_mod_eq_zero (hal o (by simp)))
      rw [List.foldl_cons, readLine_clean hr (ho.symm ▸ hc), ho]
      exact (ih ht (fun o' h' => hal o' (by simp [h'])) (ls ++ [Mem.readLine k.core.mem o])).trans (by rw [List.append_assoc]; rfl)
  exact hread []

/-- A row of a tile begins at a line when its base does (R51). -/
theorem row_aligned {ad : DWord} (i n : Nat) (h : ad.toNat % 64 = 0) : (addrOff40 ad + i * (n * 64)) % 64 = 0 := by
  have : addrOff40 ad = ad.toNat % 2 ^ 40 := by simp [addrOff40, field]
  rw [this, ← Nat.mul_assoc]
  omega

theorem mmaClass_lt (fmt : Nat) : mmaClass fmt < 16 := by
  unfold mmaClass
  split_ifs <;> decide

/-- A step as it begins, with the operand lines of rows and columns (R51, R54). -/
def MatEntry.stepStart (e : MatEntry) (m : Mem) (cols : List Nat) : MmaStep :=
  { entry := e, issued := 0, a := e.rows.map (Mem.readLine m), b := cols.map (Mem.readLine m), aScale := 0, bScale := 0 }

/-- The core once a step has begun (R54, R56). -/
def Core.stepBegun (k : Core) (st : MmaStep) (fmt : Nat) : Core :=
  { k with steps := k.steps ++ [st], lastClass := BitVec.ofNat 4 (mmaClass fmt) }

/-- A step whose operands and tags the rules allow begins with their lines (R51, R53, R54). -/
theorem stepBegin_eq {k : K} {e : MatEntry} {fmt : BitVec 4} {acc : BitVec 2} {f : MmaFmt} {cols : List Nat} (hf : mmaFmt fmt.toNat = some f)
    (hs : f.scaled = false) (hpa : insidePad k.c e.sa (15 * e.aStep) = true) (hpb : insidePad k.c e.sb (7 * e.bStep) = true)
    (haa : e.sa.toNat % 64 = 0) (hab : e.sb.toNat % 64 = 0) (hsa : e.aStep ≠ 0) (hsb : e.bStep ≠ 0) (hodd : oddPair acc (fmt == 13) = false)
    (htag : ∀ n ∈ k.core.matAccs e, (k.core.accAt n).tag = mmaTag fmt.toNat)
    (hcols : cols = (List.range 8).map (fun j => addrOff40 e.sb + j * e.bStep))
    (hl : ∀ o ∈ e.rows ++ cols, k.core.refusal false o = none ∧ k.core.cleanLine o = true) :
    k.stepBegin e fmt acc = { k with core := k.core.stepBegun (e.stepStart k.core.mem cols) fmt.toNat } := by
  have ht : (k.core.matAccs e).any (fun n => (k.core.accAt n).tag != mmaTag fmt.toNat) = false := by
    simp only [List.any_eq_false]; intro n hn; simp [htag n hn]
  have hrows := matLines_clean (k := k) (offs := e.rows) (fun o ho => hl o (by simp [ho])) (fun o ho => by
    obtain ⟨i, -, rfl⟩ := List.mem_map.1 ho; exact row_aligned i _ haa)
  have hcolsr := matLines_clean (k := k) (offs := cols) (fun o ho => hl o (by simp [ho])) (fun o ho => by
    obtain ⟨i, -, rfl⟩ := List.mem_map.1 (hcols ▸ ho); exact row_aligned i _ hab)
  rw [K.stepBegin, hf]
  simp only [hs, hpa, hpb, aligned_of_mod haa, aligned_of_mod hab, hsa, hsb, hodd, ht, hrows, ← hcols, hcolsr, Bool.not_true,
    Bool.false_eq_true, decide_false, Bool.or_self, if_false]
  rfl

/-- Settles O13. -/
theorem matrixIssueAndReads : Obligations.MatrixIssueAndReads := by
  unfold Obligations.MatrixIssueAndReads
  refine ⟨fun s c sa sb fmt acc inc => ?_, fun s c e rest sa sb fmt acc inc f => ?_⟩
  · intro k hfree queued
    have hfa : s.free c [sa] := fun r hr => hfree r (by simp_all)
    have kept := fun (i : Instr) (k1 : Core) (h : k1.s = ((s.core c).matQueued ((s.core c).matEntry i sa sb)).s) (r : SReg) =>
      (sreg_congr h r : k1.sreg r = (s.core c).sreg r)
    refine ⟨?_, fun hne => ?_, ?_, ?_, ?_, fun hq hs => ?_, fun hi hne => ?_, fun hi => ?_⟩
    · exact matQueued_next (after := fun k => k) rfl (fun pc w => whenReady_of_free hfree (fun _ h => h) _) (fun _ => rfl) (kept _)
    · refine matQueued_next (after := fun r => (r.setS sa (k.sreg sa + 64)).setS sb (k.sreg sb + 64))
        (regs := fun k' => ∀ r : SReg, k'.sreg r = if r = 0 then 0 else if r = sa ∨ r = sb then k.sreg r + 64 else k.sreg r) rfl
        (fun pc w => whenReady_of_free hfree (fun _ h => h) _) (fun _ => (setS_sregsOnly _ _ _).trans (setS_sregsOnly _ _ _)) (fun k1 h r => ?_)
      exact (sreg_congr h r).trans (sreg_inc ((s.core c).matQueued ((s.core c).matEntry (.mma c sa sb fmt acc true) sa sb)) hne r)
    · exact matQueued_next (after := fun k => k) rfl (fun pc w => rfl) (fun _ => rfl) (kept _)
    · exact matQueued_next (after := fun k => k) rfl (fun pc w => whenReady_of_free hfa (fun _ h => h) _) (fun _ => rfl) (kept _)
    · exact matQueued_next (after := fun k => k) rfl (fun pc w => whenReady_of_free hfa (fun _ h => h) _) (fun _ => rfl) (kept _)
    · refine computes_of_body (i := .msync c sa sb fmt acc false) rfl (fun w => ?_)
      have h1 : (kOf s c).core.matQ = [] := hq
      have h2 : (kOf s c).core.steps = [] := hs
      simp only [Bool.false_eq_true, if_false, h1, h2]
      rfl
    · have hb : ((s.core c).matQ.isEmpty && (s.core c).steps.isEmpty) = false := by
        rcases hne with h | h
        · rw [List.isEmpty_eq_false_iff.2 h, Bool.false_and]
        · rw [List.isEmpty_eq_false_iff.2 h, Bool.and_false]
      refine ⟨_, issue_of_issues hi, ?_⟩
      simp only [kOf_core, hb, Bool.false_eq_true, if_false, K.stallMx]
      cases (s.core c).running <;> exact kPut_hold s c _
    · exact issue_faults (i := .msync c sa sb fmt acc true) rfl hi (by decide) rfl
  · intro k cols hl hq hi hf hs hfree hwait hheld hhaz hpa hpb haa hab hsa hsb hodd htag hlines
    have hex : exec (.mmaStepBegin c) s = .next (kPut s (K.stepBegin { kOf s c with core := { s.core c with matQ := rest } } e fmt acc)) := by
      show execMmaStepBegin c s = _
      have hq' : (kOf s c).core.matQ = e :: rest := hq
      simp only [execMmaStepBegin, onLive_of_alive hl, hq', hi]
      simp only [show (kOf s c).core.mxFree = true from hfree, show (kOf s c).core.accWaitMat e = false from hwait,
        show (kOf s c).core.anyHeld e.reads = false from hheld, show (kOf s c).core.hazard e.num e.reads [] = false from hhaz,
        Bool.not_true, Bool.or_self, Bool.false_eq_true, if_false]
      rfl
    rw [stepBegin_eq (k := { kOf s c with core := { s.core c with matQ := rest } }) hf hs hpa hpb haa hab hsa hsb hodd htag
      (cols := cols) rfl hlines] at hex
    let k1 : Core := ({ s.core c with matQ := rest } : Core).stepBegun (e.stepStart k.mem cols) fmt.toNat
    have hk : (kPut s { kOf s c with core := k1 }).core c = k1 := kPut_core rfl
    refine ⟨_, e.stepStart k.mem cols, hex, ?_⟩
    rw [show State.core (kPut s _) c = k1 from hk]
    exact ⟨rfl, rfl, rfl, rfl, rfl, rfl, by simp [k1, Core.stepBegun, Nat.mod_eq_of_lt (mmaClass_lt _)], rfl, rfl, rfl, rfl,
      kPut_coresOnly rfl, kPut_other rfl⟩

end Sys2Proof.Machine
end

section
/-! SUPPORT. MZERO, MLDA and MST: an accumulator zeroed, loaded from rows, and handed to the banks of its rows. -/

namespace Sys2Proof.Machine

/-! ### Writes handed to the banks -/

/-- The core with further writes on their way to their banks (R128). -/
def Core.linesQueued (k : Core) (ws : List LineWr) : Core := { k with lineWr := k.lineWr ++ ws }

theorem Core.linesQueued_append (k : Core) (a b : List LineWr) : (k.linesQueued a).linesQueued b = k.linesQueued (a ++ b) := by
  simp [Core.linesQueued]

theorem Core.linesQueued_nil (k : Core) : k.linesQueued [] = k := by simp [Core.linesQueued]

@[simp] theorem Core.linesQueued_reg (k : Core) (ws : List LineWr) (off : Nat) : (k.linesQueued ws).reg off = k.reg off := rfl

/-- Bytes that nothing refuses are left for a later cycle of their bank (R112, R128). -/
theorem queueBytes_accepted {k : K} {off : Nat} (agent num : Nat) (bs : List Byte) (h : k.core.refusal true off = none) :
    k.queueBytes agent num off bs =
      ({ k with core := k.core.linesQueued [{ agent := agent, off := off, bytes := bs, num := num }] }, true) := by
  rw [K.queueBytes, h]; rfl

/-! ### Bytes of a row of elements -/

/-- Equal blocks listed one after the other are one list. -/
theorem flatMap_range_blocks {α : Type} (g : Nat → Nat → α) (m : Nat) {n : Nat} (h : 0 < n) :
    (List.range m).flatMap (fun j => (List.range n).map (g j)) = (List.range (m * n)).map (fun b => g (b / n) (b % n)) := by
  induction m with
  | zero => simp
  | succ m ih =>
    have hlast : (List.range n).map (g m) = (List.range n).map (fun b => g ((m * n + b) / n) ((m * n + b) % n)) := by
      refine List.map_congr_left (fun b hb => ?_)
      have hb' : b < n := List.mem_range.1 hb
      have hd : (m * n + b) / n = m := by rw [Nat.mul_comm, Nat.mul_add_div h, Nat.div_eq_of_lt hb', Nat.add_zero]
      have hm : (m * n + b) % n = b := by rw [Nat.mul_comm, Nat.mul_add_mod, Nat.mod_eq_of_lt hb']
      rw [hd, hm]
    rw [List.range_succ, List.flatMap_append, ih, Nat.succ_mul, List.range_add, List.map_append, List.map_map, List.flatMap_singleton, hlast]
    rfl

/-- The bytes of a number one by one (R11). -/
theorem leBytes_eq_map (n v : Nat) : leBytes n v = (List.range n).map (fun i => BitVec.ofNat 8 (v / 256 ^ i)) := by
  induction n generalizing v with
  | zero => rfl
  | succ n ih =>
    rw [leBytes, ih, List.range_succ_eq_map, List.map_cons, List.map_map, Nat.pow_zero, Nat.div_one]
    refine congrArg _ (List.map_congr_left (fun i _ => ?_))
    rw [Nat.div_div_eq_div_mul, Function.comp_apply, Nat.pow_succ, Nat.mul_comm]

theorem storeBytesOf_pos (fmt : Nat) : 0 < storeBytesOf fmt := by unfold storeBytesOf; split <;> decide

theorem storeBytesOf_le (fmt : Nat) : storeBytesOf fmt ≤ 8 := by unfold storeBytesOf; split <;> decide

/-- An element of a row as the line of an aligned row holds it (R52, R86). -/
theorem rowElem_readLine (m : Mem) {off row j : Nat} (fmt : Nat) (hoff : off % 64 = 0) (hj : j < 8) :
    rowElem (Mem.readLine m row) off fmt j = Mem.readN m (row + storeBytesOf fmt * j) (storeBytesOf fmt) := by
  have hn := storeBytesOf_le fmt
  have hfit : storeBytesOf fmt * j + storeBytesOf fmt ≤ 64 := by
    calc storeBytesOf fmt * j + storeBytesOf fmt ≤ storeBytesOf fmt * 7 + storeBytesOf fmt := by gcongr; omega
      _ ≤ 64 := by omega
  have h1 := Mem.readN_part m row (storeBytesOf fmt * j) (storeBytesOf fmt) (64 - (storeBytesOf fmt * j + storeBytesOf fmt))
  rw [show storeBytesOf fmt * j + storeBytesOf fmt + (64 - (storeBytesOf fmt * j + storeBytesOf fmt)) = 64 by omega] at h1
  rw [rowElem, hoff, Nat.zero_add, Mem.readLine_toNat, ← pow256, ← pow256, h1]

/-- A core whose engine has taken the head of its queue. -/
def Core.matTaken (k : Core) (rest : List MatEntry) : Core := { k with matQ := rest }

/-! ### MZERO -/

/-- MZERO of a store format (R52, R53). -/
theorem mzeroExecute_next {s : State} {c : CoreId} {e : MatEntry} {rest : List MatEntry} {sa sb : SReg} {fmt : BitVec 4} {acc : BitVec 2}
    (hl : s.alive c = true) (hq : (s.core c).matQ = e :: rest) (hw : (s.core c).headWaits e = false) (hf : fmt.toNat < 8)
    (hodd : oddPair acc (fmt == 7) = false) (he : e.insn = .mzero c sa sb fmt acc false) :
    exec (.mzeroExecute c) s = .next (kPut s { kOf s c with core := { s.core c with
      matQ := rest
      acc := (if fmt == 7 then [acc.toNat, acc.toNat + 1] else [acc.toNat]).foldl
        (fun m n => SMap.set m n (zeroAcc (storeTag fmt.toNat))) (s.core c).acc } }) := by
  have hm (k : Core) : k.matAccs e = if fmt == 7 then [acc.toNat, acc.toNat + 1] else [acc.toNat] := by rw [Core.matAccs, he]
  show execMzeroExecute c s = _
  simp only [execMzeroExecute, onLive_of_alive hl, kOf_core, hq, he, hw, hodd, hm, show ¬ 8 ≤ fmt.toNat by omega, decide_false,
    Bool.or_self, Bool.false_eq_true, if_false]

/-- The accumulators after MZERO (R52). -/
theorem get_zeroed (m : SMap Acc) (a : Acc) (fmt : BitVec 4) (n i : Nat) :
    SMap.get Acc.reset ((if fmt == 7 then [n, n + 1] else [n]).foldl (fun m j => SMap.set m j a) m) i =
      if i = n ∨ (fmt = 7 ∧ i = n + 1) then a else SMap.get Acc.reset m i := by
  by_cases hf : fmt = 7
  · rw [show (fmt == 7) = true by simp [hf], if_pos rfl]
    by_cases h1 : i = n + 1 <;> by_cases h0 : i = n <;> simp [hf, SMap.get_set, h1, h0]
  · rw [show (fmt == 7) = false by simpa using hf, if_neg Bool.false_ne_true]
    by_cases h0 : i = n <;> simp_all [SMap.get_set]

/-! ### One accumulator -/

/-- A core with one accumulator written. -/
def Core.setAcc (k : Core) (n : Nat) (a : Acc) : Core := { k with acc := k.acc.set n a }

theorem Core.accAt_setAcc_self (k : Core) (n : Nat) (a : Acc) : (k.setAcc n a).accAt n = a := SMap.get_set_self _ _ _ _

theorem Core.accAt_setAcc_other (k : Core) {n m : Nat} (a : Acc) (h : m ≠ n) : (k.setAcc n a).accAt m = k.accAt m :=
  SMap.get_set_other _ _ _ _ _ h

/-! ### MLDA -/

/-- An accumulator with the checksum state that matches its elements, where it is no half of a pair (R101). -/
def Core.matchedAcc (k : Core) (n : Nat) : Acc :=
  (k.accAt n).matched (fun i j => elemVal (k.accAt n).tag ((k.accAt n).elem i j) ((k.accAt (n + 1)).elem i j))
    (fun i j => ((k.accAt n).elem i j).toInt)

/-- A write of a tile that is no pair sets the checksum state of its own accumulator (R101). -/
theorem rematch_single {k : Core} {n : Nat} (h : (k.accAt n).tag ≠ .pair) : k.rematch n = k.setAcc n (k.matchedAcc n) := by
  simp only [Core.rematch, if_neg h]
  rfl

/-- A core with a tile loaded and the checksum state set to match (R52, R101). -/
def Core.accLoaded (k : Core) (n : Nat) (a : Acc) : Core := (k.setAcc n a).setAcc n ((k.setAcc n a).matchedAcc n)

theorem accLoaded_self (k : Core) (n : Nat) (a : Acc) : ((k.accLoaded n a).accAt n).tag = a.tag ∧ ((k.accLoaded n a).accAt n).elems = a.elems := by
  rw [Core.accLoaded, Core.accAt_setAcc_self, Core.matchedAcc, Core.accAt_setAcc_self]
  exact ⟨rfl, rfl⟩

theorem accLoaded_other (k : Core) {n m : Nat} (a : Acc) (h : m ≠ n) : (k.accLoaded n a).accAt m = k.accAt m := by
  rw [Core.accLoaded, Core.accAt_setAcc_other _ _ h, Core.accAt_setAcc_other _ _ h]

/-- The accumulator that MLDA fills in a format that is no pair (R52, R86). -/
def loadedAcc (fmt : Nat) (off : Nat) (ls : List Line) : Acc :=
  { zeroAcc (storeTag fmt) with
    elems := elemsOf ((List.range 128).map (fun m => fromStore fmt (rowElem (nth 0 ls (m / 8)) off fmt (m % 8)))) }

theorem loadedAcc_elem {fmt off i j : Nat} (ls : List Line) (hi : i < 16) (hj : j < 8) :
    (loadedAcc fmt off ls).elem i j = fromStore fmt (rowElem (nth 0 ls i) off fmt j) := by
  have h := get_elemsOf ((List.range 128).map (fun m => fromStore fmt (rowElem (nth 0 ls (m / 8)) off fmt (m % 8)))) (8 * i + j)
  rw [nth_map_range _ _ (by omega), show (8 * i + j) / 8 = i by omega, show (8 * i + j) % 8 = j by omega] at h
  exact h

theorem storeTag_single {fmt : Nat} (h : fmt < 7) : storeTag fmt ≠ .pair := by
  unfold storeTag
  interval_cases fmt <;> decide

/-- A tile loaded from clean lines, in a format that is no pair (R52, R86). -/
theorem tileLoad_single {k : K} {e : MatEntry} {fmt : Nat} (n : Nat) {a : Acc} (hf : fmt < 7) (ha : e.sa.toNat % 64 = 0)
    (hl : ∀ o ∈ e.rows, k.core.refusal false o = none ∧ k.core.cleanLine o = true)
    (hacc : a = loadedAcc fmt (addrOff40 e.sa) (e.rows.map (Mem.readLine k.core.mem))) :
    k.tileLoad e fmt n = { k with core := k.core.accLoaded n a } := by
  have hrows := matLines_clean hl (fun o ho => by obtain ⟨i, -, rfl⟩ := List.mem_map.1 ho; exact row_aligned i _ ha)
  have hm : (k.core.setAcc n a).rematch n = (k.core.setAcc n a).setAcc n ((k.core.setAcc n a).matchedAcc n) :=
    rematch_single (by rw [Core.accAt_setAcc_self, hacc]; exact storeTag_single hf)
  rw [Core.accLoaded, ← hm, hacc, K.tileLoad, hrows]
  simp only [show fmt ≠ 7 by omega, if_false]
  rfl

/-- MLDA of clean rows in a format that is no pair (R52, R86). -/
theorem mldaExecute_next {s : State} {c : CoreId} {e : MatEntry} {rest : List MatEntry} {sa sb : SReg} {fmt : BitVec 4} {acc : BitVec 2}
    {a : Acc} (hl : s.alive c = true) (hq : (s.core c).matQ = e :: rest) (hw : (s.core c).headWaits e = false) (hf : fmt.toNat < 7)
    (hodd : oddPair acc (fmt == 7) = false) (he : e.insn = .mlda c sa sb fmt acc false) (hheld : (s.core c).anyHeld e.reads = false)
    (hhaz : (s.core c).hazard e.num e.reads [] = false) (hstep : e.aStep ≠ 0) (hpad : insidePad c e.sa (15 * e.aStep) = true)
    (hal : e.sa.toNat % 64 = 0) (hlines : ∀ o ∈ e.rows, (s.core c).refusal false o = none ∧ (s.core c).cleanLine o = true)
    (hacc : a = loadedAcc fmt.toNat (addrOff40 e.sa) (e.rows.map (Mem.readLine (s.core c).mem))) :
    exec (.mldaExecute c) s = .next (kPut s { kOf s c with core := ((s.core c).matTaken rest).accLoaded acc.toNat a }) := by
  show execMldaExecute c s = _
  simp only [execMldaExecute, onLive_of_alive hl, kOf_core, kOf_c, hq, he, hw, hheld, hhaz, hstep, hodd, hpad, aligned_of_mod hal,
    show ¬ 8 ≤ fmt.toNat by omega, decide_false, Bool.or_self, Bool.not_true, Bool.false_eq_true, if_false]
  exact congrArg (fun k => Host.Outcome.next (kPut s k)) (tileLoad_single (k := { kOf s c with core := (s.core c).matTaken rest }) acc.toNat hf hal hlines hacc)

/-! ### MST -/

/-- The bytes of row i of a tile, element by element (R11, R52). -/
def rowBytes (fmt : Nat) (conv : Nat → Conv) (i : Nat) : List Byte :=
  (List.range (8 * storeBytesOf fmt)).map (fun b =>
    BitVec.ofNat 8 ((conv (8 * i + b / storeBytesOf fmt)).bits / 256 ^ (b % storeBytesOf fmt)))

/-- The write of one row of a tile (R52, R128). -/
def MatEntry.rowWrite (e : MatEntry) (fmt : Nat) (conv : Nat → Conv) (i : Nat) : LineWr :=
  { agent := agMX, off := addrOff40 e.sa + i * e.aStep, bytes := rowBytes fmt conv i, num := e.num }

theorem flatMap_leBytes (fmt : Nat) (conv : Nat → Conv) {i : Nat} (hi : i < 16) :
    (List.range 8).flatMap (fun j => leBytes (storeBytesOf fmt)
      (nth { bits := 0, nan := false, carried := false } ((List.range 128).map conv) (8 * i + j)).bits) = rowBytes fmt conv i := by
  rw [rowBytes, ← flatMap_range_blocks (fun j b => BitVec.ofNat 8 ((conv (8 * i + j)).bits / 256 ^ b)) 8 (storeBytesOf_pos fmt)]
  refine List.flatMap_congr (fun j hj => ?_)
  have hj' : j < 8 := List.mem_range.1 hj
  rw [nth_map_range _ _ (by omega), leBytes_eq_map]

/-- Rows that nothing refuses go on their way to their banks one after the other (R52, R128). -/
theorem tileStore_accepted {k : K} {e : MatEntry} (fmt : Nat) (conv : Nat → Conv)
    (h : ∀ i, i < 16 → k.core.refusal true (addrOff40 e.sa + i * e.aStep) = none) :
    k.tileStore e fmt ((List.range 128).map conv) =
      { k with core := k.core.linesQueued ((List.range 16).map (e.rowWrite fmt conv)) } := by
  have hfold : ∀ (is : List Nat) (ws : List LineWr), (∀ i ∈ is, i < 16) →
      is.foldl (fun a i =>
        let bytes := (List.range 8).flatMap (fun j => leBytes (storeBytesOf fmt)
          (nth { bits := 0, nan := false, carried := false } ((List.range 128).map conv) (8 * i + j)).bits)
        (K.queueBytes a agMX e.num (addrOff40 e.sa + i * e.aStep) bytes).1) { k with core := k.core.linesQueued ws } =
      { k with core := k.core.linesQueued (ws ++ is.map (e.rowWrite fmt conv)) } := by
    intro is
    induction is with
    | nil => intro ws _; rw [List.map_nil, List.append_nil]; rfl
    | cons i t ih =>
      intro ws hi
      have hi16 : i < 16 := hi i (by simp)
      rw [List.foldl_cons]
      dsimp only
      rw [flatMap_leBytes fmt conv hi16,
        queueBytes_accepted (k := { k with core := k.core.linesQueued ws }) agMX e.num (rowBytes fmt conv i) (h i hi16)]
      dsimp only
      rw [Core.linesQueued_append]
      exact (ih (ws ++ [e.rowWrite fmt conv i]) (fun j hj => hi j (by simp [hj]))).trans (by rw [List.append_assoc]; rfl)
  have h0 := hfold (List.range 16) [] (fun i => List.mem_range.1)
  rw [Core.linesQueued_nil, List.nil_append] at h0
  exact h0

theorem nth_replicate {α : Type} (a : α) (n m : Nat) : nth a (List.replicate n a) m = a := by
  rw [nth_eq_getD, List.getD_eq_getElem?_getD, List.getElem?_replicate]
  split <;> rfl

/-- Without stochastic rounding every element rounds to nearest-even, and the generator stays (R90). -/
theorem roundings_rne {k : Core} (n : Nat) (h : k.stochastic = false) : k.roundings n = (k.rng, List.replicate n .rne) := by
  rw [Core.roundings, h]; rfl

/-- MST without checks, of a tile that gives no NaN (R52, R86). -/
theorem mstEffect_plain {k : K} {e : MatEntry} {fmt n : Nat} {conv : Nat → Conv}
    (hc : conv = (k.core.tile n).convert fmt .rne k.core.satFp8) (hs : k.core.stochastic = false)
    (hn : ∀ m, m < 128 → (conv m).nan = false) (h2 : (k.core.reg rMX_CTRL).getLsbD 2 = false)
    (h3 : (k.core.reg rMX_CTRL).getLsbD 3 = false)
    (h : ∀ i, i < 16 → k.core.refusal true (addrOff40 e.sa + i * e.aStep) = none) :
    k.mstEffect e fmt n = { k with core := k.core.linesQueued ((List.range 16).map (e.rowWrite fmt conv)) } := by
  have hcs : (List.range 128).map (fun m => (k.core.tile n).convert fmt (nth .rne (List.replicate 128 .rne) m) k.core.satFp8 m) =
      (List.range 128).map conv := by
    refine List.map_congr_left (fun m hm => ?_)
    rw [nth_replicate, hc]
  have hnans : (List.range 128).filterMap (fun m =>
      let c := nth { bits := 0, nan := false, carried := false } ((List.range 128).map conv) m
      if c.nan then some (m, c.carried) else none) = [] := by
    refine List.filterMap_eq_nil_iff.2 (fun m hm => ?_)
    have hm' : m < 128 := List.mem_range.1 hm
    dsimp only
    rw [nth_map_range _ _ hm', hn m hm']
    rfl
  rw [K.mstEffect]
  simp only [roundings_rne 128 hs, hcs, hnans, K.settle]
  rw [tileStore_accepted (k := k) fmt conv h]
  simp only [Core.linesQueued_reg, h2, h3, Bool.false_eq_true, if_false]

/-- MST of a tile that is no pair, without checks or produced NaN (R52, R86). -/
theorem mstExecute_next {s : State} {c : CoreId} {e : MatEntry} {rest : List MatEntry} {sa sb : SReg} {fmt : BitVec 4} {acc : BitVec 2}
    {conv : Nat → Conv} (hl : s.alive c = true) (hq : (s.core c).matQ = e :: rest) (hw : (s.core c).headWaits e = false)
    (he : e.insn = .mst c sa sb fmt acc false) (hheld : (s.core c).anyHeld e.writes = false)
    (hhaz : (s.core c).hazard e.num [] e.writes = false) (hf : fmt.toNat < 7) (htag : ((s.core c).accAt acc.toNat).tag ≠ .pair)
    (hstep : e.aStep ≠ 0) (hpad : insidePad c e.sa (15 * e.aStep) = true) (hal : e.sa.toNat % 64 = 0) (hs : (s.core c).stochastic = false)
    (hconv : conv = ((s.core c).tile acc.toNat).convert fmt.toNat .rne (s.core c).satFp8) (hn : ∀ m, m < 128 → (conv m).nan = false)
    (h2 : ((s.core c).reg rMX_CTRL).getLsbD 2 = false) (h3 : ((s.core c).reg rMX_CTRL).getLsbD 3 = false)
    (h : ∀ i, i < 16 → (s.core c).refusal true (addrOff40 e.sa + i * e.aStep) = none) :
    exec (.mstExecute c) s = .next (kPut s { kOf s c with
      core := ((s.core c).matTaken rest).linesQueued ((List.range 16).map (e.rowWrite fmt.toNat conv)) }) := by
  have h7 : (fmt == 7) = false := by
    rw [beq_eq_false_iff_ne]
    rintro rfl
    exact absurd hf (by decide)
  show execMstExecute c s = _
  simp only [execMstExecute, onLive_of_alive hl, kOf_core, kOf_c, hq, he, hw, hheld, hhaz, htag, hstep, hpad, h7, oddPair, aligned_of_mod hal,
    show ¬ 8 ≤ fmt.toNat by omega, decide_false, Bool.or_self, Bool.not_true, Bool.false_eq_true, if_false, Bool.false_and, bne_self_eq_false]
  exact congrArg (fun k => Host.Outcome.next (kPut s k))
    (mstEffect_plain (k := { kOf s c with core := (s.core c).matTaken rest }) hconv hs hn h2 h3 h)

/-- Settles O15. -/
theorem accumulatorMoves : Obligations.AccumulatorMoves := by
  unfold Obligations.AccumulatorMoves
  refine ⟨fun s c e rest sa sb fmt acc => ?_, fun s c e rest sa sb fmt acc => ?_⟩
  · intro k hl hq hw hf hodd
    refine ⟨fun he => ⟨_, mzeroExecute_next hl hq hw hf hodd he, ?_⟩, fun he hheld hhaz hstep hpad hal h7 hlines => ?_⟩
    · rw [kPut_core (show K.c _ = c from rfl)]
      exact ⟨rfl, get_zeroed _ _ _ _, rfl, rfl, rfl, kPut_other rfl⟩
    · have hf7 : fmt.toNat < 7 := by
        have : fmt.toNat ≠ 7 := fun h => h7 (BitVec.eq_of_toNat_eq h)
        omega
      refine ⟨_, mldaExecute_next hl hq hw hf7 hodd he hheld hhaz hstep hpad hal hlines rfl, ?_⟩
      rw [kPut_core (show K.c _ = c from rfl)]
      obtain ⟨htag, helems⟩ := accLoaded_self ((s.core c).matTaken rest) acc.toNat
        (loadedAcc fmt.toNat (addrOff40 e.sa) (e.rows.map (Mem.readLine (s.core c).mem)))
      refine ⟨rfl, htag, fun i j hi hj => ?_, fun m hm => accLoaded_other _ _ hm, rfl, rfl, rfl, kPut_other rfl⟩
      have hrow : nth 0 (e.rows.map (Mem.readLine (s.core c).mem)) i = Mem.readLine (s.core c).mem (addrOff40 e.sa + i * e.aStep) := by
        rw [MatEntry.rows, List.map_map, nth_map_range _ _ hi]
        rfl
      calc _ = (loadedAcc fmt.toNat (addrOff40 e.sa) (e.rows.map (Mem.readLine (s.core c).mem))).elem i j :=
            congrArg (fun m : SMap Word => m.get 0 (8 * i + j)) helems
        _ = _ := by rw [loadedAcc_elem _ hi hj, hrow, rowElem_readLine _ _ (by simpa using row_aligned 0 0 hal) hj]
  · intro k tile conv n row hl hq hw he hheld hhaz hf htag hstep hpad hal hs hn h2 h3 h
    refine ⟨_, mstExecute_next hl hq hw he hheld hhaz hf htag hstep hpad hal hs rfl hn h2 h3 h, ?_⟩
    rw [kPut_core (show K.c _ = c from rfl)]
    exact ⟨rfl, rfl, rfl, rfl, rfl, rfl, rfl, kPut_other rfl⟩

end Sys2Proof.Machine
end

section
/-! SUPPORT. What a cycle of the clock leaves of the accumulators, the steps under way and the issue counters of the matrix engine. -/

namespace Sys2Proof.Machine

/-! ### What the matrix engine's steps hang on -/

/-- What the steps of the matrix engine read and advance: accumulators, steps under way, the issue history and the two issue counters (R54,
R56). -/
structure StepView where
  acc : SMap Acc
  steps : List MmaStep
  hist : BitVec 64
  issue : DWord
  throttle : DWord

def Core.stepView (k : Core) : StepView :=
  { acc := k.acc, steps := k.steps, hist := k.mxHist, issue := pairAt k.regs rMX_ISSUE, throttle := pairAt k.regs rMX_THROTTLE }

/-- A core whose registers alone change, and the two issue counters not. -/
theorem stepView_of_pairs {k : Core} {rs : SMap Word} (hi : pairAt rs rMX_ISSUE = pairAt k.regs rMX_ISSUE)
    (ht : pairAt rs rMX_THROTTLE = pairAt k.regs rMX_THROTTLE) : ({ k with regs := rs } : Core).stepView = k.stepView := by
  simp only [Core.stepView, hi, ht]

/-- Offsets of counters apart from the two of issue. -/
abbrev apartFromIssue (o : Nat) : Prop := o < 0x1020 ∨ 0x1038 ≤ o

theorem count_stepView (k : Core) {o : Nat} (n : Nat) (h : apartFromIssue o) : (k.count o n).stepView = k.stepView := by
  unfold apartFromIssue at h
  refine stepView_of_pairs ?_ ?_ <;> refine pairAt_bump_other _ _ _ _ ?_ ?_ ?_ <;> simp only [rMX_ISSUE, rMX_THROTTLE] <;> omega

theorem setReg_stepView (k : Core) {o : Nat} (v : Word) (h : apartFromIssue o) : (k.setReg o v).stepView = k.stepView := by
  unfold apartFromIssue at h
  refine stepView_of_pairs ?_ ?_ <;> refine pairAt_set_other _ _ _ _ ?_ ?_ <;> simp only [rMX_ISSUE, rMX_THROTTLE] <;> omega

theorem setPair_stepView (k : Core) {o : Nat} (v : DWord) (h : apartFromIssue o) :
    ({ k with regs := setPair k.regs o v } : Core).stepView = k.stepView := by
  unfold apartFromIssue at h
  refine stepView_of_pairs ?_ ?_ <;> refine pairAt_setPair_other _ _ _ _ ?_ ?_ ?_ <;> simp only [rMX_ISSUE, rMX_THROTTLE] <;> omega

theorem stepView_foldl {α : Type} {f : Core → α → Core} (l : List α) (h : ∀ (k : Core), ∀ x ∈ l, (f k x).stepView = k.stepView) (k : Core) :
    (l.foldl f k).stepView = k.stepView := by
  induction l generalizing k with
  | nil => rfl
  | cons x t ih => exact (ih (fun k y hy => h k y (by simp [hy])) (f k x)).trans (h k x (by simp))

theorem bankWait_apart (off : Nat) : apartFromIssue (bankWait off) := by
  unfold apartFromIssue bankWait
  omega

theorem noteMsg_stepView (k : Core) (m : Msg) : (k.noteMsg m).stepView = k.stepView := by
  unfold Core.noteMsg
  split
  · refine stepView_of_pairs ?_ ?_ <;>
      rw [pairAt_set_other _ _ _ _ (by decide) (by decide), pairAt_set_other _ _ _ _ (by decide) (by decide),
        pairAt_set_other _ _ _ _ (by decide) (by decide), pairAt_set_other _ _ _ _ (by decide) (by decide),
        pairAt_bump_other _ _ _ _ (by decide) (by decide) (by decide)]
  · rfl

theorem putBytes_stepView (k : Core) (off : Nat) (bs : List Byte) : (k.putBytes off bs).stepView = k.stepView := by
  rw [putBytes_eq]; rfl

theorem spRecord_stepView (k : Core) (agent kind off bit : Nat) : (k.spRecord agent kind off bit).stepView = k.stepView := by
  unfold Core.spRecord
  split
  · rfl
  · rw [setReg_stepView _ _ (by decide), setReg_stepView _ _ (by decide)]

theorem spCounter_apart (kind : Nat) : apartFromIssue (spCounter kind) := by
  unfold spCounter
  split <;> decide

theorem rlbDrop_stepView (k : Core) (a : DWord) : (k.rlbDrop a).stepView = k.stepView := rfl

theorem rlbClear_stepView (k : Core) : k.rlbClear.stepView = k.stepView := count_stepView k 1 (o := rSP_RLBINV) (by decide)

/-! ### Steps of one core that leave it -/

/-- The core a context works on, with what its matrix steps hang on. -/
def K.stepView (k : K) : CoreId × StepView := (k.c, k.core.stepView)

/-- A change of the core that leaves the view of it. -/
theorem K.stepView_core {k : K} {k1 : Core} (h : k1.stepView = k.core.stepView) : ({ k with core := k1 } : K).stepView = k.stepView := by
  simp only [K.stepView, h]

theorem K.stepView_foldl {α : Type} {f : K → α → K} (h : ∀ (k : K) (x : α), (f k x).stepView = k.stepView) (l : List α) (k : K) :
    (l.foldl f k).stepView = k.stepView := by
  induction l generalizing k with
  | nil => rfl
  | cons x t ih => exact (ih (f k x)).trans (h k x)

theorem report_stepView (k : K) (block kind detail addr : Nat) : (k.report block kind detail addr).stepView = k.stepView :=
  congrArg (Prod.mk k.c) (noteMsg_stepView k.core _)

theorem spErr_stepView (k : K) (agent kind off bit : Nat) (req : Option CoreId) : (k.spErr agent kind off bit req).stepView = k.stepView :=
  (report_stepView _ _ _ _ _).trans (K.stepView_core ((count_stepView _ _ (spCounter_apart _)).trans (spRecord_stepView _ _ _ _ _)))

theorem spFound_stepView (k : K) (agent off : Nat) (l : LineScan) (req : Option CoreId) : (k.spFound agent off l req).stepView = k.stepView := by
  have hfold {α : Type} (kind : Nat) (g : α → Nat × Nat) (xs : List α) (k : K) :
      (xs.foldl (fun a w => a.spErr agent kind (g w).1 (g w).2 req) k).stepView = k.stepView :=
    K.stepView_foldl (fun k w => spErr_stepView k _ _ _ _ _) xs k
  unfold K.spFound
  refine (hfold 0x04 (fun w => (w, 0)) l.par _).trans ?_
  have hue := (hfold 0x02 (fun w => (w, 0)) l.ue _).trans (hfold 0x01 (fun w => w) l.ce k)
  split
  · exact (spErr_stepView _ _ _ _ _ _).trans hue
  · exact hue

theorem readLine_stepView (k : K) (agent : Nat) (req : Option CoreId) (acc : Nat) : (k.readLine agent req acc).1.stepView = k.stepView := by
  unfold K.readLine
  split
  · exact spErr_stepView _ _ _ _ _ _
  · dsimp only
    split <;> exact spFound_stepView _ _ _ _ _

theorem K.FiredOnly.stepView_eq {k k' : K} (h : k.FiredOnly k') : k'.stepView = k.stepView := by
  obtain ⟨he, hr⟩ := h
  have hpair : ∀ lo ∈ [rMX_ISSUE, rMX_THROTTLE], pairAt k'.core.regs lo = pairAt k.core.regs lo := by
    intro lo hlo
    have hz : ∀ lo ∈ [rMX_ISSUE, rMX_THROTTLE], (∀ off ∈ [lo, lo + 4], off ∉ [rSY_FIRED, rSY_FIRED + 4] ∧ Machine.coreReset off = 0) := by decide
    have hget : ∀ off ∈ [lo, lo + 4], SMap.get 0 k'.core.regs off = SMap.get 0 k.core.regs off := by
      intro off ho
      obtain ⟨hn, h0⟩ := hz lo hlo off ho
      have := hr off hn
      rwa [h0] at this
    simp only [pairAt, hget lo (by simp), hget (lo + 4) (by simp)]
  rw [he]
  exact K.stepView_core (k1 := { k.core with watches := k'.core.watches, regs := k'.core.regs })
    (stepView_of_pairs (k := { k.core with watches := k'.core.watches }) (hpair _ (by simp)) (hpair _ (by simp)))

theorem wroteBytes_stepView (k : K) (off n : Nat) : (k.wroteBytes off n).stepView = k.stepView := (evalWatches_firedOnly _ _).stepView_eq

theorem commitBytes_stepView (k : K) (agent : Nat) (req : Option CoreId) (off : Nat) (bs : List Byte) :
    (k.commitBytes agent req off bs).1.stepView = k.stepView := by
  have hput (k1 : K) : (K.wroteBytes { k1 with core := k1.core.putBytes off bs } off bs.length).stepView = k1.stepView :=
    (wroteBytes_stepView _ _ _).trans (K.stepView_core (putBytes_stepView _ _ _))
  unfold K.commitBytes
  split
  · dsimp only
    split
    · exact spFound_stepView _ _ _ _ _
    · rw [hput, spFound_stepView]
  · rw [hput]

theorem drainOne_stepView (k : K) (w : LineWr) : (k.drainOne w).stepView = k.stepView :=
  (commitBytes_stepView _ _ _ _ _).trans (K.stepView_core rfl)

theorem drainBank_stepView (k : K) (b : Nat) : (k.drainBank b).stepView = k.stepView := by
  have hwait (k1 : K) (n : Nat) : ({ k1 with core := k1.core.count (bankWait (0xC000 * b)) n } : K).stepView = k1.stepView :=
    K.stepView_core (count_stepView _ _ (bankWait_apart _))
  unfold K.drainBank
  dsimp only
  split
  · rfl
  · split
    · exact hwait k _
    · split
      · exact drainOne_stepView _ _
      · rw [hwait, drainOne_stepView]
        rfl

theorem drainBanks_stepView (k : K) : k.drainBanks.stepView = k.stepView := by
  unfold K.drainBanks
  split
  · rfl
  · exact K.stepView_foldl drainBank_stepView _ k

theorem queueBytes_stepView (k : K) (agent num off : Nat) (bs : List Byte) : (k.queueBytes agent num off bs).1.stepView = k.stepView := by
  unfold K.queueBytes
  split
  · dsimp only
    rw [spErr_stepView]
  · rfl

/-! ### The mover -/

theorem mvFail_stepView (k : K) (a : DWord) : (k.mvFail a).stepView = k.stepView := rfl

theorem mvMoved_stepView (k : K) (n : Nat) : (k.mvMoved n).stepView = k.stepView :=
  K.stepView_core ((count_stepView _ _ (by decide)).trans (count_stepView _ _ (by decide)))

theorem mvKeep_stepView (k : K) (idx : Nat) (ls : List Line) : (k.mvKeep idx ls).stepView = k.stepView := rfl

theorem mvReadPad_stepView (k : K) (a : DWord) (n : Nat) : (k.mvReadPad a n).1.stepView = k.stepView := by
  induction n generalizing k a with
  | zero => rfl
  | succ n ih =>
    unfold K.mvReadPad
    split
    · exact mvFail_stepView k a
    · dsimp only
      split
      · exact (ih _ _).trans (readLine_stepView _ _ _ _)
      · exact (mvFail_stepView _ _).trans (readLine_stepView _ _ _ _)

theorem mvWritePad_stepView (k : K) (num : Nat) (a : DWord) (ls : List Line) : (k.mvWritePad num a ls).stepView = k.stepView := by
  induction ls generalizing k a with
  | nil => rfl
  | cons l t ih =>
    unfold K.mvWritePad
    split
    · exact mvFail_stepView k a
    · dsimp only
      split
      · exact ((ih _ _).trans (mvMoved_stepView _ _)).trans (queueBytes_stepView _ _ _ _ _)
      · exact (mvFail_stepView _ _).trans (queueBytes_stepView _ _ _ _ _)

theorem mvDrop_stepView (k : K) (a : DWord) (n : Nat) : (k.mvDrop a n).stepView = k.stepView :=
  K.stepView_core (Machine.stepView_foldl _ (fun k _ _ => rlbDrop_stepView k _) k.core)

theorem mvSendWrite_stepView (k : K) (slot : Nat) (p : MvPiece) (ls : List Line) : (k.mvSendWrite slot p ls).stepView = k.stepView :=
  mvDrop_stepView k p.dst p.n

theorem mvPiece_stepView (k : K) (m : MvCmd) (i : Nat) (p : MvPiece) (slot : Nat) : (k.mvPiece m i p slot).stepView = k.stepView := by
  have hread : (if m.op = mvFILL then (k, List.replicate p.n (fillLine m)) else k.mvReadPad p.src p.n).1.stepView = k.stepView := by
    split
    · rfl
    · exact mvReadPad_stepView k p.src p.n
  unfold K.mvPiece
  split
  · rfl
  · generalize (if m.op = mvFILL then (k, List.replicate p.n (fillLine m)) else k.mvReadPad p.src p.n) = r at hread
    dsimp only
    rw [← hread]
    split
    · rfl
    · split
      · rw [mvMoved_stepView, mvKeep_stepView]
      · split
        · rw [mvWritePad_stepView]
        · rw [mvSendWrite_stepView]

theorem mvIssue_stepView (k : K) (m : MvCmd) (ps : List MvPiece) (i : Nat) : (k.mvIssue m ps i).stepView = k.stepView := by
  induction ps generalizing k i with
  | nil => rfl
  | cons p t ih =>
    unfold K.mvIssue
    split
    · rfl
    · split
      · rfl
      · split
        · split
          · rfl
          · exact (ih _ _).trans (mvPiece_stepView _ _ _ _ _)
        · exact (ih _ _).trans (mvPiece_stepView _ _ _ _ _)

theorem mvError_stepView (k : K) (kind : Nat) (seq : BitVec 16) (addr : DWord) : (k.mvError kind seq addr).stepView = k.stepView := by
  unfold K.mvError
  refine (report_stepView _ _ _ _ _).trans (K.stepView_core ?_)
  split
  · rfl
  · exact (setPair_stepView (k.core.setReg rMV_ERR _) _ (by decide)).trans (setReg_stepView _ _ (by decide))

theorem mvEndBad_stepView (k : K) (a : MvActive) : (k.mvEndBad a).stepView = k.stepView := by
  unfold K.mvEndBad
  dsimp only
  split
  · exact mvError_stepView _ _ _ _
  · rfl

theorem progressed_stepView (k : K) : k.progressed.stepView = k.stepView := K.stepView_core (setReg_stepView k.core 0 (by decide))

theorem mvComplete_stepView (k : K) (m : MvCmd) : (k.mvComplete m).stepView = k.stepView := by
  have hdone : (if m.acq then ((({ k.core with mvAct := none } : Core).count rMV_DONE 1).rlbClear) else
      (({ k.core with mvAct := none } : Core).count rMV_DONE 1)).stepView = k.core.stepView := by
    have h1 : (({ k.core with mvAct := none } : Core).count rMV_DONE 1).stepView = k.core.stepView := count_stepView _ _ (by decide)
    split
    · exact (rlbClear_stepView _).trans h1
    · exact h1
  have hsync : apartFromIssue (rSY_CNT + 8 * m.sync) := by
    unfold apartFromIssue
    simp only [rSY_CNT]
    omega
  unfold K.mvComplete
  dsimp only
  refine (progressed_stepView _).trans ?_
  split
  · rw [K.wroteCounter, (evalWatches_firedOnly _ _).stepView_eq]
    exact congrArg (Prod.mk k.c) ((setPair_stepView _ _ hsync).trans hdone)
  · exact K.stepView_core hdone

theorem mvGoOn_stepView (k : K) : k.mvGoOn.stepView = k.stepView := by
  unfold K.mvGoOn
  split
  · rfl
  · rename_i a _
    have h1 : (if a.stopped then k else k.mvIssue a.cmd ((a.cmd.pieces k.c).drop a.next) a.next).stepView = k.stepView := by
      split
      · rfl
      · exact mvIssue_stepView _ _ _ _
    generalize (if a.stopped then k else k.mvIssue a.cmd ((a.cmd.pieces k.c).drop a.next) a.next) = k1 at h1
    dsimp only
    rw [← h1]
    split
    · rfl
    · split
      · rfl
      · split
        · split
          · exact mvEndBad_stepView _ _
          · rfl
        · split
          · exact mvComplete_stepView _ _
          · rfl

/-! ### A cycle of the banks -/

theorem scanCycle_stepView (k : K) : k.scanCycle.stepView = k.stepView := by
  unfold K.scanCycle
  split
  · rfl
  · split
    · rfl
    · split
      · exact K.stepView_core (count_stepView _ _ (bankWait_apart _))
      · rename_i x _ _ _
        have hread := readLine_stepView k agMV none (64 * x.next)
        unfold K.scanLine
        generalize k.readLine agMV none (64 * x.next) = r at hread
        rw [← hread]
        exact congrArg (Prod.mk r.1.c) (count_stepView r.1.core 64 (o := rMV_DGBYTES) (by decide))

theorem bankCycle_stepView (k : K) : k.bankCycle.stepView = k.stepView := by
  unfold K.bankCycle
  dsimp only
  refine (scanCycle_stepView _).trans ?_
  split
  · exact (mvGoOn_stepView _).trans (drainBanks_stepView k)
  · exact drainBanks_stepView k

end Sys2Proof.Machine
end

section
/-! SUPPORT. A cycle of the network clock at a core: its matrix engine issues or is throttled, and the rest of the cycle leaves its steps
alone. -/

namespace Sys2Proof.Machine

/-! ### The parts of a core's cycle -/

theorem waitTick_stepView (k : Core) : k.waitTick.stepView = k.stepView := by
  unfold Core.waitTick
  split
  · rfl
  · exact count_stepView k 1 (o := rSY_WAITCYC) (by decide)

theorem lendTick_stepView (k : Core) : k.lendTick.stepView = k.stepView := by
  unfold Core.lendTick
  dsimp only
  split
  · exact count_stepView _ 1 (o := rSY_LENTCYC) (by decide)
  · rfl

theorem sqTick_stepView {k : Core} (h : k.seq ≠ .stall) : k.sqTick.stepView = k.stepView := by
  unfold Core.sqTick
  dsimp only
  rw [if_neg (show ¬ (k.seq == .stall) = true by simpa using h)]
  split
  · exact count_stepView k 1 (o := rCORE_SQSTALL) (by decide)
  · rfl

theorem vecTick_stepView (k : Core) : k.vecTick.stepView = k.stepView := by
  unfold Core.vecTick
  split
  · rfl
  · split
    · exact count_stepView k 1 (bankWait_apart _)
    · rfl

theorem mvTick_stepView (k : Core) (c : CoreId) : (k.mvTick c).stepView = k.stepView := by
  unfold Core.mvTick
  split
  · rfl
  · split
    · rfl
    · split
      · rfl
      · split
        · exact count_stepView k 1 (bankWait_apart _)
        · rfl

theorem stallTick_stepView (k : Core) : k.stallTick.stepView = k.stepView := by
  have hcount (a : Core) (o : Nat) (p : Prop) [Decidable p] (h : apartFromIssue o) : (if p then a.count o 1 else a).stepView = a.stepView := by
    split
    · exact count_stepView a 1 h
    · rfl
  unfold Core.stallTick
  refine (stepView_foldl _ (fun a n _ => ?_) _).trans (stepView_foldl _ (fun a u _ => ?_) k)
  · split
    · dsimp only
      rw [hcount _ _ _ (by unfold apartFromIssue; simp only [rDF_QOUT]; omega), hcount _ _ _ (by unfold apartFromIssue; simp only [rDF_QIN]; omega)]
    · rfl
  · dsimp only
    rw [hcount _ _ _ (by unfold apartFromIssue; simp only [rDF_UWOUT]; omega), hcount _ _ _ (by unfold apartFromIssue; simp only [rDF_UWIN]; omega)]

theorem noprogTick_stepView (k : Core) : k.noprogTick.stepView = k.stepView := by
  unfold Core.noprogTick
  dsimp only
  split
  · exact setReg_stepView k _ (by decide)
  · rfl

theorem netTick_stepView (offs : List Nat) (k : Core) : (k.netTick offs).stepView = k.stepView := by
  unfold Core.netTick
  split
  · rfl
  · refine stepView_foldl _ (fun a r hr => ?_) k
    obtain ⟨o, -, rfl⟩ := List.mem_map.1 (List.mem_eraseDups.1 hr)
    exact count_stepView a 1 (bankWait_apart o)

/-! ### The limit -/

theorem count_limit (k : Core) {o : Nat} (n : Nat) (h1 : rMX_LIMIT ≠ o) (h2 : rMX_LIMIT ≠ o + 4) : (k.count o n).reg rMX_LIMIT = k.reg rMX_LIMIT :=
  get_bump_other _ _ _ _ _ h1 h2

theorem waitTick_limit (k : Core) : k.waitTick.reg rMX_LIMIT = k.reg rMX_LIMIT := by
  unfold Core.waitTick
  split
  · rfl
  · exact count_limit k 1 (o := rSY_WAITCYC) (by decide) (by decide)

theorem lendTick_limit (k : Core) : k.lendTick.reg rMX_LIMIT = k.reg rMX_LIMIT := by
  unfold Core.lendTick
  dsimp only
  split
  · exact count_limit { k with idleCc := _ } 1 (o := rSY_LENTCYC) (by decide) (by decide)
  · rfl

theorem sqTick_limit {k : Core} (h : k.seq ≠ .stall) : k.sqTick.reg rMX_LIMIT = k.reg rMX_LIMIT := by
  unfold Core.sqTick
  dsimp only
  rw [if_neg (show ¬ (k.seq == .stall) = true by simpa using h)]
  split
  · exact count_limit k 1 (o := rCORE_SQSTALL) (by decide) (by decide)
  · rfl

/-! ### The matrix engine's part (R54, R56) -/

/-- The view once a step has issued in this cycle. -/
def StepView.issues (v : StepView) (st : MmaStep) : StepView :=
  { v with steps := [{ st with issued := st.issued + 1 }], hist := v.hist <<< 1 ||| 1, issue := v.issue + 1 }

/-- The view once the limit has withheld this cycle. -/
def StepView.withheld (v : StepView) : StepView := { v with hist := v.hist <<< 1, throttle := v.throttle + 1 }

theorem mxcCounter_apart (i : Instr) : apartFromIssue (rPWC_MXC + 8 * (match i with | .mma _ _ _ fmt _ _ => mmaClass fmt.toNat | _ => 0)) := by
  unfold apartFromIssue
  simp only [rPWC_MXC]
  omega

theorem mxTick_issues {k : Core} {st : MmaStep} (hs : k.steps = [st]) (hi : st.issued < 32)
    (hl : popcount (setField k.mxHist 63 1 0) < field (k.reg rMX_LIMIT) 0 7) : k.mxTick.stepView = k.stepView.issues st := by
  have hfind : k.steps.find? (fun st => st.issued < 32) = some st := by simp [hs, hi]
  unfold Core.mxTick
  rw [hfind]
  dsimp only
  rw [if_pos hl]
  refine (count_stepView _ 1 (mxcCounter_apart st.entry.insn)).trans ?_
  simp only [Core.stepView, StepView.issues, Core.count, hs, List.map_cons, List.map_nil, hi, if_true, pairAt_bump]
  rw [pairAt_bump_other _ _ _ _ (by decide) (by decide) (by decide)]
  rfl

theorem mxTick_withheld {k : Core} {st : MmaStep} (hs : k.steps = [st]) (hi : st.issued < 32)
    (hl : field (k.reg rMX_LIMIT) 0 7 ≤ popcount (setField k.mxHist 63 1 0)) : k.mxTick.stepView = k.stepView.withheld := by
  have hfind : k.steps.find? (fun st => st.issued < 32) = some st := by simp [hs, hi]
  unfold Core.mxTick
  rw [hfind]
  dsimp only
  rw [if_neg (Nat.not_lt.2 hl)]
  simp only [Core.stepView, StepView.withheld, Core.count, pairAt_bump]
  rw [pairAt_bump_other _ _ _ _ (by decide) (by decide) (by decide)]
  rfl

/-- A core as the matrix engine's part of its cycle finds it. -/
def Core.beforeMx (k : Core) : Core := k.slotTick.waitTick.lendTick.sqTick

theorem beforeMx_stepView {k : Core} (h : k.seq ≠ .stall) : k.beforeMx.stepView = k.stepView ∧ k.beforeMx.reg rMX_LIMIT = k.reg rMX_LIMIT := by
  have hseq : k.slotTick.waitTick.lendTick.seq ≠ .stall := by
    have hw : k.slotTick.waitTick.seq = k.seq := by unfold Core.waitTick; split <;> rfl
    have hl : k.slotTick.waitTick.lendTick.seq = k.slotTick.waitTick.seq := by unfold Core.lendTick; dsimp only; split <;> rfl
    rwa [hl, hw]
  unfold Core.beforeMx
  exact ⟨by rw [sqTick_stepView hseq, lendTick_stepView, waitTick_stepView]; rfl, by rw [sqTick_limit hseq, lendTick_limit, waitTick_limit]; rfl⟩

/-- Of a core's cycle only the matrix engine's part touches its steps. -/
theorem cycle_stepView (k : Core) (c : CoreId) (offs : List Nat) :
    ((k.slotTick.cycleOn c).netTick offs).stepView = k.beforeMx.mxTick.stepView := by
  rw [netTick_stepView]
  unfold Core.cycleOn
  dsimp only
  split
  · rw [noprogTick_stepView, stallTick_stepView, mvTick_stepView, vecTick_stepView]; rfl
  · rw [mvTick_stepView, vecTick_stepView]; rfl

/-! ### The rest of the block's cycle -/

/-- A step of the block that leaves every core's matrix steps, and the settings and kills that could reach a core. -/
structure State.StepsKept (s t : State) : Prop where
  phase : t.bu.phase = s.bu.phase
  settings : t.bu.fieldDs = s.bu.fieldDs
  jobs : t.jobs = s.jobs
  cores : ∀ n, (t.cores.get t.blankCore n).stepView = (s.cores.get s.blankCore n).stepView

theorem stepsKept_refl (s : State) : s.StepsKept s := ⟨rfl, rfl, rfl, fun _ => rfl⟩

theorem State.StepsKept.trans {s t u : State} (h1 : s.StepsKept t) (h2 : t.StepsKept u) : s.StepsKept u :=
  ⟨h2.phase.trans h1.phase, h2.settings.trans h1.settings, h2.jobs.trans h1.jobs, fun n => (h2.cores n).trans (h1.cores n)⟩

/-- A chain from its last step back. -/
theorem State.StepsKept.after {s t u : State} (h2 : t.StepsKept u) (h1 : s.StepsKept t) : s.StepsKept u := h1.trans h2

theorem stepsKept_foldl {α : Type} {f : State → α → State} {s0 : State} (h : ∀ (s : State) (x : α), s0.StepsKept s → s.StepsKept (f s x)) (l : List α)
    {s : State} (hs : s0.StepsKept s) : s0.StepsKept (l.foldl f s) := by
  induction l generalizing s with
  | nil => exact hs
  | cons x t ih => exact ih (hs.trans (h s x hs))

/-- Where cores, jobs and settings are as before. -/
theorem stepsKept_of_cores {s t : State} (hp : t.bu.phase = s.bu.phase) (hd : t.bu.fieldDs = s.bu.fieldDs) (hj : t.jobs = s.jobs)
    (hc : t.cores = s.cores) : s.StepsKept t :=
  ⟨hp, hd, hj, fun n => by rw [show t.blankCore = s.blankCore by simp only [State.blankCore, hp], hc]⟩

theorem onCore_stepsKept {f : K → K} (hf : ∀ k, (f k).stepView = k.stepView) (c : CoreId) (s : State) : s.StepsKept (onCore c s f) := by
  obtain ⟨hc, hv⟩ := Prod.mk.inj (hf (kOf s c))
  unfold onCore
  split
  · refine ⟨rfl, rfl, rfl, fun n => ?_⟩
    show (SMap.get s.blankCore (s.cores.set (coreKey (f (kOf s c)).c) (f (kOf s c)).core) n).stepView = _
    rw [hc, SMap.get_set]
    split
    · rename_i hn
      rw [hn]
      exact hv
    · rfl
  · exact stepsKept_refl s

theorem onCoreSettled_stepsKept {f : K → K} (hf : ∀ k, (f k).stepView = k.stepView) {c : CoreId} {s : State} (h : s.bu.fieldDs = []) :
    s.StepsKept (onCoreSettled c s f) := by
  have hk := onCore_stepsKept hf c s
  rw [onCoreSettled, settled_of_noSettings c (hk.settings.trans h)]
  exact hk

theorem limits_stepsKept (l : List (CoreId × Nat)) (s : State) :
    s.StepsKept (l.foldl (fun x p => onCore p.1 x (fun q => { q with core := q.core.setReg rMX_LIMIT (BitVec.ofNat 32 p.2) })) s) :=
  stepsKept_foldl (fun s p _ => onCore_stepsKept (fun _ => K.stepView_core (setReg_stepView _ _ (by decide))) p.1 s) l (stepsKept_refl s)

theorem limitCluster_stepsKept (s : State) (cl : Nat) : s.StepsKept (s.limitCluster cl) :=
  (limits_stepsKept _ s).trans (stepsKept_of_cores rfl rfl rfl rfl)

/-- A table whose values a view does not tell from those before. -/
theorem SMap.get_map_view {α β : Type} (d : α) (view : α → β) {f : Nat × α → Nat × α} (hk : ∀ e, (f e).1 = e.1) (hv : ∀ e, view (f e).2 = view e.2)
    (m : SMap α) (n : Nat) : view (SMap.get d (m.map f) n) = view (SMap.get d m n) := by
  induction m with
  | nil => rfl
  | cons e t ih =>
    obtain ⟨k, v⟩ := e
    rw [List.map_cons, show f (k, v) = (k, (f (k, v)).2) from Prod.ext (hk _) rfl]
    simp only [SMap.get]
    split
    · exact hv (k, v)
    · exact ih

/-- A value that is listed, after each value has been replaced. -/
theorem SMap.get_map_listed {α : Type} (d : α) {f : Nat × α → Nat × α} (hk : ∀ e, (f e).1 = e.1) {m : SMap α} {n : Nat}
    (h : SMap.get d m n ≠ d) : SMap.get d (m.map f) n = (f (n, SMap.get d m n)).2 := by
  induction m with
  | nil => exact absurd rfl h
  | cons e t ih =>
    obtain ⟨k, v⟩ := e
    rw [List.map_cons, show f (k, v) = (k, (f (k, v)).2) from Prod.ext (hk _) rfl]
    simp only [SMap.get] at h ⊢
    split
    · rename_i hn; rw [hn]
    · rename_i hn
      exact ih (by simpa [hn] using h)

theorem lendEvents_stepsKept (s : State) : s.StepsKept s.lendEvents := by
  unfold State.lendEvents
  dsimp only
  split
  · exact stepsKept_refl s
  · refine stepsKept_foldl (fun s cl _ => limitCluster_stepsKept s cl) _ ⟨rfl, rfl, rfl, fun n => ?_⟩
    exact SMap.get_map_view s.blankCore Core.stepView (f := fun (e : Nat × Core) => (e.1, { e.2 with lentSeen := e.2.lent })) (fun _ => rfl)
      (fun _ => rfl) s.cores n

theorem bankTick_stepsKept {s : State} (h : s.bu.fieldDs = []) : s.StepsKept s.bankTick := by
  unfold State.bankTick
  dsimp only
  refine stepsKept_foldl (fun t c ht => ?_) _ (stepsKept_refl s)
  have hd := ht.settings.trans h
  split
  · exact onCoreSettled_stepsKept bankCycle_stepView hd
  · split
    · exact onCoreSettled_stepsKept drainBanks_stepView hd
    · exact stepsKept_refl t

theorem blockTick_stepsKept (s : State) : s.StepsKept s.blockTick := by
  unfold State.blockTick
  split
  · exact stepsKept_refl s
  · dsimp only
    refine (stepsKept_foldl (s0 := s) (fun t r _ => ?_) _ (stepsKept_refl s)).trans (stepsKept_of_cores rfl rfl rfl rfl)
    split
    · exact stepsKept_refl t
    · exact stepsKept_of_cores rfl rfl rfl rfl

theorem spanServe_stepsKept (s : State) (n : Nat) (id : Byte) (r : SpanPacket) : s.StepsKept (s.spanServe n id r) := by
  have hreply (s : State) (op aux : Nat) (head : DWord) (ls : List Line) : s.StepsKept (s.spanReply n r op aux head ls) := by
    unfold State.spanReply
    split
    · exact stepsKept_of_cores rfl rfl rfl rfl
    · exact stepsKept_refl s
  unfold State.spanServe
  dsimp only
  split
  · exact (hreply _ _ _ _ _).after (stepsKept_of_cores rfl rfl rfl rfl)
  · split
    · refine (stepsKept_foldl (fun s l _ => ?_) _ (stepsKept_refl s)).trans (hreply _ _ _ _ _)
      exact stepsKept_of_cores rfl rfl rfl rfl
    · exact stepsKept_of_cores rfl rfl rfl rfl

theorem spanPump_stepsKept (m n : Nat) (s : State) : s.StepsKept (State.spanPump m n s) := by
  induction m generalizing s with
  | zero => exact stepsKept_refl s
  | succ m ih =>
    unfold State.spanPump
    split
    · exact (ih _).after ((spanServe_stepsKept _ _ _ _).after (stepsKept_of_cores rfl rfl rfl rfl))
    · exact stepsKept_refl s

theorem spanFlow_stepsKept (s : State) (n : Nat) : s.StepsKept (s.spanFlow n) :=
  (spanPump_stepsKept _ n s).trans (stepsKept_of_cores rfl rfl rfl rfl)

theorem sendFlit_stepsKept (s : State) (n : Nat) : s.StepsKept (s.sendFlit n) := by
  unfold State.sendFlit
  dsimp only
  split <;> exact stepsKept_of_cores rfl rfl rfl rfl

theorem killTick_stepsKept {s t : State} (ht : s.StepsKept t) (h : ∀ j ∈ s.jobs, j.killYc = none) : s.StepsKept t.killTick := by
  have hnone : t.jobs.all (fun j => j.killYc.isNone) = true := List.all_eq_true.2 (fun j hj => by simp [h j (ht.jobs ▸ hj)])
  rw [State.killTick, if_pos hnone]
  exact ht

theorem yardTick_stepsKept {s : State} (h : ∀ j ∈ s.jobs, j.killYc = none) : s.StepsKept s.yardTick := by
  have hcount (p : Prop) [Decidable p] (o : Nat) (t : State) : t.StepsKept (if p then t.ycount o 20 else t) := by
    split
    · exact stepsKept_of_cores rfl rfl rfl rfl
    · exact stepsKept_refl t
  have h1 := stepsKept_foldl (fun (t : State) (e : Nat × Terminus) _ => hcount (e.2.full = true) (yOM + 0x10000 * e.1 + 0x038) t) s.termini
    (stepsKept_refl s)
  have h2 := stepsKept_foldl (fun (t : State) (e : Nat × SpanPort) _ => hcount ((e.2.xoffRx != 0 && e.2.state == 3) = true) (spanOff e.1 + 0x40) t)
    s.span h1
  refine killTick_stepsKept (stepsKept_foldl (fun t e _ => (sendFlit_stepsKept t e.1).trans (spanFlow_stepsKept _ e.1)) _ ?_) h
  exact h2.trans (stepsKept_of_cores h2.phase.symm h2.settings.symm rfl rfl)

/-! ### A cycle of the network clock -/

/-- The state with every listed core a cycle on (log entry 1). -/
theorem coresTick_stepView {s : State} {c : CoreId} (ha : s.alive c = true) (hl : s.core c ≠ s.blankCore) :
    (s.coresTick.core c).stepView = (s.core c).beforeMx.mxTick.stepView := by
  have hg := alive_onGrid ha
  simp only [onGrid, Bool.and_eq_true, decide_eq_true_eq] at hg
  obtain ⟨hx, hy⟩ := hg
  have hc : coreAt (coreKey c % 558) (coreKey c / 558) = c := by
    have h1 : coreKey c % 558 = c.x.toNat := by rw [coreKey, Nat.mul_add_mod_self_right, Nat.mod_eq_of_lt hx]
    have h2 : coreKey c / 558 = c.y.toNat := by unfold coreKey; omega
    rw [h1, h2, coreAt, BitVec.ofNat_toNat, BitVec.ofNat_toNat]
    rfl
  have hget := SMap.get_map_listed s.blankCore (f := fun (e : Nat × Core) =>
      let c := coreAt (e.1 % 558) (e.1 / 558)
      if s.alive c then (e.1, (e.2.slotTick.cycleOn c).netTick (s.netWaits c))
      else if s.present c then (e.1, e.2.slotTick.netTick (s.netWaits c)) else e)
    (fun e => by dsimp only; split; · rfl
                 · split <;> rfl) (m := s.cores) (n := coreKey c) hl
  dsimp only at hget
  rw [hc, if_pos ha] at hget
  exact (congrArg Core.stepView hget).trans (cycle_stepView _ c _)

/-- A cycle with an empty queue, as it goes for the steps of one live core (R54, log entry 1). -/
theorem tick_stepView {s : State} {c : CoreId} (ha : s.alive c = true) (hl : s.core c ≠ s.blankCore) (hd : s.bu.fieldDs = [])
    (hj : ∀ j ∈ s.jobs, j.killYc = none) : ((tick s).core c).stepView = (s.core c).beforeMx.mxTick.stepView := by
  have hpow : s.bu.power = true := by simp [State.alive, State.present] at ha; tauto
  let s1 : State := { s with cc := s.cc + 1 }
  have h1 : s1.coresTick.StepsKept s1.coresTick.lendEvents.bankTick.blockTick := by
    have hlend := lendEvents_stepsKept s1.coresTick
    exact (hlend.trans (bankTick_stepsKept (hlend.settings.trans hd))).trans (blockTick_stepsKept _)
  have h2 : s1.coresTick.StepsKept (tick s) := by
    unfold tick
    rw [if_pos hpow]
    dsimp only
    split
    · exact h1.trans (yardTick_stepsKept (fun j hm => hj j (h1.jobs ▸ hm)))
    · exact h1
  exact (h2.cores (coreKey c)).trans (coresTick_stepView (s := s1) ha hl)

end Sys2Proof.Machine
end

section
/-! SUPPORT. The issue cycles of a tile step, and its products in the accumulator. -/

namespace Sys2Proof.Machine

/-! ### The products enter the accumulator -/

/-- An accumulator with new elements and the checksum state after a step (R82, R101). -/
def Acc.stepped (a : Acc) (ws : List Word) (st : MmaStep) (fmt : Nat) (f : MmaFmt) : Acc :=
  ({ a with elems := elemsOf ws } : Acc).stepChecks st fmt f

theorem stepped_elem (a : Acc) (g : Nat → Word) (st : MmaStep) (fmt : Nat) (f : MmaFmt) {n : Nat} (h : n < 128) :
    (a.stepped ((List.range 128).map g) st fmt f).elems.get 0 n = g n :=
  (get_elemsOf ((List.range 128).map g) n).trans (nth_map_range _ _ h)

/-- A step under a floating-point tag writes its accumulator (R82). -/
theorem stepAdd_fp32 {fmt : Nat} (k : Core) (st : MmaStep) (f : MmaFmt) (n : Nat) (h : mmaTag fmt = .fp32) :
    k.stepAdd st fmt f n = k.setAcc n ((k.accAt n).stepped (fpElems (k.accAt n) st fmt f) st fmt f) := by
  rw [Core.stepAdd, h]; rfl

/-- A step under an INT32 tag writes its accumulator and counts its clamps (R83). -/
theorem stepAdd_int32 {fmt : Nat} (k : Core) (st : MmaStep) (f : MmaFmt) (n : Nat) (h : mmaTag fmt = .int32) :
    k.stepAdd st fmt f n = (k.setAcc n ((k.accAt n).stepped ((intElems (k.accAt n) st fmt f).map (·.1)) st fmt f)).count rMX_SATCNT
      ((intElems (k.accAt n) st fmt f).filter (·.2)).length := by
  rw [Core.stepAdd, h]; rfl

/-- The low accumulator of a pair with new elements. -/
def Acc.withElems (a : Acc) (ws : List Word) : Acc := { a with elems := elemsOf ws }

/-- A step under a pair tag writes two accumulators (R92). -/
theorem stepAdd_pair {fmt : Nat} (k : Core) (st : MmaStep) (f : MmaFmt) (n : Nat) (h : mmaTag fmt = .pair) :
    k.stepAdd st fmt f n =
      (k.setAcc n ((k.accAt n).stepped ((pairElems (k.accAt n) (k.accAt (n + 1)) st).map (·.hi)) st fmt f)).setAcc (n + 1)
        ((k.accAt (n + 1)).withElems ((pairElems (k.accAt n) (k.accAt (n + 1)) st).map (·.lo))) := by
  rw [Core.stepAdd, h]; rfl

/-- An INT32 sum is clamped to the nearer limit (R83). -/
theorem clamp32_toInt (x : Int) : (clamp32 x).1.toInt = max (-2147483648) (min 2147483647 x) := by
  unfold clamp32
  split
  · rw [show (0x7FFFFFFF : Word).toInt = 2147483647 by decide]; omega
  · split
    · rw [show (0x80000000 : Word).toInt = -2147483648 by decide]; omega
    · rw [BitVec.toInt_ofInt, Int.bmod_def]; omega

/-- A step's products touch accumulators and the count of clamps alone (R54). -/
theorem stepAdd_kept (k : Core) (st : MmaStep) (fmt : Nat) (f : MmaFmt) (n : Nat) :
    ∃ as rs, k.stepAdd st fmt f n = { k with acc := as, regs := rs } ∧ pairAt rs rMX_STEPS = pairAt k.regs rMX_STEPS ∧
      pairAt rs rMX_ISSUE = pairAt k.regs rMX_ISSUE := by
  cases h : mmaTag fmt with
  | fp32 => exact ⟨_, _, stepAdd_fp32 k st f n h, rfl, rfl⟩
  | int32 =>
    exact ⟨_, _, stepAdd_int32 k st f n h, pairAt_bump_other _ _ _ _ (by decide) (by decide) (by decide),
      pairAt_bump_other _ _ _ _ (by decide) (by decide) (by decide)⟩
  | pair => exact ⟨_, _, stepAdd_pair k st f n h, rfl, rfl⟩

/-- The accumulators that a step does not name are as before (R54). -/
theorem stepAdd_other {k : Core} {fmt n m : Nat} (st : MmaStep) (f : MmaFmt) (hn : m ≠ n) (hp : mmaTag fmt = .pair → m ≠ n + 1) :
    (k.stepAdd st fmt f n).accAt m = k.accAt m := by
  cases h : mmaTag fmt with
  | fp32 => rw [stepAdd_fp32 k st f n h, Core.accAt_setAcc_other _ _ hn]
  | int32 => rw [stepAdd_int32 k st f n h]; exact Core.accAt_setAcc_other _ _ hn
  | pair => rw [stepAdd_pair k st f n h, Core.accAt_setAcc_other _ _ (hp h), Core.accAt_setAcc_other _ _ hn]

theorem stepAdd_fp32_elem {k : Core} {fmt n i : Nat} (st : MmaStep) (f : MmaFmt) (h : mmaTag fmt = .fp32) (hi : i < 128) :
    ((k.stepAdd st fmt f n).accAt n).elems.get 0 i =
      b32 .rne (fsum (fv ((k.accAt n).elems.get 0 i) :: st.products fmt f (i / 8) (i % 8))) := by
  rw [stepAdd_fp32 k st f n h, Core.accAt_setAcc_self, fpElems, stepped_elem _ _ _ _ _ hi]

theorem stepAdd_int32_elem {k : Core} {fmt n i : Nat} (st : MmaStep) (f : MmaFmt) (h : mmaTag fmt = .int32) (hi : i < 128) :
    (((k.stepAdd st fmt f n).accAt n).elems.get 0 i).toInt = max (-2147483648) (min 2147483647
      (((k.accAt n).elems.get 0 i).toInt + ((st.products fmt f (i / 8) (i % 8)).map fint).sum)) := by
  rw [stepAdd_int32 k st f n h, ← clamp32_toInt, intElems, List.map_map]
  exact congrArg BitVec.toInt ((congrArg (fun a : Acc => a.elems.get 0 i) (Core.accAt_setAcc_self k n _)).trans (stepped_elem _ _ _ _ _ hi))

theorem stepAdd_pair_elem {k : Core} {fmt n i : Nat} (st : MmaStep) (f : MmaFmt) (h : mmaTag fmt = .pair) (hi : i < 128) :
    ((k.stepAdd st fmt f n).accAt n).elems.get 0 i = (nth { hi := 0, lo := 0 } (pairElems (k.accAt n) (k.accAt (n + 1)) st) i).hi ∧
      ((k.stepAdd st fmt f n).accAt (n + 1)).elems.get 0 i = (nth { hi := 0, lo := 0 } (pairElems (k.accAt n) (k.accAt (n + 1)) st) i).lo := by
  rw [stepAdd_pair k st f n h, Core.accAt_setAcc_other _ _ (show n ≠ n + 1 by omega), Core.accAt_setAcc_self, Core.accAt_setAcc_self, pairElems,
    nth_map_range _ _ hi, List.map_map, List.map_map]
  exact ⟨stepped_elem _ _ _ _ _ hi, (get_elemsOf _ i).trans (nth_map_range _ _ hi)⟩

/-- The core once the oldest step is complete (R54, R56). -/
def Core.stepCompleted (k : Core) (st : MmaStep) (rest : List MmaStep) (fmt : Nat) (f : MmaFmt) (n : Nat) : Core :=
  ((({ k with steps := rest } : Core).stepAdd st fmt f n).count rMX_STEPS 1).setReg rDF_NOPROG 0

theorem mmaStepComplete_next {s : State} {c : CoreId} {st : MmaStep} {rest : List MmaStep} {sa sb : SReg} {fmt : BitVec 4} {acc : BitVec 2}
    {inc : Bool} {f : MmaFmt} (hl : s.alive c = true) (hs : (s.core c).steps = st :: rest) (hi : st.entry.insn = .mma c sa sb fmt acc inc)
    (hf : mmaFmt fmt.toNat = some f) (h32 : 32 ≤ st.issued) (ht : (s.core c).trapWaitMat st.entry.num = false) :
    ∃ t : State, exec (.mmaStepComplete c) s = .next t ∧ t.core c = (s.core c).stepCompleted st rest fmt.toNat f acc.toNat ∧
      s.othersKept t c := by
  have hex : exec (.mmaStepComplete c) s = .next (kPut s (K.progressed { kOf s c with
      core := (({ s.core c with steps := rest } : Core).stepAdd st fmt.toNat f acc.toNat).count rMX_STEPS 1 })) := by
    show execMmaStepComplete c s = _
    simp only [execMmaStepComplete, onLive_of_alive hl, kOf_core, hs, hi, hf, ht, show ¬ st.issued < 32 by omega, decide_false, Bool.or_self,
      Bool.false_eq_true, if_false]
  exact ⟨_, hex, kPut_core rfl, kPut_other rfl⟩

/-- What the completion of a step leaves and counts (R54, R56). -/
theorem stepCompleted_kept (k : Core) (st : MmaStep) (rest : List MmaStep) (fmt : Nat) (f : MmaFmt) (n : Nat) :
    (k.stepCompleted st rest fmt f n).steps = rest ∧
      pairAt (k.stepCompleted st rest fmt f n).regs rMX_STEPS = pairAt k.regs rMX_STEPS + 1 ∧
      pairAt (k.stepCompleted st rest fmt f n).regs rMX_ISSUE = pairAt k.regs rMX_ISSUE ∧
      (k.stepCompleted st rest fmt f n).mem = k.mem ∧ (k.stepCompleted st rest fmt f n).s = k.s ∧
      (k.stepCompleted st rest fmt f n).vregs = k.vregs ∧ (k.stepCompleted st rest fmt f n).pc = k.pc := by
  obtain ⟨as, rs, h, hsteps, hissue⟩ := stepAdd_kept { k with steps := rest } st fmt f n
  have hk : k.stepCompleted st rest fmt f n =
      { k with steps := rest, acc := as, regs := (bump rs rMX_STEPS 1).set rDF_NOPROG 0 } := by
    rw [Core.stepCompleted, h]
    rfl
  rw [hk]
  dsimp only at hsteps hissue ⊢
  rw [pairAt_set_other _ _ _ _ (by decide) (by decide), pairAt_set_other _ _ _ _ (by decide) (by decide), pairAt_bump,
    pairAt_bump_other _ _ _ _ (by decide) (by decide) (by decide), hsteps, hissue]
  exact ⟨rfl, rfl, rfl, rfl, rfl, rfl, rfl⟩

/-! ### The obligation -/

theorem blank_steps (s : State) : s.blankCore.steps = [] := by
  unfold State.blankCore
  split <;> rfl

/-- Settles O14. -/
theorem mmaStepResults : Obligations.MmaStepResults := by
  unfold Obligations.MmaStepResults
  refine ⟨fun s c st => ?_, fun s c st rest sa sb fmt acc inc f => ?_⟩
  · intro k hpend hl hd hj hs hi hq
    have hlisted : s.core c ≠ s.blankCore := fun h => by
      have := hs
      rw [show k = s.blankCore from h, blank_steps] at this
      exact absurd this (by simp)
    obtain ⟨hview, hlim⟩ := beforeMx_stepView (k := s.core c) hq
    have hsteps : (s.core c).beforeMx.steps = [st] := (congrArg StepView.steps hview).trans hs
    have hhist : (s.core c).beforeMx.mxHist = k.mxHist := congrArg StepView.hist hview
    have htick := tick_stepView hl hlisted hd hj
    have hissue := fun h => (htick.trans (mxTick_issues hsteps hi (hhist.symm ▸ hlim.symm ▸ h))).trans (congrArg (StepView.issues · st) hview)
    have hheld := fun h => (htick.trans (mxTick_withheld hsteps hi (hhist.symm ▸ hlim.symm ▸ h))).trans (congrArg StepView.withheld hview)
    refine ⟨tick s, by rw [step, hpend], ?_, fun h => ?_, fun h => ?_⟩
    · rcases Nat.lt_or_ge (popcount (setField k.mxHist 63 1 0)) (field (k.reg rMX_LIMIT) 0 7) with h | h
      · exact congrArg StepView.acc (hissue h)
      · exact congrArg StepView.acc (hheld h)
    · have hv := hissue h
      exact ⟨congrArg StepView.steps hv, congrArg StepView.hist hv, congrArg StepView.issue hv, congrArg StepView.throttle hv⟩
    · have hv := hheld h
      exact ⟨(congrArg StepView.steps hv).trans hs, congrArg StepView.hist hv, congrArg StepView.issue hv, congrArg StepView.throttle hv⟩
  · intro k a hl hs hi hf h32 ht
    obtain ⟨t, hex, hk, hothers⟩ := mmaStepComplete_next hl hs hi hf h32 ht
    obtain ⟨hsteps, hcount, hissue, hmem, hsr, hv, hpc⟩ := stepCompleted_kept (s.core c) st rest fmt.toNat f acc.toNat
    refine ⟨t, hex, ?_⟩
    rw [hk]
    exact ⟨hsteps, fun h n hn => stepAdd_fp32_elem st f h hn, fun h n hn => stepAdd_int32_elem st f h hn,
      fun h n hn => stepAdd_pair_elem st f h hn, fun m hm hp => stepAdd_other st f hm hp, hcount, hissue, hmem, hsr, hv, hpc, hothers⟩

end Sys2Proof.Machine
end

section
/-! SUPPORT. Commands enter the mover's queue, are waited for, and end. -/

namespace Sys2Proof.Machine

/-! ### MVQ and MVW -/

/-- The command that MVQ captures at an address (R60, R61). -/
def Core.mvCaptured (k : Core) (ad : DWord) : MvCmd :=
  { desc := (Mem.readLine k.mem (addrOff40 ad / 64 * 64)).extractLsb' (8 * (addrOff40 ad % 64)) 256, descAddr := ad, seq := k.mvSeq, pc := k.pc,
    tag := k.runTag, num := k.num }

/-- The core after a command has entered the mover's queue (R60). -/
def Core.mvQueued (k : Core) (m : MvCmd) : Core := { k with mvQ := k.mvQ ++ [m], mvSeq := k.mvSeq + 1, num := k.num + 1 }

/-- 32 bytes of a line as a descriptor takes them (R61). -/
theorem descriptor_readLine (m : Mem) {off : Nat} (h : off % 32 = 0) :
    (Mem.readLine m (off / 64 * 64)).extractLsb' (8 * (off % 64)) 256 = BitVec.ofNat 256 (Mem.readN m off 32) := by
  have hpart := Mem.readN_part m (off / 64 * 64) (off % 64) 32 (64 - off % 64 - 32)
  rw [show off % 64 + 32 + (64 - off % 64 - 32) = 64 by omega, show off / 64 * 64 + off % 64 = off by omega, pow256, pow256] at hpart
  apply BitVec.eq_of_toNat_eq
  rw [BitVec.extractLsb'_toNat, Mem.readLine_toNat, Nat.shiftRight_eq_div_pow, BitVec.toNat_ofNat, show (256 : Nat) = 8 * 32 from rfl, hpart,
    Nat.mod_eq_of_lt]
  rw [← pow256]
  exact Mem.readN_lt m off 32

theorem addrOff40_mod {ad : DWord} {n : Nat} (hn : n ∣ 2 ^ 40) : addrOff40 ad % n = ad.toNat % n := by
  rw [show addrOff40 ad = ad.toNat % 2 ^ 40 by simp [addrOff40, field], Nat.mod_mod_of_dvd _ hn]

/-- MVQ of a descriptor that nothing delays or refuses (R60). -/
theorem mvq_retires {s : State} {c : CoreId} {a : SReg} {imm : BitVec 16} (w : Word) (hf : s.free c [a])
    (hal : ((s.core c).target a imm).toNat % 32 = 0) (hloc : (s.core c).localAccess c ((s.core c).target a imm) 1 false)
    (hn : (s.core c).mvIncomplete < 16) :
    mvqBody a imm (s.core c).pc w (kOf s c) =
      K.retire { kOf s c with core := (s.core c).mvQueued ((s.core c).mvCaptured ((s.core c).target a imm)) } ((s.core c).pc + 1) := by
  obtain ⟨hown, -, hpad, hheld, hhaz, href, hclean⟩ := hloc
  rw [mvqBody, whenReady_of_free hf (fun _ h => h)]
  have hin : inPad c ((s.core c).target a imm) = true := by simp [inPad, hown, padSize, hpad]
  have hhaz' : (s.core c).hazard (s.core c).num [addrOff40 ((s.core c).target a imm)] [] = false := hhaz
  simp only [kOf_core, kOf_c, effAddr_target, aligned_of_mod hal, hin, show ¬ 16 ≤ (s.core c).mvIncomplete by omega, hheld, hhaz', Bool.not_true,
    Bool.or_self, Bool.false_eq_true, if_false]
  rw [readLine_clean (k := kOf s c) href hclean]
  rfl

/-! ### The end of a command -/

/-- A core whose mover has no command any more, the ended one counted (R63). -/
def Core.mvCounted (k : Core) (m : MvCmd) : Core :=
  if m.acq then (({ k with mvAct := none } : Core).count rMV_DONE 1).rlbClear else ({ k with mvAct := none } : Core).count rMV_DONE 1

/-- A core whose mover has ended a command, before the watches on its sync counter see it (R63). -/
def Core.mvEnded (k : Core) (m : MvCmd) : Core :=
  if m.syncEn then { k.mvCounted m with
    regs := setPair (k.mvCounted m).regs (rSY_CNT + 8 * m.sync) (pairAt (k.mvCounted m).regs (rSY_CNT + 8 * m.sync) + 1) }
  else k.mvCounted m

/-- A command ends: its watches fire, and progress is noted (R63, R193). -/
theorem mvComplete_fired (k : K) (m : MvCmd) :
    ∃ k1 : K, ({ k with core := k.core.mvEnded m } : K).FiredOnly k1 ∧ k.mvComplete m = k1.progressed := by
  by_cases h : m.syncEn = true
  · refine ⟨_, evalWatches_firedOnly { k with core := k.core.mvEnded m } (fun w => w.onCounter && w.target == m.sync), ?_⟩
    simp only [K.mvComplete, Core.mvEnded, Core.mvCounted, h, if_true]
    rfl
  · refine ⟨_, K.FiredOnly.refl _, ?_⟩
    simp only [K.mvComplete, Core.mvEnded, Core.mvCounted, h, if_false, Bool.false_eq_true]

/-- A counter that fired watches leave. -/
theorem K.FiredOnly.pairAt_eq {k k' : K} (h : k.FiredOnly k') {lo : Nat}
    (hl : ∀ off ∈ [lo, lo + 4], off ∉ [rSY_FIRED, rSY_FIRED + 4] ∧ Machine.coreReset off = 0) :
    pairAt k'.core.regs lo = pairAt k.core.regs lo := by
  have hget : ∀ off ∈ [lo, lo + 4], SMap.get 0 k'.core.regs off = SMap.get 0 k.core.regs off := by
    intro off ho
    obtain ⟨hn, h0⟩ := hl off ho
    have := h.2 off hn
    rwa [h0] at this
  simp only [pairAt, hget lo (by simp), hget (lo + 4) (by simp)]

/-- A counter pair that another counter's advance leaves. -/
theorem count_pairAt_other (k : Core) {o lo : Nat} (n : Nat) (h : lo + 4 < o ∨ o + 4 < lo) : pairAt (k.count o n).regs lo = pairAt k.regs lo :=
  pairAt_bump_other k.regs o lo n (by omega) (by omega) (by omega)

theorem rlbClear_pairAt (k : Core) {lo : Nat} (h : lo + 4 < rSP_RLBINV ∨ rSP_RLBINV + 4 < lo) : pairAt k.rlbClear.regs lo = pairAt k.regs lo :=
  count_pairAt_other k 1 h

theorem mvCounted_pairAt (k : Core) (m : MvCmd) {lo : Nat} (h : lo + 4 < rSP_RLBINV ∨ rSP_RLBINV + 4 < lo) :
    pairAt (k.mvCounted m).regs lo = pairAt (k.count rMV_DONE 1).regs lo := by
  unfold Core.mvCounted
  split
  · exact rlbClear_pairAt (({ k with mvAct := none } : Core).count rMV_DONE 1) h
  · rfl

theorem mvCounted_done (k : Core) (m : MvCmd) : pairAt (k.mvCounted m).regs rMV_DONE = pairAt k.regs rMV_DONE + 1 :=
  (mvCounted_pairAt k m (by decide)).trans (pairAt_bump k.regs rMV_DONE 1)

theorem mvCounted_counter (k : Core) (m : MvCmd) (n : Nat) : (k.mvCounted m).counter n = k.counter n :=
  (mvCounted_pairAt k m (by simp only [rSY_CNT, rSP_RLBINV]; omega)).trans
    (count_pairAt_other k 1 (by simp only [rSY_CNT, rMV_DONE]; omega))

theorem mvEnded_done (k : Core) (m : MvCmd) : pairAt (k.mvEnded m).regs rMV_DONE = pairAt k.regs rMV_DONE + 1 := by
  rw [← mvCounted_done k m, Core.mvEnded]
  split
  · exact pairAt_setPair_other (k.mvCounted m).regs (rSY_CNT + 8 * m.sync) rMV_DONE _ (by simp only [rMV_DONE, rSY_CNT]; omega)
      (by simp only [rMV_DONE, rSY_CNT]; omega) (by simp only [rMV_DONE, rSY_CNT]; omega)
  · rfl

theorem mvEnded_counter (k : Core) (m : MvCmd) (n : Nat) :
    (k.mvEnded m).counter n = if m.syncEn = true ∧ n = m.sync then k.counter n + 1 else k.counter n := by
  rw [← mvCounted_counter k m n, Core.mvEnded]
  by_cases hs : m.syncEn = true
  · rw [if_pos hs]
    by_cases hm : n = m.sync
    · rw [if_pos ⟨hs, hm⟩, hm]
      exact pairAt_setPair (k.mvCounted m).regs (rSY_CNT + 8 * m.sync) _
    · rw [if_neg (fun h => hm h.2)]
      exact pairAt_setPair_other (k.mvCounted m).regs (rSY_CNT + 8 * m.sync) (rSY_CNT + 8 * n) _ (by omega) (by omega) (by omega)
  · rw [if_neg hs, if_neg (fun h => hs h.1)]

theorem counterResets : ∀ n, n < 32 → ∀ off ∈ [rSY_CNT + 8 * n, rSY_CNT + 8 * n + 4], off ∉ [rSY_FIRED, rSY_FIRED + 4] ∧ coreReset off = 0 := by
  decide

/-- What the end of a command leaves and counts (R63). -/
theorem mvComplete_core (k : K) (m : MvCmd) :
    (k.mvComplete m).c = k.c ∧ (k.mvComplete m).core.mvAct = none ∧ (k.mvComplete m).core.mvQ = k.core.mvQ ∧
      pairAt (k.mvComplete m).core.regs rMV_DONE = pairAt k.core.regs rMV_DONE + 1 ∧ (k.mvComplete m).core.mem = k.core.mem ∧
      (k.mvComplete m).core.s = k.core.s ∧
      (∀ n, n < 32 → (k.mvComplete m).core.counter n = if m.syncEn = true ∧ n = m.sync then k.core.counter n + 1 else k.core.counter n) ∧
      (m.acq = true → (k.mvComplete m).core.rlb = []) ∧ (k.mvComplete m).core.reg rDF_NOPROG = 0 := by
  obtain ⟨k1, hfire, heq⟩ := mvComplete_fired k m
  have hbody : (k.core.mvEnded m).mvAct = none ∧ (k.core.mvEnded m).mvQ = k.core.mvQ ∧ (k.core.mvEnded m).mem = k.core.mem ∧
      (k.core.mvEnded m).s = k.core.s ∧ (m.acq = true → (k.core.mvEnded m).rlb = []) := by
    unfold Core.mvEnded Core.mvCounted
    by_cases ha : m.acq = true <;> by_cases hs : m.syncEn = true <;> simp [ha, hs, Core.rlbClear, Core.count]
  obtain ⟨hact, hq, hmem, hsr, hrlb⟩ := hbody
  have he := hfire.1
  rw [heq]
  have hpair : ∀ lo, lo ≠ rDF_NOPROG → lo + 4 ≠ rDF_NOPROG → pairAt k1.progressed.core.regs lo = pairAt k1.core.regs lo :=
    fun lo h1 h2 => pairAt_set_other _ _ _ _ h1 h2
  refine ⟨by rw [he]; rfl, ?_, ?_, ?_, ?_, ?_, fun n hn => ?_, fun ha => ?_, Core.setReg_reg_self _ _ _⟩
  · exact (congrArg (fun k : K => k.core.mvAct) he).trans hact
  · exact (congrArg (fun k : K => k.core.mvQ) he).trans hq
  · rw [hpair _ (by decide) (by decide), hfire.pairAt_eq (by decide)]
    exact mvEnded_done k.core m
  · exact (congrArg (fun k : K => k.core.mem) he).trans hmem
  · exact (congrArg (fun k : K => k.core.s) he).trans hsr
  · have h := hfire.pairAt_eq (lo := rSY_CNT + 8 * n) (counterResets n hn)
    rw [Core.counter, hpair _ (by simp only [rSY_CNT, rDF_NOPROG]; omega) (by simp only [rSY_CNT, rDF_NOPROG]; omega), h]
    exact mvEnded_counter k.core m n
  · exact (congrArg (fun k : K => k.core.rlb) he).trans (hrlb ha)

/-! ### A digest leaves -/

/-- What decides whether an access is refused: banks, the section's state, the weights region and the channels' activity (R112, R113, R118,
R122). -/
theorem refusal_congr {k k' : Core} (hb : k'.banks = k.banks) (hd : k'.df = k.df) (hr : k'.reg rSP_REGION = k.reg rSP_REGION)
    (hi : ∀ n, n < 16 → k'.reg (rCH_ICFG + 0x40 * n) = k.reg (rCH_ICFG + 0x40 * n)) (w : Bool) (off : Nat) :
    k'.refusal w off = k.refusal w off := by
  have hres : k'.reserved off = k.reserved off := by
    simp only [Core.reserved, Core.configured, hd]
    by_cases h : off < 0x5C000
    · simp only [Core.ichActive]
      rw [hi _ (by omega)]
    · simp [h]
  have hbank : k'.bank (bankOf off) = k.bank (bankOf off) := by rw [Core.bank, hb, Core.bank]
  have hlock : k'.wlock = k.wlock := by rw [Core.wlock, hr, Core.wlock]
  have hwts : k'.inWeights off = k.inWeights off := by rw [Core.inWeights, Core.wtop, hr, Core.inWeights, Core.wtop]
  rw [Core.refusal, hbank, hres, hlock, hwts, Core.refusal]

/-- A count outside the scratchpad's and the channels' blocks refuses nothing. -/
theorem refusal_count (k : Core) {o : Nat} (n : Nat) (h : 0x3000 ≤ o ∧ o < 0x5000 ∨ 0x6000 ≤ o) (w : Bool) (off : Nat) :
    (k.count o n).refusal w off = k.refusal w off :=
  refusal_congr (k := k) (k' := k.count o n) rfl rfl (get_bump_other _ _ _ _ _ (by simp only [rSP_REGION]; omega) (by simp only [rSP_REGION]; omega))
    (fun n _ => get_bump_other _ _ _ _ _ (by simp only [rCH_ICFG]; omega) (by simp only [rCH_ICFG]; omega)) w off

theorem mvHashed_refusal (k : K) (ns : List Nat) (w : Bool) (off : Nat) : (k.mvHashed ns).core.refusal w off = k.core.refusal w off :=
  (refusal_count _ _ (by decide) w off).trans (refusal_count _ _ (by decide) w off)

/-- A command whose lines have all issued issues no more. -/
theorem pieces_issued {a : MvActive} {c : CoreId} (h : a.issued c = true) : (a.cmd.pieces c).drop a.next = [] :=
  List.drop_eq_nil_of_le (by simpa [MvActive.issued] using h)

/-- The mover waits for its last lines: nothing goes on. -/
theorem mvGoOn_waits {k : K} {a : MvActive} (ha : k.core.mvAct = some a) (hi : a.issued k.c = true) (hw : k.core.mvWrites = true) :
    k.mvGoOn = k := by
  have h1 : (if a.stopped then k else k.mvIssue a.cmd ((a.cmd.pieces k.c).drop a.next) a.next) = k := by
    rw [pieces_issued hi]
    split <;> rfl
  simp only [K.mvGoOn, ha]
  rw [h1]
  simp only [ha, hw, Bool.or_true, if_true]

/-- The core once a digest has been hashed and its line is on its way (R67, R76). -/
def Core.digested (k : Core) (a : MvActive) : Core :=
  ((({ k with mvAct := some { a with sent := true } } : Core).count rMV_DGBYTES [a.message.length].sum).count rPWC_DGB
    ([a.message.length].map shaBlocks).sum).linesQueued
    [{ agent := agMV, off := addrOff40 a.cmd.dst, bytes := Line.bytes (digestLine a.message a.message.length 0 0), num := a.cmd.num }]

/-- The digest of a command leaves for a line that takes it (R67). -/
theorem mvDigest_digest {k : K} {a : MvActive} (hop : a.cmd.op = 3) (hi : a.issued k.c = true) (hpad : addrOff40 a.cmd.dst + 64 ≤ 0x60000)
    (href : k.core.refusal true (addrOff40 a.cmd.dst) = none) : k.mvDigest a = { k with core := k.core.digested a } := by
  have hout : a.output = ([digestLine a.message a.message.length 0 0], [a.message.length]) := by
    simp only [MvActive.output, hop, if_true]
  rw [K.mvDigest, hout]
  dsimp only
  rw [K.mvOutput, if_neg (by simp only [padSize]; omega),
    queueBytes_accepted (k := K.mvHashed { k with core := { k.core with mvAct := some { a with sent := true } } } [a.message.length]) agMV a.cmd.num
      (Line.bytes (digestLine a.message a.message.length 0 0)) ((mvHashed_refusal _ _ _ _).trans href)]
  dsimp only
  rw [if_pos rfl, K.mvOutput]
  have hw : (k.core.digested a).mvWrites = true := by simp [Core.mvWrites, Core.digested, Core.linesQueued]
  exact mvGoOn_waits (k := { k with core := k.core.digested a }) (a := { a with sent := true }) rfl hi hw

/-! ### The obligation -/

/-- Settles O16. -/
theorem moverQueue : Obligations.MoverQueue := by
  unfold Obligations.MoverQueue
  refine ⟨fun s c a imm => ?_, fun s c a => ?_⟩
  · intro k ad
    refine ⟨fun hi hf hal hloc hn => ?_, fun hn => ?_, fun hi hn => ?_⟩
    · obtain ⟨t, hex, hone, hk⟩ := next_of_retires (i := .mvq c a imm) rfl hi (fun w => mvq_retires w hf hal hloc hn) rfl
      refine ⟨t, k.mvCaptured ad, hex, hone, ?_⟩
      rw [hk]
      exact ⟨rfl, descriptor_readLine _ ((addrOff40_mod (by decide)).trans hal), rfl, rfl, rfl, rfl,
        Core.retired_retireAt (by decide) (fun _ _ => rfl), fun _ => rfl, rfl, rfl⟩
    · exact computes_of_body (i := .mvw c imm) rfl (fun w => if_pos hn)
    · refine ⟨_, issue_of_issues hi, ?_⟩
      rw [if_neg (show ¬ (kOf s c).core.mvIncomplete ≤ imm.toNat from Nat.not_le.2 hn)]
      exact kPut_hold s c []
  · intro k m hl hact hout hw hst hiss
    have hex (f : K → K) (h : f (kOf s c) = (if m.op ≤ 2 || a.sent then (kOf s c).mvComplete m
        else if k.scan.isSome then kOf s c else (kOf s c).mvDigest a)) : exec (.localMoverCompletion c) s = .next (kPut s (f (kOf s c))) := by
      rw [h]
      show execLocalMoverCompletion c s = _
      simp only [execLocalMoverCompletion, onLive_of_alive hl]
      rw [show (kOf s c).core.mvAct = some a from hact]
      simp only [show (kOf s c).core.mvOutst = 0 from hout, show (kOf s c).core.mvWrites = false from hw, hst,
        show a.issued (kOf s c).c = true from hiss, Nat.lt_irrefl, decide_false, Bool.or_self, Bool.not_true, Bool.false_eq_true, if_false]
      rfl
    refine ⟨fun h => ?_, fun hop hsent hscan hpad href => ?_⟩
    · have hcond : (decide (m.op ≤ 2) || a.sent) = true := by
        rcases h with h | h <;> simp [h]
      obtain ⟨hc, hact', hq, hdone, hmem, hsr, hctr, hrlb, hnp⟩ := mvComplete_core (kOf s c) m
      refine ⟨_, hex (fun k => k.mvComplete m) (by rw [if_pos hcond]), ?_⟩
      rw [kPut_core (show K.c _ = c from hc)]
      refine ⟨hact', hq, hdone, hmem, hsr, fun he => ?_, fun n hn hne => ?_, hrlb, hnp, kPut_other hc⟩
      · rw [hctr m.sync (BitVec.isLt _), if_pos ⟨he, rfl⟩]
        rfl
      · rw [hctr n hn, if_neg (fun ⟨he, heq⟩ => hne.elim (fun h => by simp [he] at h) (fun h => h heq))]
        rfl
    · have hcond : (decide (m.op ≤ 2) || a.sent) = false := by
        rw [hop, hsent]; rfl
      refine ⟨_, hex (fun k => k.mvDigest a) (by
        rw [if_neg (by rw [hcond]; exact Bool.false_ne_true), show k.scan = none from hscan]; rfl), ?_⟩
      rw [mvDigest_digest (k := kOf s c) hop hiss hpad href, kPut_core (show K.c _ = c from rfl)]
      refine ⟨rfl, ?_, rfl, rfl, rfl, kPut_other rfl⟩
      simp only [Core.digested, Core.linesQueued, Core.count]
      rw [pairAt_bump_other _ _ _ _ (by decide) (by decide) (by decide), pairAt_bump, List.sum_singleton]
      rfl

end Sys2Proof.Machine
end

section
/-! SUPPORT. The lines of a mover command of one row within the core's own scratchpad: their addresses, their bytes, and their issue one after
the other. -/

namespace Sys2Proof.Machine

/-! ### Addresses a line further -/

theorem field_eq_div (v : DWord) (lo n : Nat) : field v lo n = v.toNat / 2 ^ lo % 2 ^ n := by
  simp [field, BitVec.extractLsb'_toNat, Nat.shiftRight_eq_div_pow]

/-- An offset added within the low 40 bits leaves the fields above. -/
theorem field_add_offset {a : DWord} {x lo n : Nat} (h : addrOff40 a + x < 2 ^ 40) (hlo : 40 ≤ lo) :
    field (a + BitVec.ofNat 64 x) lo n = field a lo n := by
  rw [addrOff40, field_eq_div, Nat.pow_zero, Nat.div_one] at h
  have ha := a.isLt
  have hsum : (a + BitVec.ofNat 64 x).toNat = a.toNat + x := by
    rw [BitVec.toNat_add, BitVec.toNat_ofNat]
    omega
  obtain ⟨d, rfl⟩ := Nat.exists_eq_add_of_le hlo
  rw [field_eq_div, field_eq_div, hsum, Nat.pow_add, ← Nat.div_div_eq_div_mul, ← Nat.div_div_eq_div_mul]
  congr 2
  omega

theorem addrOff40_add_offset {a : DWord} {x : Nat} (h : addrOff40 a + x < 2 ^ 40) : addrOff40 (a + BitVec.ofNat 64 x) = addrOff40 a + x := by
  have h' := h
  simp only [addrOff40, field_eq_div, Nat.pow_zero, Nat.div_one] at h' ⊢
  have ha := a.isLt
  rw [BitVec.toNat_add, BitVec.toNat_ofNat]
  omega

/-- A line further on of an address in the own scratchpad is there too. -/
theorem isOwnSpad_add_offset {c : CoreId} {a : DWord} {x : Nat} (ho : isOwnSpad c a = true) (h : addrOff40 a + x < 2 ^ 40) :
    isOwnSpad c (a + BitVec.ofNat 64 x) = true := by
  rw [isOwnSpad, addrSpace, addrCore, addrX, addrY, field_add_offset h (by decide), field_add_offset h (by decide), field_add_offset h (by decide)]
  exact ho

/-! ### Bytes of lines -/

theorem extract_toNat {w : Nat} (v : BitVec w) (lo n : Nat) : (v.extractLsb' lo n).toNat = v.toNat / 2 ^ lo % 2 ^ n := by
  rw [BitVec.extractLsb'_toNat, Nat.shiftRight_eq_div_pow]

/-- The bytes of a line as they stand in the scratchpad (R11). -/
theorem bytes_readLine (m : Mem) (a : Nat) : Line.bytes (Mem.readLine m a) = (List.range 64).map (fun b => Mem.read m (a + b)) := by
  refine List.map_congr_left (fun b hb => ?_)
  have hb' : b < 64 := List.mem_range.1 hb
  rw [← Mem.readN_byte m a 64 b hb']
  apply BitVec.eq_of_toNat_eq
  rw [extract_toNat, Mem.readLine_toNat, BitVec.toNat_ofNat, pow256]

/-- A word repeated, as a number: each of its places holds the word. -/
theorem repeated_word (w : DWord) {q n : Nat} (h : q < n) :
    (List.replicate n w).foldr (fun w n => w.toNat + 2 ^ 64 * n) 0 / 2 ^ (64 * q) % 2 ^ 64 = w.toNat := by
  have hw := w.isLt
  induction n generalizing q with
  | zero => omega
  | succ n ih =>
    rw [List.replicate_succ, List.foldr_cons]
    generalize hN : (List.replicate n w).foldr (fun w n => w.toNat + 2 ^ 64 * n) 0 = N at ih ⊢
    cases q with
    | zero =>
      rw [Nat.mul_zero, Nat.pow_zero, Nat.div_one, Nat.add_mul_mod_self_left]
      omega
    | succ q =>
      rw [Nat.mul_succ, Nat.add_comm (64 * q), Nat.pow_add, ← Nat.div_div_eq_div_mul, Nat.add_mul_div_left _ _ (Nat.two_pow_pos 64),
        Nat.div_eq_of_lt hw, Nat.zero_add]
      exact ih (by omega)

/-- A field of a number cut off above it. -/
theorem mod_div_mod (N : Nat) {d e w : Nat} (h : d + e ≤ w) : N % 2 ^ w / 2 ^ d % 2 ^ e = N / 2 ^ d % 2 ^ e := by
  obtain ⟨r, rfl⟩ := Nat.exists_eq_add_of_le h
  rw [Nat.add_assoc, Nat.pow_add, Nat.mod_mul_right_div_self, Nat.pow_add, Nat.mod_mul_right_mod]

/-- The bytes of the pattern of a FILL (R61). -/
theorem bytes_fillLine (m : MvCmd) : Line.bytes (fillLine m) = (List.range 64).map (fun b => m.src.extractLsb' (8 * (b % 8)) 8) := by
  refine List.map_congr_left (fun b hb => ?_)
  have hb' : b < 64 := List.mem_range.1 hb
  have hword := repeated_word m.src (show b / 8 < 8 by omega)
  apply BitVec.eq_of_toNat_eq
  rw [extract_toNat, extract_toNat, fillLine, lineOfWords, BitVec.toNat_ofNat, ← hword]
  generalize (List.replicate 8 m.src).foldr (fun w n => w.toNat + 2 ^ 64 * n) 0 = N
  rw [mod_div_mod N (show 8 * b + 8 ≤ 512 by omega), mod_div_mod _ (show 8 * (b % 8) + 8 ≤ 64 by omega),
    show 8 * b = 64 * (b / 8) + 8 * (b % 8) by omega, Nat.pow_add, Nat.div_div_eq_div_mul]

/-! ### Pieces of one line -/

/-- A piece of one line, the i-th of a row (R63). -/
def linePiece (s d : DWord) (idx i : Nat) : MvPiece :=
  { src := s + BitVec.ofNat 64 (64 * i), dst := d + BitVec.ofNat 64 (64 * i), n := 1, idx := idx + i }

theorem linePiece_shift (s d : DWord) (idx i : Nat) : linePiece (s + BitVec.ofNat 64 64) (d + BitVec.ofNat 64 64) (idx + 1) i = linePiece s d idx (i + 1) := by
  have h (a : DWord) : a + BitVec.ofNat 64 64 + BitVec.ofNat 64 (64 * i) = a + BitVec.ofNat 64 (64 * (i + 1)) := by
    rw [BitVec.add_assoc, ← BitVec.ofNat_add, Nat.mul_succ, Nat.add_comm]
  simp only [linePiece, h, Nat.add_assoc, Nat.add_comm 1]

/-- A row that never leaves the own scratchpad moves line by line (R64). -/
theorem rowPieces_lines {split : DWord → DWord → Nat} {fuel left : Nat} {s d : DWord} (idx : Nat) (hf : left ≤ fuel)
    (h : ∀ i, i < left → split (s + BitVec.ofNat 64 (64 * i)) (d + BitVec.ofNat 64 (64 * i)) = 1) :
    rowPieces split fuel s d idx left = (List.range left).map (linePiece s d idx) := by
  induction fuel generalizing s d idx left with
  | zero =>
    obtain rfl : left = 0 := by omega
    rfl
  | succ fuel ih =>
    cases left with
    | zero => rfl
    | succ left =>
      have h0 : split s d = 1 := by simpa using h 0 (by omega)
      rw [rowPieces, if_neg (by omega), h0, show min (left + 1) 1 = 1 by omega]
      dsimp only
      rw [Nat.add_sub_cancel, ih (idx + 1) (by omega) (fun i hi => ?_), List.range_succ_eq_map, List.map_cons, List.map_map]
      · refine congrArg₂ List.cons ?_ (List.map_congr_left (fun i _ => linePiece_shift s d idx i))
        simp [linePiece]
      · have hs := h (i + 1) (by omega)
        have hadd (a : DWord) : a + BitVec.ofNat 64 64 + BitVec.ofNat 64 (64 * i) = a + BitVec.ofNat 64 (64 * (i + 1)) := by
          rw [BitVec.add_assoc, ← BitVec.ofNat_add, Nat.mul_succ, Nat.add_comm]
        rwa [← hadd, ← hadd] at hs

/-- The pieces of a command of one row. -/
theorem pieces_oneRow {m : MvCmd} {c : CoreId} {n : Nat} (hr : m.rows = 1) (hn : m.rowLines = n)
    (h : ∀ i, i < n → m.split c ((if m.op = mvFILL then 0 else m.src) + BitVec.ofNat 64 (64 * i)) (m.dst + BitVec.ofNat 64 (64 * i)) = 1) :
    m.pieces c = (List.range n).map (linePiece (if m.op = mvFILL then 0 else m.src) m.dst 0) := by
  have hz (x : Nat) (a : DWord) : a + BitVec.ofNat 64 (64 * 0 * x) = a := by simp
  rw [MvCmd.pieces, hr, show List.range 1 = [0] from rfl, List.flatMap_singleton, hn]
  simp only [hz, Nat.zero_mul]
  exact rowPieces_lines _ (Nat.le_refl n) h

/-! ### Issue of one piece after the other -/

/-- Pieces that each find the mover ready issue in turn; `P j` is the context once j of them have (R63). -/
theorem mvIssue_run {m : MvCmd} {P : Nat → K} {p : Nat → MvPiece} {j r : Nat}
    (hact : ∀ i, i < j + r → ∃ a, (P i).core.mvAct = some a ∧ a.stopped = false)
    (hheld : ∀ i, i < j + r → (P i).core.pieceHeld (P i).c m (p i) = false)
    (hrem : ∀ i, i < j + r → m.remote (P i).c (p i) = false)
    (hstep : ∀ i, i < j + r → ∀ slot, (K.mvIssue.advanceTo (P i) (i + 1)).mvPiece m i (p i) slot = P (i + 1)) :
    K.mvIssue (P j) m ((List.range' j r).map p) j = P (j + r) := by
  induction r generalizing j with
  | zero => rfl
  | succ r ih =>
    obtain ⟨a, ha, hs⟩ := hact j (by omega)
    have hnext : K.mvIssue (P (j + 1)) m ((List.range' (j + 1) r).map p) (j + 1) = P (j + (r + 1)) := by
      have := ih (j := j + 1) (fun i hi => hact i (by omega)) (fun i hi => hheld i (by omega)) (fun i hi => hrem i (by omega))
        (fun i hi => hstep i (by omega))
      rwa [show j + 1 + r = j + (r + 1) by omega] at this
    rw [List.range'_succ, List.map_cons, K.mvIssue]
    simp only [ha, hs, hheld j (by omega), hrem j (by omega), Bool.or_self, Bool.false_eq_true, if_false]
    cases (P j).core.freeSlot 8 56 with
    | none => simp only [hstep j (by omega)]; exact hnext
    | some slot => simp only [hstep j (by omega)]; exact hnext

end Sys2Proof.Machine
end

section
/-! SUPPORT. What each command of the mover writes or takes, and a descriptor that its rules forbid. -/

namespace Sys2Proof.Machine

/-! ### A core whose mover has moved some lines -/

/-- The registers once n lines have been counted (R76, R347). -/
def movedRegs (r : SMap Word) : Nat → SMap Word
  | 0 => r
  | n + 1 => bump (bump (movedRegs r n) rMV_LINES 1) rPWC_MVL 1

theorem movedRegs_lines (r : SMap Word) (n : Nat) : pairAt (movedRegs r n) rMV_LINES = pairAt r rMV_LINES + BitVec.ofNat 64 n := by
  induction n with
  | zero => simp [movedRegs]
  | succ n ih =>
    rw [movedRegs, pairAt_bump_other _ _ _ _ (by decide) (by decide) (by decide), pairAt_bump, ih, BitVec.add_assoc, ← BitVec.ofNat_add]

theorem movedRegs_get (r : SMap Word) (n : Nat) (d : Word) {off : Nat} (h : off ∉ [rMV_LINES, rMV_LINES + 4, rPWC_MVL, rPWC_MVL + 4]) :
    SMap.get d (movedRegs r n) off = SMap.get d r off := by
  simp only [List.mem_cons, List.not_mem_nil, or_false, not_or] at h
  obtain ⟨h1, h2, h3, h4⟩ := h
  induction n with
  | zero => rfl
  | succ n ih => rw [movedRegs, get_bump_other _ _ _ _ _ h3 h4, get_bump_other _ _ _ _ _ h1 h2, ih]

/-- A command as the mover executes it after j of its pieces: nothing has gone wrong, and `data` is what it keeps for the digest engine. -/
def MvCmd.active (m : MvCmd) (data : SMap Line) (j : Nat) : MvActive :=
  { cmd := m, next := j, err := none, stopped := false, data := data, sent := false }

/-- A core whose mover has taken a command and moved j lines of it: `ws` are its writes on their way (R63, R128). -/
def Core.moving (k : Core) (m : MvCmd) (rest : List MvCmd) (ws : List LineWr) (data : SMap Line) (j : Nat) : Core :=
  { k with mvQ := rest, mvAct := some (m.active data j), lineWr := k.lineWr ++ ws, regs := movedRegs k.regs j }

section
variable (k : Core) (m : MvCmd) (rest : List MvCmd) (ws : List LineWr) (data : SMap Line) (j : Nat)

theorem moving_refusal (w : Bool) (off : Nat) : (k.moving m rest ws data j).refusal w off = k.refusal w off := by
  refine refusal_congr (k := k) (k' := k.moving m rest ws data j) rfl rfl (movedRegs_get _ _ _ (by decide)) (fun n hn => movedRegs_get _ _ _ ?_) w off
  simp only [rCH_ICFG, rMV_LINES, rPWC_MVL, List.mem_cons, List.not_mem_nil, or_false]
  omega

theorem moving_mvHeld (off : Nat) : (k.moving m rest ws data j).mvHeld off =
    (k.mvHeld off || ws.any (fun w => w.agent == agMV && w.off / 64 == off / 64)) := by
  rw [Core.mvHeld, Core.mvHeld, Bool.or_assoc, ← List.any_append]
  rfl

/-- The next piece is on its way, and its line is counted. -/
theorem moving_written (w : LineWr) :
    ((({ k.moving m rest ws data j with mvAct := some (m.active data (j + 1)) } : Core).linesQueued [w]).count rMV_LINES 1).count rPWC_MVL 1 =
      k.moving m rest (ws ++ [w]) data (j + 1) := by
  simp only [Core.moving, Core.linesQueued, List.append_assoc]
  rfl

end

/-! ### One line -/

/-- A line of the own scratchpad is read as it stands (R63, R116). -/
theorem mvReadPad_line {k : K} {a : DWord} (hp : addrOff40 a + 64 ≤ 0x60000) (hal : addrOff40 a % 64 = 0)
    (hr : k.core.refusal false (addrOff40 a) = none) (hc : k.core.cleanLine (addrOff40 a) = true) :
    k.mvReadPad a 1 = (k, [Mem.readLine k.core.mem (addrOff40 a)]) := by
  have hoff : addrOff40 a / 64 * 64 = addrOff40 a := Nat.div_mul_cancel (Nat.dvd_of_mod_eq_zero hal)
  rw [K.mvReadPad, if_neg (by simp only [padSize]; omega), readLine_clean hr (hoff.symm ▸ hc), hoff]
  rfl

/-- A line goes on its way to its bank, and is counted (R63, R76, R128). -/
theorem mvWritePad_line {k : K} {a : DWord} {num : Nat} (l : Line) (hp : addrOff40 a + 64 ≤ 0x60000) (hr : k.core.refusal true (addrOff40 a) = none) :
    k.mvWritePad num a [l] = { k with
      core := ((k.core.linesQueued [{ agent := agMV, off := addrOff40 a, bytes := Line.bytes l, num := num }]).count rMV_LINES 1).count rPWC_MVL 1 } := by
  rw [K.mvWritePad, if_neg (by simp only [padSize]; omega), queueBytes_accepted agMV num (Line.bytes l) hr]
  dsimp only
  rw [if_pos rfl, K.mvWritePad]
  rfl

/-- A line of a COPY within the own scratchpad (R62, R63). -/
theorem mvPiece_copy {k : K} {m : MvCmd} {p : MvPiece} (i slot : Nat) (hop : m.op = 1) (hn : p.n = 1) (hs : isOwnSpad k.c p.src = true)
    (hd : isOwnSpad k.c p.dst = true) (hps : addrOff40 p.src + 64 ≤ 0x60000) (hal : addrOff40 p.src % 64 = 0)
    (hr : k.core.refusal false (addrOff40 p.src) = none) (hc : k.core.cleanLine (addrOff40 p.src) = true) :
    k.mvPiece m i p slot = k.mvWritePad m.num p.dst [Mem.readLine k.core.mem (addrOff40 p.src)] := by
  rw [K.mvPiece, hop, hs, hn, mvReadPad_line hps hal hr hc]
  simp [hd, mvFILL]

/-- A line of a FILL of the own scratchpad (R61). -/
theorem mvPiece_fill {k : K} {m : MvCmd} {p : MvPiece} (i slot : Nat) (hop : m.op = 2) (hn : p.n = 1) (hd : isOwnSpad k.c p.dst = true) :
    k.mvPiece m i p slot = k.mvWritePad m.num p.dst [fillLine m] := by
  rw [K.mvPiece, hop, hn]
  simp [hd, mvFILL]

/-- A line that the digest engine takes from the own scratchpad (R66). -/
theorem mvPiece_keep {k : K} {m : MvCmd} {p : MvPiece} (i slot : Nat) (hop : 3 ≤ m.op) (hn : p.n = 1) (hs : isOwnSpad k.c p.src = true)
    (hps : addrOff40 p.src + 64 ≤ 0x60000) (hal : addrOff40 p.src % 64 = 0) (hr : k.core.refusal false (addrOff40 p.src) = none)
    (hc : k.core.cleanLine (addrOff40 p.src) = true) :
    k.mvPiece m i p slot = (k.mvKeep p.idx [Mem.readLine k.core.mem (addrOff40 p.src)]).mvMoved 1 := by
  have h2 : m.op ≠ mvFILL := by simp only [mvFILL]; omega
  rw [K.mvPiece, hs, hn, mvReadPad_line hps hal hr hc]
  simp [hop, h2]

/-! ### The command taken -/

/-- A valid command that nothing holds up is taken and goes on (R62, R63). -/
theorem mvStart_goesOn {k : K} {m : MvCmd} {rest : List MvCmd} {op : Nat} (hact : k.core.mvAct = none) (hq : k.core.mvQ = m :: rest)
    (hop : m.op = op) (hv : m.valid k.c = true) (hsees : k.core.mvSees m = true) (hrel : m.rel = false) :
    mvStart op k = K.mvGoOn { k with core := k.core.moving m rest [] [] 0 } := by
  simp only [mvStart, hact, hq, hop, hv, hsees, hrel, ne_eq, not_true_eq_false, false_and, if_false, Bool.not_true, Bool.false_and, Bool.or_self,
    Bool.false_eq_true, Core.moving, List.append_nil]
  rfl

/-- What is left to do once every piece has issued: nothing, while writes are on their way or the digest engine has yet to answer (R63, R67). -/
theorem mvGoOn_moved {k k1 : K} {m : MvCmd} {data : SMap Line} {n : Nat} (hact : k.core.mvAct = some (m.active [] 0))
    (hissue : k.mvIssue m (m.pieces k.c) 0 = k1) (hact1 : k1.core.mvAct = some (m.active data n))
    (hend : k1.core.mvWrites = true ∨ 3 ≤ m.op) : k.mvGoOn = k1 := by
  have hnet : k1.core.mvWrites = false → m.networked k.c = false := by
    intro hw
    have : ¬ m.op ≤ 2 := by
      rcases hend with h | h
      · rw [hw] at h; exact absurd h Bool.false_ne_true
      · omega
    simp [MvCmd.networked, this]
  rw [K.mvGoOn]
  simp only [hact, MvCmd.active, List.drop_zero, Bool.false_eq_true, if_false, hissue, hact1]
  by_cases hw : (decide (0 < k1.core.mvOutst) || k1.core.mvWrites) = true
  · rw [if_pos hw]
  · rw [if_neg hw]
    simp only [Bool.or_eq_true, not_or, Bool.not_eq_true] at hw
    simp [hnet hw.2]

/-- A command of lines, each ready in its turn, is taken and moves them all: `ws` and `data` are what it has written and kept after each
(R63). -/
theorem mover_moves {s : State} {c : CoreId} {m : MvCmd} {rest : List MvCmd} {n : Nat} {p : Nat → MvPiece} {ws : Nat → List LineWr}
    {data : Nat → SMap Line} {op : Nat} (hact : (s.core c).mvAct = none) (hq : (s.core c).mvQ = m :: rest) (hop : m.op = op)
    (hv : m.valid c = true) (hsees : (s.core c).mvSees m = true) (hrel : m.rel = false) (hp : m.pieces c = (List.range n).map p)
    (hw0 : ws 0 = []) (hd0 : data 0 = []) (hend : ws n ≠ [] ∧ (∀ w ∈ ws n, w.agent = agMV) ∨ 3 ≤ m.op)
    (hheld : ∀ i, i < n → ((s.core c).moving m rest (ws i) (data i) i).pieceHeld c m (p i) = false)
    (hrem : ∀ i, i < n → m.remote c (p i) = false)
    (hstep : ∀ i, i < n → ∀ slot, K.mvPiece { kOf s c with
        core := { (s.core c).moving m rest (ws i) (data i) i with mvAct := some (m.active (data i) (i + 1)) } } m i (p i) slot =
      { kOf s c with core := (s.core c).moving m rest (ws (i + 1)) (data (i + 1)) (i + 1) }) :
    mvStart op (kOf s c) = { kOf s c with core := (s.core c).moving m rest (ws n) (data n) n } := by
  rw [mvStart_goesOn (k := kOf s c) hact hq hop hv hsees hrel]
  have hrun := mvIssue_run (m := m) (P := fun j => { kOf s c with core := (s.core c).moving m rest (ws j) (data j) j }) (p := p) (j := 0) (r := n)
    (fun i _ => ⟨_, rfl, rfl⟩) (fun i hi => hheld i (by omega)) (fun i hi => hrem i (by omega)) (fun i hi slot => hstep i (by omega) slot)
  rw [Nat.zero_add, ← List.range_eq_range', ← hp] at hrun
  rw [hw0, hd0] at hrun
  refine mvGoOn_moved rfl hrun rfl ?_
  rcases hend with ⟨hne, hag⟩ | h
  · obtain ⟨w, t, hwt⟩ := List.exists_cons_of_ne_nil hne
    have hm : w.agent = agMV := hag w (by simp [hwt])
    exact .inl (List.any_eq_true.2 ⟨w, List.mem_append_right _ (by simp [hwt]), by simp [hm]⟩)
  · exact .inr h

/-! ### COPY, FILL, DIGEST and CHUNK -/

/-- What a valid COPY has (R62). -/
theorem valid_copy {m : MvCmd} {c : CoreId} (hop : m.op = 1) (hv : m.valid c = true) :
    m.length ≠ 0 ∧ m.length % 64 = 0 ∧ m.src.toNat % 64 = 0 ∧ m.dst.toNat % 64 = 0 := by
  simp only [MvCmd.valid, hop, aligned, Bool.and_eq_true, bne_iff_ne, ne_eq, beq_iff_eq] at hv
  obtain ⟨-, (⟨⟨⟨⟨hlen, hmod⟩, hs⟩, hd⟩, -⟩)⟩ := hv
  exact ⟨hlen, hmod, hs, hd⟩

/-- What a valid FILL has (R62). -/
theorem valid_fill {m : MvCmd} {c : CoreId} (hop : m.op = 2) (hv : m.valid c = true) : m.length ≠ 0 ∧ m.length % 64 = 0 := by
  simp only [MvCmd.valid, hop, Bool.and_eq_true, bne_iff_ne, ne_eq, beq_iff_eq] at hv
  obtain ⟨-, ⟨hlen, hmod⟩, -⟩ := hv
  exact ⟨hlen, hmod⟩

/-- What a valid DIGEST or CHUNK has (R62). -/
theorem valid_hash {m : MvCmd} {c : CoreId} (hop : m.op = 3 ∨ m.op = 4) (hv : m.valid c = true) : m.src.toNat % 64 = 0 := by
  rcases hop with h | h <;> simp only [MvCmd.valid, h, aligned, Bool.and_eq_true, beq_iff_eq] at hv <;> tauto

/-- The write of the i-th line of a command (R63, R128). -/
def MvCmd.lineWrite (m : MvCmd) (l : Nat → Line) (i : Nat) : LineWr :=
  { agent := agMV, off := addrOff40 m.dst + 64 * i, bytes := Line.bytes (l i), num := m.num }

theorem lineWrite_append (m : MvCmd) (l : Nat → Line) (i : Nat) :
    (List.range i).map (m.lineWrite l) ++ [m.lineWrite l i] = (List.range (i + 1)).map (m.lineWrite l) := by
  rw [List.range_succ, List.map_append, List.map_singleton]

/-- Lines handed to the banks are writes of the mover. -/
theorem lineWrites_mover (m : MvCmd) (l : Nat → Line) {n : Nat} (h : 0 < n) :
    (List.range n).map (m.lineWrite l) ≠ [] ∧ ∀ w ∈ (List.range n).map (m.lineWrite l), w.agent = agMV := by
  refine ⟨by simp; omega, fun w hw => ?_⟩
  obtain ⟨i, -, rfl⟩ := List.mem_map.1 hw
  rfl

/-- The i-th source line of a command as it stands. -/
def MvCmd.srcLine (m : MvCmd) (mem : Mem) (i : Nat) : Line := Mem.readLine mem (addrOff40 m.src + 64 * i)

/-- A core whose mover has handed n lines of a command to their banks. -/
def Core.movedLines (k : Core) (m : MvCmd) (rest : List MvCmd) (l : Nat → Line) (n : Nat) : Core :=
  k.moving m rest ((List.range n).map (m.lineWrite l)) [] n

/-- One more line of a command is on its way. -/
theorem movedLines_succ {s : State} {c : CoreId} {m : MvCmd} {rest : List MvCmd} {l : Nat → Line} {i : Nat} {k : K} (d : DWord)
    (hk : k = { kOf s c with core := { (s.core c).movedLines m rest l i with mvAct := some (m.active [] (i + 1)) } })
    (hd : addrOff40 d = addrOff40 m.dst + 64 * i) (hp : addrOff40 d + 64 ≤ 0x60000) (hw : (s.core c).refusal true (addrOff40 m.dst + 64 * i) = none) :
    k.mvWritePad m.num d [l i] = { kOf s c with core := (s.core c).movedLines m rest l (i + 1) } := by
  subst hk
  rw [mvWritePad_line _ hp (by rw [hd]; exact (moving_refusal (s.core c) m rest ((List.range i).map (m.lineWrite l)) [] i true _).trans hw), hd]
  exact congrArg (fun k1 => ({ kOf s c with core := k1 } : K))
    ((moving_written (s.core c) m rest _ [] i (m.lineWrite l i)).trans (by rw [lineWrite_append]; rfl))

section
variable {s : State} {c : CoreId} {m : MvCmd} {rest : List MvCmd} {n : Nat}

/-- The source line and the destination line of a piece, where they lie in the own scratchpad. -/
theorem linePiece_off {a : DWord} {i : Nat} (h : addrOff40 a + 64 * n ≤ 0x60000) (hi : i < n) :
    addrOff40 a + 64 * i < 2 ^ 40 ∧ addrOff40 (a + BitVec.ofNat 64 (64 * i)) = addrOff40 a + 64 * i ∧
      addrOff40 (a + BitVec.ofNat 64 (64 * i)) + 64 ≤ 0x60000 := by
  have hlt : addrOff40 a + 64 * i < 2 ^ 40 := by omega
  have he := addrOff40_add_offset hlt
  exact ⟨hlt, he, by omega⟩

/-- COPY within the own scratchpad hands its lines to the banks of its destination (R61 to R63, R128). -/
theorem copy_moves (hop : m.op = 1) (hn : n = m.length / 64) (hst : s.moverStarts c m rest n)
    (hdis : addrOff40 m.src + m.length ≤ addrOff40 m.dst ∨ addrOff40 m.dst + m.length ≤ addrOff40 m.src) :
    mvStart mvCOPY (kOf s c) = { kOf s c with core := (s.core c).movedLines m rest (m.srcLine (s.core c).mem) n } := by
  obtain ⟨-, hact, hq, hv, hrows, hsees, hrel, hlines, hsrc, hdst⟩ := hst
  obtain ⟨hlen, hmod, hsa, hda⟩ := valid_copy hop hv
  obtain ⟨hso, hsn⟩ := hsrc (by omega)
  obtain ⟨hdo, hdn⟩ := hdst (by omega)
  have h64 : addrOff40 m.src % 64 = 0 ∧ addrOff40 m.dst % 64 = 0 :=
    ⟨(addrOff40_mod (by decide)).trans hsa, (addrOff40_mod (by decide)).trans hda⟩
  have hfill : ¬ m.op = mvFILL := by rw [hop]; decide
  have hown : ∀ i, i < n → isOwnSpad c (m.src + BitVec.ofNat 64 (64 * i)) = true ∧ isOwnSpad c (m.dst + BitVec.ofNat 64 (64 * i)) = true :=
    fun i hi => ⟨isOwnSpad_add_offset hso (linePiece_off hsn hi).1, isOwnSpad_add_offset hdo (linePiece_off hdn hi).1⟩
  have hp : m.pieces c = (List.range n).map (linePiece m.src m.dst 0) := by
    have hsplit : ∀ i, i < n →
        m.split c ((if m.op = mvFILL then 0 else m.src) + BitVec.ofNat 64 (64 * i)) (m.dst + BitVec.ofNat 64 (64 * i)) = 1 := by
      intro i hi
      obtain ⟨h1, h2⟩ := hown i hi
      rw [if_neg hfill, MvCmd.split, hop]
      simp only [h1, h2, if_true]
    rw [pieces_oneRow hrows (by rw [MvCmd.rowLines]; omega) hsplit, if_neg hfill]
  refine mover_moves (ws := fun j => (List.range j).map (m.lineWrite _)) (data := fun _ => []) hact hq hop hv hsees hrel hp rfl rfl
    (.inl (lineWrites_mover m _ (by omega))) (fun i hi => ?_) (fun i hi => ?_) (fun i hi slot => ?_)
  · obtain ⟨-, hoff, -⟩ := linePiece_off hsn hi
    have hfree : ((List.range i).map (m.lineWrite (m.srcLine (s.core c).mem))).any
        (fun w => w.agent == agMV && w.off / 64 == (addrOff40 m.src + 64 * i) / 64) = false := by
      refine List.any_eq_false.2 (fun w hw => ?_)
      obtain ⟨j, hj, rfl⟩ := List.mem_map.1 hw
      have hj' : j < i := List.mem_range.1 hj
      simp only [MvCmd.lineWrite, Bool.and_eq_true, beq_iff_eq, not_and]
      omega
    have hheld := ((hlines i hi).1 (by omega)).1
    simp only [Core.pieceHeld, linePiece, (hown i hi).1, hoff, List.range_one, List.any_cons, List.any_nil, Nat.mul_zero, Nat.add_zero,
      moving_mvHeld, hheld, hfree, Bool.or_self, Bool.and_false]
  · simp [MvCmd.remote, linePiece, hown i hi, hop]
  · obtain ⟨-, hsoff, hs64⟩ := linePiece_off hsn hi
    obtain ⟨-, hdoff, hd64⟩ := linePiece_off hdn hi
    obtain ⟨hread, hwref⟩ := hlines i hi
    obtain ⟨-, href, hclean⟩ := hread (by omega)
    refine (mvPiece_copy (p := linePiece m.src m.dst 0 i) i slot hop rfl (hown i hi).1 (hown i hi).2 hs64 ?_ ?_ ?_).trans ?_ <;>
      simp only [linePiece, hsoff]
    · omega
    · exact (moving_refusal (s.core c) m rest ((List.range i).map (m.lineWrite (m.srcLine (s.core c).mem))) [] i false _).trans href
    · exact hclean
    · exact movedLines_succ (l := m.srcLine (s.core c).mem) _ rfl hdoff hd64 (hwref (by omega))

/-- FILL of the own scratchpad hands its pattern to the banks of its destination (R61, R62, R128). -/
theorem fill_moves (hop : m.op = 2) (hn : n = m.length / 64) (hst : s.moverStarts c m rest n) :
    mvStart mvFILL (kOf s c) = { kOf s c with core := (s.core c).movedLines m rest (fun _ => fillLine m) n } := by
  obtain ⟨-, hact, hq, hv, hrows, hsees, hrel, hlines, -, hdst⟩ := hst
  obtain ⟨hlen, hmod⟩ := valid_fill hop hv
  obtain ⟨hdo, hdn⟩ := hdst (by omega)
  have hown : ∀ i, i < n → isOwnSpad c (m.dst + BitVec.ofNat 64 (64 * i)) = true :=
    fun i hi => isOwnSpad_add_offset hdo (linePiece_off hdn hi).1
  have hp : m.pieces c = (List.range n).map (linePiece 0 m.dst 0) := by
    have hsplit : ∀ i, i < n →
        m.split c ((if m.op = mvFILL then 0 else m.src) + BitVec.ofNat 64 (64 * i)) (m.dst + BitVec.ofNat 64 (64 * i)) = 1 := by
      intro i hi
      rw [MvCmd.split, hop]
      simp only [hown i hi, if_true]
    rw [pieces_oneRow hrows (by rw [MvCmd.rowLines]; omega) hsplit, if_pos hop]
  refine mover_moves (ws := fun j => (List.range j).map (m.lineWrite _)) (data := fun _ => []) hact hq hop hv hsees hrel hp rfl rfl
    (.inl (lineWrites_mover m _ (by omega))) (fun i hi => ?_) (fun i hi => ?_) (fun i hi slot => ?_)
  · simp [Core.pieceHeld, hop, mvFILL]
  · simp [MvCmd.remote, linePiece, hown i hi, hop, mvFILL]
  · obtain ⟨-, hdoff, hd64⟩ := linePiece_off hdn hi
    refine (mvPiece_fill (p := linePiece 0 m.dst 0 i) i slot hop rfl (hown i hi)).trans ?_
    exact movedLines_succ (l := fun _ => fillLine m) _ rfl hdoff hd64 ((hlines i hi).2 (by omega))

/-! ### Lines for the digest engine -/

/-- The first j source lines of a command, kept for the digest engine (R66). -/
def MvCmd.kept (m : MvCmd) (mem : Mem) (j : Nat) : SMap Line := (List.range j).foldl (fun d i => SMap.set d i (m.srcLine mem i)) []

theorem kept_succ (m : MvCmd) (mem : Mem) (j : Nat) : m.kept mem (j + 1) = SMap.set (m.kept mem j) j (m.srcLine mem j) := by
  rw [MvCmd.kept, List.range_succ, List.foldl_append]
  rfl

theorem kept_get (m : MvCmd) (mem : Mem) {i j : Nat} (h : i < j) : SMap.get 0 (m.kept mem j) i = m.srcLine mem i := by
  induction j with
  | zero => omega
  | succ j ih =>
    rw [kept_succ, SMap.get_set]
    split
    · rename_i he; rw [he]
    · exact ih (by omega)

/-- DIGEST and CHUNK of the own scratchpad keep their source lines for the digest engine (R66). -/
theorem hash_moves {op : Nat} (ho : op = 3 ∨ op = 4) (hop : m.op = op) (hn : n = (m.length + 63) / 64) (hst : s.moverStarts c m rest n) :
    mvStart op (kOf s c) = { kOf s c with core := (s.core c).moving m rest [] (m.kept (s.core c).mem n) n } := by
  obtain ⟨-, hact, hq, hv, hrows, hsees, hrel, hlines, hsrc, -⟩ := hst
  have h3 : 3 ≤ m.op := by omega
  have h64 : addrOff40 m.src % 64 = 0 := (addrOff40_mod (by decide)).trans (valid_hash (by omega) hv)
  obtain ⟨hso, hsn⟩ := hsrc (by omega)
  have hfill : ¬ m.op = mvFILL := by simp only [mvFILL]; omega
  have hown : ∀ i, i < n → isOwnSpad c (m.src + BitVec.ofNat 64 (64 * i)) = true :=
    fun i hi => isOwnSpad_add_offset hso (linePiece_off hsn hi).1
  have hp : m.pieces c = (List.range n).map (linePiece m.src m.dst 0) := by
    have hsplit : ∀ i, i < n →
        m.split c ((if m.op = mvFILL then 0 else m.src) + BitVec.ofNat 64 (64 * i)) (m.dst + BitVec.ofNat 64 (64 * i)) = 1 := by
      intro i hi
      rw [if_neg hfill, MvCmd.split]
      split
      · omega
      · omega
      · rw [if_pos (hown i hi)]
    rw [pieces_oneRow hrows (by rw [MvCmd.rowLines]; omega) hsplit, if_neg hfill]
  refine mover_moves (ws := fun _ => []) (data := m.kept (s.core c).mem) hact hq hop hv hsees hrel hp rfl rfl (.inr h3) (fun i hi => ?_)
    (fun i hi => ?_) (fun i hi slot => ?_)
  · obtain ⟨-, hoff, -⟩ := linePiece_off hsn hi
    have hheld := ((hlines i hi).1 (by omega)).1
    simp only [Core.pieceHeld, linePiece, hown i hi, hoff, List.range_one, List.any_cons, List.any_nil, Nat.mul_zero, Nat.add_zero,
      moving_mvHeld, hheld, Bool.or_self, Bool.and_false]
  · simp [MvCmd.remote, linePiece, hown i hi, show ¬ m.op ≤ 2 by omega]
  · obtain ⟨-, hsoff, hs64⟩ := linePiece_off hsn hi
    obtain ⟨-, href, hclean⟩ := (hlines i hi).1 (by omega)
    refine (mvPiece_keep (p := linePiece m.src m.dst 0 i) i slot h3 rfl (hown i hi) hs64 ?_ ?_ ?_).trans ?_ <;> simp only [linePiece, hsoff]
    · omega
    · exact (moving_refusal (s.core c) m rest [] (m.kept (s.core c).mem i) i false _).trans href
    · exact hclean
    · rw [Nat.zero_add, kept_succ]
      rfl

/-- The bytes of lines one after the other, as they stand (R11). -/
theorem flatMap_bytes (m : Mem) (a n : Nat) :
    (List.range n).flatMap (fun i => Line.bytes (Mem.readLine m (a + 64 * i))) = (List.range (n * 64)).map (fun b => Mem.read m (a + b)) := by
  have h := flatMap_range_blocks (fun i b => Mem.read m (a + 64 * i + b)) n (show 0 < 64 by decide)
  simp only [bytes_readLine]
  rw [h]
  refine List.map_congr_left (fun b _ => ?_)
  rw [Nat.add_assoc, Nat.div_add_mod]

/-- The message that a command of one row hashes (R67). -/
theorem message_kept (mem : Mem) (hr : m.rows = 1) (hn : n = (m.length + 63) / 64) :
    (m.active (m.kept mem n) n).message = (List.range m.length).map (fun i => Mem.read mem (addrOff40 m.src + i)) := by
  have hlines : (List.range n).flatMap (fun i => Line.bytes (SMap.get 0 (m.kept mem n) i)) =
      (List.range (n * 64)).map (fun b => Mem.read mem (addrOff40 m.src + b)) := by
    rw [← flatMap_bytes]
    exact List.flatMap_congr (fun i hi => by rw [kept_get m mem (List.mem_range.1 hi)]; rfl)
  have hrl : m.rowLines = n := by rw [MvCmd.rowLines, hn]
  simp only [MvActive.message, MvCmd.active, hr, List.range_one, List.flatMap_singleton, hrl, Nat.zero_mul, Nat.zero_add, hlines]
  rw [← List.map_take, List.take_range, Nat.min_eq_left (by omega)]

end

/-! ### Commands taken and refused -/

/-- A command of the mover that a live core takes. -/
theorem mover_next {s : State} {c : CoreId} {i : Instr} {op : Nat} {k : Core} (hl : s.alive c = true)
    (he : exec i s = .next (onLive c s (mvStart op))) (hk : mvStart op (kOf s c) = { kOf s c with core := k }) :
    ∃ t : State, exec i s = .next t ∧ t.core c = k ∧ s.othersKept t c :=
  ⟨kPut s { kOf s c with core := k }, by rw [he, onLive_of_alive hl, hk], kPut_core rfl, kPut_other rfl⟩

/-- A descriptor that its rules forbid is recorded and reported, and moves nothing (R62). -/
theorem mvStart_invalid {k : K} {m : MvCmd} {rest : List MvCmd} {op : Nat} (hact : k.core.mvAct = none) (hq : k.core.mvQ = m :: rest)
    (hop : m.op = op) (hv : m.valid k.c = false) :
    mvStart op k = K.mvError { k with core := { k.core with mvQ := rest } } 0x1B m.seq m.descAddr := by
  simp only [mvStart, hact, hq, hop, hv, ne_eq, not_true_eq_false, false_and, if_false, Bool.not_false, if_true]

/-- The record of an error in MV_ERR (R76). -/
def mvErrWord (kind : Nat) (seq : BitVec 16) : Word := place 32 31 1 1 ||| place 32 16 8 kind ||| place 32 0 16 seq.toNat

/-- MV_ERR as an error leaves it: the record that stands, or the new one (R62, R76). -/
def Core.mvRecorded (k : Core) (kind : Nat) (seq : BitVec 16) (addr : DWord) : Core :=
  if (k.reg rMV_ERR).getLsbD 31 then k else { k with regs := setPair (k.regs.set rMV_ERR (mvErrWord kind seq)) rMV_ERRADDR addr }

theorem mvRecorded_kept (k : Core) (kind : Nat) (seq : BitVec 16) (addr : DWord) :
    (k.mvRecorded kind seq addr).mvQ = k.mvQ ∧ (k.mvRecorded kind seq addr).mvAct = k.mvAct ∧ (k.mvRecorded kind seq addr).mem = k.mem := by
  unfold Core.mvRecorded
  split <;> exact ⟨rfl, rfl, rfl⟩

/-- MV_ERR.V stands once an error is recorded (R76). -/
theorem mvRecorded_valid (k : Core) (kind : Nat) (seq : BitVec 16) (addr : DWord) : ((k.mvRecorded kind seq addr).reg rMV_ERR).getLsbD 31 = true := by
  unfold Core.mvRecorded
  split
  · assumption
  · have hv : (place 32 31 1 1 : Word).getLsbD 31 = true := by decide
    simp only [Core.reg, setPair]
    rw [SMap.get_set_other _ _ _ _ _ (by decide), SMap.get_set_other _ _ _ _ _ (by decide), SMap.get_set_self, mvErrWord]
    simp only [BitVec.getLsbD_or, hv, Bool.true_or]

/-! ### The obligation -/

/-- Settles O17. -/
theorem moverCommands : Obligations.MoverCommands := by
  unfold Obligations.MoverCommands
  intro s c m rest k src dst taken
  have hash : ∀ i op, (op = 3 ∨ op = 4) → exec i s = .next (onLive c s (mvStart op)) → taken i op := by
    intro i op ho hex hop hst
    obtain ⟨t, ht, hk, hothers⟩ := mover_next hst.1 hex (hash_moves ho hop rfl hst)
    refine ⟨t, m.active (m.kept k.mem ((m.length + 63) / 64)) ((m.length + 63) / 64), ht, ?_⟩
    obtain ⟨-, -, -, -, hrows, -⟩ := hst
    rw [hk]
    exact ⟨rfl, rfl, rfl, rfl, message_kept k.mem hrows rfl, rfl, hothers⟩
  have moved : ∀ (t : State) (l : Nat → Line) (b : Nat → Nat → Byte), t.core c = k.movedLines m rest l (m.length / 64) →
      (∀ i, i < m.length / 64 → Line.bytes (l i) = (List.range 64).map (b i)) →
      (t.core c).lineWr = k.lineWr ++ (List.range (m.length / 64)).map (fun i =>
        { agent := agMV, off := dst + 64 * i, bytes := (List.range 64).map (b i), num := m.num }) := by
    intro t l b ht hb
    rw [ht]
    refine congrArg (k.lineWr ++ ·) (List.map_congr_left (fun i hi => ?_))
    rw [MvCmd.lineWrite, hb i (List.mem_range.1 hi)]
  refine ⟨fun hop hst hdis => ?_, fun hop hst => ?_, hash _ 3 (.inl rfl) rfl, hash _ 4 (.inr rfl) rfl, fun hl hact hq hop hv => ?_⟩
  · obtain ⟨t, ht, hk, hothers⟩ := mover_next (i := .copy c) hst.1 rfl (copy_moves hop rfl hst hdis)
    have hwr := moved t _ (fun i b => Mem.read k.mem (src + 64 * i + b)) hk (fun i _ => bytes_readLine _ _)
    refine ⟨t, m.active [] (m.length / 64), ht, ?_⟩
    rw [hk] at hwr ⊢
    exact ⟨rfl, rfl, rfl, rfl, hwr, movedRegs_lines k.regs _, rfl, rfl, hothers⟩
  · obtain ⟨t, ht, hk, hothers⟩ := mover_next (i := .fill c) hst.1 rfl (fill_moves hop rfl hst)
    have hwr := moved t _ (fun _ b => m.src.extractLsb' (8 * (b % 8)) 8) hk (fun _ _ => bytes_fillLine m)
    refine ⟨t, m.active [] (m.length / 64), ht, ?_⟩
    rw [hk] at hwr ⊢
    exact ⟨rfl, rfl, rfl, rfl, hwr, rfl, rfl, hothers⟩
  · let k1 : Core := ({ k with mvQ := rest } : Core).mvRecorded 0x1B m.seq m.descAddr
    let f : Msg := (kOf s c).msgOf 3 0x1B m.seq.toNat (addr48 m.descAddr)
    have hex : exec (.copy c) s = .next (kPut s { kOf s c with core := k1.noteMsg f, msgs := (kOf s c).msgs ++ [f] }) := by
      show Host.Outcome.next (onLive c s (mvStart mvCOPY)) = _
      rw [onLive_of_alive hl, mvStart_invalid (k := kOf s c) hact hq hop hv]
      rfl
    have hn := noteMsg_regsOnly k1 f
    obtain ⟨hq1, hact1, hmem1⟩ := mvRecorded_kept { k with mvQ := rest } 0x1B m.seq m.descAddr
    refine ⟨_, f, hex, ?_⟩
    rw [kPut_core (show K.c _ = c from rfl)]
    exact ⟨(congrArg Core.mvQ hn).trans hq1, ((congrArg Core.mvAct hn).trans hact1).trans hact, (congrArg Core.mem hn).trans hmem1, rfl, rfl, rfl, BitVec.ofNat_toNat .., by
        rw [noteMsg_reg k1 f (by decide)]; exact mvRecorded_valid _ _ _ _⟩

end Sys2Proof.Machine
end

section
/-! SUPPORT. Packets that arrive at a core, what a step of a core that may become IDLE leaves of the block, and writes that reach their
banks. -/

namespace Sys2Proof.Machine

/-! ### An arrival is taken -/

theorem alive_present {s : State} {c : CoreId} (h : s.alive c = true) : s.present c = true := by
  simp only [State.alive, Bool.and_eq_true] at h
  exact h.1.1

theorem present_onGrid {s : State} {c : CoreId} (h : s.present c = true) : onGrid c = true := by
  simp only [State.present, Bool.and_eq_true] at h
  exact h.1.1.1

/-- The places that `eligible` gives stand at or after its first place, and at each one a packet for the core. -/
theorem eligible_place {c : CoreId} {ok : Packet → Bool} (l : List (CoreId × Packet)) (seen : List Packet) (i : Nat) :
    ∀ j ∈ eligible c ok seen i l, i ≤ j ∧ ∃ e, l[j - i]? = some e ∧ e.1 = c := by
  induction l generalizing seen i with
  | nil => intro j hj; exact absurd hj (by simp [eligible])
  | cons e t ih =>
    have later : ∀ (seen : List Packet) j, j ∈ eligible c ok seen (i + 1) t → i ≤ j ∧ ∃ x, (e :: t)[j - i]? = some x ∧ x.1 = c := by
      intro seen j hj
      obtain ⟨hle, x, hx, hc⟩ := ih seen (i + 1) j hj
      refine ⟨by omega, x, ?_, hc⟩
      rw [show j - i = (j - (i + 1)) + 1 by omega, List.getElem?_cons_succ]
      exact hx
    intro j hj
    rw [eligible] at hj
    by_cases hec : e.1 = c
    · rw [if_pos hec] at hj
      dsimp only at hj
      split at hj
      · rcases List.mem_cons.1 hj with rfl | hj
        · exact ⟨le_refl _, e, by simp, hec⟩
        · exact later _ _ hj
      · exact later _ _ hj
    · rw [if_neg hec] at hj
      exact later _ _ hj

/-- The packet that arrives is the one that is taken (R130). -/
theorem takeArrival_arrives {s : State} {c : CoreId} {p : Packet} {ok : Packet → Bool} (h : s.arrives c p) (hok : ok p = true) :
    s.takeArrival c ok = some (p, { s with inbox := s.inbox.tail }) := by
  obtain ⟨-, hhead, hpads, hbehind, -⟩ := h
  obtain ⟨rest, hin⟩ : ∃ rest, s.inbox = (c, p) :: rest := by
    cases hi : s.inbox with
    | nil => rw [hi] at hhead; exact absurd hhead (by simp)
    | cons e t => rw [hi] at hhead; exact ⟨t, by rw [List.head?_cons, Option.some.injEq] at hhead; rw [hhead]⟩
  have hel : eligible c (fun q => ok q && !s.behindAccepted c q) [] 0 s.inbox =
      0 :: eligible c (fun q => ok q && !s.behindAccepted c q) [p] 1 rest := by
    rw [hin, eligible, if_pos rfl]
    simp [hok, hbehind]
  have hpad : s.padAt 0 = true →
      (eligible c (fun q => ok q && !s.behindAccepted c q) [p] 1 rest).filter s.padAt = [] := by
    intro h0
    have hp : p.padRequest = true := by simpa [State.padAt, hin] using h0
    rw [List.filter_eq_nil_iff]
    intro j hj
    obtain ⟨hle, e, he, hc⟩ := eligible_place _ _ _ j hj
    have hmem : e ∈ s.inbox.tail := by rw [hin]; exact List.mem_of_getElem? he
    have hj' : s.inbox[j]? = some e := by
      rw [hin, show j = (j - 1) + 1 by omega, List.getElem?_cons_succ]; exact he
    simp [State.padAt, hj', hpads hp e hmem hc]
  have hfree : (s.padAt 0 && decide (1 < (0 :: (eligible c (fun q => ok q && !s.behindAccepted c q) [p] 1 rest).filter s.padAt).length)) = false := by
    cases h0 : s.padAt 0 with
    | false => rfl
    | true => rw [hpad h0]; rfl
  unfold State.takeArrival
  rw [hel]
  dsimp only
  rw [hfree]
  simp [hin]

/-- An arrival that a core acts on is a step of that core (R145). -/
theorem onArrival_arrives {s : State} {c : CoreId} {p : Packet} {ok : Packet → Bool} (f : Packet → K → K) (h : s.arrives c p)
    (hok : ok p = true) : onArrival c s ok f = onCoreSettled c { s with inbox := s.inbox.tail } (f p) := by
  have hok' : (ok p && (s.alive c || p.padRequest) && !(s.core c).anyHeld p.padOffs) = true := by
    rw [hok, h.1, h.2.2.2.2]; rfl
  rw [onArrival, if_pos (alive_present h.1),
    takeArrival_arrives (ok := fun q => ok q && (s.alive c || q.padRequest) && !(s.core c).anyHeld q.padOffs) h hok']

/-! ### What a step of a core that may become IDLE leaves -/

/-- A register of a router's block but RT_ROUTE is as before. -/
def Router.routeOnly (r r' : Router) : Prop := ∀ lo, lo ≠ rRT_ROUTE → lo + 4 ≠ rRT_ROUTE → pairAt r'.regs lo = pairAt r.regs lo

theorem routeItem_routeOnly (s : State) (px py : Nat) (v : Word) (n : Nat) :
    (s.routers.get Router.reset n).routeOnly ((s.routeItem px py v).routers.get Router.reset n) := by
  unfold State.routeItem
  split
  · exact fun _ _ _ => rfl
  · intro lo h1 h4
    show pairAt (SMap.get Router.reset (s.routers.set (routerKey py px) _) n).regs lo = _
    rw [SMap.get_set]
    split
    · rename_i h
      rw [h]
      exact pairAt_set_other _ _ _ _ h1 h4
    · rfl

theorem takeItems_routeOnly (s : State) (c : CoreId) (n : Nat) :
    (s.routers.get Router.reset n).routeOnly ((s.takeItems c).routers.get Router.reset n) := by
  unfold State.takeItems
  cases s.fieldItems (fieldOf c.x.toNat c.y.toNat) with
  | none => exact fun _ _ _ => rfl
  | some ds =>
    dsimp only
    split
    · exact fun _ _ _ => rfl
    · by_cases hsame : ((s.core c).reg rDF_WINDOW == SMap.get 65536 ds 2 && (s.core c).reg rDF_STALL == SMap.get 1024 ds 3) = true
      · simp only [if_pos hsame]
        split
        · exact routeItem_routeOnly s _ _ _ n
        · exact fun _ _ _ => rfl
      · simp only [if_neg hsame]
        split
        · exact routeItem_routeOnly (s.setCore c _) _ _ _ n
        · exact fun _ _ _ => rfl

/-- What a core that may have become IDLE takes leaves the packets, the writes under way and the floor plan, and of a router all but
RT_ROUTE (R361, R362). -/
theorem settled_network (s : State) (c : CoreId) : (s.settled c).inj = s.inj ∧ (s.settled c).inbox = s.inbox ∧
    (s.settled c).accepted = s.accepted ∧ (s.settled c).fp = s.fp ∧
    ∀ n, (s.routers.get Router.reset n).routeOnly ((s.settled c).routers.get Router.reset n) := by
  unfold State.settled
  split
  · exact ⟨rfl, rfl, rfl, rfl, fun _ _ _ _ => rfl⟩
  · rw [passProgress_eq]
    have hr := takeItems_routeOnly s c
    obtain ⟨rs, h | ⟨w, st, h⟩⟩ := takeItems_eq s c <;>
    · refine ⟨?_, ?_, ?_, ?_, hr⟩ <;> rw [h]

/-- A step of core `c` has ended with working context `k`: its core, its packets and messages and its router are those of `k`, but for
settings it has taken, and nothing else of the network has changed. -/
structure State.Stepped (s t : State) (c : CoreId) (k : K) : Prop where
  core : k.core.RegsOnly (t.core c) [rDF_WINDOW, rDF_STALL]
  inj : t.inj = s.inj ++ k.out
  transit : t.transit = s.transit ++ k.msgs
  inbox : t.inbox = s.inbox
  accepted : t.accepted = s.accepted
  others : s.othersKept t c
  router : k.rt.routeOnly (t.ownRouter c)

theorem kPut_router {s : State} {k : K} : (kPut s k).routers.get Router.reset (epKey k.here) = k.rt := by
  show SMap.get Router.reset (if k.rt = s.routers.get Router.reset (epKey k.here) then s.routers else s.routers.set (epKey k.here) k.rt) _ = _
  split
  · rename_i h; exact h.symm
  · exact SMap.get_set_self _ _ _ _

theorem onCoreSettled_stepped {s : State} {c : CoreId} {f : K → K} (hg : onGrid c = true) (hc : (f (kOf s c)).c = c)
    (hh : (f (kOf s c)).here = s.epOf c) : s.Stepped (onCoreSettled c s f) c (f (kOf s c)) := by
  rw [onCoreSettled, onCore, if_pos hg]
  obtain ⟨hcore, -, htr, hoth⟩ := settled_keeps (kPut s (f (kOf s c))) c
  obtain ⟨hinj, hbox, hacc, hfp, hrt⟩ := settled_network (kPut s (f (kOf s c))) c
  obtain ⟨hp, ho⟩ := kPut_other (s := s) hc
  refine ⟨?_, hinj, htr, hbox, hacc, ⟨hoth.1.trans hp, fun n hn => (hoth.2 n hn).trans (ho n hn)⟩, ?_⟩
  · rw [kPut_core hc] at hcore
    exact hcore
  · have hep : ((kPut s (f (kOf s c))).settled c).epOf c = (f (kOf s c)).here := by
      rw [hh, State.epOf, State.phys, hfp]; rfl
    have h := hrt (epKey (f (kOf s c)).here)
    rw [kPut_router] at h
    rw [State.ownRouter, hep]
    exact h

namespace State.Stepped
variable {s t : State} {c : CoreId} {k : K}

theorem mem (h : s.Stepped t c k) : (t.core c).mem = k.core.mem := by rw [h.core.1]
theorem sregs (h : s.Stepped t c k) : (t.core c).s = k.core.s := by rw [h.core.1]
theorem pc (h : s.Stepped t c k) : (t.core c).pc = k.core.pc := by rw [h.core.1]
theorem inq (h : s.Stepped t c k) : (t.core c).inq = k.core.inq := by rw [h.core.1]
theorem slots (h : s.Stepped t c k) : (t.core c).slots = k.core.slots := by rw [h.core.1]
theorem rlb (h : s.Stepped t c k) : (t.core c).rlb = k.core.rlb := by rw [h.core.1]
theorem seq (h : s.Stepped t c k) : (t.core c).seq = k.core.seq := by rw [h.core.1]
theorem df (h : s.Stepped t c k) : (t.core c).df = k.core.df := by rw [h.core.1]
theorem banks (h : s.Stepped t c k) : (t.core c).banks = k.core.banks := by rw [h.core.1]

theorem reg (h : s.Stepped t c k) {off : Nat} (ho : off ∉ [rDF_WINDOW, rDF_STALL]) : (t.core c).reg off = k.core.reg off := h.core.2 off ho

theorem pair (h : s.Stepped t c k) {lo : Nat} (h0 : lo ∉ [rDF_WINDOW, rDF_STALL]) (h4 : lo + 4 ∉ [rDF_WINDOW, rDF_STALL])
    (hz : Machine.coreReset lo = 0 ∧ Machine.coreReset (lo + 4) = 0) : pairAt (t.core c).regs lo = pairAt k.core.regs lo := by
  have h1 := h.reg h0
  have h2 := h.reg h4
  rw [Core.reg, Core.reg, hz.1] at h1
  rw [Core.reg, Core.reg, hz.2] at h2
  rw [pairAt, pairAt, h1, h2]

end State.Stepped

/-! ### Bytes that reach their bank -/

theorem Mem.readLine_byte (m : Mem) (a : Nat) {i : Nat} (h : i < 64) : (Mem.readLine m a).extractLsb' (8 * i) 8 = Mem.read m (a + i) := by
  have hb := bytes_readLine m a
  have h1 := congrArg (fun l => nth 0 l i) hb
  simp only [Line.bytes, nth_map_range _ _ h] at h1
  exact h1

/-- A line whose bytes are those of `l` is `l`. -/
theorem Mem.readLine_eq {m : Mem} {a : Nat} {l : Line} (h : ∀ i, i < 64 → Mem.read m (a + i) = l.extractLsb' (8 * i) 8) :
    Mem.readLine m a = l := by
  refine BitVec.eq_of_getLsbD_eq fun j hj => ?_
  have hb := congrArg (fun b : Byte => b.getLsbD (j % 8)) ((Mem.readLine_byte m a (show j / 8 < 64 by omega)).trans (h _ (by omega)))
  have hj8 : j % 8 < 8 := Nat.mod_lt _ (by omega)
  simpa [BitVec.getLsbD_extractLsb', hj8, Nat.div_add_mod] using hb

/-- A whole line written to its bank, whatever stood there (R114, R115). -/
theorem putBytes_read_line {k : Core} {off : Nat} {bs : List Byte} (ho : off % 64 = 0) (hb : bs.length = 64) (p : Nat) :
    Mem.read (k.putBytes off bs).mem p = if off ≤ p ∧ p < off + 64 then nth 0 bs (p - off) else Mem.read k.mem p := by
  cases h : k.inWeights off with
  | false => rw [putBytes_read_activation bs h, hb]
  | true =>
    rw [putBytes_weights bs h, Mem.read_put, hb, show off / 64 * 64 = off by omega]
    split
    · rfl
    · rename_i hp
      exact Mem.read_writeN_other _ _ _ _ _ (by omega)

theorem commitBytes_line {k : K} {agent off : Nat} {req : Option CoreId} {bs : List Byte} (hb : bs.length = 64) :
    k.commitBytes agent req off bs = (K.wroteBytes { k with core := k.core.putBytes off bs } off bs.length, true) := by
  rw [K.commitBytes, hb]
  simp

theorem bytes_length (l : Line) : (Line.bytes l).length = 64 := by simp [Line.bytes]

theorem nth_bytes (l : Line) {i : Nat} (h : i < 64) : nth 0 (Line.bytes l) i = l.extractLsb' (8 * i) 8 := nth_map_range _ _ h

end Sys2Proof.Machine
end

section
/-! SUPPORT. Remote accesses at their home and their answers at the requester: what each arrival makes of its core. -/

namespace Sys2Proof.Machine

/-! ### A request of one line -/

section
variable {p : Packet} (hsz : p.sz = 4) (halign : p.off.toNat % 64 = 0) (hoff : p.off.toNat < 0x60000)
include hsz

theorem padLines_line : p.padLines = [p.off.toNat] := by
  simp [Packet.padLines, hsz]

theorem span_line : p.span = 64 := by simp [Packet.span, hsz]

include halign hoff

/-- A request of one aligned line within the scratchpad is well formed (R13, R146). -/
theorem padBad_line : p.padBad = none := by
  have h1 : ¬ padSize < p.off.toNat + 64 := by rw [show padSize = 0x60000 from rfl]; omega
  simp [Packet.padBad, span_line hsz, hsz, halign, h1]

/-- A clean line is read and leaves (R112, R124). -/
theorem remoteRead_clean {k : K} (hr : k.core.refusal false p.off.toNat = none) (hc : k.core.cleanLine p.off.toNat = true) :
    remoteRead p k = k.replyLines p [Mem.readLine k.core.mem p.off.toNat] := by
  have hline : p.off.toNat / 64 * 64 = p.off.toNat := by omega
  rw [remoteRead, padBad_line hsz halign hoff]
  simp only [hsz, show (4 : BitVec 3).toNat = 4 from rfl, K.readLines, readLine_clean hr (by rw [hline]; exact hc), hline]
  rfl

/-- A bank that sleeps answers with ERR 0x07 (R112, R122). -/
theorem remoteRead_sleeping {k : K} (hs : (k.core.bank (bankOf p.off.toNat)).serves = false) :
    remoteRead p k = (k.spErr agNET 0x06 p.off.toNat 0 (k.requester p)).replyErr p 0x07 := by
  have hr : k.core.refusal false p.off.toNat = some 0x06 := by simp [Core.refusal, hs]
  rw [remoteRead, padBad_line hsz halign hoff]
  simp only [hsz, show (4 : BitVec 3).toNat = 4 from rfl, K.readLines, K.readLine, hr]
  rfl

end

/-! ### A refusal, counted -/

theorem noteMsg_pairAt (k : Core) (m : Msg) {lo : Nat} (h : lo + 4 < 0xC078) : pairAt (k.noteMsg m).regs lo = pairAt k.regs lo := by
  unfold Core.noteMsg
  split
  · show pairAt (SMap.set (SMap.set (SMap.set (SMap.set (bump k.regs rFLT_MSGS 1) _ _) _ _) _ _) _ _) lo = _
    simp only [rFLT_LAST, rFLT_MSGS]
    rw [pairAt_set_other _ _ _ _ (by omega) (by omega), pairAt_set_other _ _ _ _ (by omega) (by omega),
      pairAt_set_other _ _ _ _ (by omega) (by omega), pairAt_set_other _ _ _ _ (by omega) (by omega),
      pairAt_bump_other _ _ _ _ (by omega) (by omega) (by omega)]
  · rfl

theorem spRecord_pairAt (k : Core) (agent kind off bit : Nat) {lo : Nat} (h : lo ≠ rSP_ERRINFO ∧ lo + 4 ≠ rSP_ERRINFO)
    (h' : lo ≠ rSP_ERRADDR ∧ lo + 4 ≠ rSP_ERRADDR) : pairAt (k.spRecord agent kind off bit).regs lo = pairAt k.regs lo := by
  unfold Core.spRecord
  split
  · rfl
  · exact (pairAt_set_other _ _ _ _ h'.1 h'.2).trans (pairAt_set_other _ _ _ _ h.1 h.2)

/-- An error of the scratchpad is recorded, counted and reported (R116, R384). -/
theorem spErr_eq (k : K) (agent kind off bit : Nat) (req : Option CoreId) : ∃ m, m.kind = BitVec.ofNat 8 kind ∧ m.block = 8 ∧
    k.spErr agent kind off bit req =
      { k with core := ((k.core.spRecord agent kind off bit).count (spCounter kind) 1).noteMsg m, msgs := k.msgs ++ [m] } := by
  unfold K.spErr
  extract_lets who
  exact ⟨k.msgOf 8 kind (agent * 2 ^ 13 + bit) (off + who), rfl, rfl, rfl⟩

/-- It changes registers of its core alone. -/
theorem spErr_regsOnly (k : K) (agent kind off bit : Nat) (req : Option CoreId) : ∃ rs,
    (k.spErr agent kind off bit req).core = { k.core with regs := rs } := by
  obtain ⟨m, -, -, h⟩ := spErr_eq k agent kind off bit req
  rw [h, noteMsg_regsOnly]
  unfold Core.spRecord
  split <;> exact ⟨_, rfl⟩

/-- A refusal by a sleeping bank is counted in SP_SLEEPREF (R122). -/
theorem spErr_sleepref (k : K) (agent off bit : Nat) (req : Option CoreId) :
    pairAt (k.spErr agent 0x06 off bit req).core.regs rSP_SLEEPREF = pairAt k.core.regs rSP_SLEEPREF + 1 := by
  obtain ⟨m, -, -, h⟩ := spErr_eq k agent 0x06 off bit req
  rw [h, noteMsg_pairAt _ _ (by decide)]
  show pairAt (bump (k.core.spRecord agent 0x06 off bit).regs rSP_SLEEPREF 1) rSP_SLEEPREF = _
  rw [pairAt_bump, spRecord_pairAt _ _ _ _ _ (by decide) (by decide)]
  rfl

/-! ### An accepted write goes into its bank -/

/-- A line of an accepted write in its bank (R123). -/
def K.linePlaced (k : K) (off : Nat) (bs : List Byte) : K := { k with core := (k.core.pendSub [off]).putBytes off bs }

/-- The watches it satisfies have fired too (R193). -/
def K.lineWritten (k : K) (off : Nat) (bs : List Byte) : K := (k.linePlaced off bs).wroteBytes off bs.length

theorem lineWritten_fires (k : K) (off : Nat) (bs : List Byte) : (k.linePlaced off bs).FiredOnly (k.lineWritten off bs) := by
  unfold K.lineWritten K.wroteBytes
  exact evalWatches_firedOnly _ _

/-- Of its working context, a line that goes into its bank changes the core and the packets that leave. -/
theorem lineWritten_keeps (k : K) (off : Nat) (bs : List Byte) : (k.lineWritten off bs).c = k.c ∧ (k.lineWritten off bs).here = k.here := by
  have h := (lineWritten_fires k off bs).1
  rw [h]
  exact ⟨rfl, rfl⟩

theorem putBytes_body (k : Core) (off : Nat) (bs : List Byte) : (k.putBytes off bs).s = k.s ∧ (k.putBytes off bs).pc = k.pc ∧
    (k.putBytes off bs).inq = k.inq ∧ (k.putBytes off bs).banks = k.banks := by
  rw [putBytes_eq]
  exact ⟨rfl, rfl, rfl, rfl⟩

/-- Of the core it leaves the scalar registers, the program counter and the channel queues; the bytes stand in memory, and the line has
left its bank's pending-write count. -/
theorem lineWritten_core (k : K) (off : Nat) (bs : List Byte) :
    (k.lineWritten off bs).core.mem = ((k.core.pendSub [off]).putBytes off bs).mem ∧
      (k.lineWritten off bs).core.s = k.core.s ∧ (k.lineWritten off bs).core.pc = k.core.pc ∧
      (k.lineWritten off bs).core.inq = k.core.inq ∧ (k.lineWritten off bs).core.banks = (k.core.pendSub [off]).banks := by
  have h := (lineWritten_fires k off bs).1
  rw [h]
  exact ⟨rfl, putBytes_body (k.core.pendSub [off]) off bs⟩

theorem remoteTail_written {a : Accepted} {k : K} {off : Nat} {bs : List Byte} {rest : List (Nat × List Byte)}
    (hd : a.pkt.padBytes.drop a.next = (off, bs) :: rest) (hk : a.pkt.killed = false) (hb : a.bad = false) (hop : a.pkt.op = 1)
    (hw : k.core.cleanLine (off / 64 * 64) = true ∨ bs.length = 64) :
    remoteTail a k = if rest.isEmpty then (k.lineWritten off bs).replyAck a.pkt else k.lineWritten off bs := by
  have hcommit : ∀ req, K.commitBytes { k with core := k.core.pendSub [off] } agNET req off bs = (k.lineWritten off bs, true) := by
    intro req
    rcases hw with hc | hl
    · exact commitBytes_clean (k := { k with core := k.core.pendSub [off] }) hc
    · exact commitBytes_line (k := { k with core := k.core.pendSub [off] }) hl
  unfold remoteTail
  rw [hd]
  dsimp only
  rw [hk, if_neg Bool.false_ne_true, hcommit, hb, K.writeAck, hop]
  cases rest <;> simp

theorem tailsReady_others {c : CoreId} {k : Core} {seen : List Nat} {i : Nat} {l : List Accepted} (h : ∀ x ∈ l, x.core ≠ c) :
    tailsReady c k seen i l = [] := by
  induction l generalizing i with
  | nil => rfl
  | cons a t ih =>
    rw [tailsReady, if_neg (h a (by simp))]
    exact ih (fun x hx => h x (by simp [hx]))

/-- The only accepted write of a core, whose bank nothing holds, goes on (R109, R123). -/
theorem remoteWriteTail_alone {s : State} {c : CoreId} {a : Accepted} {rest : List Accepted} {off : Nat} {offs : List Nat}
    (hp : s.present c = true) (hacc : s.accepted = a :: rest) (ha : a.core = c) (hrest : ∀ x ∈ rest, x.core ≠ c)
    (hl : a.lines = off :: offs) (hheld : (s.core c).padHeld off = false) :
    exec (.remoteWriteTail c) s =
      .next (onCoreSettled c { s with accepted := (a.after (s.core c)).toList ++ rest } (remoteTail a)) := by
  have hready : tailsReady c (s.core c) [] 0 s.accepted = [0] := by
    rw [hacc, tailsReady, if_pos ha]
    simp [hl, hheld, tailsReady_others hrest]
  show execRemoteWriteTail c s = _
  simp only [execRemoteWriteTail, hp, hready]
  rw [hacc]
  cases h : a.after (s.core c) <;> simp [h]

theorem bank_pendSub (k : Core) (off : Nat) : ((k.pendSub [off]).bank (bankOf off)).pendWr = (k.bank (bankOf off)).pendWr - 1 := by
  simp only [Core.pendSub, Core.bank, List.foldl, SMap.get_upd, if_true]

theorem bank_pendAdd (k : Core) (off : Nat) : ((k.pendAdd [off]).bank (bankOf off)).pendWr = (k.bank (bankOf off)).pendWr + 1 := by
  simp only [Core.pendAdd, Core.bank, List.foldl, SMap.get_upd, if_true]

/-! ### Byte enables -/

/-- A bit of the byte enables of a run. -/
theorem runMask_bit {a n i : Nat} (h : a + n < 64) : (runMask a n).getLsbD i = decide (a ≤ i ∧ i < a + n) := by
  rw [runMask, BitVec.getLsbD_ofNat, Nat.mul_comm, Nat.testBit_two_pow_mul, Nat.testBit_two_pow_sub_one]
  by_cases h1 : i < 64 <;> by_cases h2 : a ≤ i <;> simp [h1, h2] <;> omega

/-- The byte enables of a run name that run. -/
theorem maskRun_runMask {a n : Nat} (hn : 0 < n) (h : a + n < 64) : maskRun (runMask a n) = (a, n) := by
  have hsplit : List.range 64 = List.range a ++ ((List.range n).map (a + ·) ++ (List.range (64 - a - n)).map (a + n + ·)) := by
    rw [show 64 = a + (n + (64 - a - n)) by omega, List.range_add, List.range_add, List.map_append, List.map_map]
    simp [Function.comp_def, Nat.add_assoc]
  have hlow : ∀ i ∈ List.range a, (runMask a n).getLsbD i = false := by
    intro i hi
    rw [runMask_bit h]; simp at hi ⊢; omega
  have hmid : ∀ i ∈ (List.range n).map (a + ·), (runMask a n).getLsbD i = true := by
    intro i hi
    rw [runMask_bit h]; simp at hi ⊢; omega
  have hhigh : ∀ i ∈ (List.range (64 - a - n)).map (a + n + ·), (runMask a n).getLsbD i = false := by
    intro i hi
    rw [runMask_bit h]; simp at hi ⊢; omega
  unfold maskRun
  rw [Prod.mk.injEq]
  constructor
  · rw [hsplit, List.find?_append, List.find?_eq_none.2 (by simpa using hlow), Option.none_or, List.find?_append]
    obtain ⟨m, rfl⟩ : ∃ m, n = m + 1 := ⟨n - 1, by omega⟩
    rw [List.range_succ_eq_map, List.map_cons, List.find?_cons_of_pos (hmid _ (by simp))]
    rfl
  · rw [hsplit, List.filter_append, List.filter_append, List.filter_eq_nil_iff.2 (by simpa using hlow),
      List.filter_eq_self.2 hmid, List.filter_eq_nil_iff.2 (by simpa using hhigh)]
    simp

/-! ### Answers -/

/-- An answer leaves for the source of its request, under its transaction (R145). -/
theorem reply_eq (k : K) (p : Packet) (op aux sz len : Nat) (head : BitVec 384) (ls : List Line) : ∃ q : Packet,
    q.op = BitVec.ofNat 4 op ∧ q.aux = BitVec.ofNat 8 aux ∧ q.lines = ls ∧ q.dst = p.src ∧ q.txid = p.txid ∧
      k.reply p op aux sz len head ls = { k with out := k.out ++ [Sent.mk q none true] } :=
  ⟨{ k.packet op 0 0 sz len p.txid head ls with dst := p.src, aux := BitVec.ofNat 8 aux }, rfl, rfl, rfl, rfl, rfl, rfl⟩

theorem replyAck_keeps (k : K) (p : Packet) : (k.replyAck p).c = k.c ∧ (k.replyAck p).here = k.here := ⟨rfl, rfl⟩

/-- A transaction's slot once it is freed (R168). -/
theorem slotFreed_freeUp (k : Core) (i : Nat) : k.slotFreed (k.freeUp i) i := by
  refine ⟨?_, ?_, fun j hj => ?_⟩
  · simp [Core.freeUp, SMap.get_upd]
  · simp [Core.freeUp, SMap.get_upd]
  · simp [Core.freeUp, SMap.get_upd, hj]

/-- The message of a fault of a core's access (R49). -/
def K.accessMsg (k : K) (pc : Nat) (a : DWord) : Msg := k.msgOf 0 0x54 pc (addr48 a)

/-- An error of a scalar access whose section can be aborted is an execution fault with kind 0x54 (R49). -/
theorem answerFault_eq {k : K} {pc : Nat} {a : DWord} (h : k.core.abortable = true) : k.answerFault pc a =
    { k with core := k.core.faulted 0x54 pc (k.accessMsg pc a) k.c, msgs := k.msgs ++ [k.accessMsg pc a],
             abort := some (0, BitVec.ofNat 8 0x54) } := by
  rw [K.answerFault, if_pos h]
  exact execFault_eq h

/-- What the fault leaves of the core that made the access. -/
theorem stepped_faulted {s s' t : State} {c : CoreId} {k : K} {i pc : Nat} {a : DWord} (h : s'.Stepped t c (k.answerFault pc a))
    (hab : k.core.abortable = true) (hi : (s.core c).slotFreed k.core i) (hs : k.core.s = (s.core c).s) (hm : k.core.mem = (s.core c).mem) :
    (t.core c).seq = .trapped ∧ (t.core c).df = .aborting ∧ (s.core c).slotFreed (t.core c) i ∧
      (t.core c).reg rCORE_TRAP = 2 ^ 31 + 0x54 ∧ (t.core c).reg rCORE_TRAPPC = BitVec.ofNat 32 (pc % 16384) ∧
      (t.core c).s = (s.core c).s ∧ (t.core c).mem = (s.core c).mem := by
  rw [answerFault_eq hab] at h
  refine ⟨h.seq, h.df, ?_, ?_, ?_, ?_, ?_⟩
  · have hsl : (t.core c).slots = k.core.slots := h.slots.trans (faulted_slots ..)
    rw [Core.slotFreed, hsl]
    exact hi
  · exact (h.reg (by decide)).trans (faulted_trap _ _ _ _ (by decide))
  · exact (h.reg (by decide)).trans (faulted_trappc ..)
  · exact (h.sregs.trans (faulted_s ..)).trans hs
  · exact (h.mem.trans (faulted_mem ..)).trans hm

/-! ### Writes with their tail -/

/-- An accepted write of which nothing has gone into its bank (R123). -/
def Packet.acceptedAt (p : Packet) (c : CoreId) : Accepted := { core := c, pkt := p, next := 0, bad := false }

section
variable {s : State} {c : CoreId} {p : Packet} (hp : s.present c = true) (hacc : s.accepted.head? = some (p.acceptedAt c))
  (hrest : ∀ x ∈ s.accepted.tail, x.core ≠ c) (hheld : (s.core c).padHeld p.off.toNat = false)
include hp hacc hrest hheld

/-- The tail of a core's only accepted write is a step of that core (R123). -/
theorem remoteWriteTail_step (hsz : 4 ≤ p.sz.toNat) (hc : (remoteTail (p.acceptedAt c) (kOf s c)).c = c)
    (hh : (remoteTail (p.acceptedAt c) (kOf s c)).here = s.epOf c) : ∃ t : State, exec (.remoteWriteTail c) s = .next t ∧
      t.accepted = ((p.acceptedAt c).after (s.core c)).toList ++ s.accepted.tail ∧
      State.Stepped { s with accepted := ((p.acceptedAt c).after (s.core c)).toList ++ s.accepted.tail } t c
        (remoteTail (p.acceptedAt c) (kOf s c)) := by
  obtain ⟨rest, hin⟩ : ∃ rest, s.accepted = p.acceptedAt c :: rest := List.head?_eq_some_iff.1 hacc
  obtain ⟨n, hn⟩ : ∃ n, p.sz.toNat - 3 = n + 1 := ⟨p.sz.toNat - 4, by omega⟩
  obtain ⟨offs, hl⟩ : ∃ offs, (p.acceptedAt c).lines = p.off.toNat :: offs := by
    rw [Accepted.lines, show (p.acceptedAt c).next = 0 from rfl, List.drop_zero, show (p.acceptedAt c).pkt = p from rfl, Packet.padLines, if_neg (by omega), hn, List.range_succ_eq_map]
    exact ⟨_, rfl⟩
  rw [hin, List.tail_cons] at hrest
  have hstep := onCoreSettled_stepped (s := { s with accepted := ((p.acceptedAt c).after (s.core c)).toList ++ s.accepted.tail })
    (f := remoteTail (p.acceptedAt c)) (present_onGrid hp) hc hh
  refine ⟨_, ?_, hstep.accepted, hstep⟩
  rw [remoteWriteTail_alone hp hin rfl hrest hl hheld, hin, List.tail_cons]

/-- A write of one line or of part of one has gone into its bank and is acknowledged (R123, R124). -/
theorem remoteWriteTail_one {o : Nat} {bs : List Byte} (hsz : p.sz = 4) (hop : p.op = 1) (hk : p.killed = false)
    (hb : p.padBytes = [(o, bs)]) (hw : (s.core c).cleanLine (o / 64 * 64) = true ∨ bs.length = 64) :
    ∃ t : State, ∃ q : Packet, exec (.remoteWriteTail c) s = .next t ∧ t.accepted = s.accepted.tail ∧ q.op = 10 ∧
      (q.dst = p.src ∧ q.txid = p.txid ∧ ∃ ws, t.inj = s.inj ++ ws ++ [Sent.mk q none true]) ∧
      (t.core c).mem = (((s.core c).pendSub [o]).putBytes o bs).mem ∧ (t.core c).banks = ((s.core c).pendSub [o]).banks ∧
      (t.core c).s = (s.core c).s ∧ (t.core c).pc = (s.core c).pc ∧ (t.core c).inq = (s.core c).inq ∧ s.othersKept t c := by
  have htail : remoteTail (p.acceptedAt c) (kOf s c) = ((kOf s c).lineWritten o bs).replyAck p :=
    remoteTail_written (a := p.acceptedAt c) (rest := []) hb hk rfl hop hw
  have hafter : (p.acceptedAt c).after (s.core c) = none := by
    rw [Accepted.after]
    simp [Packet.acceptedAt, hb]
  obtain ⟨hkc, hkh⟩ := lineWritten_keeps (kOf s c) o bs
  obtain ⟨t, ht, hta, hst⟩ := remoteWriteTail_step hp hacc hrest hheld (by rw [hsz]; decide) 
    (by rw [htail]; exact (replyAck_keeps _ p).1.trans hkc) (by rw [htail]; exact (replyAck_keeps _ p).2.trans hkh)
  obtain ⟨hm, hs, hpc, hin, hbk⟩ := lineWritten_core (kOf s c) o bs
  rw [htail] at hst
  rw [hafter] at hta
  generalize (kOf s c).lineWritten o bs = k1 at hst hm hs hpc hin hbk
  obtain ⟨q, hqop, -, -, hqd, hqt, hq⟩ := reply_eq k1 p 10 0 0 0 (headOf 1) []
  rw [K.replyAck, hq] at hst
  refine ⟨t, q, ht, hta, hqop, ⟨hqd, hqt, k1.out, ?_⟩, hst.mem.trans hm, hst.banks.trans hbk, hst.sregs.trans hs, hst.pc.trans hpc,
    hst.inq.trans hin, hst.others⟩
  rw [hst.inj, List.append_assoc]

/-- Of a write of two lines the first goes into its bank, and nothing is answered yet (R123, R128). -/
theorem remoteWriteTail_first {o o' : Nat} {bs bs' : List Byte} (hsz : 4 ≤ p.sz.toNat) (hop : p.op = 1) (hk : p.killed = false)
    (hb : p.padBytes = [(o, bs), (o', bs')]) (hlen : bs.length = 64) :
    ∃ t : State, exec (.remoteWriteTail c) s = .next t ∧
      t.accepted = { p.acceptedAt c with next := 1 } :: s.accepted.tail ∧ (t.core c).mem = (((s.core c).pendSub [o]).putBytes o bs).mem ∧
      (t.core c).s = (s.core c).s ∧ (t.core c).pc = (s.core c).pc ∧ (t.core c).inq = (s.core c).inq ∧ s.othersKept t c := by
  have htail : remoteTail (p.acceptedAt c) (kOf s c) = (kOf s c).lineWritten o bs :=
    remoteTail_written (a := p.acceptedAt c) (rest := [(o', bs')]) hb hk rfl hop (.inr hlen)
  have hafter : (p.acceptedAt c).after (s.core c) = some { p.acceptedAt c with next := 1 } := by
    rw [Accepted.after]
    simp [Packet.acceptedAt, hb, hk, Core.mergeFails, hlen]
  obtain ⟨hkc, hkh⟩ := lineWritten_keeps (kOf s c) o bs
  obtain ⟨t, ht, hta, hst⟩ := remoteWriteTail_step hp hacc hrest hheld hsz (by rw [htail]; exact hkc) (by rw [htail]; exact hkh)
  obtain ⟨hm, hs, hpc, hin, -⟩ := lineWritten_core (kOf s c) o bs
  rw [htail] at hst
  rw [hafter] at hta
  exact ⟨t, ht, hta, hst.mem.trans hm, hst.sregs.trans hs, hst.pc.trans hpc, hst.inq.trans hin, hst.others⟩

/-- A killed write of one line leaves the pending-write counts and has no effect besides (R123, R167). -/
theorem remoteWriteTail_killed {o : Nat} {bs : List Byte} (hsz : p.sz = 4) (hk : p.killed = true) (hb : p.padBytes = [(o, bs)]) :
    ∃ t : State, exec (.remoteWriteTail c) s = .next t ∧ t.accepted = s.accepted.tail ∧ t.inj = s.inj ∧
      ((s.core c).pendSub [p.off.toNat]).RegsOnly (t.core c) [rDF_WINDOW, rDF_STALL] ∧ s.othersKept t c := by
  have hlines : (p.acceptedAt c).lines = [p.off.toNat] := by
    rw [Accepted.lines, show (p.acceptedAt c).next = 0 from rfl, List.drop_zero]
    exact padLines_line hsz
  have htail : remoteTail (p.acceptedAt c) (kOf s c) = { kOf s c with core := (s.core c).pendSub [p.off.toNat] } := by
    unfold remoteTail
    rw [show (p.acceptedAt c).pkt.padBytes.drop (p.acceptedAt c).next = [(o, bs)] from hb]
    dsimp only
    rw [if_pos (show (p.acceptedAt c).pkt.killed = true from hk), hlines]
    rfl
  have hafter : (p.acceptedAt c).after (s.core c) = none := by
    rw [Accepted.after]
    simp [Packet.acceptedAt, hb]
  obtain ⟨t, ht, hta, hst⟩ := remoteWriteTail_step hp hacc hrest hheld (by rw [hsz]; decide) (by rw [htail]; rfl) (by rw [htail]; rfl)
  rw [htail] at hst
  rw [hafter] at hta
  exact ⟨t, ht, hta, hst.inj.trans (List.append_nil _), hst.core, hst.others⟩

end

/-! ### The obligation -/

/-- A packet that arrives makes of its core's working context `k`, and nothing else of the network changes (R145). -/
theorem arrival_step {s : State} {c : CoreId} {p : Packet} {ok : Packet → Bool} {f : Packet → K → K} {k : K} (h : s.arrives c p)
    (hok : ok p = true) (hf : f p (kOf s c) = k) (hc : k.c = c) (hh : k.here = s.epOf c) :
    s.took (onArrival c s ok f) c ∧ State.Stepped { s with inbox := s.inbox.tail } (onArrival c s ok f) c k := by
  subst hf
  have hst := onCoreSettled_stepped (s := { s with inbox := s.inbox.tail }) (f := f p) (present_onGrid (alive_present h.1)) hc hh
  rw [onArrival_arrives f h hok]
  exact ⟨⟨hst.inbox, hst.others⟩, hst⟩

/-- The state after a core has accepted a write of one line (R123). -/
def State.acceptsWrite (s : State) (c : CoreId) (p : Packet) : State :=
  { kPut { s with inbox := s.inbox.tail } { kOf s c with core := (s.core c).pendAdd [p.off.toNat] } with
    accepted := s.accepted ++ [p.acceptedAt c] }

theorem acceptsWrite_core (s : State) (c : CoreId) (p : Packet) : (s.acceptsWrite c p).core c = (s.core c).pendAdd [p.off.toNat] :=
  kPut_core (s := { s with inbox := s.inbox.tail }) rfl

theorem acceptsWrite_others (s : State) (c : CoreId) (p : Packet) : s.othersKept (s.acceptsWrite c p) c :=
  kPut_other (s := { s with inbox := s.inbox.tail }) (k := { kOf s c with core := (s.core c).pendAdd [p.off.toNat] }) rfl

theorem acceptsWrite_inj (s : State) (c : CoreId) (p : Packet) : (s.acceptsWrite c p).inj = s.inj := List.append_nil _

/-- A remote write that its scratchpad serves is accepted whole and joins the pending-write counts (R123). -/
theorem remoteWriteAccept_served {s : State} {c : CoreId} {p : Packet} (ha : s.arrives c p) (hop : p.op = 1) (hsp : p.space = 0)
    (hsz : p.sz = 4) (halign : p.off.toNat % 64 = 0) (hoff : p.off.toNat < 0x60000) (hr : (s.core c).refusal true p.off.toNat = none) :
    exec (.remoteWriteAccept c) s = .next (s.acceptsWrite c p) := by
  have hreq : p.padRequest = true := by simp [Packet.padRequest, hop, hsp]
  have hheld : (s.core c).anyHeld p.padLines = false := by
    have h := ha.2.2.2.2
    rwa [Packet.padOffs, if_pos hreq] at h
  have hok : (p.padWrite && !(s.core c).anyHeld p.padLines) = true := by simp [Packet.padWrite, hop, hsp, hheld]
  have hfirst : (s.core c).firstRefused p = none := by simp [Core.firstRefused, padLines_line hsz, hr]
  show execRemoteWriteAccept c s = _
  rw [execRemoteWriteAccept, alive_present ha.1,
    takeArrival_arrives (ok := fun q => q.padWrite && !(s.core c).anyHeld q.padLines) ha hok]
  simp only [padBad_line hsz halign hoff, hfirst, padLines_line hsz, onCore, if_pos (alive_onGrid ha.1)]
  rfl

/-- The bytes that a write names by byte enables (R293, log entry 30). -/
theorem padBytes_masked {p : Packet} {l : Line} {a n : Nat} (hsz : p.sz = 4) (hl : p.lines = [l]) (hn : 0 < n) (h : a + n < 64)
    (he : p.enables = runMask a n) : p.padBytes = [(p.off.toNat + a, ((Line.bytes l).drop a).take n)] := by
  have hne : p.enables ≠ 0 := by
    intro h0
    have hb := runMask_bit (i := a) h
    rw [← he, h0] at hb
    simp [hn] at hb
  rw [Packet.padBytes, if_neg (by rw [hsz]; decide), if_pos hne, he, maskRun_runMask hn h, hl]
  rfl

theorem padBytes_line {p : Packet} {l : Line} (hsz : p.sz = 4) (hl : p.lines = [l]) (he : p.enables = 0) :
    p.padBytes = [(p.off.toNat, Line.bytes l)] := by
  rw [Packet.padBytes, if_neg (by rw [hsz]; decide), if_neg (by simp [he]), hsz, hl]
  rfl

theorem padBytes_two {p : Packet} {l m : Line} (hsz : p.sz = 5) (hl : p.lines = [l, m]) :
    p.padBytes = [(p.off.toNat, Line.bytes l), (p.off.toNat + 64, Line.bytes m)] := by
  have he : p.enables = 0 := by simp [Packet.enables, hsz]
  rw [Packet.padBytes, if_neg (by rw [hsz]; decide), if_neg (by simp [he]), hsz, hl]
  rfl

/-- A write of one line or of part of one stores one run of bytes. -/
theorem padBytes_one {p : Packet} (hsz : p.sz = 4) : ∃ o bs, p.padBytes = [(o, bs)] := by
  rw [Packet.padBytes, if_neg (by rw [hsz]; decide)]
  split
  · exact ⟨_, _, rfl⟩
  · rw [hsz]
    exact ⟨_, _, rfl⟩

theorem nth_run (l : Line) {a n i : Nat} (hi : i < n) (h : a + n ≤ 64) :
    nth 0 (((Line.bytes l).drop a).take n) i = l.extractLsb' (8 * (a + i)) 8 := by
  rw [← nth_bytes l (show a + i < 64 by omega), nth_eq_getD, nth_eq_getD, List.getD_eq_getElem?_getD, List.getD_eq_getElem?_getD,
    List.getElem?_take_of_lt hi, List.getElem?_drop]

theorem Router.count_pairAt (r : Router) (lo n : Nat) : pairAt (r.count lo n).regs lo = pairAt r.regs lo + BitVec.ofNat 64 n :=
  pairAt_bump _ _ _

/-- An answer that no slot awaits is discarded, counted and reported (R168). -/
theorem late_stepped {s s' t : State} {c : CoreId} {p : Packet} (h : s'.Stepped t c ((kOf s c).late p)) (hs : s'.transit = s.transit) :
    ∃ m : Msg, t.transit = s.transit ++ [m] ∧ m.kind = 0x22 ∧ m.block = 10 ∧ m.detail.toNat = p.txid.toNat ∧
      m.address.toNat = epBits p.src ∧ pairAt (t.ownRouter c).regs rRT_LATE = pairAt (s.ownRouter c).regs rRT_LATE + 1 := by
  have hx := p.txid.isLt
  have hpx := p.src.px.isLt
  have hpy := p.src.py.isLt
  have he := Bool.toNat_le p.src.ext
  have hkind : ((kOf s c).msgOf 10 0x22 p.txid.toNat (epBits p.src)).kind = 0x22 := rfl
  refine ⟨(kOf s c).msgOf 10 0x22 p.txid.toNat (epBits p.src), ?_, hkind, rfl, ?_, ?_, ?_⟩
  · rw [h.transit, hs]; rfl
  · exact toNat_ofNat_lt (by omega)
  · exact toNat_ofNat_lt (by rw [epBits]; omega)
  · have hrt : ((kOf s c).late p).rt = (s.ownRouter c).count rRT_LATE 1 := rfl
    have hr := h.router rRT_LATE (by decide) (by decide)
    rw [hrt, Router.count_pairAt] at hr
    exact hr

/-- The message of a timeout (R168, R177). -/
def K.timeoutMsg (k : K) (i : Nat) (u : SlotUse) : Msg :=
  k.msgOf 10 0x21 (k.core.txid i).toNat (addrSpace u.addr * 2 ^ 44 + pktOff u.addr)

/-- A core whose transaction has timed out: counted, reported, and its slot freed (R168). -/
def K.timeoutNoted (k : K) (i : Nat) (u : SlotUse) : K :=
  { k with rt := k.rt.count rRT_TOCNT 1, core := (k.core.noteMsg (k.timeoutMsg i u)).freeUp i, msgs := k.msgs ++ [k.timeoutMsg i u] }

theorem timeoutNoted_core (k : K) (i : Nat) (u : SlotUse) :
    (k.timeoutNoted i u).core = { k.core.freeUp i with regs := (k.core.noteMsg (k.timeoutMsg i u)).regs } := by
  show (k.core.noteMsg (k.timeoutMsg i u)).freeUp i = _
  rw [noteMsg_regsOnly]
  rfl

/-- The timeout of a store is noted and its instruction faults (R49, R168). -/
theorem timeout_stepped {s : State} {c : CoreId} {i pc : Nat} {ad : DWord} (hp : s.present c = true) (hab : (s.core c).abortable = true)
    (hi : i < 8) (hu : ((s.core c).slots.get Slot.reset i).use = some (.store ad pc))
    (hage : ((s.core c).slots.get Slot.reset i).limit ≤ ((s.core c).slots.get Slot.reset i).age) :
    ∃ t : State, exec (.transactionTimeout c (BitVec.ofNat 6 i)) s = .next t ∧
      s.Stepped t c (((kOf s c).timeoutNoted i (.store ad pc)).answerFault pc ad) := by
  have hab' : ((kOf s c).timeoutNoted i (.store ad pc)).core.abortable = true := by rw [timeoutNoted_core]; exact hab
  have hidx : (BitVec.ofNat 6 i).toNat = i := toNat_ofNat_lt (by omega)
  show ∃ t, execTransactionTimeout c (BitVec.ofNat 6 i) s = .next t ∧ _
  rw [execTransactionTimeout, hp]
  simp only [hidx, Bool.not_true, Bool.false_eq_true, if_false]
  generalize hf : (fun k : K => _ : K → K) = f
  have hfk : f (kOf s c) = ((kOf s c).timeoutNoted i (.store ad pc)).answerFault pc ad := by
    rw [← hf]
    have hold : ¬ (decide (((s.core c).slots.get Slot.reset i).age < ((s.core c).slots.get Slot.reset i).limit) || (SlotUse.store ad pc).waits) = true := by
      simp [SlotUse.waits, hage]
    show (match (SMap.get Slot.reset (s.core c).slots i).use with | none => _ | some u => _) = _
    rw [hu]
    exact if_neg hold
  refine ⟨_, rfl, ?_⟩
  rw [← hfk]
  exact onCoreSettled_stepped (present_onGrid hp) (by rw [hfk, answerFault_eq hab']; rfl) (by rw [hfk, answerFault_eq hab']; rfl)

/-- Settles O31. -/
theorem remoteAccesses : Obligations.RemoteAccesses := by
  unfold Obligations.RemoteAccesses
  refine ⟨fun s c p l => ?_, fun s c p i d ad pc => ?_⟩
  · intro k off b answer others tailOf hsp hsz halign hoff hkill
    refine ⟨fun ha hop hr hc => ?_, fun ha hop hs => ?_, fun ha hop hr => ?_, fun ht hop hl he => ?_, fun a n hn hlt ht hop hl he hc => ?_,
      fun m ht hop => ?_, fun ht hop => ?_⟩
    · obtain ⟨q, hq, -, hql, hqd, hqt, hrep⟩ := reply_eq (kOf s c) p 9 0 4 1 0 [Mem.readLine k.mem off]
      obtain ⟨htook, hst⟩ := arrival_step (ok := fun p => p.op == 0 && p.space == 0) ha (by simp [hop, hsp])
        ((remoteRead_clean hsz halign hoff hr hc).trans hrep) rfl rfl
      exact ⟨_, q, rfl, htook, hq, hql, ⟨hqd, hqt, [], by rw [hst.inj]; simp⟩, hst.mem,
        fun x _ => congrArg (fun m => Mem.read m x) hst.mem, hst.sregs, hst.pc, hst.inq, hst.others⟩
    · obtain ⟨m, hmk, hmb, hse⟩ := spErr_eq (kOf s c) agNET 0x06 off 0 ((kOf s c).requester p)
      obtain ⟨rs, hrs⟩ := spErr_regsOnly (kOf s c) agNET 0x06 off 0 ((kOf s c).requester p)
      have hcount := spErr_sleepref (kOf s c) agNET off 0 ((kOf s c).requester p)
      have hfrom := remoteRead_sleeping (k := kOf s c) hsz halign hoff hs
      generalize (kOf s c).spErr agNET 0x06 off 0 ((kOf s c).requester p) = k1 at hse hrs hcount hfrom
      obtain ⟨q, hq, hqa, -, hqd, hqt, hrep⟩ := reply_eq k1 p 11 7 0 0 0 []
      obtain ⟨htook, hst⟩ := arrival_step (ok := fun p => p.op == 0 && p.space == 0) ha (by simp [hop, hsp])
        (hfrom.trans hrep) (by rw [hse]; rfl) (by rw [hse]; rfl)
      have hmem : (_ : Core).mem = k.mem := hst.mem.trans (by rw [hrs]; rfl)
      refine ⟨_, q, m, rfl, htook, hq, hqa, ⟨hqd, hqt, [], by rw [hst.inj, hse]; simp⟩, by rw [hst.transit, hse]; rfl, hmk, hmb, ?_, hmem,
        fun x _ => congrArg (fun m => Mem.read m x) hmem, hst.sregs.trans (by rw [hrs]; rfl), hst.pc.trans (by rw [hrs]; rfl),
        hst.inq.trans (by rw [hrs]; rfl), hst.others⟩
      exact (hst.pair (by decide) (by decide) (by decide)).trans hcount
    · have hcore := acceptsWrite_core s c p
      have hoth := acceptsWrite_others s c p
      refine ⟨_, remoteWriteAccept_served ha hop hsp hsz halign hoff hr, ⟨rfl, hoth⟩, rfl, ?_⟩
      dsimp only [others]
      rw [hcore]
      exact ⟨bank_pendAdd _ _, rfl, acceptsWrite_inj s c p, fun _ _ => rfl, rfl, rfl, rfl, hoth⟩
    · obtain ⟨hp, hheld, hacc, hrest⟩ := ht
      obtain ⟨t, q, ht, hta, hq, hans, hm, hb, hs, hpc, hin, hoth⟩ := remoteWriteTail_one hp hacc hrest hheld hsz hop hkill
        (padBytes_line hsz hl he) (.inr (bytes_length l))
      have hread := fun x => hm ▸ putBytes_read_line (k := (s.core c).pendSub [off]) halign (bytes_length l) x
      refine ⟨t, q, ht, hta, hq, hans, Mem.readLine_eq (fun i hi => ?_), ?_, fun x hx => ?_, hs, hpc, hin, hoth⟩
      · rw [hread, if_pos (by omega), Nat.add_sub_cancel_left, nth_bytes l hi]
      · exact (congrArg (fun m => (SMap.get Bank.reset m (bankOf off)).pendWr) hb).trans (bank_pendSub _ _)
      · rw [hread, if_neg (by omega)]; rfl
    · obtain ⟨hp, hheld, hacc, hrest⟩ := ht
      have hline : (off + a) / 64 * 64 = off := by omega
      have hclean : ((s.core c).pendSub [off + a]).cleanLine ((off + a) / 64 * 64) = true := by rw [hline]; exact hc
      obtain ⟨t, q, ht, hta, hq, hans, hm, -, hs, hpc, hin, hoth⟩ := remoteWriteTail_one hp hacc hrest hheld hsz hop hkill
        (padBytes_masked hsz hl hn hlt he) (.inl hclean)
      have hlen : (((Line.bytes l).drop a).take n).length = n := by simp [bytes_length]; omega
      have hread := fun x => hm ▸ putBytes_read_clean (((Line.bytes l).drop a).take n) hclean x
      refine ⟨t, q, ht, hta, hq, hans, fun i hi => ?_, fun x hx => ?_, hs, hpc, hin, hoth⟩
      · rw [hread, hlen]
        by_cases h : a ≤ i ∧ i < a + n
        · rw [if_pos (by omega), if_pos h, show off + i - (off + a) = i - a by omega, nth_run l (by omega) (by omega), Nat.add_sub_cancel' h.1]
        · rw [if_neg (by omega), if_neg h]; rfl
      · rw [hread, hlen, if_neg (by omega)]; rfl
    · obtain ⟨hp, hheld, hacc, hrest⟩ := ht
      generalize hq : ({ p with sz := 5, lines := [l, m] } : Packet) = q at hacc ⊢
      have hqo : q.off = p.off := by rw [← hq]
      have hqs : q.sz = 5 := by rw [← hq]
      have hb := padBytes_two (p := q) (l := l) (m := m) hqs (by rw [← hq])
      obtain ⟨t, ht, hta, hm, hs, hpc, hin, hoth⟩ := remoteWriteTail_first hp hacc hrest (by rw [hqo]; exact hheld) (by rw [hqs]; decide)
        (by rw [← hq]; exact hop) (by rw [← hq]; exact hkill) hb (bytes_length l)
      rw [hqo] at hm
      have hread := fun x => hm ▸ putBytes_read_line (k := (s.core c).pendSub [off]) halign (bytes_length l) x
      refine ⟨t, ht, hta, Mem.readLine_eq (fun i hi => ?_), fun x hx => ?_, hs, hpc, hin, hoth⟩
      · rw [hread, if_pos (by omega), Nat.add_sub_cancel_left, nth_bytes l hi]
      · rw [hread, if_neg (by omega)]; rfl
    · obtain ⟨hp, hheld, hacc, hrest⟩ := ht
      generalize hq : ({ p with killed := true } : Packet) = q at hacc
      have hqo : q.off = p.off := by rw [← hq]
      have hqs : q.sz = 4 := by rw [← hq]; exact hsz
      obtain ⟨o, bs, hb⟩ := padBytes_one hqs
      obtain ⟨t, ht, hta, hinj, hcore, hoth⟩ := remoteWriteTail_killed hp hacc hrest (by rw [hqo]; exact hheld) hqs (by rw [← hq]) hb
      rw [hqo] at hcore
      have hmem : (t.core c).mem = k.mem := by rw [hcore.1]; rfl
      refine ⟨t, ht, hta, hinj, hmem, ?_, fun x _ => congrArg (fun m => Mem.read m x) hmem, by rw [hcore.1]; rfl, by rw [hcore.1]; rfl,
        by rw [hcore.1]; rfl, hoth⟩
      rw [hcore.1]
      exact bank_pendSub _ _
  · intro k e faulted hi
    refine ⟨fun ha hop hl hans had => ?_, fun ha hop hans => ?_, fun ha hop hab hans => ?_, fun ha hop hans => ?_, fun hp hab hu hage => ?_⟩
    · have hd : readData p (kOf s c) = { kOf s c with core := (k.setS d (headPart p.head 8 (field ad 0 3))).freeUp i } := by
        rw [readData, show (kOf s c).core.answered p = _ from hans]
        dsimp only
        rw [K.loadData, hl]
        rfl
      have hv : headPart p.head 8 (field ad 0 3) = p.head.extractLsb' 0 64 := by
        rw [field_eq_div, Nat.pow_zero, Nat.div_one, show ad.toNat % 2 ^ 3 = 0 from had]
        exact BitVec.eq_of_toNat_eq (by simp [headPart])
      rw [hv] at hd
      obtain ⟨htook, hst⟩ := arrival_step (ok := fun p => p.op == 9) ha (by simp [hop]) hd rfl rfl
      refine ⟨_, rfl, htook, fun r => (sreg_congr hst.sregs r).trans (setS_sregs k d _ r), ?_, hst.rlb.trans (Core.setS_rlb ..),
        hst.mem.trans (Core.setS_mem ..), hst.pc.trans ?_⟩
      · rw [Core.slotFreed, hst.slots, Core.setS_eq]
        exact slotFreed_freeUp k i
      · rw [Core.setS_eq]; rfl
    · obtain ⟨htook, hst⟩ := arrival_step (ok := fun p => p.op == 10) (f := writeAcked) (k := { kOf s c with core := (s.core c).freeUp i }) ha (by simp [hop])
        (by rw [writeAcked, show (kOf s c).core.answered p = _ from hans]; rfl) rfl rfl
      refine ⟨_, rfl, htook, ?_, hst.sregs, hst.mem, hst.pc⟩
      rw [Core.slotFreed, hst.slots]
      exact slotFreed_freeUp _ i
    · have hab' : ({ kOf s c with core := k.freeUp i } : K).core.abortable = true := hab
      have hf : errArrived p (kOf s c) = K.answerFault { kOf s c with core := k.freeUp i } pc ad := by
        rw [errArrived, show (kOf s c).core.answered p = _ from hans]
        rfl
      obtain ⟨htook, hst⟩ := arrival_step (ok := fun p => p.op == 11) ha (by simp [hop]) hf (by rw [answerFault_eq hab']; rfl) (by rw [answerFault_eq hab']; rfl)
      obtain ⟨h1, h2, h3, h4, h5, h6, h7⟩ := stepped_faulted (s := s) hst hab (slotFreed_freeUp k i) rfl rfl
      refine ⟨_, K.accessMsg { kOf s c with core := k.freeUp i } pc ad, rfl, htook, ⟨h1, h2, h3, h4, h5, h6, h7, htook.2⟩, ?_, rfl, rfl⟩
      rw [hst.transit, answerFault_eq hab']
      rfl
    · obtain ⟨htook, hst⟩ := arrival_step (ok := fun p => p.op == 10) (f := writeAcked) (k := (kOf s c).late p) ha (by simp [hop])
        (by rw [writeAcked, show (kOf s c).core.answered p = _ from hans]) rfl rfl
      obtain ⟨m, htr, hk, hb, hd, had, hrt⟩ := late_stepped hst rfl
      have hm' : ((kOf s c).late p).core = k.noteMsg ((kOf s c).msgOf 10 0x22 p.txid.toNat (epBits p.src)) := rfl
      rw [noteMsg_regsOnly] at hm'
      exact ⟨_, m, rfl, htook, htr, hk, hb, hd, had, hrt, hst.sregs.trans (by rw [hm']), hst.mem.trans (by rw [hm']),
        hst.slots.trans (by rw [hm'])⟩
    · obtain ⟨t, ht, hst⟩ := timeout_stepped hp hab hi hu hage
      have hab' : ((kOf s c).timeoutNoted i (.store ad pc)).core.abortable = true := by rw [timeoutNoted_core]; exact hab
      have hslot : k.slotFreed ((kOf s c).timeoutNoted i (.store ad pc)).core i := by rw [timeoutNoted_core]; exact slotFreed_freeUp k i
      obtain ⟨h1, h2, h3, h4, h5, h6, h7⟩ := stepped_faulted (s := s) hst hab' hslot (by rw [timeoutNoted_core]; rfl) (by rw [timeoutNoted_core]; rfl)
      have hx := (k.txid i).isLt
      refine ⟨t, (kOf s c).timeoutMsg i (.store ad pc), ((kOf s c).timeoutNoted i (.store ad pc)).accessMsg pc ad, ht,
        ⟨h1, h2, h3, h4, h5, h6, h7, hst.others⟩, ?_, rfl, rfl, toNat_ofNat_lt (show (k.txid i).toNat < 2 ^ 16 by omega), rfl, ?_⟩
      · rw [hst.transit, answerFault_eq hab']
        rfl
      · have hr := hst.router rRT_TOCNT (by decide) (by decide)
        rw [answerFault_eq hab'] at hr
        exact hr.trans (Router.count_pairAt _ _ _)

end Sys2Proof.Machine
end

section
/-! SUPPORT. Weights scans: their start, the lines they read, and their end (R71, R380). -/

namespace Sys2Proof.Machine

/-! ### The start of a scan -/

/-- The step of a scan that is due (R380, R382). -/
theorem weightsScanStart_due {s : State} {c : CoreId} (ha : s.alive c = true) (he : (s.core c).scanEn = true)
    (hd : (s.coreCycle c).toNat % 2400000 = 0 ∨ s.scansAtOnce c = true) :
    ∃ t : State, exec (.weightsScanStart c) s = .next t ∧ t.core c = (K.scanStart (kOf s c)).core ∧
      t.transit = s.transit ++ (K.scanStart (kOf s c)).msgs ∧ s.othersKept t c := by
  have hdue : (s.alive c && (kOf s c).core.scanEn && ((kOf s c).cyc.toNat % 2400000 == 0 || s.scansAtOnce c)) = true := by
    have hd' : ((s.coreCycle c).toNat % 2400000 == 0 || s.scansAtOnce c) = true := by simpa using hd
    rw [ha, show (kOf s c).core.scanEn = true from he, show (kOf s c).cyc = s.coreCycle c from rfl, hd']
    rfl
  have hc : (K.scanStart (kOf s c)).c = c := by unfold K.scanStart; split <;> rfl
  have hput : onCore c s K.scanStart = kPut s (K.scanStart (kOf s c)) := if_pos (alive_onGrid ha)
  refine ⟨_, if_pos hdue, ?_⟩
  have hcore := kPut_core (s := s) hc
  have hoth := kPut_other (s := s) hc
  rw [hput]
  split <;> exact ⟨hcore, rfl, hoth⟩

theorem scanStart_idle {k : K} (h : k.core.scan = none) : k.scanStart = { k with core := { k.core with scan := some { next := 0, lines := [] } } } := by
  rw [K.scanStart, h]
  rfl

/-- The message of a scan abandoned (R380). -/
def K.abandonMsg (k : K) : Msg := k.msgOf 4 0xE1 k.core.scans16 0

/-- FLT_WSTAT with the mark of an abandoned scan (R380). -/
def Core.scanMarked (k : Core) : Core := k.setReg rFLT_WSTAT (k.reg rFLT_WSTAT ||| 0x40000000#32)

theorem scanStart_abandons {k : K} {x : Scan} (h : k.core.scan = some x) : k.scanStart =
    { k with core := { (k.core.scanMarked).noteMsg k.abandonMsg with scan := some { next := 0, lines := [] } }, msgs := k.msgs ++ [k.abandonMsg] } := by
  have h16 : (k.core.setReg rFLT_WSTAT (k.core.reg rFLT_WSTAT ||| 0x40000000#32)) = k.core.scanMarked := rfl
  rw [K.scanStart, h, h16]
  rfl

/-! ### The lines read -/

/-- A line that a scan reads (R71). -/
def K.scanned (k : K) (x : Scan) : K :=
  { k with core := { k.core.count rMV_DGBYTES 64 with
                       scan := some { next := x.next + 1, lines := Mem.readLine k.core.mem (64 * x.next) :: x.lines } } }

theorem scanLine_reads {k : K} {x : Scan} (hr : k.core.refusal false (64 * x.next) = none) (hc : k.core.cleanLine (64 * x.next) = true) :
    k.scanLine x = k.scanned x := by
  have hline : 64 * x.next / 64 * 64 = 64 * x.next := by omega
  rw [K.scanLine, readLine_clean hr (by rw [hline]; exact hc), hline]
  rfl

/-- A cycle of a scan whose next line is clean and whose bank nothing holds (R71, R109). -/
theorem scanCycle_reads {k : K} {x : Scan} (hx : k.core.scan = some x) (hlt : x.next < k.core.wtop * 256)
    (hm : k.core.mvHeld (64 * x.next) = false) (hr : k.core.refusal false (64 * x.next) = none) (hc : k.core.cleanLine (64 * x.next) = true) :
    k.scanCycle = k.scanned x := by
  rw [K.scanCycle, hx]
  dsimp only
  rw [if_neg (Nat.not_le.2 hlt), if_neg (by rw [hm]; decide), scanLine_reads hr hc]

/-- What the lines a scan reads leave of a working context: the scan stands `n` lines further, MV_DGBYTES has counted them, and nothing else
has changed. -/
structure K.ReadOn (k k' : K) (x : Scan) (n : Nat) : Prop where
  eq : ∃ y, k' = { k with core := { k.core with regs := k'.core.regs, scan := some y } } ∧
    y.lines.reverse = x.lines.reverse ++ (List.range n).map (fun i => Mem.readLine k.core.mem (64 * (x.next + i)))
  bytes : pairAt k'.core.regs rMV_DGBYTES = pairAt k.core.regs rMV_DGBYTES + BitVec.ofNat 64 (64 * n)
  others : ∀ d off, off ≠ rMV_DGBYTES → off ≠ rMV_DGBYTES + 4 → SMap.get d k'.core.regs off = SMap.get d k.core.regs off

/-- Clean lines are read one after the other (R71). -/
theorem scanRest_reads {k : K} {x : Scan} {n : Nat} (hx : k.core.scan = some x)
    (h : ∀ i, i < n → k.core.refusal false (64 * (x.next + i)) = none ∧ k.core.cleanLine (64 * (x.next + i)) = true) :
    k.ReadOn (K.scanRest n k) x n := by
  induction n generalizing k x with
  | zero => exact ⟨⟨x, by rw [K.scanRest, ← hx], by simp⟩, by simp [K.scanRest], fun _ _ _ _ => rfl⟩
  | succ n ih =>
    have h0 := h 0 (by omega)
    have hrec := ih (k := k.scanned x) (x := { next := x.next + 1, lines := Mem.readLine k.core.mem (64 * x.next) :: x.lines }) rfl
      (fun i hi => by
        have hi' := h (i + 1) (by omega)
        rw [show x.next + 1 + i = x.next + (i + 1) by omega]
        exact ⟨(refusal_count k.core 64 (by decide) false _).trans hi'.1, hi'.2⟩)
    rw [K.scanRest, hx]
    dsimp only
    rw [scanLine_reads h0.1 h0.2]
    obtain ⟨⟨y, hy, hl⟩, hb, ho⟩ := hrec
    refine ⟨⟨y, hy, ?_⟩, ?_, fun d off h1 h2 => (ho d off h1 h2).trans (get_bump_other k.core.regs rMV_DGBYTES 64 off d h1 h2)⟩
    · rw [hl, List.range_succ_eq_map, List.map_cons, List.map_map, List.reverse_cons, List.append_assoc, List.singleton_append]
      refine congrArg (fun l => x.lines.reverse ++ Mem.readLine k.core.mem (64 * x.next) :: l) (List.map_congr_left (fun i _ => ?_))
      show Mem.readLine k.core.mem (64 * (x.next + 1 + i)) = Mem.readLine k.core.mem (64 * (x.next + (i + 1)))
      rw [show x.next + 1 + i = x.next + (i + 1) by omega]
    · rw [hb]
      show pairAt (bump k.core.regs rMV_DGBYTES 64) rMV_DGBYTES + _ = _
      rw [pairAt_bump, add_assoc, ← BitVec.ofNat_add, show 64 + 64 * n = 64 * (n + 1) by omega]

/-! ### Digests kept in registers -/

theorem setDigest_reg_other (k : Core) (lo : Nat) (d : BitVec 384) {off : Nat} (h : off < lo ∨ lo + 48 ≤ off) :
    (k.setDigest lo d).reg off = k.reg off := by
  have hall : ∀ (l : List Nat) (k : Core), (∀ i ∈ l, i < 12) →
      (l.foldl (fun a i => a.setReg (lo + 4 * i) (d.extractLsb' (32 * i) 32)) k).reg off = k.reg off := by
    intro l
    induction l with
    | nil => exact fun _ _ => rfl
    | cons i t ih =>
      intro k hi
      have h12 := hi i (by simp)
      exact (ih _ (fun j hj => hi j (by simp [hj]))).trans (Core.setReg_reg_other _ _ (by omega))
  exact hall _ k (fun i hi => List.mem_range.1 hi)

theorem setDigest_reg (k : Core) (lo : Nat) (d : BitVec 384) {i : Nat} (hi : i < 12) :
    (k.setDigest lo d).reg (lo + 4 * i) = d.extractLsb' (32 * i) 32 := by
  have hall : ∀ n, i < n → ((List.range n).foldl (fun (a : Core) i => a.setReg (lo + 4 * i) (d.extractLsb' (32 * i) 32)) k).reg (lo + 4 * i) =
      d.extractLsb' (32 * i) 32 := by
    intro n hn
    induction n with
    | zero => omega
    | succ n ih =>
      rw [List.range_succ, List.foldl_append]
      by_cases h : i = n
      · rw [h]; exact Core.setReg_reg_self _ _ _
      · exact (Core.setReg_reg_other _ _ (by omega)).trans (ih (by omega))
  exact hall 12 hi

/-- The bytes of the twelve words of a digest are its bytes. -/
theorem digest_bytes (d : BitVec 384) : (List.range 12).flatMap (fun i => leBytes 4 (d.extractLsb' (32 * i) 32).toNat) = leBytes 48 d.toNat := by
  simp only [leBytes_eq_map]
  rw [flatMap_range_blocks (fun i b => BitVec.ofNat 8 ((d.extractLsb' (32 * i) 32).toNat / 256 ^ b)) 12 (by decide)]
  refine List.map_congr_left (fun b _ => ?_)
  apply BitVec.eq_of_toNat_eq
  have hr : b % 4 < 4 := Nat.mod_lt _ (by decide)
  rw [BitVec.toNat_ofNat, BitVec.toNat_ofNat, extract_toNat, pow256, pow256]
  have hb : 8 * b = 32 * (b / 4) + 8 * (b % 4) := by omega
  rw [hb, Nat.pow_add, ← Nat.div_div_eq_div_mul]
  exact mod_div_mod _ (show 8 * (b % 4) + 8 ≤ 32 by omega)

/-- A digest written to its twelve registers is read from them (R380). -/
theorem digestAt_setDigest (k : Core) (lo : Nat) (d : BitVec 384) : (k.setDigest lo d).digestAt lo = d := by
  have hwords : (List.range 12).flatMap (fun i => leBytes 4 ((k.setDigest lo d).reg (lo + 4 * i)).toNat) = leBytes 48 d.toNat := by
    rw [← digest_bytes]
    exact List.flatMap_congr (fun i hi => by rw [setDigest_reg k lo d (List.mem_range.1 hi)])
  rw [Core.digestAt, hwords, leNat_leBytes]
  exact BitVec.eq_of_toNat_eq (by rw [BitVec.toNat_ofNat, pow256, show 8 * 48 = 384 from rfl, Nat.mod_mod, Nat.mod_eq_of_lt d.isLt])

theorem digestAt_congr {k k' : Core} {lo : Nat} (h : ∀ i, i < 12 → k'.reg (lo + 4 * i) = k.reg (lo + 4 * i)) :
    k'.digestAt lo = k.digestAt lo := by
  rw [Core.digestAt, Core.digestAt]
  exact congrArg (fun l => BitVec.ofNat 384 (leNat l)) (List.flatMap_congr (fun i hi => by rw [h i (List.mem_range.1 hi)]))

/-! ### The end of a scan -/

theorem Core.count_reg_other (k : Core) {lo n off : Nat} (h : off ≠ lo) (h4 : off ≠ lo + 4) : (k.count lo n).reg off = k.reg off :=
  get_bump_other k.regs lo n off _ h h4

theorem count_pairAt_self (k : Core) (lo : Nat) : pairAt (k.count lo 1).regs lo = pairAt k.regs lo + 1 := pairAt_bump k.regs lo 1

theorem setDigest_regs (k : Core) (lo : Nat) (d : BitVec 384) : k.setDigest lo d = { k with regs := (k.setDigest lo d).regs } := by
  unfold Core.setDigest
  generalize List.range 12 = l
  induction l generalizing k with
  | nil => rfl
  | cons i t ih => exact ih (k.setReg _ _)

theorem setDigest_pairAt (k : Core) (lo : Nat) (d : BitVec 384) {p : Nat} (h : p + 4 < lo ∨ lo + 48 ≤ p) :
    pairAt (k.setDigest lo d).regs p = pairAt k.regs p := by
  have hall : ∀ (l : List Nat) (k : Core), (∀ i ∈ l, i < 12) →
      pairAt (l.foldl (fun (a : Core) i => a.setReg (lo + 4 * i) (d.extractLsb' (32 * i) 32)) k).regs p = pairAt k.regs p := by
    intro l
    induction l with
    | nil => exact fun _ _ => rfl
    | cons i t ih =>
      intro k hi
      have h12 := hi i (by simp)
      exact (ih _ (fun j hj => hi j (by simp [hj]))).trans (pairAt_set_other _ _ _ _ (by omega) (by omega))
  exact hall _ k (fun i hi => List.mem_range.1 hi)

/-- A core that keeps the digest of its scan, which is over (R71). -/
def Core.scanOver (k : Core) (d : BitVec 384) : Core := { k.setDigest rFLT_WLAST d with scan := none }

/-- It counts the scan and the blocks of its digest. -/
def Core.scanKept (k : Core) (d : BitVec 384) : Core :=
  ((k.scanOver d).count rFLT_WSCANS 1).count rPWC_DGB (shaBlocks ((k.scanOver d).wtop * 16384))

theorem scanKept_reg (k : Core) (d : BitVec 384) {off : Nat} (h : off ∉ [rFLT_WSCANS, rFLT_WSCANS + 4, rPWC_DGB, rPWC_DGB + 4]) :
    (k.scanKept d).reg off = (k.setDigest rFLT_WLAST d).reg off := by
  simp only [List.mem_cons, List.not_mem_nil, or_false, not_or] at h
  obtain ⟨hs, hs4, hd, hd4⟩ := h
  exact (Core.count_reg_other _ hd hd4).trans (Core.count_reg_other (k.scanOver d) hs hs4)

theorem scanKept_wlast (k : Core) (d : BitVec 384) : (k.scanKept d).digestAt rFLT_WLAST = d := by
  refine (digestAt_congr (fun i hi => scanKept_reg k d ?_)).trans (digestAt_setDigest k _ d)
  simp only [List.mem_cons, List.not_mem_nil, or_false, not_or, rFLT_WLAST, rFLT_WSCANS, rPWC_DGB]
  omega

theorem scanKept_wref (k : Core) (d : BitVec 384) : (k.scanKept d).digestAt rFLT_WREF = k.digestAt rFLT_WREF := by
  refine digestAt_congr (fun i hi => (scanKept_reg k d ?_).trans (setDigest_reg_other k _ d ?_))
  · simp only [List.mem_cons, List.not_mem_nil, or_false, not_or, rFLT_WREF, rFLT_WSCANS, rPWC_DGB]
    omega
  · simp only [rFLT_WREF, rFLT_WLAST]
    omega

theorem scanKept_wscans (k : Core) (d : BitVec 384) :
    pairAt (k.scanKept d).regs rFLT_WSCANS = pairAt k.regs rFLT_WSCANS + 1 := by
  have h1 : pairAt (k.scanKept d).regs rFLT_WSCANS = pairAt ((k.scanOver d).count rFLT_WSCANS 1).regs rFLT_WSCANS :=
    count_pairAt_other ((k.scanOver d).count rFLT_WSCANS 1) _ (by decide)
  have h2 : pairAt ((k.scanOver d).count rFLT_WSCANS 1).regs rFLT_WSCANS = pairAt (k.setDigest rFLT_WLAST d).regs rFLT_WSCANS + 1 :=
    count_pairAt_self (k.scanOver d) _
  rw [h1, h2, setDigest_pairAt k _ d (by decide)]

theorem scanKept_bytes (k : Core) (d : BitVec 384) : pairAt (k.scanKept d).regs rMV_DGBYTES = pairAt k.regs rMV_DGBYTES := by
  have h1 : pairAt (k.scanKept d).regs rMV_DGBYTES = pairAt ((k.scanOver d).count rFLT_WSCANS 1).regs rMV_DGBYTES :=
    count_pairAt_other ((k.scanOver d).count rFLT_WSCANS 1) _ (by decide)
  have h2 : pairAt ((k.scanOver d).count rFLT_WSCANS 1).regs rMV_DGBYTES = pairAt (k.setDigest rFLT_WLAST d).regs rMV_DGBYTES :=
    count_pairAt_other (k.scanOver d) _ (by decide)
  rw [h1, h2, setDigest_pairAt k _ d (by decide)]

/-- FLT_WSTAT.MISM set or cleared (R380). -/
def Core.mismatch (k : Core) (b : Bool) : Core :=
  k.setReg rFLT_WSTAT (if b then k.reg rFLT_WSTAT ||| 0x80000000#32 else k.reg rFLT_WSTAT &&& 0x7FFFFFFF#32)

/-- The message of a scan whose digest differs from the reference (R380). -/
def K.mismatchMsg (k : K) (d : BitVec 384) : Msg := k.msgOf 4 0xE0 (k.core.scanKept d).scans16 (field d 0 48)

theorem scanEnd_eq (k : K) (d : BitVec 384) : k.scanEnd d =
    if k.core.digestAt rFLT_WREF = d then { k with core := (k.core.scanKept d).mismatch false }
    else { k with core := ((k.core.scanKept d).mismatch true).noteMsg (k.mismatchMsg d), msgs := k.msgs ++ [k.mismatchMsg d] } := by
  rw [← scanKept_wref k.core d]
  rfl

/-- A message that a core counts touches none of the registers below FLT_MSGS (R400). -/
theorem noteMsg_reg_below (k : Core) (m : Msg) {off : Nat} (h : off < rFLT_MSGS) : (k.noteMsg m).reg off = k.reg off := by
  simp only [rFLT_MSGS] at h
  unfold Core.noteMsg
  split
  · show SMap.get _ _ off = _
    rw [SMap.get_set_other _ _ _ _ _ (by simp only [rFLT_LAST]; omega), SMap.get_set_other _ _ _ _ _ (by simp only [rFLT_LAST]; omega),
      SMap.get_set_other _ _ _ _ _ (by simp only [rFLT_LAST]; omega), SMap.get_set_other _ _ _ _ _ (by simp only [rFLT_LAST]; omega),
      get_bump_other _ _ _ _ _ (by simp only [rFLT_MSGS]; omega) (by simp only [rFLT_MSGS]; omega)]
    rfl
  · rfl

/-- A core whose scan has ended, whatever its digest was compared with: but for FLT_WSTAT and the record of messages, its registers are
those of the scan kept. -/
structure Core.ScanDone (k kf : Core) (d : BitVec 384) : Prop where
  only : ∃ rs, kf = { k with regs := rs, scan := none }
  reg : ∀ off, off < rFLT_MSGS → off ≠ rFLT_WSTAT → kf.reg off = (k.scanKept d).reg off
  pair : ∀ lo, lo + 4 < 0xC078 → lo + 4 < rFLT_WSTAT ∨ rFLT_WSTAT < lo → pairAt kf.regs lo = pairAt (k.scanKept d).regs lo

theorem scanKept_only (k : Core) (d : BitVec 384) : ∃ rs, k.scanKept d = { k with regs := rs, scan := none } := by
  unfold Core.scanKept Core.scanOver
  rw [setDigest_regs]
  exact ⟨_, rfl⟩

theorem mismatch_scanDone (k : Core) (d : BitVec 384) (b : Bool) : k.ScanDone ((k.scanKept d).mismatch b) d := by
  refine ⟨?_, fun off _ h => Core.setReg_reg_other _ _ h, fun lo _ h => pairAt_set_other _ _ _ _ (by omega) (by omega)⟩
  obtain ⟨rs, h⟩ := scanKept_only k d
  unfold Core.mismatch
  rw [h]
  exact ⟨_, rfl⟩

theorem noteMsg_scanDone {k kf : Core} {d : BitVec 384} (m : Msg) (h : k.ScanDone kf d) : k.ScanDone (kf.noteMsg m) d := by
  refine ⟨?_, fun off hlt hne => (noteMsg_reg_below _ _ hlt).trans (h.reg off hlt hne), fun lo hlt hne => ?_⟩
  · obtain ⟨rs, he⟩ := h.only
    rw [noteMsg_regsOnly, he]
    exact ⟨_, rfl⟩
  · exact (noteMsg_pairAt _ _ hlt).trans (h.pair lo hlt hne)

namespace Core.ScanDone
variable {k kf : Core} {d : BitVec 384}

theorem wlast (h : k.ScanDone kf d) : kf.digestAt rFLT_WLAST = d :=
  (digestAt_congr (fun i hi => h.reg _ (by simp only [rFLT_WLAST, rFLT_MSGS]; omega) (by simp only [rFLT_WLAST, rFLT_WSTAT]; omega))).trans
    (scanKept_wlast k d)

theorem wref (h : k.ScanDone kf d) : kf.digestAt rFLT_WREF = k.digestAt rFLT_WREF :=
  (digestAt_congr (fun i hi => h.reg _ (by simp only [rFLT_WREF, rFLT_MSGS]; omega) (by simp only [rFLT_WREF, rFLT_WSTAT]; omega))).trans
    (scanKept_wref k d)

theorem wscans (h : k.ScanDone kf d) : pairAt kf.regs rFLT_WSCANS = pairAt k.regs rFLT_WSCANS + 1 :=
  (h.pair _ (by decide) (by decide)).trans (scanKept_wscans k d)

theorem bytes (h : k.ScanDone kf d) : pairAt kf.regs rMV_DGBYTES = pairAt k.regs rMV_DGBYTES :=
  (h.pair _ (by decide) (by decide)).trans (scanKept_bytes k d)

end Core.ScanDone

/-- The end of a scan whose lines left are clean: they are read, and the digest of all is compared (R71, R380). -/
theorem weightsScanEnd_reads {s : State} {c : CoreId} {x : Scan} {left : Nat} (ha : s.alive c = true) (hx : (s.core c).scan = some x)
    (hleft : (s.core c).wtop * 256 - x.next = left)
    (h : ∀ i, i < left → (s.core c).mvHeld (64 * (x.next + i)) = false ∧ (s.core c).refusal false (64 * (x.next + i)) = none ∧
      (s.core c).cleanLine (64 * (x.next + i)) = true) :
    ∃ k1 : K, (kOf s c).ReadOn k1 x left ∧ exec (.weightsScanEnd c) s = .next (kPut s (k1.scanEnd (BitVec.ofNat 384 (leNat (sha384
      ((x.lines.reverse ++ (List.range left).map (fun i => Mem.readLine (s.core c).mem (64 * (x.next + i)))).flatMap Line.bytes)))))) := by
  have hread := scanRest_reads (k := kOf s c) hx (fun i hi => (h i hi).2)
  refine ⟨_, hread, ?_⟩
  obtain ⟨y, hy, hl⟩ := hread.eq
  have hheld : (List.range left).any (fun i => (s.core c).mvHeld (64 * (x.next + i))) = false := by
    rw [List.any_eq_false]
    intro i hi
    rw [(h i (List.mem_range.1 hi)).1]
    decide
  have hscan : (K.scanRest left (kOf s c)).core.scan = some y := by rw [hy]
  show execWeightsScanEnd c s = _
  rw [execWeightsScanEnd, onLive_of_alive ha]
  simp only [kOf_core, hx, hleft, hheld, Bool.false_eq_true, if_false, hscan, Scan.digest, hl]

end Sys2Proof.Machine
end

section
/-! SUPPORT. Steps of many cores in succession, and the start of a section on its cores (R214 to R216). -/

namespace Sys2Proof.Machine

/-! ### Steps that change cores and what they send -/

/-- Nothing has changed but cores, routers, the packets and messages that cores hand over, the section slots, the free values taken and the
answer. -/
def State.coresOnly (s t : State) : Prop :=
  t = { s with cores := t.cores, routers := t.routers, inj := t.inj, transit := t.transit, slots := t.slots, freeCtr := t.freeCtr,
               resp := t.resp }

theorem State.coresOnly.refl (s : State) : s.coresOnly s := rfl

theorem State.coresOnly.trans {s t u : State} (h1 : s.coresOnly t) (h2 : t.coresOnly u) : s.coresOnly u := by
  unfold State.coresOnly at h1 h2 ⊢
  rw [h1] at h2
  exact h2

theorem coresOnly_foldl {α : Type} {f : State → α → State} (h : ∀ (s : State) (x : α), s.coresOnly (f s x)) (l : List α) (s : State) :
    s.coresOnly (l.foldl f s) := by
  induction l generalizing s with
  | nil => exact .refl s
  | cons x t ih => exact (h s x).trans (ih _)

theorem kPut_anyCoresOnly (s : State) (k : K) : s.coresOnly (kPut s k) := rfl

theorem onCore_coresOnly (c : CoreId) (s : State) (f : K → K) : s.coresOnly (onCore c s f) := by
  unfold onCore
  split
  · exact kPut_anyCoresOnly s _
  · exact .refl s

/-- Loading a section changes cores, merge slots of routers and section slots alone (R250). -/
theorem loadSection_coresOnly (s : State) (j : Job) (key : Config.PlanKey) (fresh : CoreId → Bool) (pl : SectionPlace) :
    s.coresOnly (s.loadSection j key fresh pl) := by
  unfold State.loadSection
  extract_lets
  refine State.coresOnly.trans (State.coresOnly.trans ?_ (coresOnly_foldl (fun s x => ?_) _ _)) (coresOnly_foldl (fun s x => ?_) _ _)
  · rfl
  · rfl
  · exact onCore_coresOnly _ s _

theorem loadAll_coresOnly (s : State) (j : Job) (key : Config.PlanKey) (fresh : CoreId → Bool) (places : List SectionPlace) :
    s.coresOnly (s.loadAll j key fresh places) :=
  coresOnly_foldl (fun s pl => loadSection_coresOnly s j key fresh pl) places s

theorem alive_of_coresOnly {s t : State} (h : s.coresOnly t) (c : CoreId) : t.alive c = s.alive c := by
  rw [h]
  rfl

/-! ### One core after the other -/

/-- Cores on the grid have keys of their own. -/
theorem coreKey_inj {c d : CoreId} (hc : onGrid c = true) (hd : onGrid d = true) (h : coreKey c = coreKey d) : c = d := by
  simp only [onGrid, Bool.and_eq_true, decide_eq_true_eq] at hc hd
  simp only [coreKey] at h
  have hy : c.y.toNat = d.y.toNat := by omega
  have hx : c.x.toNat = d.x.toNat := by omega
  cases c
  cases d
  simp only [CoreId.mk.injEq]
  exact ⟨BitVec.eq_of_toNat_eq hx, BitVec.eq_of_toNat_eq hy⟩

theorem core_of_othersKept {s t : State} {c d : CoreId} (h : s.othersKept t c) (hc : onGrid c = true) (hd : onGrid d = true) (hne : d ≠ c) :
    t.core d = s.core d := by
  have hk := h.2 (coreKey d) (fun e => hne (coreKey_inj hd hc e))
  rw [State.core, State.core, ← hk]
  simp only [State.blankCore, h.1]

/-- Steps of the cores of a list, each named once: each makes its step from the core as it was before the first of them, and the others stay
as they are. -/
theorem foldl_cores {g : State → CoreId → State} {Q : Core → Core → Prop} {l : List CoreId} {s : State} (hn : l.Nodup)
    (hg : ∀ c ∈ l, onGrid c = true)
    (hstep : ∀ (t : State), ∀ c ∈ l, s.coresOnly t → t.core c = s.core c →
      t.othersKept (g t c) c ∧ t.coresOnly (g t c) ∧ Q (t.core c) ((g t c).core c)) :
    s.coresOnly (l.foldl g s) ∧ (∀ c ∈ l, Q (s.core c) ((l.foldl g s).core c)) ∧
      ∀ d, onGrid d = true → d ∉ l → (l.foldl g s).core d = s.core d := by
  induction l generalizing s with
  | nil => exact ⟨.refl s, fun _ h => absurd h (by simp), fun _ _ _ => rfl⟩
  | cons c l ih =>
    obtain ⟨hc, hn⟩ := List.nodup_cons.1 hn
    have hgc := hg c (by simp)
    obtain ⟨hoth, hco, hq⟩ := hstep s c (by simp) (.refl s) rfl
    have hkept : ∀ d, onGrid d = true → d ≠ c → (g s c).core d = s.core d := fun d hd hne => core_of_othersKept hoth hgc hd hne
    obtain ⟨hco', hq', hrest⟩ := ih (s := g s c) hn (fun d hd => hg d (by simp [hd])) (fun t d hd ht hdt =>
      hstep t d (by simp [hd]) (hco.trans ht) (hdt.trans (hkept d (hg d (by simp [hd])) (fun e => hc (e ▸ hd)))))
    refine ⟨hco.trans hco', fun d hd => ?_, fun d hgd hd => ?_⟩
    · rcases List.mem_cons.1 hd with rfl | hd
      · rw [List.foldl_cons, hrest d hgc hc]
        exact hq
      · have h := hq' d hd
        rwa [hkept d (hg d (by simp [hd])) (fun e => hc (e ▸ hd))] at h
    · rw [List.mem_cons, not_or] at hd
      exact (hrest d hgd hd.2).trans (hkept d hgd hd.1)

/-! ### ARM -/

/-- A core that ARM has accepted (R214, R215). -/
def Core.armed (k : Core) : Core :=
  { ((k.setReg rDF_SECCFG (setField (k.reg rDF_SECCFG) 0 2 (field (k.reg rDF_SECCFG) 0 2 + 1))).setReg rDF_ABREC 0).setReg rDF_ABSRC 0 with
    df := .loaded, staleSeen := false, abCause := none }

theorem arm_passes {k : K} (hd : k.core.df = .idle) (hk : k.core.armCheck = none) : k.arm = ({ k with core := k.core.armed }, none) := by
  rw [K.arm, if_neg (by rw [hd]; decide), hk]
  rfl

/-- The highest WTOP that the active channels leave room for depends on their registers alone (R111). -/
theorem weightsLimit_congr {k k' : Core} (h : ∀ n, n < 16 → k'.reg (rCH_ICFG + 0x40 * n) = k.reg (rCH_ICFG + 0x40 * n)) :
    k'.weightsLimit = k.weightsLimit := by
  have hfind : (List.range 16).find? k'.ichActive = (List.range 16).find? k.ichActive := by
    refine List.find?_congr (fun n hn => ?_)
    rw [Core.ichActive, Core.ichActive, h n (List.mem_range.1 hn)]
  rw [Core.weightsLimit, Core.weightsLimit, hfind]

theorem armed_reg (k : Core) {off : Nat} (h : off < 0x6000) : k.armed.reg off = k.reg off := by
  have hne : off ≠ rDF_SECCFG ∧ off ≠ rDF_ABREC ∧ off ≠ rDF_ABSRC := by
    refine ⟨?_, ?_, ?_⟩ <;> rintro rfl <;> exact absurd h (by decide)
  exact (Core.setReg_reg_other _ _ hne.2.2).trans ((Core.setReg_reg_other _ _ hne.2.1).trans (Core.setReg_reg_other _ _ hne.1))

theorem armed_topNext (k : Core) : k.armed.topNext = k.topNext := by
  have hw : k.armed.wtop = k.wtop := by rw [Core.wtop, Core.wtop, armed_reg k (by decide)]
  rw [Core.topNext, Core.topNext, hw]
  rfl

theorem armed_weightsLimit (k : Core) : k.armed.weightsLimit = k.weightsLimit :=
  weightsLimit_congr (fun n hn => armed_reg k (by simp only [rCH_ICFG]; omega))

/-- The step of one core that ARM has accepted. -/
def State.armOne (s : State) (c : CoreId) : State := kPut s { kOf s c with core := (s.core c).armed }

theorem armOne_core (s : State) (c : CoreId) : (s.armOne c).core c = (s.core c).armed := kPut_core (show K.c { kOf s c with core := (s.core c).armed } = c from rfl)

theorem armOne_others (s : State) (c : CoreId) : s.othersKept (s.armOne c) c := kPut_other (show K.c { kOf s c with core := (s.core c).armed } = c from rfl)

theorem startable_armOne {s : State} {c : CoreId} {l : List CoreId} (h : s.startable (c :: l)) : (s.armOne c).startable l := by
  obtain ⟨hn, hall⟩ := h
  obtain ⟨hc, hn⟩ := List.nodup_cons.1 hn
  refine ⟨hn, fun d hd => ?_⟩
  obtain ⟨ha, hidle, hchk, hlim⟩ := hall d (by simp [hd])
  have hk := core_of_othersKept (armOne_others s c) (alive_onGrid (hall c (by simp)).1) (alive_onGrid ha) (fun e => hc (e ▸ hd))
  rw [hk]
  exact ⟨(alive_of_coresOnly (kPut_anyCoresOnly s _) d).trans ha, hidle, hchk, hlim⟩

/-- Every core of a list that can be started accepts ARM (R215). -/
theorem armFold {l : List CoreId} {s : State} (h : s.startable l) :
    l.foldl (fun (x : State × Bool) c =>
      if x.1.alive c then
        let r := K.arm (kOf x.1 c)
        (kPut x.1 r.1, x.2 && r.2.isNone)
      else (x.1, false)) (s, true) = (l.foldl State.armOne s, true) := by
  induction l generalizing s with
  | nil => rfl
  | cons c l ih =>
    obtain ⟨ha, hidle, hchk, -⟩ := h.2 c (by simp)
    rw [List.foldl_cons, List.foldl_cons, ← ih (startable_armOne h)]
    simp only [ha, if_true, arm_passes (k := kOf s c) hidle hchk]
    rfl

/-! ### START -/

/-- What a run of error reports leaves of a working context: whose it is, and the registers between those of the scratchpad and of the
faults. -/
def K.ErrOnly (k k' : K) : Prop := k'.c = k.c ∧ ∀ off, 0x3000 ≤ off → off < 0xC000 → k'.core.reg off = k.core.reg off

theorem K.ErrOnly.refl (k : K) : k.ErrOnly k := ⟨rfl, fun _ _ _ => rfl⟩

theorem K.ErrOnly.trans {a b c : K} (h1 : a.ErrOnly b) (h2 : b.ErrOnly c) : a.ErrOnly c :=
  ⟨h2.1.trans h1.1, fun off h h' => (h2.2 off h h').trans (h1.2 off h h')⟩

theorem errOnly_foldl {α : Type} {f : K → α → K} (h : ∀ (k : K) (x : α), k.ErrOnly (f k x)) (l : List α) (k : K) : k.ErrOnly (l.foldl f k) := by
  induction l generalizing k with
  | nil => exact .refl k
  | cons x t ih => exact (h k x).trans (ih _)

theorem spErr_errOnly (k : K) (agent kind off bit : Nat) (req : Option CoreId) : k.ErrOnly (k.spErr agent kind off bit req) := by
  obtain ⟨m, -, -, h⟩ := spErr_eq k agent kind off bit req
  rw [h]
  have hctr : spCounter kind + 4 < 0x3000 := by
    unfold spCounter
    split <;> decide
  refine ⟨rfl, fun o h1 h2 => (noteMsg_reg _ _ h2).trans ((Core.count_reg_other _ (by omega) (by omega)).trans ?_)⟩
  unfold Core.spRecord
  split
  · rfl
  · exact (Core.setReg_reg_other _ _ (by simp only [rSP_ERRADDR]; omega)).trans (Core.setReg_reg_other _ _ (by simp only [rSP_ERRINFO]; omega))

theorem spFound_errOnly (k : K) (agent off : Nat) (l : LineScan) (req : Option CoreId) : k.ErrOnly (k.spFound agent off l req) := by
  unfold K.spFound
  extract_lets k1 k2 k3
  have h1 : k.ErrOnly k1 := by
    refine errOnly_foldl (fun a w => ?_) l.ce k
    exact spErr_errOnly a agent 0x01 w.1 w.2 req
  have h2 : k1.ErrOnly k2 := by
    refine errOnly_foldl (fun a w => ?_) l.ue k1
    exact spErr_errOnly a agent 0x02 w 0 req
  have h3 : k2.ErrOnly k3 := by
    dsimp only [k3]
    split
    · exact spErr_errOnly k2 agent 0x03 off 0 req
    · exact .refl _
  refine ((h1.trans h2).trans h3).trans (errOnly_foldl (fun a w => ?_) l.par k3)
  exact spErr_errOnly a agent 0x04 w 0 req

/-- A line written under its code leaves every register. -/
theorem recoded_errOnly {k a : K} (h : k.ErrOnly a) (off : Nat) (m : Mem) :
    k.ErrOnly { a with core := { a.core.freshLine off with mem := m } } := by
  obtain ⟨hc, hr⟩ := h
  exact ⟨hc, hr⟩

theorem recodeLines_errOnly (k : K) (lines : List Nat) : k.ErrOnly (k.recodeLines lines) := by
  unfold K.recodeLines
  generalize hf : (fun (a : K) (off : Nat) => _ : K → Nat → K) = f
  refine errOnly_foldl (fun a off => ?_) lines k
  rw [← hf]
  exact recoded_errOnly (spFound_errOnly a agRECODE off (a.core.scanLine off) none) off _

theorem applyStaged_reg (k : Core) (g : Bool) {off : Nat} (h : 0x3000 ≤ off) : (k.applyStaged g).reg off = k.reg off := by
  have hne : off ≠ rCORE_NUMCTL ∧ off ≠ rMX_CTRL ∧ off ≠ rMX_CKCFG ∧ off ≠ rSP_REGION := by
    refine ⟨?_, ?_, ?_, ?_⟩ <;> rintro rfl <;> exact absurd h (by decide)
  unfold Core.applyStaged
  extract_lets k1 k2 k3 k4
  have h1 : k1.reg off = k.reg off := by
    dsimp only [k1]
    split
    · exact Core.setReg_reg_other _ _ hne.1
    · split
      · exact Core.setReg_reg_other _ _ hne.1
      · rfl
  have h2 : k2.reg off = k1.reg off := by
    dsimp only [k2]
    split
    · exact Core.setReg_reg_other _ _ hne.2.1
    · rfl
  have h3 : k3.reg off = k2.reg off := by
    dsimp only [k3]
    split
    · exact Core.setReg_reg_other _ _ hne.2.2.1
    · rfl
  have h4 : k4.reg off = k3.reg off := by
    dsimp only [k4]
    split
    · exact Core.setReg_reg_other _ _ hne.2.2.2
    · rfl
  exact h4.trans (h3.trans (h2.trans h1))

/-- A LOADED core whose weights fit below its reserved areas starts (R111, R216). -/
theorem start_passes {k : K} (hd : k.core.df = .loaded) (hl : k.core.topNext * 0x4000 ≤ k.core.weightsLimit) :
    k.start.1.c = k.c ∧ k.start.1.core.df = .starting := by
  unfold K.start
  rw [if_neg (by rw [hd]; decide)]
  extract_lets old new k1 c1 w c2
  have hnew : new = k.core.topNext := by
    show (match k.core.shWtop with | some v => v.toNat | none => k.core.wtop) = _
    rw [Core.topNext]
    cases k.core.shWtop <;> rfl
  have hk1 : k.ErrOnly k1 := by
    dsimp only [k1]
    split
    · exact .refl k
    · exact recodeLines_errOnly k _
  have hlim : c2.weightsLimit = k.core.weightsLimit := by
    refine weightsLimit_congr (fun n hn => ?_)
    have h1 : c2.reg (rCH_ICFG + 0x40 * n) = c1.reg (rCH_ICFG + 0x40 * n) := by
      dsimp only [c2]
      split
      · rfl
      · exact Core.setReg_reg_other _ _ (by simp only [rCH_ICFG, rFLT_WCTL]; omega)
    rw [h1]
    exact (applyStaged_reg _ _ (by simp only [rCH_ICFG]; omega)).trans (hk1.2 _ (by simp only [rCH_ICFG]; omega) (by simp only [rCH_ICFG]; omega))
  rw [if_neg (by rw [hlim, hnew]; omega)]
  exact ⟨hk1.1, rfl⟩

/-- Cores that can be started start, each from LOADED (R214 to R216, R250). -/
theorem armStart_starts {s : State} {l : List CoreId} (h : s.startable l) : (s.armStart l).2 = true ∧ s.coresOnly (s.armStart l).1 ∧
    ∀ c ∈ l, ((s.armStart l).1.core c).df = .starting := by
  have hg : ∀ c ∈ l, onGrid c = true := fun c hc => alive_onGrid (h.2 c hc).1
  obtain ⟨hco, harm, -⟩ := foldl_cores (g := State.armOne) (Q := fun k k' => k' = k.armed) h.1 hg
    (fun t c _ _ _ => ⟨armOne_others t c, kPut_anyCoresOnly t _, armOne_core t c⟩)
  have hput : ∀ (t : State), ∀ c ∈ l, (l.foldl State.armOne s).coresOnly t → t.core c = (l.foldl State.armOne s).core c →
      t.othersKept (onCore c t (fun k => (k.start).1)) c ∧ t.coresOnly (onCore c t (fun k => (k.start).1)) ∧
        ((onCore c t (fun k => (k.start).1)).core c).df = .starting := by
    intro t c hc _ ht
    rw [harm c hc] at ht
    have hp := start_passes (k := kOf t c) (by rw [kOf_core, ht]; rfl) (by
      rw [kOf_core, ht, armed_topNext, armed_weightsLimit]
      exact (h.2 c hc).2.2.2)
    have hput : onCore c t (fun k => (k.start).1) = kPut t (K.start (kOf t c)).1 := if_pos (hg c hc)
    have hc' : (K.start (kOf t c)).1.c = c := hp.1
    rw [hput]
    exact ⟨kPut_other hc', kPut_anyCoresOnly t _, (congrArg Core.df (kPut_core (s := t) hc')).trans hp.2⟩
  obtain ⟨hco', hst, -⟩ := foldl_cores (g := fun a c => onCore c a (fun k => (k.start).1)) (Q := fun _ k' => k'.df = .starting) h.1 hg hput
  have heq : s.armStart l = (onCores l (l.foldl State.armOne s) (fun k => (k.start).1), true) := by
    unfold State.armStart
    rw [armFold h]
    rfl
  rw [heq]
  exact ⟨rfl, hco.trans hco', hst⟩

end Sys2Proof.Machine
end

section
/-! SUPPORT. The restart of a replay (R382, R383), and scans and replays together. -/

namespace Sys2Proof.Machine

/-! ### The job table -/

/-- A job that a new entry replaces is found as that entry (R253). -/
theorem job?_onJob {s : State} {p : Pid} {r : BitVec 3} {id : DWord} {j j1 : Job} (h : s.job? p r id = some j) (h1 : isJob p r id j1 = true) :
    (s.onJob p r id (fun _ => j1)).job? p r id = some j1 := by
  have hall : ∀ l : List Job, l.find? (isJob p r id) = some j →
      (l.map (fun x => if isJob p r id x then j1 else x)).find? (isJob p r id) = some j1 := by
    intro l
    induction l with
    | nil => exact fun h => absurd h (by simp)
    | cons x t ih =>
      intro h
      cases hx : isJob p r id x with
      | true => simp [hx, h1]
      | false =>
        rw [List.find?_cons, hx] at h
        simp [hx, ih h]
  exact hall s.jobs h

/-! ### What is published -/

/-- A change of the maps counts in JB_MAPGEN, and no other counter of the yard advances (R264). -/
theorem published_pairAt (s t : State) {lo : Nat} (h : lo ≠ yJB + 4) (h4 : lo + 4 ≠ yJB + 4) :
    pairAt (published s t).yregs lo = pairAt t.yregs lo := by
  unfold published
  split
  · rfl
  · exact pairAt_set_other _ _ _ _ h h4

/-! ### The restart -/

/-- The entry of a job whose stage `g` is started again on a layout (R382). -/
def Job.replayed (j : Job) (g : Nat) (layout : List SectionPlace) (gen : Word) : Job :=
  { j with layout := layout, replaying := none, curStage := g, replays := j.replays.set g (j.replays.get 0 g + 1), fpgen := gen,
           reload := reloaded j layout }

/-- The state in which the sections of the stage are loaded anew. -/
def State.replayLoaded (s : State) (p : Pid) (r : BitVec 3) (j : Job) (g : Nat) (layout : List SectionPlace) : State :=
  (s.onJob p r j.jobid (fun _ => j.replayed g layout s.fp.gen)).loadAll (j.replayed g layout s.fp.gen) (s.planKey j j.clusters g)
    (reloaded j layout).contains (layout.filter (fun pl => !j.secsEnded.contains pl.secid))

/-- A replay that counts and is reported, once its stage has started (R383). -/
def State.replayTold (s : State) (p : Pid) (j : Job) (g : Nat) : State :=
  (s.ycount (yFC + 0x58) 1).yardReport 24 0xE5 (p.toNat + 16 * g) (j.replays.get 0 g + 1)

/-- The stage of a job that Ryist replays restarts where its cores are idle and can be started (R382). -/
theorem replayRestart_restarts {s : State} {p : Pid} {r : BitVec 3} {j : Job} {g : Nat} {layout : List SectionPlace}
    (hj : s.job? p r j.jobid = some j) (hg : j.replaying = some g) (hsafe : s.fc.safe = false) (hph : j.phase = .running)
    (htest : ∀ cl ∈ j.clusters, (s.cluster cl).testing = none) (hun : j.unplaced g = false) (hlay : s.movedLayout j = some layout)
    (hidle : s.allIdle ((layout.filter (fun pl => !j.secsEnded.contains pl.secid)).flatMap (·.cores)) = true)
    (hst : ((s.replayLoaded p r j g layout).armStart ((j.replayed g layout s.fp.gen).stageCores g)).2 = true) :
    exec (.replayRestart p r j.jobid) s = .next
      (published s (((s.replayLoaded p r j g layout).armStart ((j.replayed g layout s.fp.gen).stageCores g)).1.replayTold p j g)) := by
  have hbusy : (s.fc.safe || j.phase != .running || j.clusters.any (fun cl => (s.cluster cl).testing.isSome)) = false := by
    have hany : j.clusters.any (fun cl => (s.cluster cl).testing.isSome) = false := by
      rw [List.any_eq_false]
      intro cl hcl
      rw [htest cl hcl]
      decide
    rw [hsafe, hph, hany]
    rfl
  show execReplayRestart p r j.jobid s = _
  unfold execReplayRestart
  simp only [hj, hg, hbusy, hun, hlay, hidle, Bool.false_eq_true, if_false, Bool.not_true]
  exact if_pos hst

/-- What a replay that is counted, reported and published leaves of the state in which its stage has started (R264, R383). -/
theorem published_replayTold (s a : State) (p : Pid) (j : Job) (g : Nat) : ∃ t : State, published s (a.replayTold p j g) = t ∧
    t.jobs = a.jobs ∧ (∀ c, t.core c = a.core c) ∧ a.yadds t (yFC + 0x58) 1 ∧
    t.lastTold 112 24 0xE5 (p.toNat + 16 * g) (j.replays.get 0 g + 1) ∧ t.om = a.om ∧ t.nvm = a.nvm ∧ t.fuses = a.fuses := by
  obtain ⟨ys, hys⟩ := published_eq s (a.replayTold p j g)
  have hcount : pairAt (published s (a.replayTold p j g)).yregs (yFC + 0x58) = pairAt (a.replayTold p j g).yregs (yFC + 0x58) :=
    published_pairAt s _ (by decide) (by decide)
  refine ⟨_, hys, rfl, fun _ => rfl, ?_, ⟨_, List.getLast?_concat, rfl, rfl, rfl, rfl, rfl⟩, rfl, rfl, rfl⟩
  rw [hys] at hcount
  exact hcount.trans (ycount_yadds a (yFC + 0x58) 1)

/-- The stage of a replay has started, and the run is counted and reported (R382, R383). -/
theorem replayRestart_started {s : State} {p : Pid} {r : BitVec 3} {j : Job} {g : Nat} {layout : List SectionPlace}
    (hj : s.job? p r j.jobid = some j) (hp : j.p = p) (hr : j.r = r) (hg : j.replaying = some g) (hsafe : s.fc.safe = false)
    (hph : j.phase = .running) (htest : ∀ cl ∈ j.clusters, (s.cluster cl).testing = none) (hun : j.unplaced g = false)
    (hlay : s.movedLayout j = some layout)
    (hidle : s.allIdle ((layout.filter (fun pl => !j.secsEnded.contains pl.secid)).flatMap (·.cores)) = true)
    (hst : (s.replayLoaded p r j g layout).startable ((j.replayed g layout s.fp.gen).stageCores g)) :
    ∃ t : State, exec (.replayRestart p r j.jobid) s = .next t ∧ t.job? p r j.jobid = some (j.replayed g layout s.fp.gen) ∧
      (∀ c ∈ (j.replayed g layout s.fp.gen).stageCores g, (t.core c).df = .starting) ∧ s.yadds t (yFC + 0x58) 1 ∧
      t.lastTold 112 24 0xE5 (p.toNat + 16 * g) (j.replays.get 0 g + 1) ∧ t.om = s.om ∧ t.nvm = s.nvm ∧ t.fuses = s.fuses := by
  obtain ⟨hstarted, hco, hdf⟩ := armStart_starts hst
  have hexec := replayRestart_restarts hj hg hsafe hph htest hun hlay hidle hstarted
  have hall := State.coresOnly.trans (loadAll_coresOnly (s.onJob p r j.jobid (fun _ => j.replayed g layout s.fp.gen)) _ _ _ _) hco
  generalize ((s.replayLoaded p r j g layout).armStart ((j.replayed g layout s.fp.gen).stageCores g)).1 = a at hexec hall hdf
  have hid : isJob p r j.jobid (j.replayed g layout s.fp.gen) = true := by
    show (j.p == p && j.r == r && j.jobid == j.jobid && j.phase != .finished) = true
    rw [hp, hr, hph]
    simp
  have hjobs : a.jobs = (s.onJob p r j.jobid (fun _ => j.replayed g layout s.fp.gen)).jobs := by rw [hall]
  have hyregs : a.yregs = s.yregs := by rw [hall]; rfl
  have hstores : a.om = s.om ∧ a.nvm = s.nvm ∧ a.fuses = s.fuses := by
    rw [hall]
    exact ⟨rfl, rfl, rfl⟩
  obtain ⟨t, ht, htj, htc, hty, htold, hto, htn, htf⟩ := published_replayTold s a p j g
  rw [ht] at hexec
  rw [State.yadds, hyregs] at hty
  refine ⟨t, hexec, ?_, fun c hc => by rw [htc]; exact hdf c hc, hty, htold, hto.trans hstores.1, htn.trans hstores.2.1, htf.trans hstores.2.2⟩
  rw [← job?_onJob hj hid, State.job?, State.job?, htj, hjobs]

/-- Settles O55. -/
theorem scansAndReplays : Obligations.ScansAndReplays := by
  unfold Obligations.ScansAndReplays
  refine ⟨fun s c x => ?_, fun s p r j g layout => ?_⟩
  · intro k region left lines d readable regs ha
    refine ⟨fun he hd => ?_, fun hx hlt hr => ?_, fun hx hread => ?_⟩
    · obtain ⟨t, ht, hcore, htr, hoth⟩ := weightsScanStart_due ha he hd
      refine ⟨fun hnone => ?_, fun hsome => ?_⟩
      · rw [scanStart_idle (k := kOf s c) hnone] at hcore htr
        exact ⟨t, ht, hcore, htr.trans (List.append_nil _), hoth⟩
      · rw [scanStart_abandons (k := kOf s c) hsome] at hcore htr
        have hstat : ((k.scanMarked).noteMsg (kOf s c).abandonMsg).reg rFLT_WSTAT = k.reg rFLT_WSTAT ||| 0x40000000#32 :=
          (noteMsg_reg_below _ _ (by decide)).trans (Core.setReg_reg_self _ _ _)
        have hmark : (t.core c).reg rFLT_WSTAT = k.reg rFLT_WSTAT ||| 0x40000000#32 := by
          rw [hcore]
          exact hstat
        rw [noteMsg_regsOnly] at hcore
        refine ⟨t, (kOf s c).abandonMsg, ht, by rw [hcore], ?_, htr, rfl, rfl, ?_, by rw [hcore]; rfl, hoth⟩
        · rw [hmark]
          simp
        · rw [hcore]; exact ⟨rfl, rfl, rfl, rfl, rfl, rfl, rfl, rfl, rfl⟩
    · obtain ⟨hm, href, hcl⟩ := hr
      rw [scanCycle_reads (k := kOf s c) hx hlt hm href hcl]
      rfl
    · obtain ⟨k1, hk1, hexec⟩ := weightsScanEnd_reads ha hx rfl hread
      obtain ⟨y, hy, -⟩ := hk1.eq
      have hc1 : k1.c = c := by rw [hy]; rfl
      have hmsgs : k1.msgs = [] := by rw [hy]; rfl
      have hwref : k1.core.digestAt rFLT_WREF = k.digestAt rFLT_WREF := digestAt_congr (fun i hi => hk1.others _ _
        (by simp only [rFLT_WREF, rMV_DGBYTES]; omega) (by simp only [rFLT_WREF, rMV_DGBYTES]; omega))
      have hregs : ∀ (t : State) (kf : Core), k1.core.ScanDone kf d → t.core c = kf → s.othersKept t c → regs t := by
        intro t kf hdone hcore hoth
        obtain ⟨rs, honly⟩ := hdone.only
        have hbody : k.bodyKept kf ∧ kf.mem = k.mem ∧ kf.scan = none := by
          rw [honly, hy]
          exact ⟨⟨rfl, rfl, rfl, rfl, rfl, rfl, rfl, rfl, rfl⟩, rfl, rfl⟩
        have hscans : pairAt k1.core.regs rFLT_WSCANS = pairAt k.regs rFLT_WSCANS := by
          rw [pairAt, pairAt, hk1.others _ _ (by decide) (by decide), hk1.others _ _ (by decide) (by decide)]
          rfl
        dsimp only [regs]
        rw [hcore]
        exact ⟨hdone.wlast, hbody.2.2, by rw [hdone.wscans, hscans], hdone.wref.trans hwref, hdone.bytes.trans hk1.bytes, hbody.1, hbody.2.1, hoth⟩
      refine ⟨fun heq => ?_, fun hne => ?_⟩
      · rw [scanEnd_eq, if_pos (hwref.trans heq)] at hexec
        have hdone := mismatch_scanDone k1.core d false
        have hcore := kPut_core (s := s) (k := { k1 with core := (k1.core.scanKept d).mismatch false }) hc1
        refine ⟨_, hexec, hregs _ _ hdone hcore (kPut_other hc1), ?_, by rw [kPut_transit]; simp [hmsgs]⟩
        rw [hcore]
        have hreg : ((k1.core.scanKept d).mismatch false).reg rFLT_WSTAT = (k1.core.scanKept d).reg rFLT_WSTAT &&& 0x7FFFFFFF#32 :=
          Core.setReg_reg_self _ _ _
        rw [hreg]
        simp
      · rw [scanEnd_eq, if_neg (fun h => hne (hwref.symm.trans h))] at hexec
        have hdone := noteMsg_scanDone (k1.mismatchMsg d) (mismatch_scanDone k1.core d true)
        have hcore := kPut_core (s := s) (k := { k1 with core := ((k1.core.scanKept d).mismatch true).noteMsg (k1.mismatchMsg d),
                                                         msgs := k1.msgs ++ [k1.mismatchMsg d] }) hc1
        refine ⟨_, k1.mismatchMsg d, hexec, hregs _ _ hdone hcore (kPut_other hc1), ?_,
          congrArg (fun l => s.transit ++ (l ++ [k1.mismatchMsg d])) hmsgs, rfl, rfl, rfl⟩
        rw [hcore]
        have hreg : (((k1.core.scanKept d).mismatch true).noteMsg (k1.mismatchMsg d)).reg rFLT_WSTAT =
            (k1.core.scanKept d).reg rFLT_WSTAT ||| 0x80000000#32 :=
          (noteMsg_reg_below _ _ (by decide)).trans (Core.setReg_reg_self _ _ _)
        rw [hreg]
        simp
  · intro n again places j1 s1 cores hj hp hr hg hsafe hph htest hun hlay hidle hst
    exact replayRestart_started hj hp hr hg hsafe hph htest hun hlay hidle hst

end Sys2Proof.Machine
end

section
/-! SUPPORT. What holds after a fold over a list, RT_PID of the routers of clusters, and the steps that publish the maps. -/

namespace Sys2Proof.Machine

/-! ### Folds over lists -/

/-- What one element of a list brings about and no element undoes holds after a fold over the list. -/
theorem foldl_reaches {σ α : Type} {f : σ → α → σ} {P : σ → Prop} {hit : α → Prop} (hhit : ∀ s x, hit x → P (f s x))
    (hkeep : ∀ s x, P s → P (f s x)) {l : List α} {s : σ} (h : P s ∨ ∃ x ∈ l, hit x) : P (l.foldl f s) := by
  induction l generalizing s with
  | nil => simpa using h
  | cons x l ih =>
    refine ih ?_
    rcases h with h | ⟨y, hy, hh⟩
    · exact .inl (hkeep s x h)
    · rcases List.mem_cons.1 hy with rfl | hy
      · exact .inl (hhit s y hh)
      · exact .inr ⟨y, hy, hh⟩

/-- A relation that is reflexive and transitive holds across a fold each step of which keeps it. -/
theorem foldl_relates {σ α : Type} {f : σ → α → σ} {R : σ → σ → Prop} (hrefl : ∀ s, R s s)
    (htrans : ∀ {s t u}, R s t → R t u → R s u) {l : List α} (hstep : ∀ s x, R s (f s x)) (s : σ) : R s (l.foldl f s) := by
  induction l generalizing s with
  | nil => exact hrefl s
  | cons x l ih => exact htrans (hstep s x) (ih _)

/-! ### Cores whose memory, registers and program counter stay -/

theorem coresKept_refl (s : State) : s.coresKept s := fun _ => ⟨rfl, rfl, rfl⟩

theorem State.coresKept.trans {s t u : State} (h1 : s.coresKept t) (h2 : t.coresKept u) : s.coresKept u := fun c =>
  let ⟨m1, r1, p1⟩ := h1 c
  let ⟨m2, r2, p2⟩ := h2 c
  ⟨m2.trans m1, r2.trans r1, p2.trans p1⟩

theorem coresKept_of_core {s t : State} (h : ∀ c, t.core c = s.core c) : s.coresKept t := fun c => by
  rw [h]
  exact ⟨rfl, rfl, rfl⟩

/-- A core after a step of one core: that core's, or its own from before. -/
theorem onCore_core {f : K → K} (hc : ∀ k, (f k).c = k.c) (c d : CoreId) (s : State) :
    (onCore c s f).core d = if onGrid c = true ∧ coreKey d = coreKey c then (f (kOf s c)).core else s.core d := by
  unfold onCore
  by_cases hg : onGrid c = true
  · rw [if_pos hg]
    show SMap.get s.blankCore (s.cores.set (coreKey (f (kOf s c)).c) (f (kOf s c)).core) (coreKey d) = _
    rw [hc, SMap.get_set]
    simp only [hg, true_and]
    rfl
  · rw [if_neg hg, if_neg (fun h => hg h.1)]

theorem onCore_coresKept {f : K → K} (hc : ∀ k, (f k).c = k.c)
    (hk : ∀ k, (f k).core.mem = k.core.mem ∧ (f k).core.s = k.core.s ∧ (f k).core.pc = k.core.pc) (c : CoreId) (s : State) :
    s.coresKept (onCore c s f) := by
  intro d
  rw [onCore_core hc]
  split
  · rename_i h
    have hcd : s.core c = s.core d := by rw [State.core, State.core, h.2]
    have := hk (kOf s c)
    rwa [kOf_core, hcd] at this
  · exact ⟨rfl, rfl, rfl⟩

/-- A step of one core that leaves its router as it is leaves every router so. -/
theorem onCore_routers {f : K → K} (hr : ∀ k, (f k).rt = k.rt ∧ (f k).here = k.here) (c : CoreId) (s : State) :
    (onCore c s f).routers = s.routers := by
  unfold onCore
  split
  · obtain ⟨hrt, hhere⟩ := hr (kOf s c)
    exact if_pos (by rw [hrt, hhere]; rfl)
  · rfl

theorem onCores_coresOnly (cs : List CoreId) (s : State) (f : K → K) : s.coresOnly (onCores cs s f) :=
  coresOnly_foldl (fun s c => onCore_coresOnly c s f) cs s

/-! ### RT_PID of the routers of clusters -/

/-- RT_PID of the router at a physical position. -/
def State.rtPid (s : State) (q : Nat × Nat) : Word := (s.router q.1 q.2).reg rRT_PID

theorem rtPid_of_routers {s t : State} (h : t.routers = s.routers) (q : Nat × Nat) : t.rtPid q = s.rtPid q := by
  simp only [State.rtPid, State.router, h]

/-- RT_PID after a router has been updated. -/
theorem rtPid_onRouter (s : State) (px py : Nat) (f : Router → Router) (q : Nat × Nat) :
    (s.onRouter px py f).rtPid q = if routerKey q.2 q.1 = routerKey py px then (f (s.router px py)).reg rRT_PID else s.rtPid q := by
  simp only [State.rtPid, State.onRouter, State.setRouter, State.router, SMap.get_set]
  split <;> rfl

/-- RT_PID of every router of a cluster satisfies what its change brings about, and so does one that did before. -/
theorem onClusterPid_rtPid {P : Word → Prop} {f : Word → Word} (hf : ∀ w, P (f w)) {s : State} {cl : Nat} {q : Nat × Nat}
    (h : P (s.rtPid q) ∨ q ∈ clusterPositions cl) : P ((s.onClusterPid cl f).rtPid q) := by
  have hset (a : State) (x : Nat × Nat) (hx : x = q ∨ P (a.rtPid q)) :
      P ((a.onRouter x.1 x.2 (fun r => r.setReg rRT_PID (f (r.reg rRT_PID)))).rtPid q) := by
    rw [rtPid_onRouter]
    split
    · exact (congrArg P (SMap.get_set_self _ _ _ _)).mpr (hf _)
    · rename_i hne
      exact hx.resolve_left (fun e => hne (by rw [e]))
  exact foldl_reaches (P := fun a => P (a.rtPid q)) (hit := (· = q)) (fun a x hx => hset a x (.inl hx)) (fun a x hx => hset a x (.inr hx))
    (h.imp_right (fun hq => ⟨q, hq, rfl⟩))

/-- The same change made in several clusters. -/
def State.onClustersPid (s : State) (cls : List Nat) (f : Word → Word) : State := cls.foldl (fun (a : State) cl => a.onClusterPid cl f) s

/-- It reaches every router of each. -/
theorem onClustersPid_rtPid {P : Word → Prop} {f : Word → Word} (hf : ∀ w, P (f w)) {s : State} {cls : List Nat} {cl : Nat} {q : Nat × Nat}
    (hcl : cl ∈ cls) (hq : q ∈ clusterPositions cl) : P ((s.onClustersPid cls f).rtPid q) :=
  foldl_reaches (P := fun a => P (State.rtPid a q)) (hit := fun x => q ∈ clusterPositions x) (fun _ _ hx => onClusterPid_rtPid hf (.inr hx))
    (fun _ _ hx => onClusterPid_rtPid hf (.inl hx)) (.inr ⟨cl, hcl, hq⟩)

/-- Nothing has changed but routers. -/
def State.routersOnly (s t : State) : Prop := t = { s with routers := t.routers }

theorem State.routersOnly.trans {s t u : State} (h1 : s.routersOnly t) (h2 : t.routersOnly u) : s.routersOnly u := by
  unfold State.routersOnly at h1 h2 ⊢
  rw [h1] at h2
  exact h2

theorem onClusterPid_routersOnly (s : State) (cl : Nat) (f : Word → Word) : s.routersOnly (s.onClusterPid cl f) := by
  refine foldl_relates (R := State.routersOnly) (fun _ => rfl) State.routersOnly.trans (fun s q => ?_) s
  exact onRouter_eq s q.1 q.2 _

theorem onClustersPid_routersOnly (s : State) (cls : List Nat) (f : Word → Word) : s.routersOnly (s.onClustersPid cls f) :=
  foldl_relates (R := State.routersOnly) (fun _ => rfl) State.routersOnly.trans (fun s cl => onClusterPid_routersOnly s cl f) s

/-- A bit of a word one field of which has been replaced. -/
theorem getLsbD_setField {w : Nat} (v : BitVec w) (lo n x : Nat) {i : Nat} (h : i < w) :
    (setField v lo n x).getLsbD i = if lo ≤ i ∧ i < lo + n then x.testBit (i - lo) else v.getLsbD i := by
  have hbit (y : Nat) : (BitVec.ofNat w y <<< lo).getLsbD i = (decide (lo ≤ i) && y.testBit (i - lo)) := by
    rw [BitVec.getLsbD_shiftLeft, BitVec.getLsbD_ofNat]
    by_cases hlo : lo ≤ i
    · simp [h, hlo, Nat.not_lt.2 hlo, show i - lo < w by omega]
    · simp [hlo, Nat.lt_of_not_le hlo]
  simp only [setField, BitVec.getLsbD_or, BitVec.getLsbD_and, BitVec.getLsbD_not, hbit, Nat.testBit_two_pow_sub_one]
  by_cases hlo : lo ≤ i
  · have hhi : i - lo < n ↔ i < lo + n := by omega
    by_cases hn : i < lo + n <;> simp [h, hlo, hhi, hn]
  · simp [h, hlo]

/-! ### The maps are published -/

/-- What is published counts in JB_MAPGEN alone (R264). -/
theorem published_yregs (s t : State) : ∃ ys, published s t = { t with yregs := ys } ∧
    ∀ off, off ≠ yJB + 4 → ys.get (yardReset off) off = t.yreg off := by
  unfold published
  split
  · exact ⟨t.yregs, rfl, fun _ _ => rfl⟩
  · exact ⟨_, rfl, fun off h => SMap.get_set_other _ _ _ _ _ h⟩

/-- A change of a partition's STATE changes that, JB_MAPGEN and what the host is told (R237, R264, R297). -/
theorem setPstate_eq (s : State) (p : Pid) (st : Nat) : ∃ ps ys h, s.setPstate p st = { s with parts := ps, yregs := ys, host := h } ∧
    ps.get .reset p.toNat = { s.partition p with state := BitVec.ofNat 3 st } ∧
    ∀ off, off ≠ yJB + 4 → ys.get (yardReset off) off = s.yreg off := by
  unfold State.setPstate
  split
  · rename_i hst
    exact ⟨s.parts, s.yregs, s.host, rfl, by rw [← hst, BitVec.ofNat_toNat, BitVec.setWidth_eq]; rfl, fun _ _ => rfl⟩
  · dsimp only
    obtain ⟨p2, o2, h2, -⟩ := notify_eq (((s.onPart p (fun e => { e with state := BitVec.ofNat 3 st })).setYreg (yJB + 4)
      ((s.onPart p (fun e => { e with state := BitVec.ofNat 3 st })).yreg (yJB + 4) + 2)).notify 0 2) (p.toNat + 1) 10
    obtain ⟨p1, o1, h1, -⟩ := notify_eq ((s.onPart p (fun e => { e with state := BitVec.ofNat 3 st })).setYreg (yJB + 4)
      ((s.onPart p (fun e => { e with state := BitVec.ofNat 3 st })).yreg (yJB + 4) + 2)) 0 2
    rw [h2, h1]
    exact ⟨_, _, _, rfl, SMap.get_set_self _ _ _ _, fun off h => SMap.get_set_other _ _ _ _ _ h⟩

end Sys2Proof.Machine
end

section
/-! SUPPORT. The configuration of a partition: the assignment of its clusters begins, and is complete (R237 to R240). -/

namespace Sys2Proof.Machine

/-! ### Writes of the physical function -/

/-- A write of the physical function that is served acts on the state as it stands. -/
theorem yardWrite_pf {s : State} (h : s.pfServes) (off : Nat) (f : State → State) : yardWrite .pf off s f = f s := by
  obtain ⟨hu, hp, hs⟩ := h
  simp [yardWrite, hs, hu, State.recoveryHides, hp]

theorem fixedWrite_open {s : State} {p : Pid} (h : s.tdiLocked p = false) (o : Origin) (changes : Bool) (f : State → State) :
    s.fixedWrite o p changes f = f s := by
  simp [State.fixedWrite, h]

/-- A write that changes nothing of what a locked TDI fixes has no effect (R300). -/
theorem fixedWrite_unchanged {s : State} {p : Pid} (h : s.tdiLocked p = true) (o : Origin) (f : State → State) :
    s.fixedWrite o p false f = s.answer none := by
  simp [State.fixedWrite, h]

/-! ### Sections freed, scrubs asked for, placements dropped -/

/-- Nothing has changed but routers and section slots. -/
def State.sectionsOnly (s t : State) : Prop := t = { s with routers := t.routers, slots := t.slots }

theorem State.sectionsOnly.trans {s t u : State} (h1 : s.sectionsOnly t) (h2 : t.sectionsOnly u) : s.sectionsOnly u := by
  unfold State.sectionsOnly at h1 h2 ⊢
  rw [h1] at h2
  exact h2

theorem freeSection_sectionsOnly (s : State) (n : Nat) : s.sectionsOnly (s.freeSection n) := by
  have hclear : s.sectionsOnly (s.clearMerges n) := by
    refine foldl_relates (R := State.sectionsOnly) (fun _ => rfl) State.sectionsOnly.trans (fun s e => ?_) s
    exact onRouter_eq s e.1 e.2.1 _
  exact hclear.trans rfl

/-- Nothing has changed but clusters. -/
def State.clustersOnly (s t : State) : Prop := t = { s with clusters := t.clusters }

theorem State.clustersOnly.trans {s t u : State} (h1 : s.clustersOnly t) (h2 : t.clustersOnly u) : s.clustersOnly u := by
  unfold State.clustersOnly at h1 h2 ⊢
  rw [h1] at h2
  exact h2

/-- Scrubs of several clusters are asked for. -/
def State.askScrubs (s : State) (l : List Nat) : State := l.foldl (fun (a : State) cl => a.askScrub cl) s

theorem askScrubs_clustersOnly (s : State) (l : List Nat) : s.clustersOnly (s.askScrubs l) := by
  refine foldl_relates (R := State.clustersOnly) (fun _ => rfl) State.clustersOnly.trans (fun s cl => ?_) s
  rfl

/-- Each of them is pending. -/
theorem askScrubs_scrubPend {s : State} {l : List Nat} {cl : Nat} (h : cl ∈ l) : ((s.askScrubs l).cluster cl).scrubPend = true := by
  refine foldl_reaches (P := fun a => (State.cluster a cl).scrubPend = true) (hit := (· = cl)) (fun a x hx => ?_) (fun a x hx => ?_)
    (.inr ⟨cl, h, rfl⟩)
  · simp [State.askScrub, hx]
  · rw [State.askScrub, cluster_setCluster]
    split
    · rfl
    · exact hx

/-- What dropping a placement changes: section slots and merge slots, clusters, jobs, and the table of placements (R252). -/
theorem dropResident_eq (s : State) (x : Resident) : ∃ rs sl js cs, s.dropResident x =
    { s with routers := rs, slots := sl, jobs := js, clusters := cs, residents := s.residents.filter (· != x) } := by
  have hfree (a : State) : a.sectionsOnly (x.layout.foldl (fun (a : State) pl => a.freeSection pl.slot.toNat) a) := by
    refine foldl_relates (R := State.sectionsOnly) (fun _ => rfl) State.sectionsOnly.trans (fun s pl => ?_) a
    exact freeSection_sectionsOnly s pl.slot.toNat
  unfold State.dropResident State.removeResident
  dsimp only
  have hscrub (a : State) : x.clusters.foldl (fun a cl => a.askScrub cl) a = { a with clusters := (a.askScrubs x.clusters).clusters } :=
    askScrubs_clustersOnly a x.clusters
  rw [hscrub, hfree]
  exact ⟨_, _, _, _, rfl⟩

/-- Nothing has changed but what the end of placements releases: section slots and merge slots, clusters, jobs and placements. -/
def State.releases (s t : State) : Prop :=
  t = { s with routers := t.routers, slots := t.slots, jobs := t.jobs, clusters := t.clusters, residents := t.residents }

theorem State.releases.trans {s t u : State} (h1 : s.releases t) (h2 : t.releases u) : s.releases u := by
  unfold State.releases at h1 h2 ⊢
  rw [h1] at h2
  exact h2

/-- The resident placements of a partition are dropped. -/
def State.dropResidents (s : State) (p : Pid) : State :=
  (s.residents.filter (fun x => x.p == p)).foldl (fun (a : State) x => a.dropResident x) s

theorem dropResidents_releases (s : State) (p : Pid) : s.releases (s.dropResidents p) := by
  refine foldl_relates (R := State.releases) (fun _ => rfl) State.releases.trans (fun s x => ?_) s
  obtain ⟨_, _, _, _, h⟩ := dropResident_eq s x
  rw [h]
  rfl

/-- None of them remains. -/
theorem dropResidents_residents (s : State) (p : Pid) : (s.dropResidents p).residents.all (fun x => x.p != p) = true := by
  rw [List.all_eq_true]
  intro x hx
  by_contra hp
  refine absurd hx (foldl_reaches (P := fun a => x ∉ State.residents a) (hit := (· = x)) (fun a y hy => ?_) (fun a y hy => ?_) ?_)
  · obtain ⟨_, _, _, _, h⟩ := dropResident_eq a y
    rw [h]
    simp [hy]
  · obtain ⟨_, _, _, _, h⟩ := dropResident_eq a y
    simp [h, hy]
  · by_cases hs : x ∈ s.residents
    · exact .inr ⟨x, List.mem_filter.2 ⟨hs, by simpa using hp⟩, rfl⟩
    · exact .inl hs

/-! ### The assignment begins -/

/-- The clusters that leave a partition or join it. -/
def movingClusters (old new : List Nat) : List Nat := old.filter (fun cl => !new.contains cl) ++ new.filter (fun cl => !old.contains cl)

/-- What the start of an assignment changes (R237, R252). -/
theorem assign_begins (s : State) (p : Pid) (cls : List Nat) :
    (s.assign p cls).cores = s.cores ∧ (s.assign p cls).partition p = { s.partition p with target := cls, state := 4 } ∧
      (∀ cl ∈ movingClusters (s.partition p).clusters cls, ((s.assign p cls).cluster cl).scrubPend = true) ∧
      (s.assign p cls).residents.all (fun x => x.p != p) = true ∧ ∀ off, off ≠ yJB + 4 → (s.assign p cls).yreg off = s.yreg off := by
  have hdrop := dropResidents_releases s p
  have hres := dropResidents_residents s p
  generalize hu : s.dropResidents p = u at hdrop hres
  have hask := askScrubs_clustersOnly u (movingClusters (s.partition p).clusters cls)
  have hpend : ∀ cl ∈ movingClusters (s.partition p).clusters cls, _ := fun cl h => askScrubs_scrubPend (s := u) h
  generalize hw : u.askScrubs (movingClusters (s.partition p).clusters cls) = w at hask hpend
  have hparts : w.partition p = s.partition p := by rw [hask, hdrop]; rfl
  obtain ⟨ps, ys, h, heq, hpart, hregs⟩ := setPstate_eq (w.onPart p (fun e => { e with target := cls })) p 4
  have hassign : s.assign p cls = (w.onPart p (fun e => { e with target := cls })).setPstate p 4 := by
    rw [← hw, ← hu]
    rfl
  rw [partition_onPart, if_pos rfl, hparts] at hpart
  rw [hassign, heq]
  refine ⟨?_, hpart, hpend, ?_, fun off hoff => (hregs off hoff).trans ?_⟩
  · show w.cores = _
    rw [hask, hdrop]
  · show w.residents.all _ = true
    rw [hask]
    exact hres
  · show w.yreg off = _
    rw [hask, hdrop]
    rfl

/-- The registers of partitions' configurations are not JB_MAPGEN. -/
theorem pcfgOff_ne (p : Pid) : yJB + 0x100 + 0x40 * p.toNat ≠ yJB + 4 := by simp only [yJB]; omega

theorem exec_jbPcfgWrite {s : State} (hpf : s.pfServes) (p : Pid) (v : Word) (clusters : List (BitVec 13)) :
    exec (.jbPcfgWrite .pf p v clusters) s = .next (jbPcfgWrite .pf p v (clusters.map (·.toNat)) s) :=
  (if_pos hpf.2.1).trans (congrArg Host.Outcome.next (yardWrite_pf hpf _ _))

section
variable {s : State} {p : Pid} {v : Word} {cls : List Nat}

/-- A write of the physical function is not another sender's. -/
theorem ownWrite : ¬ (Origin.pf != Origin.pf) = true := by decide

/-- A configuration that breaks a limit is refused (R236, R240). -/
theorem jbPcfgWrite_refused (hl : s.tdiLocked p = false) (hok : s.cfgOk p (v &&& 0xF3001FFF#32) = false) :
    jbPcfgWrite .pf p v cls s = s.answer (some 0x09) := by
  unfold jbPcfgWrite
  dsimp only
  rw [if_neg ownWrite, fixedWrite_open hl, if_pos (by simp [hok])]

/-- The configuration that stands, written again under a locked TDI (R300). -/
theorem jbPcfgWrite_unchanged (hl : s.tdiLocked p = true) (hv : v &&& 0xF3001FFF#32 = s.pcfg p) : jbPcfgWrite .pf p v cls s = s.answer none := by
  have hsame : (v &&& 0xF3001FFF#32 != s.yreg (yJB + 0x100 + 0x40 * p.toNat)) = false := bne_eq_false_iff_eq.2 hv
  unfold jbPcfgWrite
  dsimp only
  rw [if_neg ownWrite, hsame, fixedWrite_unchanged hl]

section
variable (hl : s.tdiLocked p = false) (hst : (s.partition p).state.toNat < 2) (hok : s.cfgOk p (v &&& 0xF3001FFF#32) = true)
  (hrng : s.rngOk = true) (hdbg : s.sec.debug = 0) (hv : (v &&& 0xF3001FFF#32).getLsbD 31 = true)
  (hch : s.chosen p (v &&& 0xF3001FFF#32) cls = some cls)
include hl hst hok hrng hdbg hv hch

/-- A configuration that keeps every limit is taken, and the assignment begins (R237). -/
theorem jbPcfgWrite_taken : ∃ om, jbPcfgWrite .pf p v cls s = (published s
    (State.assign { s.setYreg (yJB + 0x100 + 0x40 * p.toNat) (v &&& 0xF3001FFF#32) with om := om } p cls)).answer none := by
  have hbusy : ¬ (decide (2 ≤ (s.partition p).state.toNat) || !s.cfgOk p (v &&& 0xF3001FFF#32) ||
      ((v &&& 0xF3001FFF#32).getLsbD 31 && (!s.rngOk || s.sec.debug != 0))) = true := by
    simp only [hok, hrng, hdbg, hv, decide_eq_false (Nat.not_le.2 hst)]
    decide
  unfold jbPcfgWrite
  dsimp only
  rw [if_neg ownWrite, fixedWrite_open hl, if_neg hbusy, hch, hv]
  cases s.pvalid p with
  | true => exact ⟨s.om, rfl⟩
  | false => exact ⟨_, rfl⟩

/-- What such a configuration leaves (R237). -/
theorem jbPcfgWrite_assigns : (jbPcfgWrite .pf p v cls s).resp = .done ∧ (jbPcfgWrite .pf p v cls s).pcfg p = v &&& 0xF3001FFF#32 ∧
    (jbPcfgWrite .pf p v cls s).partition p = { s.partition p with target := cls, state := 4 } ∧
    (∀ cl ∈ movingClusters (s.partition p).clusters cls, ((jbPcfgWrite .pf p v cls s).cluster cl).scrubPend = true) ∧
    (jbPcfgWrite .pf p v cls s).residents.all (fun x => x.p != p) = true ∧ (jbPcfgWrite .pf p v cls s).cores = s.cores := by
  obtain ⟨om, h⟩ := jbPcfgWrite_taken hl hst hok hrng hdbg hv hch
  have hassign := assign_begins { s.setYreg (yJB + 0x100 + 0x40 * p.toNat) (v &&& 0xF3001FFF#32) with om := om } p cls
  obtain ⟨ys, hpub, hys⟩ :=
    published_yregs s (State.assign { s.setYreg (yJB + 0x100 + 0x40 * p.toNat) (v &&& 0xF3001FFF#32) with om := om } p cls)
  obtain ⟨hcores, hpart, hpend, hres, hregs⟩ := hassign
  rw [h, hpub]
  exact ⟨rfl, (hys _ (pcfgOff_ne p)).trans ((hregs _ (pcfgOff_ne p)).trans (SMap.get_set_self _ _ _ _)), hpart, hpend, hres, hcores⟩

end

end

/-! ### JB_PIN -/

/-- The names of a partition that is not valid are held as given (R237). -/
theorem jbPinWrite_held {s : State} {p : Pid} {w : Byte} (v : Word) (hpf : s.pfServes) (hl : s.tdiLocked p = false)
    (hst : (s.partition p).state.toNat < 2) (hv : s.pvalid p = false) (hw : w.toNat < 162) :
    exec (.jbPinWrite .pf p w v) s = .next ((s.setYreg (yJB + 0x1000 + 0x400 * p.toNat + 4 * w.toNat) v).answer none) := by
  have hvalid : (s.setYreg (yJB + 0x1000 + 0x400 * p.toNat + 4 * w.toNat) v).pvalid p = false := by
    have hother : yJB + 0x100 + 0x40 * p.toNat ≠ yJB + 0x1000 + 0x400 * p.toNat + 4 * w.toNat := by omega
    rw [State.pvalid, State.pcfg, yreg_setYreg, if_neg hother]
    exact hv
  have hw' : ¬ 162 ≤ w.toNat := by omega
  have hst' : ¬ 2 ≤ (s.partition p).state.toNat := by omega
  refine (if_pos hpf.2.1).trans (congrArg Host.Outcome.next ((yardWrite_pf hpf _ _).trans ?_))
  unfold jbPinWrite
  dsimp only
  rw [if_neg (by simp [hw']), fixedWrite_open hl, if_neg hst', hvalid]
  rfl

/-! ### The assignment is complete -/

theorem setOwner_rtPid (p : Pid) (w : Word) : field (setField (setField w 30 1 0) 0 4 p.toNat) 0 4 = p.toNat ∧
    (setField (setField w 30 1 0) 0 4 p.toNat).getLsbD 30 = false := by
  refine ⟨?_, ?_⟩
  · rw [field_setField _ _ (by decide), Nat.mod_eq_of_lt p.isLt]
  · rw [getLsbD_setField _ _ _ _ (by decide), if_neg (by decide), getLsbD_setField _ _ _ _ (by decide), if_pos (by decide)]
    rfl

/-- A core whose NANTRAP the hardware has set (R98). -/
theorem forceNan_trap (k : Core) : (k.forceNan.reg rCORE_NUMCTL).getLsbD 5 = true := by
  rw [Core.forceNan, Core.setReg_reg_self]
  simp [Sys2Proof.Machine.forceNan]

/-- The step of a core whose NANTRAP is forced. -/
def K.trapNan (k : K) : K := { k with core := k.core.forceNan }

/-- NANTRAP is forced on the cores of a list where it is not 1 yet. -/
def State.trapCores (s : State) (cs : List CoreId) : State :=
  onCores (cs.filter (fun c => !((s.core c).reg rCORE_NUMCTL).getLsbD 5)) s K.trapNan

theorem trapCores_traps {s : State} {cs : List CoreId} {c : CoreId} (hc : c ∈ cs) (hg : onGrid c = true) :
    (((s.trapCores cs).core c).reg rCORE_NUMCTL).getLsbD 5 = true := by
  refine foldl_reaches (P := fun a => ((State.core a c).reg rCORE_NUMCTL).getLsbD 5 = true) (hit := (· = c)) (fun a x hx => ?_)
    (fun a x hx => ?_) ?_
  · rw [hx, onCore_core (f := K.trapNan) (fun _ => rfl), if_pos ⟨hg, rfl⟩]
    exact forceNan_trap _
  · rw [onCore_core (f := K.trapNan) (fun _ => rfl)]
    split
    · exact forceNan_trap _
    · exact hx
  · by_cases h : ((s.core c).reg rCORE_NUMCTL).getLsbD 5 = true
    · exact .inl h
    · exact .inr ⟨c, List.mem_filter.2 ⟨hc, by simpa using h⟩, rfl⟩

theorem trapCores_coresKept (s : State) (cs : List CoreId) : s.coresKept (s.trapCores cs) := by
  refine foldl_relates (R := State.coresKept) coresKept_refl State.coresKept.trans (fun s c => ?_) s
  exact onCore_coresKept (f := K.trapNan) (fun _ => rfl) (fun _ => ⟨rfl, rfl, rfl⟩) c s

/-- It leaves everything but cores, and what a step of a core hands over. -/
theorem trapCores_coresOnly (s : State) (cs : List CoreId) : s.coresOnly (s.trapCores cs) := onCores_coresOnly _ s _

theorem trapCores_routers (s : State) (cs : List CoreId) : (s.trapCores cs).routers = s.routers := by
  refine foldl_relates (R := fun s t => State.routers t = State.routers s) (fun _ => rfl) (fun h1 h2 => h2.trans h1) (fun s c => ?_) s
  exact onCore_routers (f := K.trapNan) (fun _ => ⟨rfl, rfl⟩) c s

/-- A partition's routers and entry as its new clusters are taken (R237). -/
def State.takeClusters (s : State) (p : Pid) : State :=
  (s.onClustersPid (s.partition p).target (fun w => setField (setField w 30 1 0) 0 4 p.toNat)).onPart p
    (fun x => { x with clusters := (s.partition p).target, target := [], standby := standbyOf (s.pcfg p) (s.partition p).target })

/-- Of a guarded partition the cores take NANTRAP (R98, R239). -/
def State.guardCores (s : State) (p : Pid) (cls : List Nat) : State :=
  if s.guarded p then s.trapCores (cls.flatMap s.usableCores) else s

theorem takeClusters_eq (s : State) (p : Pid) :
    s.takeClusters p = { s with routers := (s.takeClusters p).routers, parts := (s.takeClusters p).parts } := by
  unfold State.takeClusters
  rw [onClustersPid_routersOnly]
  rfl

theorem takeClusters_partition (s : State) (p : Pid) : (s.takeClusters p).partition p =
    { s.partition p with clusters := (s.partition p).target, target := [], standby := standbyOf (s.pcfg p) (s.partition p).target } := by
  unfold State.takeClusters
  rw [onClustersPid_routersOnly, partition_onPart, if_pos rfl]
  rfl

theorem takeClusters_rtPid {s : State} {p : Pid} {cl : Nat} {q : Nat × Nat} (hcl : cl ∈ (s.partition p).target)
    (hq : q ∈ clusterPositions cl) :
    field ((s.takeClusters p).rtPid q) 0 4 = p.toNat ∧ ((s.takeClusters p).rtPid q).getLsbD 30 = false :=
  onClustersPid_rtPid (P := fun w => field w 0 4 = p.toNat ∧ w.getLsbD 30 = false) (setOwner_rtPid p) hcl hq

theorem takeClusters_guarded (s : State) (p : Pid) : (s.takeClusters p).guarded p = s.guarded p := by
  rw [takeClusters_eq]
  rfl

theorem takeClusters_core (s : State) (p : Pid) (c : CoreId) : (s.takeClusters p).core c = s.core c := by
  rw [takeClusters_eq]
  rfl

theorem guardCores_of_guarded {s : State} {p : Pid} (h : s.guarded p = true) (cls : List Nat) :
    s.guardCores p cls = s.trapCores (cls.flatMap s.usableCores) := if_pos h

theorem guardCores_of_plain {s : State} {p : Pid} (h : s.guarded p = false) (cls : List Nat) : s.guardCores p cls = s :=
  if_neg (by simp [h])

theorem guardCores_coresOnly (s : State) (p : Pid) (cls : List Nat) : s.coresOnly (s.guardCores p cls) := by
  unfold State.guardCores
  split
  · exact trapCores_coresOnly s _
  · rfl

theorem guardCores_routers (s : State) (p : Pid) (cls : List Nat) : (s.guardCores p cls).routers = s.routers := by
  unfold State.guardCores
  split
  · exact trapCores_routers s _
  · rfl

theorem guardCores_coresKept (s : State) (p : Pid) (cls : List Nat) : s.coresKept (s.guardCores p cls) := by
  unfold State.guardCores
  split
  · exact trapCores_coresKept s _
  · exact coresKept_refl s

/-- With no cluster leaving, an assignment whose scrubs are done is taken by the routers and, of a guarded partition, by the cores (R98,
R237, R239). -/
theorem assignmentComplete_eq {s : State} {p : Pid} (hst : (s.partition p).state = 4) (hcl : (s.partition p).clusters = [])
    (hdone : ∀ cl ∈ (s.partition p).target, (s.cluster cl).scrubPend = false ∧ (s.cluster cl).scrubbing = false) :
    assignmentComplete p s = ((s.takeClusters p).guardCores p (s.partition p).target).setPstate p
      (((s.takeClusters p).guardCores p (s.partition p).target).restPstate p) := by
  have hmoving : ¬ ((s.partition p).state ≠ 4 ∨ (((s.partition p).clusters.filter (fun cl => !(s.partition p).target.contains cl) ++
      (s.partition p).target.filter (fun cl => !(s.partition p).clusters.contains cl)).any
        (fun cl => (s.cluster cl).scrubPend || (s.cluster cl).scrubbing)) = true) := by
    rw [hcl]
    simpa [hst] using hdone
  unfold assignmentComplete
  dsimp only
  rw [if_neg hmoving, State.guardCores, takeClusters_guarded, hcl]
  rfl

/-- A partition's STATE outside a reset or a change. -/
theorem restPstate_le (s : State) (p : Pid) : s.restPstate p ≤ 2 := by
  unfold State.restPstate
  split
  · decide
  · split <;> decide

/-- What stands once the assignment is complete (R98, R237, R239). -/
theorem partitionAssignmentComplete_assigns {s : State} {p : Pid} (c : CoreId) (hph : s.bu.phase = 10) (hst : (s.partition p).state = 4)
    (hcl : (s.partition p).clusters = [])
    (hdone : ∀ cl ∈ (s.partition p).target, (s.cluster cl).scrubPend = false ∧ (s.cluster cl).scrubbing = false) :
    ∃ t : State, exec (.partitionAssignmentComplete p) s = .next t ∧ (t.partition p).clusters = (s.partition p).target ∧
      (t.partition p).target = [] ∧ (t.partition p).state.toNat = s.restPstate p ∧
      (∀ cl ∈ (s.partition p).target, ∀ q ∈ clusterPositions cl, field (t.rtPid q) 0 4 = p.toNat ∧ (t.rtPid q).getLsbD 30 = false) ∧
      (s.guarded p = false → t.cores = s.cores) ∧
      (s.guarded p = true → ∀ cl ∈ (s.partition p).target, c ∈ s.usableCores cl → onGrid c = true →
        ((t.core c).reg rCORE_NUMCTL).getLsbD 5 = true) ∧ s.coresKept t := by
  have hexec : exec (.partitionAssignmentComplete p) s = .next (published s (assignmentComplete p s)) :=
    congrArg Host.Outcome.next (if_pos hph)
  rw [assignmentComplete_eq hst hcl hdone] at hexec
  have honly := guardCores_coresOnly (s.takeClusters p) p (s.partition p).target
  have hrouters := guardCores_routers (s.takeClusters p) p (s.partition p).target
  have hkept := guardCores_coresKept (s.takeClusters p) p (s.partition p).target
  have hplain : s.guarded p = false → ((s.takeClusters p).guardCores p (s.partition p).target).cores = s.cores := by
    intro h
    rw [guardCores_of_plain ((takeClusters_guarded s p).trans h), takeClusters_eq]
  have htrap : s.guarded p = true → ∀ cl ∈ (s.partition p).target, c ∈ s.usableCores cl → onGrid c = true →
      ((((s.takeClusters p).guardCores p (s.partition p).target).core c).reg rCORE_NUMCTL).getLsbD 5 = true := by
    intro h cl hcl hc hg
    have huse : (s.takeClusters p).usableCores cl = s.usableCores cl := by rw [takeClusters_eq]; rfl
    rw [guardCores_of_guarded ((takeClusters_guarded s p).trans h)]
    exact trapCores_traps (List.mem_flatMap.2 ⟨cl, hcl, huse ▸ hc⟩) hg
  generalize (s.takeClusters p).guardCores p (s.partition p).target = u at *
  have hrest : u.restPstate p = s.restPstate p := by rw [honly, takeClusters_eq]; rfl
  have hpartU : u.partition p = (s.takeClusters p).partition p := by rw [honly]; rfl
  obtain ⟨ps, ys, h, hset, hpart, -⟩ := setPstate_eq u p (u.restPstate p)
  obtain ⟨ys', hpub, -⟩ := published_yregs s (u.setPstate p (u.restPstate p))
  rw [hpartU, takeClusters_partition, hrest] at hpart
  rw [hpub, hset] at hexec
  have hbits : (BitVec.ofNat 3 (s.restPstate p)).toNat = s.restPstate p := toNat_ofNat_lt (by have := restPstate_le s p; omega)
  refine ⟨_, hexec, congrArg Partition.clusters hpart, congrArg Partition.target hpart,
    (congrArg (fun x => (Partition.state x).toNat) hpart).trans hbits, fun cl hcl q hq => ?_, hplain, htrap, ?_⟩
  · have hpid := takeClusters_rtPid hcl hq
    rwa [← rtPid_of_routers hrouters] at hpid
  · exact (coresKept_of_core (takeClusters_core s p)).trans hkept

end Sys2Proof.Machine
end

section
/-! SUPPORT. The reset of a partition begins, and a drain that is late is reported (R367). -/

namespace Sys2Proof.Machine

/-! ### Packets that closed firewalls absorb -/

/-- Cores and what they hand over may have changed, routers too, but no core's memory, registers or program counter and no RT_PID. -/
def State.absorbs (s t : State) : Prop := s.coresOnly t ∧ s.coresKept t ∧ ∀ q, t.rtPid q = s.rtPid q

theorem absorbs_refl (s : State) : s.absorbs s := ⟨.refl s, coresKept_refl s, fun _ => rfl⟩

theorem State.absorbs.trans {s t u : State} (h1 : s.absorbs t) (h2 : t.absorbs u) : s.absorbs u := by
  obtain ⟨o1, k1, p1⟩ := h1
  obtain ⟨o2, k2, p2⟩ := h2
  exact ⟨State.coresOnly.trans o1 o2, k1.trans k2, fun q => (p2 q).trans (p1 q)⟩

/-- Lines that a write under way has still to bring come off SP_PENDWR (R123). -/
def K.pendSub (lines : List Nat) (k : K) : K := { k with core := k.core.pendSub lines }

theorem pendSub_absorbs (s : State) (c : CoreId) (lines : List Nat) : s.absorbs (onCore c s (K.pendSub lines)) :=
  ⟨onCore_coresOnly c s _, onCore_coresKept (f := K.pendSub lines) (fun _ => rfl) (fun _ => ⟨rfl, rfl, rfl⟩) c s,
    rtPid_of_routers (onCore_routers (f := K.pendSub lines) (fun _ => ⟨rfl, rfl⟩) c s)⟩

theorem routerEvent_absorbs (s : State) (px py kind detail addr : Nat) : s.absorbs (s.routerEvent px py rRT_FWREF kind detail addr) := by
  refine ⟨?_, fun c => ?_, fun q => ?_⟩
  · rw [routerEvent_eq]
    rfl
  · obtain ⟨rs, h⟩ := routerEvent_core s px py rRT_FWREF kind detail addr c
    rw [h]
    exact ⟨rfl, rfl, rfl⟩
  · have hrouters : (s.routerEvent px py rRT_FWREF kind detail addr).routers = (s.onRouter px py (fun r => r.count rRT_FWREF 1)).routers := by
      rw [routerEvent_eq]
    rw [rtPid_of_routers hrouters, rtPid_onRouter]
    split
    · rename_i hk
      have hsame : s.router px py = s.router q.1 q.2 := by rw [State.router, State.router, hk]
      rw [hsame]
      exact get_bump_other _ rRT_FWREF 1 rRT_PID _ (by decide) (by decide)
    · rfl

/-- What the firewalls of several cores absorb leaves their memory and RT_PID (R172). -/
theorem absorbFor_absorbs (s : State) (cs : List CoreId) :
    ∃ inbox accepted, State.absorbs { s with inbox := inbox, accepted := accepted } (s.absorbFor cs) := by
  unfold State.absorbFor
  extract_lets mine gone s1 s2
  refine ⟨s1.inbox, s1.accepted, State.absorbs.trans (t := s2) ?_ ?_⟩
  · refine foldl_relates (R := State.absorbs) absorbs_refl State.absorbs.trans (fun s e => ?_) s1
    exact pendSub_absorbs s e.core e.lines
  · refine foldl_relates (R := State.absorbs) absorbs_refl State.absorbs.trans (fun s e => ?_) s2
    exact routerEvent_absorbs s _ _ _ _ _

/-! ### The reset begins -/

/-- Where a reset begins, unfinished jobs are killed with status 6, extents refused, and firewalls closed (R367). -/
theorem startPartReset_eq {s : State} {p : Pid} (hv : s.pvalid p = true) (hst : (s.partition p).state ≠ 3) : ∃ jobs om span cs,
    s.startPartReset p = (((State.onClustersPid { s with jobs := jobs, om := om, span := span } (s.partition p).clusters
      (fun w => setField w 31 1 true.toNat)).absorbFor cs).onPart p (fun e => { e with drained := false, resetYc := some s.yc })).setPstate p 3 ∧
    (∀ j ∈ jobs, j.p = p → j.phase ≠ .finished → j.phase = .killed ∧ j.status = 6) ∧
    (∀ b ∈ om.extents, b.2.owner = .part p → b.2.zeroing = true) := by
  refine ⟨_, _, _, _, if_neg (by simpa [hv] using hst), ?_, ?_⟩
  · intro j hj hp hph
    obtain ⟨j0, -, rfl⟩ := List.mem_map.1 hj
    split at hp
    · rename_i h
      rw [if_pos h]
      exact ⟨rfl, rfl⟩
    · rename_i h
      rw [if_neg h] at hph
      exact absurd ⟨hp, hph⟩ h
  · intro b hb ho
    obtain ⟨b0, -, rfl⟩ := List.mem_map.1 hb
    split at ho
    · rename_i h
      rw [if_pos h]
    · rename_i h
      exact absurd (by simp [ho]) h

theorem setClosed_bit (b : Bool) (w : Word) : (setField w 31 1 b.toNat).getLsbD 31 = b := by
  rw [getLsbD_setField _ _ _ _ (by decide), if_pos (by decide)]
  cases b <;> rfl

theorem exec_partitionReset {s : State} (hpf : s.pfServes) {p : Pid} (hl : s.tdiLocked p = false) :
    exec (.partitionReset .pf p) s = .next ((published s (s.startPartReset p)).answer none) := by
  refine (if_neg (not_not.2 hpf.2.1)).trans (congrArg Host.Outcome.next ((yardWrite_pf hpf _ _).trans ?_))
  unfold partitionResetWrite
  rw [if_neg (by decide), if_neg (by simp [hl])]

/-- A reset during a reset merges (R369). -/
theorem partitionReset_merges {s : State} {p : Pid} (hpf : s.pfServes) (hl : s.tdiLocked p = false) (hst : (s.partition p).state = 3) :
    exec (.partitionReset .pf p) s = .next { s with resp := .done } := by
  have hsame : s.startPartReset p = s := if_pos (by simp [hst])
  have hpub : published s s = s := if_pos (.inr rfl)
  rw [exec_partitionReset hpf hl, hsame, hpub]
  rfl

/-- What the start of a reset leaves (R367). -/
theorem partitionReset_starts {s : State} {p : Pid} (hpf : s.pfServes) (hl : s.tdiLocked p = false) (hv : s.pvalid p = true)
    (hst : (s.partition p).state ≠ 3) :
    ∃ t : State, exec (.partitionReset .pf p) s = .next t ∧ t.resp = .done ∧
      t.partition p = { s.partition p with drained := false, resetYc := some s.yc, state := 3 } ∧
      (∀ cl ∈ (s.partition p).clusters, ∀ q ∈ clusterPositions cl, (t.rtPid q).getLsbD 31 = true) ∧
      (∀ j ∈ t.jobs, j.p = p → j.phase ≠ .finished → j.phase = .killed ∧ j.status = 6) ∧
      (∀ b ∈ t.om.extents, b.2.owner = .part p → b.2.zeroing = true) ∧ s.coresKept t := by
  obtain ⟨jobs, om, span, cs, heq, hjobs, hext⟩ := startPartReset_eq hv hst
  have hclosed {cl : Nat} {q : Nat × Nat} := onClustersPid_rtPid (P := fun w => w.getLsbD 31 = true) (setClosed_bit true)
    (s := { s with jobs := jobs, om := om, span := span }) (cls := (s.partition p).clusters) (cl := cl) (q := q)
  have honly := onClustersPid_routersOnly { s with jobs := jobs, om := om, span := span } (s.partition p).clusters
    (fun w => setField w 31 1 true.toNat)
  generalize State.onClustersPid { s with jobs := jobs, om := om, span := span } (s.partition p).clusters
    (fun w => setField w 31 1 true.toNat) = u at heq hclosed honly
  obtain ⟨inbox, accepted, hcores, hkept, hpid⟩ := absorbFor_absorbs u cs
  generalize u.absorbFor cs = w at heq hcores hkept hpid
  obtain ⟨ps, ys, h, hset, hpart, -⟩ := setPstate_eq (w.onPart p (fun e => { e with drained := false, resetYc := some s.yc })) p 3
  obtain ⟨ys', hpub, -⟩ := published_yregs s (s.startPartReset p)
  have hparts : w.partition p = s.partition p := by rw [hcores, honly]; rfl
  rw [partition_onPart, if_pos rfl, hparts] at hpart
  have hexec := exec_partitionReset hpf hl
  rw [hpub, heq, hset] at hexec
  have hjobs' : w.jobs = jobs := by rw [hcores, honly]
  have hom' : w.om = om := by rw [hcores, honly]
  refine ⟨_, hexec, rfl, hpart, fun cl hcl q hq => ?_, ?_, ?_, ?_⟩
  · exact (congrArg (fun x => x.getLsbD 31) (hpid q)).trans (hclosed hcl hq)
  · show ∀ j ∈ w.jobs, _
    rwa [hjobs']
  · show ∀ b ∈ w.om.extents, _
    rwa [hom']
  · refine State.coresKept.trans (t := { u with inbox := inbox, accepted := accepted }) (coresKept_of_core fun c => ?_) hkept
    rw [honly]
    rfl

/-! ### A drain that is late -/

/-- A drain that is not complete after 60 µs is reported, once (R367). -/
theorem partitionDrainLate_told {s : State} {p : Pid} {y0 : DWord} (hst : (s.partition p).state = 3) (hd : (s.partition p).drained = false)
    (hy : (s.partition p).resetYc = some y0) (hlate : y0.toNat + 3000 ≤ s.yc.toNat) :
    ∃ t : State, ∃ m : Msg, exec (.partitionDrainLate p) s = .next t ∧ t.transit = s.transit ++ [m] ∧ m.kind = 0xEB ∧ m.block = 24 ∧
      m.detail.toNat = p.toNat ∧ (t.partition p).resetYc = none ∧ t.cores = s.cores := by
  have hexec : exec (.partitionDrainLate p) s = .next ((s.onPart p (fun x => { x with resetYc := none })).yardReport 24 0xEB p.toNat 0) := by
    show execPartitionDrainLate p s = _
    simp only [execPartitionDrainLate, hy, hst, hd, Bool.not_false, true_and, if_pos hlate]
  refine ⟨_, _, hexec, rfl, rfl, rfl, toNat_ofNat_lt (by omega), ?_, rfl⟩
  exact congrArg Partition.resetYc ((partition_onPart s p p (fun x => { x with resetYc := none })).trans (if_pos rfl))

end Sys2Proof.Machine
end

section
/-! SUPPORT. Records join their rings, the jobs of a reset partition end, and its ring pairs close (R198, R254, R255, R367). -/

namespace Sys2Proof.Machine

/-! ### What publication leaves alone -/

/-- The keys of partitions, the termini, the fuses and the clusters are as before. -/
structure State.BooksKept (s t : State) : Prop where
  keys : t.om.keys = s.om.keys
  nextKey : t.om.nextKey = s.om.nextKey
  termini : t.termini = s.termini
  fuses : t.fuses = s.fuses
  clusters : t.clusters = s.clusters

theorem State.BooksKept.refl (s : State) : s.BooksKept s := ⟨rfl, rfl, rfl, rfl, rfl⟩

theorem State.BooksKept.trans {s t u : State} (h1 : s.BooksKept t) (h2 : t.BooksKept u) : s.BooksKept u :=
  ⟨h2.keys.trans h1.keys, h2.nextKey.trans h1.nextKey, h2.termini.trans h1.termini, h2.fuses.trans h1.fuses, h2.clusters.trans h1.clusters⟩

/-- So are the ring pairs beyond their registers, and which of them are enabled. -/
structure State.RingsStill (s t : State) : Prop extends s.BooksKept t where
  rings : t.rings = s.rings
  enabled : ∀ p r, t.ringEn p r = s.ringEn p r

theorem State.RingsStill.refl (s : State) : s.RingsStill s := ⟨.refl s, rfl, fun _ _ => rfl⟩

theorem State.RingsStill.trans {s t u : State} (h1 : s.RingsStill t) (h2 : t.RingsStill u) : s.RingsStill u :=
  ⟨h1.toBooksKept.trans h2.toBooksKept, h2.rings.trans h1.rings, fun p r => (h2.enabled p r).trans (h1.enabled p r)⟩

theorem State.RingsStill.ring {s t : State} (h : s.RingsStill t) (p : Pid) (r : BitVec 3) : t.ring p r = s.ring p r := by
  simp only [State.ring, h.rings]

theorem State.coresOnly.ringsStill {s t : State} (h : s.coresOnly t) : s.RingsStill t := by
  rw [h]
  exact ⟨⟨rfl, rfl, rfl, rfl, rfl⟩, rfl, fun _ _ => rfl⟩

theorem notify_ringsStill (s : State) (fn vec : Nat) : s.RingsStill (s.notify fn vec) := by
  obtain ⟨pend, out, h, -⟩ := notify_eq s fn vec
  rw [h]
  exact ⟨⟨rfl, rfl, rfl, rfl, rfl⟩, rfl, fun _ _ => rfl⟩

/-- No counter of the yard is a ring pair's first register. -/
theorem ycount_ringsStill (s : State) {lo : Nat} (n : Nat) (h0 : 0 < lo % 64) (h4 : lo % 64 < 60) : s.RingsStill (s.ycount lo n) := by
  refine ⟨⟨rfl, rfl, rfl, rfl, rfl⟩, rfl, fun p r => congrArg (fun w => BitVec.getLsbD w 31) ?_⟩
  have hoff : ringOff p r % 64 = 0 := by simp only [ringOff, yJB]; omega
  exact get_bump_other _ _ _ _ _ (by omega) (by omega)

theorem setPstate_ringsStill (s : State) (p : Pid) (st : Nat) : s.RingsStill (s.setPstate p st) := by
  obtain ⟨ps, ys, h, heq, -, hys⟩ := setPstate_eq s p st
  rw [heq]
  refine ⟨⟨rfl, rfl, rfl, rfl, rfl⟩, rfl, fun q r => congrArg (fun w => BitVec.getLsbD w 31) (hys _ ?_)⟩
  simp only [ringOff, yJB]
  omega

theorem report_ringsStill (s : State) (fld cluster core block kind detail addr : Nat) :
    s.RingsStill (s.report fld cluster core block kind detail addr) := ⟨⟨rfl, rfl, rfl, rfl, rfl⟩, rfl, fun _ _ => rfl⟩

theorem writeOm_ringsStill (s : State) (o : Nat) (bs : List Byte) : s.RingsStill (s.writeOm o bs) :=
  ⟨⟨rfl, rfl, rfl, rfl, rfl⟩, rfl, fun _ _ => rfl⟩

/-- What Ryist writes to outer memory changes its lines, counters and, where it is refused, the messages under way (R256). -/
theorem sysWrite_ringsStill (s : State) (o : Nat) (bs : List Byte) : s.RingsStill (s.sysWrite o bs) := by
  have hcount (s : State) (t : Nat) {k : Nat} (h0 : 0 < k % 64) (h4 : k % 64 < 60) : s.RingsStill (s.ycount (yOM + 0x10000 * t + k) 1) :=
    ycount_ringsStill s 1 (by simp only [yOM]; omega) (by simp only [yOM]; omega)
  refine foldl_relates (R := State.RingsStill) State.RingsStill.refl State.RingsStill.trans (fun s i => ?_) s
  dsimp only
  split
  · exact (hcount s _ (by decide) (by decide)).trans (report_ringsStill _ _ _ _ _ _ _ _)
  · exact (writeOm_ringsStill s _ _).trans (hcount _ _ (by decide) (by decide))

theorem storeAt_ringsStill (s : State) (a : DWord) (bs : List Byte) : s.RingsStill (s.storeAt a bs) := by
  unfold State.storeAt
  split
  · exact sysWrite_ringsStill s _ bs
  · exact ⟨⟨rfl, rfl, rfl, rfl, rfl⟩, rfl, fun _ _ => rfl⟩

theorem idxStore_ringsStill (s : State) (p : Pid) (r : BitVec 3) (k : Nat) (v : DWord) : s.RingsStill (s.idxStore p r k v) := by
  unfold State.idxStore
  split
  · exact .refl s
  · split
    · exact (onCore_coresOnly _ s _).ringsStill
    · exact .refl s

theorem idxLoad_ringsStill (s : State) (p : Pid) (r : BitVec 3) (k : Nat) : s.RingsStill (s.idxLoad p r k).1 := by
  unfold State.idxLoad
  split
  · exact .refl s
  · split
    · exact (kPut_anyCoresOnly s _).ringsStill
    · exact .refl s

/-! ### One ring pair -/

theorem ringKey_inj {p q : Pid} {r x : BitVec 3} (h : ringKey p r = ringKey q x) : p = q ∧ r = x := by
  simp only [ringKey] at h
  have := r.isLt
  have := x.isLt
  exact ⟨BitVec.eq_of_toNat_eq (by omega), BitVec.eq_of_toNat_eq (by omega)⟩

theorem ring_setRing (s : State) (q : Pid) (x : BitVec 3) (g : Ring) (p : Pid) (r : BitVec 3) :
    (s.setRing q x g).ring p r = if p = q ∧ r = x then g else s.ring p r := by
  simp only [State.ring, State.setRing, SMap.get_set]
  by_cases h : p = q ∧ r = x
  · rw [if_pos h, if_pos (by rw [h.1, h.2])]
  · rw [if_neg h, if_neg (fun e => h (ringKey_inj e))]

theorem setRing_booksKept (s : State) (q : Pid) (x : BitVec 3) (g : Ring) : s.BooksKept (s.setRing q x g) := ⟨rfl, rfl, rfl, rfl, rfl⟩

/-- What a ring carries to its reader: the records published, and those that wait (R255). -/
def State.carried (s : State) (p : Pid) (r : BitVec 3) : List RingRecord := (s.ring p r).published ++ (s.ring p r).waiting

/-- Ryist's copies of index words may have changed, and nothing of the records of any pair, nor which pairs are enabled. -/
structure State.RecordsKept (s t : State) : Prop extends s.BooksKept t where
  published : ∀ p r, (t.ring p r).published = (s.ring p r).published
  waiting : ∀ p r, (t.ring p r).waiting = (s.ring p r).waiting
  enabled : ∀ p r, t.ringEn p r = s.ringEn p r

theorem State.RecordsKept.trans {s t u : State} (h1 : s.RecordsKept t) (h2 : t.RecordsKept u) : s.RecordsKept u :=
  ⟨h1.toBooksKept.trans h2.toBooksKept, fun p r => (h2.published p r).trans (h1.published p r),
    fun p r => (h2.waiting p r).trans (h1.waiting p r), fun p r => (h2.enabled p r).trans (h1.enabled p r)⟩

theorem State.RingsStill.recordsKept {s t : State} (h : s.RingsStill t) : s.RecordsKept t :=
  ⟨h.toBooksKept, fun p r => by rw [h.ring], fun p r => by rw [h.ring], h.enabled⟩

/-- Index words of one pair set, its records as they were. -/
theorem setRing_recordsKept {s : State} {q : Pid} {x : BitVec 3} {g : Ring} (hp : g.published = (s.ring q x).published)
    (hw : g.waiting = (s.ring q x).waiting) : s.RecordsKept (s.setRing q x g) := by
  refine ⟨setRing_booksKept s q x g, fun p r => ?_, fun p r => ?_, fun _ _ => rfl⟩
  all_goals
    rw [ring_setRing]
    split
    · rename_i h
      rw [h.1, h.2]
      assumption
    · rfl

theorem State.RecordsKept.carried {s t : State} (h : s.RecordsKept t) (p : Pid) (r : BitVec 3) : t.carried p r = s.carried p r := by
  rw [State.carried, State.carried, h.published, h.waiting]

theorem publishAt_recordsKept (s : State) (q : Pid) (x : BitVec 3) (bs : List Byte) (n : Nat) : s.RecordsKept (s.publishAt q x bs n) := by
  unfold State.publishAt
  extract_lets g s1 w s2
  have h1 : s.RingsStill s1 := storeAt_ringsStill s _ _
  have h2 : s.RecordsKept s2 := (h1.recordsKept.trans (setRing_recordsKept (by rw [h1.ring]) (by rw [h1.ring]))).trans
    (idxStore_ringsStill _ _ _ _ _).recordsKept
  split
  · exact h2
  · exact h2.trans (notify_ringsStill _ _ _).recordsKept

theorem loadRdidx_recordsKept (s : State) (q : Pid) (x : BitVec 3) : s.RecordsKept (s.loadRdidx q x) := by
  have h := (idxLoad_ringsStill s q x 3).recordsKept
  unfold State.loadRdidx
  split
  · rename_i s1 v heq
    rw [heq] at h
    dsimp only
    split
    · exact h.trans (setRing_recordsKept rfl rfl)
    · exact h
  · rename_i s1 heq
    rwa [heq] at h

/-! ### Publication -/

/-- From `s` to `t` records `l` stand behind the published ones of a pair, published or waiting, and no other pair has changed in what it
carries. -/
structure State.Publishes (s t : State) (q : Pid) (x : BitVec 3) (l : List RingRecord) : Prop extends s.BooksKept t where
  enabled : ∀ p r, t.ringEn p r = s.ringEn p r
  carried : ∀ p r, t.carried p r = if p = q ∧ r = x then (s.ring q x).published ++ l else s.carried p r

/-- The records wait. -/
theorem publishes_wait (s : State) (q : Pid) (x : BitVec 3) (l : List RingRecord) :
    s.Publishes (s.setRing q x { s.ring q x with waiting := l }) q x l := by
  refine ⟨setRing_booksKept _ _ _ _, fun _ _ => rfl, fun p r => ?_⟩
  rw [State.carried, ring_setRing]
  split <;> rfl

theorem State.Publishes.after {s t u : State} {q : Pid} {x : BitVec 3} {l : List RingRecord} (h2 : t.Publishes u q x l)
    (h1 : s.RecordsKept t) : s.Publishes u q x l := by
  refine ⟨h1.toBooksKept.trans h2.toBooksKept, fun p r => (h2.enabled p r).trans (h1.enabled p r), fun p r => ?_⟩
  rw [h2.carried, h1.carried, h1.published]

/-- A record is published, and the others follow. -/
theorem State.Publishes.afterOne {s u : State} {q : Pid} {x : BitVec 3} {y : RingRecord} {l : List RingRecord}
    (h : (s.publishOne q x y).Publishes u q x l) : s.Publishes u q x (y :: l) := by
  have hat := publishAt_recordsKept s q x y.bytes y.bytes.length
  have hone : ((s.publishAt q x y.bytes y.bytes.length).setRing q x { (s.publishAt q x y.bytes y.bytes.length).ring q x with
      published := ((s.publishAt q x y.bytes y.bytes.length).ring q x).published ++ [y] }).RingsStill (s.publishOne q x y) := by
    unfold State.publishOne
    dsimp only
    split
    · refine (ycount_ringsStill _ _ ?_ ?_).trans (ycount_ringsStill _ _ ?_ ?_) <;> simp only [ringOff, yJB] <;> omega
    · exact .refl _
  generalize s.publishAt q x y.bytes y.bytes.length = v at hat hone
  refine ⟨(hat.toBooksKept.trans (setRing_booksKept _ _ _ _)).trans (hone.toBooksKept.trans h.toBooksKept),
    fun p r => (h.enabled p r).trans ((hone.enabled p r).trans (hat.enabled p r)), fun p r => ?_⟩
  have hself : ((s.publishOne q x y).ring q x).published = (s.ring q x).published ++ [y] := by
    rw [hone.ring, ring_setRing, if_pos ⟨rfl, rfl⟩, hat.published]
  rw [h.carried, hself, List.append_assoc]
  split
  · rfl
  · rename_i hne
    rw [State.carried, hone.ring, ring_setRing, if_neg hne, hat.published, hat.waiting]
    rfl

theorem publishList_publishes (q : Pid) (x : BitVec 3) (l : List RingRecord) (s : State) : s.Publishes (publishList q x l s) q x l := by
  induction l generalizing s with
  | nil => exact publishes_wait s q x []
  | cons y l ih =>
    unfold publishList
    dsimp only
    split
    · exact publishes_wait s q x _
    · split
      · exact publishes_wait s q x _
      · split
        · exact (ih _).afterOne
        · exact publishes_wait s q x _
      · split
        · exact publishes_wait s q x _
        · have hskip : s.RecordsKept (s.publishSkip q x) := publishAt_recordsKept s q x _ _
          split
          · split
            · exact (ih _).afterOne.after hskip
            · exact (publishes_wait _ q x _).after hskip
          · exact (publishes_wait _ q x _).after hskip

/-! ### Jobs end -/

/-- Records may have joined the rings; which pairs are enabled has not changed. -/
structure State.Grows (s t : State) (p : Pid) (r : BitVec 3) : Prop extends s.BooksKept t where
  enabled : t.ringEn p r = s.ringEn p r
  carried : ∃ l, t.carried p r = s.carried p r ++ l

theorem grows_refl (s : State) (p : Pid) (r : BitVec 3) : s.Grows s p r := ⟨.refl s, rfl, [], (List.append_nil _).symm⟩

theorem State.Grows.trans {s t u : State} {p : Pid} {r : BitVec 3} (h1 : s.Grows t p r) (h2 : t.Grows u p r) : s.Grows u p r := by
  obtain ⟨l1, e1⟩ := h1.carried
  obtain ⟨l2, e2⟩ := h2.carried
  exact ⟨h1.toBooksKept.trans h2.toBooksKept, h2.enabled.trans h1.enabled, l1 ++ l2, by rw [e2, e1, List.append_assoc]⟩

theorem State.RecordsKept.grows {s t : State} (h : s.RecordsKept t) (p : Pid) (r : BitVec 3) : s.Grows t p r :=
  ⟨h.toBooksKept, h.enabled p r, [], by rw [h.carried, List.append_nil]⟩

theorem State.RingsStill.grows {s t : State} (h : s.RingsStill t) (p : Pid) (r : BitVec 3) : s.Grows t p r := h.recordsKept.grows p r

/-- A record that joins its ring leaves every record before it (R255). -/
theorem pushRecord_grows (s : State) (q : Pid) (x : BitVec 3) (y : RingRecord) (p : Pid) (r : BitVec 3) : s.Grows (s.pushRecord q x y) p r := by
  have hload := loadRdidx_recordsKept s q x
  have hpub := publishList_publishes q x (((s.loadRdidx q x).ring q x).waiting ++ [y]) (s.loadRdidx q x)
  refine (hload.grows p r).trans ⟨hpub.toBooksKept, hpub.enabled p r, ?_⟩
  by_cases h : p = q ∧ r = x
  · refine ⟨[y], (hpub.carried p r).trans ?_⟩
    rw [if_pos h, h.1, h.2, State.carried, List.append_assoc]
  · exact ⟨[], (hpub.carried p r).trans (by rw [if_neg h, List.append_nil])⟩

theorem finishJob_grows (s : State) (j : Job) (p : Pid) (r : BitVec 3) : s.Grows (s.finishJob j) p r := by
  unfold State.finishJob
  extract_lets mj s1 s2 s3
  have h1 : s.RingsStill s1 := ⟨⟨rfl, rfl, rfl, rfl, rfl⟩, rfl, fun _ _ => rfl⟩
  have h2 : s1.RingsStill s2 := by
    refine (ycount_ringsStill _ _ ?_ ?_).trans (ycount_ringsStill _ _ ?_ ?_) <;> simp only [ringOff, yJB] <;> omega
  have h3 : s.Grows s3 p r := ((h1.trans h2).grows p r).trans (pushRecord_grows s2 _ _ _ p r)
  split
  · exact h3
  · exact h3.trans ((setPstate_ringsStill _ _ _).grows p r)

/-- No record is dropped when the jobs of a reset partition end (R367). -/
theorem endResetJobs_grows (s : State) (q : Pid) (p : Pid) (r : BitVec 3) : s.Grows (s.endResetJobs q) p r := by
  refine foldl_relates (R := fun s t => State.Grows s t p r) (grows_refl · p r) State.Grows.trans (fun s j => ?_) s
  split
  · exact ⟨⟨rfl, rfl, rfl, rfl, rfl⟩, rfl, [], (List.append_nil _).symm⟩
  · exact finishJob_grows s j p r

/-! ### Ring pairs close -/

/-- A pair that closes: its index block is forgotten, its index words are zero if it was enabled (R367). -/
def Ring.closed (g : Ring) (en : Bool) : Ring :=
  if en then { g with idx := none, subWr := 0, subRd := 0, compWr := 0, compRd := 0 } else { g with idx := none }

theorem Ring.closed_closed (g : Ring) (en : Bool) : (g.closed en).closed false = g.closed en := by cases en <;> rfl

/-- The index words of a pair that is enabled are zeroed. -/
def State.zeroEnabled (s : State) (q : Pid) (x : BitVec 3) : State := if s.ringEn q x then s.zeroRing q x else s

theorem zeroRing_ringsStill (s : State) (q : Pid) (x : BitVec 3) :
    (s.setRing q x { s.ring q x with subWr := 0, subRd := 0, compWr := 0, compRd := 0 }).RingsStill (s.zeroRing q x) := by
  refine foldl_relates (R := State.RingsStill) State.RingsStill.refl State.RingsStill.trans (fun s k => ?_) _
  exact idxStore_ringsStill s q x k 0

theorem zeroEnabled_booksKept (s : State) (q : Pid) (x : BitVec 3) : s.BooksKept (s.zeroEnabled q x) := by
  unfold State.zeroEnabled
  split
  · exact (setRing_booksKept _ _ _ _).trans (zeroRing_ringsStill s q x).toBooksKept
  · exact .refl s

theorem zeroEnabled_ringEn (s : State) (q : Pid) (x : BitVec 3) (p : Pid) (r : BitVec 3) : (s.zeroEnabled q x).ringEn p r = s.ringEn p r := by
  unfold State.zeroEnabled
  split
  · exact (zeroRing_ringsStill s q x).enabled p r
  · rfl

theorem zeroEnabled_ring (s : State) (q : Pid) (x : BitVec 3) (p : Pid) (r : BitVec 3) : (s.zeroEnabled q x).ring p r =
    if p = q ∧ r = x ∧ s.ringEn q x = true then { s.ring q x with subWr := 0, subRd := 0, compWr := 0, compRd := 0 } else s.ring p r := by
  unfold State.zeroEnabled
  split
  · rename_i hen
    rw [(zeroRing_ringsStill s q x).ring, ring_setRing]
    simp only [hen, and_true]
  · rename_i hen
    rw [if_neg (fun h => hen h.2.2)]

theorem ringOff_inj {p q : Pid} {r x : BitVec 3} (h : ringOff p r = ringOff q x) : p = q ∧ r = x := by
  refine ringKey_inj ?_
  simp only [ringOff] at h
  simp only [ringKey]
  omega

/-- A pair forgets its index block and is disabled. -/
def State.shutRing (s : State) (q : Pid) (x : BitVec 3) : State :=
  (s.setRing q x { s.ring q x with idx := none }).setYreg (ringOff q x) (setField (s.yreg (ringOff q x)) 31 1 0)

theorem shutRing_ringEn (s : State) (q : Pid) (x : BitVec 3) (p : Pid) (r : BitVec 3) :
    (s.shutRing q x).ringEn p r = if p = q ∧ r = x then false else s.ringEn p r := by
  rw [State.ringEn, State.shutRing, yreg_setYreg]
  by_cases h : p = q ∧ r = x
  · rw [if_pos h, if_pos (by rw [h.1, h.2])]
    exact setClosed_bit false _
  · rw [if_neg h, if_neg (fun e => h (ringOff_inj e))]
    rfl

theorem closeRing_booksKept (s : State) (q : Pid) (x : BitVec 3) : s.BooksKept (s.closeRing q x) :=
  (zeroEnabled_booksKept s q x).trans ⟨rfl, rfl, rfl, rfl, rfl⟩

theorem closeRing_ringEn (s : State) (q : Pid) (x : BitVec 3) (p : Pid) (r : BitVec 3) :
    (s.closeRing q x).ringEn p r = if p = q ∧ r = x then false else s.ringEn p r := by
  rw [← zeroEnabled_ringEn s q x p r]
  exact shutRing_ringEn (s.zeroEnabled q x) q x p r

theorem closeRing_ring (s : State) (q : Pid) (x : BitVec 3) (p : Pid) (r : BitVec 3) :
    (s.closeRing q x).ring p r = if p = q ∧ r = x then (s.ring q x).closed (s.ringEn q x) else s.ring p r := by
  have hset : (s.closeRing q x).ring p r = ((s.zeroEnabled q x).setRing q x { (s.zeroEnabled q x).ring q x with idx := none }).ring p r := rfl
  rw [hset, ring_setRing]
  split
  · rw [zeroEnabled_ring]
    cases hen : s.ringEn q x with
    | true => rw [if_pos ⟨rfl, rfl, rfl⟩]; rfl
    | false => rw [if_neg (fun h => absurd h.2.2 (by decide))]; rfl
  · rename_i hne
    rw [zeroEnabled_ring, if_neg (fun h => hne ⟨h.1, h.2.1⟩)]

/-- Several pairs of a partition close: each of them once and for all. -/
def State.closeRings (s : State) (p : Pid) (l : List (BitVec 3)) : State := l.foldl (fun (a : State) r => a.closeRing p r) s

theorem closeRings_booksKept (s : State) (p : Pid) (l : List (BitVec 3)) : s.BooksKept (s.closeRings p l) :=
  foldl_relates (R := State.BooksKept) State.BooksKept.refl State.BooksKept.trans (fun s r => closeRing_booksKept s p r) s

theorem closeRings_ring (s : State) (p : Pid) (l : List (BitVec 3)) (r : BitVec 3) :
    (s.closeRings p l).ringEn p r = (if r ∈ l then false else s.ringEn p r) ∧
      (s.closeRings p l).ring p r = if r ∈ l then (s.ring p r).closed (s.ringEn p r) else s.ring p r := by
  induction l generalizing s with
  | nil => exact ⟨rfl, rfl⟩
  | cons x l ih =>
    obtain ⟨hen, hring⟩ := ih (s.closeRing p x)
    rw [closeRing_ringEn] at hen hring
    rw [closeRing_ring] at hring
    refine ⟨hen.trans ?_, hring.trans ?_⟩
    all_goals
      by_cases hx : r = x
      · subst hx
        simp [Ring.closed_closed]
      · simp [hx]

theorem closed_records (g : Ring) (en : Bool) : (g.closed en).published = g.published ∧ (g.closed en).waiting = g.waiting ∧
    (g.closed en).idx = none := by cases en <;> exact ⟨rfl, rfl, rfl⟩

end Sys2Proof.Machine
end

section
/-! SUPPORT. The drain of a partition in reset is complete: its clusters are emptied, its jobs end, its ring pairs close, its firewalls open
and its keys are new (R255, R280, R367). -/

namespace Sys2Proof.Machine

/-! ### Clusters are emptied -/

/-- Nothing has changed but cores, routers and what they hand over, packets delivered, section slots, clusters, the progress of a settings pass
and what the host is told. -/
def State.empties (s t : State) : Prop :=
  t = { s with cores := t.cores, routers := t.routers, inj := t.inj, inbox := t.inbox, accepted := t.accepted, transit := t.transit,
               slots := t.slots, clusters := t.clusters, host := t.host, bu := t.bu, freeCtr := t.freeCtr, resp := t.resp }

theorem State.empties.refl (s : State) : s.empties s := rfl

theorem State.empties.trans {s t u : State} (h1 : s.empties t) (h2 : t.empties u) : s.empties u := by
  unfold State.empties at h1 h2 ⊢
  rw [h1] at h2
  exact h2

theorem State.coresOnly.empties {s t : State} (h : s.coresOnly t) : s.empties t := by
  rw [h]
  rfl

/-- What follows a step of a core that may have become IDLE (R361, R362). -/
theorem settled_empties (s : State) (c : CoreId) : s.empties (s.settled c) := by
  unfold State.settled
  split
  · rfl
  · rw [passProgress_eq]
    obtain ⟨rs, h | ⟨w, st, h⟩⟩ := takeItems_eq s c <;> rw [h] <;> rfl

theorem resetCore_empties (s : State) (c : CoreId) : s.empties (s.resetCore c) := by
  unfold State.resetCore
  split
  · exact (onCore_coresOnly c s _).empties.trans (settled_empties _ c)
  · rfl

/-- No scrub of a cluster is pending or under way. -/
def State.scrubClear (s : State) (cl : Nat) : Prop := (s.cluster cl).scrubPend = false ∧ (s.cluster cl).scrubbing = false

theorem scrubClear_of_clusters {s t : State} (h : t.clusters = s.clusters) (cl : Nat) : t.scrubClear cl ↔ s.scrubClear cl := by
  simp only [State.scrubClear, State.cluster, h]

/-- A scrub carried through changes cores, and of the clusters its own (R261). -/
theorem scrubWhole_eq (s : State) (cl : Nat) : s.empties (s.scrubWhole cl) ∧
    (s.scrubWhole cl).clusters = (s.setCluster cl (fun e => { e with scrubPend := false, scrubbing := false })).clusters := by
  unfold State.scrubWhole State.scrubEnd
  have h1 := onCores_coresOnly (s.scrubbed cl) s (fun k => { k with core := k.core.scrubStart })
  generalize onCores (s.scrubbed cl) s (fun k => { k with core := k.core.scrubStart }) = u at h1
  have h2 := h1.trans (onCores_coresOnly (u.scrubbed cl) u K.scrubDone)
  generalize onCores (u.scrubbed cl) u K.scrubDone = v at h2
  rw [h2]
  exact ⟨rfl, rfl⟩

/-- Scrubs of several clusters carried through. -/
def State.scrubWholes (s : State) (cls : List Nat) : State := cls.foldl (fun (a : State) cl => a.scrubWhole cl) s

theorem scrubWholes_empties (s : State) (cls : List Nat) : s.empties (s.scrubWholes cls) :=
  foldl_relates (R := State.empties) State.empties.refl State.empties.trans (fun s cl => (scrubWhole_eq s cl).1) s

theorem scrubWholes_clear {s : State} {cls : List Nat} {cl : Nat} (h : cl ∈ cls) : (s.scrubWholes cls).scrubClear cl := by
  refine foldl_reaches (P := fun a => State.scrubClear a cl) (hit := (· = cl)) (fun a x hx => ?_) (fun a x hx => ?_) (.inr ⟨cl, h, rfl⟩)
  · rw [scrubClear_of_clusters (scrubWhole_eq a x).2, State.scrubClear, cluster_setCluster, if_pos hx.symm]
    exact ⟨rfl, rfl⟩
  · rw [scrubClear_of_clusters (scrubWhole_eq a x).2, State.scrubClear, cluster_setCluster]
    split
    · exact ⟨rfl, rfl⟩
    · exact hx

/-- Clusters are emptied: their scrubs are done, and no register of the yard, ring, key or terminus has changed (R367). -/
theorem emptyClusters_empties (s : State) (cls : List Nat) :
    s.empties (s.emptyClusters cls) ∧ ∀ cl ∈ cls, (s.emptyClusters cls).scrubClear cl := by
  unfold State.emptyClusters
  extract_lets cs s1 s2
  have h1 : s.empties s1 := by
    obtain ⟨inbox, accepted, habs, -⟩ := absorbFor_absorbs s cs
    refine State.empties.trans (t := { s with inbox := inbox, accepted := accepted }) rfl (habs.empties.trans ?_)
    exact foldl_relates (R := State.empties) State.empties.refl State.empties.trans (fun s c => resetCore_empties s c) _
  have h3 := onCores_coresOnly cs s2 (fun k => { k with core := k.core.zeroSync })
  refine ⟨(h1.trans (scrubWholes_empties s1 cls)).trans h3.empties, fun cl hcl => ?_⟩
  rw [scrubClear_of_clusters h3.ringsStill.clusters]
  exact scrubWholes_clear hcl

/-- Sections freed, one after the other. -/
def State.freeSections (s : State) (l : List Nat) : State := l.foldl (fun (a : State) n => a.freeSection n) s

theorem freeSections_ringsStill (s : State) (l : List Nat) : s.RingsStill (s.freeSections l) := by
  refine foldl_relates (R := State.RingsStill) State.RingsStill.refl State.RingsStill.trans (fun s n => ?_) s
  rw [freeSection_sectionsOnly s n]
  exact ⟨⟨rfl, rfl, rfl, rfl, rfl⟩, rfl, fun _ _ => rfl⟩

/-! ### Slot 0 is refilled -/

/-- Fills of several extents are asked for: outer memory alone changes, and no key of it. -/
theorem startFills_eq (s : State) (l : List Nat) : ∃ om, l.foldl (fun (a : State) k => a.startFill k) s = { s with om := om } ∧
    om.keys = s.om.keys := by
  induction l generalizing s with
  | nil => exact ⟨s.om, rfl, rfl⟩
  | cons k l ih =>
    obtain ⟨om, h, hk⟩ := ih (s.startFill k)
    exact ⟨om, h, hk⟩

/-- With every generator running, a drained partition without keys has a new one in slot 0 (R280, R412). -/
theorem refill_eq {s : State} {p : Pid} (hd : (s.partition p).drained = true) (hr : s.rngOk = true) (hk : (s.keys p).slot0 = none) :
    ∃ om ps ys h, s.refill p = { s with om := om, parts := ps, yregs := ys, host := h } ∧
      om.keys.get .reset p.toNat = { KeySlots.reset with slot0 := some s.om.nextKey } ∧
      ∀ off, off ≠ yJB + 4 → ys.get (yardReset off) off = s.yreg off := by
  have hkeys : (s.createKeys p).om.keys.get .reset p.toNat = { KeySlots.reset with slot0 := some s.om.nextKey } := SMap.get_set_self _ _ _ _
  unfold State.refill
  rw [if_neg (by simp [hd, hr, hk])]
  dsimp only
  split
  · obtain ⟨ps, ys, h, heq, -, hys⟩ := setPstate_eq ((s.createKeys p).onPart p (fun x => { x with drained := false })) p
      ((s.createKeys p).restPstate p)
    refine ⟨(s.createKeys p).om, ps, ys, h, ?_, hkeys, hys⟩
    rw [heq]
    rfl
  · obtain ⟨om, h, hom⟩ := startFills_eq (s.createKeys p) ((s.createKeys p).extentsOf p)
    exact ⟨om, s.parts, s.yregs, s.host, h, by rw [hom]; exact hkeys, fun _ _ => rfl⟩

/-! ### The drain is complete -/

theorem rngOk_congr {s t : State} (hf : t.fuses = s.fuses) (ht : t.termini = s.termini) : t.rngOk = s.rngOk := by
  have hfit : t.fitted = s.fitted := by funext n; rw [State.fitted, State.fitted, hf]
  simp only [State.rngOk, State.fittedList, State.terminus, hfit, ht]

theorem releaseTdi_eq (s : State) (p : Pid) : ∃ h, s.releaseTdi p = { s with host := h } := by
  unfold State.releaseTdi
  split <;> exact ⟨_, rfl⟩

theorem mem_ringNos (r : BitVec 3) : r ∈ ringNos := by revert r; decide

/-- The state as the jobs of a reset partition have ended and its ring pairs have closed (R367). -/
def State.drainedRings (s : State) (p : Pid) (cls slots : List Nat) : State :=
  (((s.emptyClusters cls).freeSections slots).endResetJobs p).closeRings p ringNos

/-- What stands then. -/
theorem drainedRings_spec (s : State) (p : Pid) (cls slots : List Nat) (r : BitVec 3) :
    (s.drainedRings p cls slots).om.keys = s.om.keys ∧ (s.drainedRings p cls slots).om.nextKey = s.om.nextKey ∧
      (s.drainedRings p cls slots).rngOk = s.rngOk ∧ (∀ cl ∈ cls, (s.drainedRings p cls slots).scrubClear cl) ∧
      (s.drainedRings p cls slots).ringEn p r = false ∧
      (∃ g : Ring, (s.drainedRings p cls slots).ring p r = g.closed (s.ringEn p r) ∧ ∃ l, g.published ++ g.waiting = s.carried p r ++ l) := by
  unfold State.drainedRings
  obtain ⟨hempty, hclear⟩ := emptyClusters_empties s cls
  generalize s.emptyClusters cls = u at hempty hclear
  have hjobs := ((freeSections_ringsStill u slots).grows p r).trans (endResetJobs_grows (u.freeSections slots) p p r)
  generalize (u.freeSections slots).endResetJobs p = v at hjobs
  have hbooks := hjobs.toBooksKept.trans (closeRings_booksKept v p ringNos)
  obtain ⟨hen, hring⟩ := closeRings_ring v p ringNos r
  rw [if_pos (mem_ringNos r)] at hen hring
  obtain ⟨l, hl⟩ := hjobs.carried
  have henabled : u.ringEn p r = s.ringEn p r := by rw [hempty]; rfl
  rw [hjobs.enabled, henabled] at hring
  refine ⟨?_, ?_, ?_, fun cl hcl => (scrubClear_of_clusters hbooks.clusters cl).2 (hclear cl hcl), hen, _, hring, l, hl.trans ?_⟩
  · rw [hbooks.keys, hempty]
  · rw [hbooks.nextKey, hempty]
  · refine rngOk_congr ?_ ?_
    · rw [hbooks.fuses, hempty]
    · rw [hbooks.termini, hempty]
  · rw [hempty]
    rfl

/-- The steps of a drain that is complete (R280, R367). -/
theorem drainComplete_eq {s : State} {p : Pid} (hst : (s.partition p).state = 3) (hd : (s.partition p).drained = false)
    (hdr : s.draining p = false) : ∃ inj residents host slots,
    drainComplete p s = (State.onPart (State.onClustersPid
      (State.drainedRings { s.destroyKeys p with inj := inj, residents := residents, host := host } p (s.partition p).clusters slots)
      (s.partition p).clusters (fun w => setField w 31 1 false.toNat)) p (fun x => { x with drained := true, resetYc := none })).refill p := by
  obtain ⟨host, hrel⟩ := releaseTdi_eq (s.destroyKeys p) p
  unfold drainComplete
  extract_lets e cls cs eps slots src s1 resident s2 s3 s4 s5 s6
  rw [if_neg (by simp [e, hst, hd, hdr])]
  have h1 : s1 = { s.destroyKeys p with inj := s1.inj, residents := s1.residents, host := host } := by
    simp only [s1, src, hrel]
  refine ⟨s1.inj, s1.residents, host, slots ++ resident, ?_⟩
  rw [← h1]
  rfl

/-- What a complete drain leaves (R255, R280, R367). -/
theorem partitionDrainComplete_drains {s : State} {p : Pid} (r : BitVec 3) (hst : (s.partition p).state = 3)
    (hd : (s.partition p).drained = false) (hdr : s.draining p = false) (hrng : s.rngOk = true) :
    ∃ t : State, exec (.partitionDrainComplete p) s = .next t ∧ t.ringEn p r = false ∧
      (∃ g : Ring, t.ring p r = g.closed (s.ringEn p r) ∧ ∃ l, g.published ++ g.waiting = s.carried p r ++ l) ∧
      (∀ cl ∈ (s.partition p).clusters, ∀ q ∈ clusterPositions cl, (t.rtPid q).getLsbD 31 = false) ∧
      (∀ cl ∈ (s.partition p).clusters, t.scrubClear cl) ∧ t.keys p = { KeySlots.reset with slot0 := some s.om.nextKey } := by
  obtain ⟨inj, residents, host, slots, heq⟩ := drainComplete_eq hst hd hdr
  obtain ⟨hkeys, hnext, hok, hclear, hen, hring⟩ :=
    drainedRings_spec { s.destroyKeys p with inj := inj, residents := residents, host := host } p (s.partition p).clusters slots r
  generalize State.drainedRings { s.destroyKeys p with inj := inj, residents := residents, host := host } p (s.partition p).clusters slots = u at *
  have honly := onClustersPid_routersOnly u (s.partition p).clusters (fun w => setField w 31 1 false.toNat)
  have hopen {cl : Nat} {q : Nat × Nat} := onClustersPid_rtPid (P := fun w => w.getLsbD 31 = false) (setClosed_bit false)
    (s := u) (cls := (s.partition p).clusters) (cl := cl) (q := q)
  generalize u.onClustersPid (s.partition p).clusters (fun w => setField w 31 1 false.toNat) = v at *
  have hslot : ((v.onPart p (fun x => { x with drained := true, resetYc := none })).keys p).slot0 = none := by
    have hkeyV : v.om.keys = (s.destroyKeys p).om.keys := by rw [honly]; exact hkeys
    show (v.om.keys.get .reset p.toNat).slot0 = none
    rw [hkeyV]
    exact congrArg KeySlots.slot0 (SMap.get_set_self _ _ _ _)
  have hrngV : (v.onPart p (fun x => { x with drained := true, resetYc := none })).rngOk = true := by
    have : v.rngOk = u.rngOk := by rw [honly]; rfl
    exact this.trans (hok.trans hrng)
  have hdrained : ((v.onPart p (fun x => { x with drained := true, resetYc := none })).partition p).drained = true := by
    rw [partition_onPart, if_pos rfl]
  obtain ⟨om, ps, ys, h, hre, hnew, hys⟩ := refill_eq hdrained hrngV hslot
  obtain ⟨ys', hpub, hys'⟩ := published_yregs s (drainComplete p s)
  have hexec : exec (.partitionDrainComplete p) s = .next (published s (drainComplete p s)) := rfl
  rw [heq, hre] at hys'
  rw [hpub, heq, hre] at hexec
  obtain ⟨g, hg, hl⟩ := hring
  have hoff : ringOff p r ≠ yJB + 4 := by simp only [ringOff, yJB]; omega
  have henV : v.ringEn p r = false := by rw [honly]; exact hen
  refine ⟨_, hexec, ?_, ⟨g, ?_, hl⟩, fun cl hcl q hq => hopen hcl hq, fun cl hcl => ?_, hnew.trans ?_⟩
  · exact (congrArg (fun w => BitVec.getLsbD w 31) ((hys' _ hoff).trans (hys _ hoff))).trans henV
  · show v.ring p r = _
    rw [honly]
    exact hg
  · refine (scrubClear_of_clusters ?_ cl).2 (hclear cl hcl)
    show v.clusters = u.clusters
    rw [honly]
  · show { KeySlots.reset with slot0 := some v.om.nextKey } = _
    rw [honly]
    exact congrArg (fun n => { KeySlots.reset with slot0 := some n }) hnext

/-- Settles O39: each clause is one step's lemma; no record is dropped in the drain because every step of it that touches a ring
`Grows` what the ring carries. -/
theorem partitionsChange : Obligations.PartitionsChange := by
  unfold Obligations.PartitionsChange
  refine ⟨fun s p v clusters w c => ?_, fun s p r y0 => ?_⟩
  · intro e a cls
    refine ⟨fun hpf hl hst hok hrng hdbg hv _ hch => ?_, fun hpf hl hok => ?_, fun hpf hl ha => ?_, fun hpf hl hst hv hw => ?_,
      partitionAssignmentComplete_assigns c⟩
    · obtain ⟨hresp, hcfg, hpart, hpend, hres, hcores⟩ := jbPcfgWrite_assigns hl hst hok hrng hdbg hv hch
      refine ⟨_, exec_jbPcfgWrite hpf p v clusters, hresp, hcfg, by rw [hpart], by rw [hpart], by rw [hpart], fun cl hcl hne => ?_,
        fun cl hcl hne => ?_, hres, hcores⟩
      · exact hpend cl (List.mem_append_right _ (List.mem_filter.2 ⟨hcl, by simpa using hne⟩))
      · exact hpend cl (List.mem_append_left _ (List.mem_filter.2 ⟨hcl, by simpa using hne⟩))
    · exact (exec_jbPcfgWrite hpf p v clusters).trans (congrArg Host.Outcome.next (jbPcfgWrite_refused hl hok))
    · exact (exec_jbPcfgWrite hpf p v clusters).trans (congrArg Host.Outcome.next (jbPcfgWrite_unchanged hl ha))
    · exact ⟨_, jbPinWrite_held v hpf hl hst hv hw, rfl, (yreg_setYreg s _ _ v).trans (if_pos rfl), rfl⟩
  · intro e
    refine ⟨fun hpf hl hv hst => ?_, fun hpf hl _ hst => partitionReset_merges hpf hl hst, fun hst hd hdr hrng => ?_,
      fun hst hd hy hlate => partitionDrainLate_told hst hd hy hlate⟩
    · obtain ⟨t, hexec, hresp, hpart, hrest⟩ := partitionReset_starts hpf hl hv hst
      exact ⟨t, hexec, hresp, by rw [hpart], by rw [hpart], by rw [hpart], hrest⟩
    · obtain ⟨t, hexec, hen, ⟨g, hring, l, hl⟩, hopen, hclear, hkeys⟩ := partitionDrainComplete_drains r hst hd hdr hrng
      obtain ⟨hpub, hwait, hidx⟩ := closed_records g (s.ringEn p r)
      refine ⟨t, hexec, hen, by rw [hring, hidx], fun h => ?_, ⟨l, by rw [hring, hpub, hwait]; exact hl⟩, hopen, hclear, ?_⟩
      · rw [hring, h]
        exact ⟨rfl, rfl, rfl, rfl⟩
      · rw [hkeys]
        exact ⟨rfl, rfl, rfl⟩

end Sys2Proof.Machine
end

section
/-! SUPPORT. Branches, jumps and fences of the sequencer: where a jump inside the instruction store goes on, and when a fence retires. -/

namespace Sys2Proof.Machine

/-! ### Instructions that write no register -/

/-- An instruction that retires and changes nothing else goes on at its index: it writes nothing, as a write to s0 does (R41). -/
theorem computes_of_retires {s : State} {c : CoreId} {i : Instr} {pc : Nat} {body : Nat → Word → K → K} (he : exec i s = issue c i s body)
    (hb : ∀ w, body (s.core c).pc w (kOf s c) = (kOf s c).retire pc) : s.computes c i 0 0 pc :=
  computes_of_body he hb

/-- A jump inside the instruction store retires at its target (R43). -/
theorem jump_inside (k : K) (pc : Nat) {target : Int} (f : K → K) (h0 : 0 ≤ target) (h1 : target ≤ 16383) :
    k.jump pc target f = (f k).retire target.toNat := if_pos ⟨h0, h1⟩

/-- A conditional branch whose target lies inside the instruction store (R43, R44). -/
theorem branch_computes {s : State} {c : CoreId} {i : Instr} {a b : SReg} {off : BitVec 16} {taken : DWord → DWord → Bool} {p : Prop}
    [Decidable p] (he : exec i s = issue c i s (branch a b off taken)) (hf : s.free c [a, b])
    (hp : taken ((s.core c).sreg a) ((s.core c).sreg b) = true ↔ p) (h0 : 0 ≤ relTarget (s.core c).pc off)
    (h1 : relTarget (s.core c).pc off ≤ 16383) :
    s.computes c i 0 0 (if p then (relTarget (s.core c).pc off).toNat else (s.core c).pc + 1) := by
  refine computes_of_retires he fun w => ?_
  rw [branch, whenReady_of_free hf (fun _ h => h), kOf_core]
  by_cases h : p
  · rw [if_pos h, if_pos (hp.mpr h), jump_inside _ _ _ h0 h1]
  · rw [if_neg h, if_neg (mt hp.mp h)]
    rfl

/-! ### Fences -/

/-- A fence that acquires retires with the remote-line buffer empty (R131, R133). -/
theorem acquire_retires {s : State} {c : CoreId} {i : Instr} {body : Nat → Word → K → K} (he : exec i s = issue c i s body)
    (hb : ∀ w, body (s.core c).pc w (kOf s c) = K.advance { kOf s c with core := (s.core c).rlbClear }) (hi : s.issues c i) :
    ∃ t : State, exec i s = .next t ∧ s.onlyCore t c ∧ (s.core c).retired (t.core c) ((s.core c).pc + 1) [rSP_RLBINV, rSP_RLBINV + 4] ∧
      (t.core c).rlb = [] ∧ (s.core c).sregsKept (t.core c) ∧ (t.core c).mem = (s.core c).mem := by
  obtain ⟨t, ht, honly, hcore⟩ := next_of_retires he hi hb (Core.rlbClear_df _)
  refine ⟨t, ht, honly, ?_, ?_, ?_, ?_⟩ <;> rw [hcore]
  · refine Core.retired_retireAt (by decide) fun off hoff => ?_
    simp only [List.mem_cons, List.not_mem_nil, or_false, not_or] at hoff
    rw [Core.rlbClear_regs, get_bump_other _ _ _ _ _ hoff.1 hoff.2]
  · rfl
  · exact fun _ => rfl
  · rfl

/-- A fence that may not retire yet holds the sequencer (R131 to R133). -/
theorem fence_stalls {s : State} {c : CoreId} {i : Instr} {body : Nat → Word → K → K} (he : exec i s = issue c i s body)
    (hb : ∀ w, body (s.core c).pc w (kOf s c) = (kOf s c).stall) (hi : s.issues c i) : ∃ t : State, exec i s = .next t ∧ s.held t c [] :=
  ⟨_, (he.trans (issue_of_issues hi)).trans (by rw [hb, K.stall]), kPut_hold s c []⟩

/-! ### The obligation -/

/-- Settles O6. -/
theorem branchesAndFences : Obligations.BranchesAndFences := by
  unfold Obligations.BranchesAndFences
  refine ⟨fun s c a b off far => ?_, fun s c => ?_⟩
  · intro k x y n near jump goes hf
    have hab : s.free c [a, b] := fun r hr => hf r (by simp only [List.mem_cons] at hr ⊢; tauto)
    refine ⟨fun h0 h1 => ⟨?_, ?_, ?_, ?_⟩, fun h0 h1 => ⟨?_, ?_⟩, fun hx => ?_, ?_⟩
    · exact branch_computes (i := .beq c a b off) rfl hab beq_iff_eq h0 h1
    · exact branch_computes (i := .bne c a b off) rfl hab bne_iff_ne h0 h1
    · exact branch_computes (i := .blt c a b off) rfl hab decide_eq_true_iff h0 h1
    · exact branch_computes (i := .bge c a b off) rfl hab (by simp [takenBge, sltFlag, x, y, k]) h0 h1
    · exact computes_of_retires (i := .j c far) rfl fun w => jump_inside _ _ _ h0 h1
    · refine computes_of_body (i := .jal c far) rfl fun w => ?_
      rw [whenReady_of_free hf (by simp)]
      exact jump_inside _ _ _ h0 h1
    · refine computes_of_retires (i := .jr c a) rfl fun w => ?_
      rw [whenReady_of_free hf (by simp)]
      exact jump_inside _ _ _ (Int.natCast_nonneg _) (by exact_mod_cast hx)
    · exact computes_of_retires (i := .nop c) rfl fun w => rfl
  · intro k n acquires stalls
    refine ⟨fun hl => ?_, fun hl => ?_, fun hr => ?_, fun hr => ?_, fun hr hl => ?_, fun h => ?_⟩
    · exact acquire_retires (i := .fenceAcq c) rfl fun w => if_neg (by simpa using hl)
    · exact fence_stalls (i := .fenceAcq c) rfl fun w => if_pos hl
    · exact computes_of_retires (i := .fenceRel c) rfl fun w => if_pos hr
    · exact fence_stalls (i := .fenceRel c) rfl fun w => if_neg (by simpa using hr)
    · exact acquire_retires (i := .fence c) rfl fun w => if_pos (by simpa [k] using ⟨hr, hl⟩)
    · exact fence_stalls (i := .fence c) rfl fun w => if_neg (by simpa [k, ← Bool.not_eq_false, or_iff_not_imp_left] using h)

end Sys2Proof.Machine
end

section
/-! SUPPORT. An atomic on a counter at its home, with a read of the same counter waiting behind it. -/

namespace Sys2Proof.Machine

/-! ### A register access that an atomic holds back -/

/-- The position the two packets come from. -/
def farSource : Endpoint := { ext := false, py := 1, px := 1 }

/-- A packet of 8 bytes to counter 0 of a core's sync unit. -/
def toCounter (op aux : Nat) : Packet :=
  { op := BitVec.ofNat 4 op, aux := BitVec.ofNat 8 aux, off := 0x4040, space := 1, src := farSource, dst := farSource, sz := 3, len := 0,
    txid := 0, rclass := 0, wpy := 0, sys := false, pid := 0, head := 0, lines := [], killed := false }

/-- The reset state with power; at one core an atomic addition to a counter has arrived, and behind it a read of the counter by the same
source, which waits for it (R135). -/
def atomState : State :=
  { State.reset with
    bu := { BringUp.reset with power := true }
    inbox := [(farCore, toCounter 2 1), (farCore, toCounter 0 0)] }

/-- The number of packets that an outcome leaves in the inbox. -/
def inboxLeft (o : Host.Outcome State Fault Refusal) : Option Nat :=
  match o with
  | .next t => some t.inbox.length
  | _ => none

/-- The read is served with the atomic: nothing waits any longer. -/
theorem atomState_inboxLeft : inboxLeft (exec (.atomAtHome farCore) atomState) = some 0 := by decide +kernel

/-- Refutes O19: the clauses on arrivals do not ask that no register access waits behind the atomic. The read that the atomic has held back is
served in the same step (R135), so the inbox loses both packets, where the statement has it lose the atomic alone. -/
theorem not_atomics : ¬ Obligations.Atomics := by
  unfold Obligations.Atomics
  rintro ⟨-, h⟩
  obtain ⟨-, hcounter⟩ := h atomState farCore (toCounter 2 1) (by decide +kernel) rfl (by decide) (by decide) (by decide)
  obtain ⟨t, ht, ⟨hinbox, -⟩, -⟩ := hcounter 0 (by decide) rfl rfl
  have hleft := atomState_inboxLeft
  rw [ht] at hleft
  simp only [inboxLeft, hinbox] at hleft
  exact absurd hleft (by decide)

end Sys2Proof.Machine
end

section
/-! SUPPORT. The life of a section on one core: what ARM, START, ABORT and CLEAR leave of the core. -/

namespace Sys2Proof.Machine

/-! ### Fields of a register -/

/-- A field beside one that has been replaced. -/
theorem field_setField_other {w : Nat} (v : BitVec w) {lo n a b : Nat} (x : Nat) (hw : a + b ≤ w) (h : a + b ≤ lo ∨ lo + n ≤ a) :
    field (setField v lo n x) a b = field v a b := by
  have hbits : (setField v lo n x).extractLsb' a b = v.extractLsb' a b := by
    refine BitVec.eq_of_getLsbD_eq fun i hi => ?_
    rw [BitVec.getLsbD_extractLsb', BitVec.getLsbD_extractLsb', getLsbD_setField _ _ _ _ (by omega), if_neg (by omega)]
  rw [field, hbits, field]

/-- A number placed above one that lies below its field. -/
theorem place_or_ofNat {lo n x y : Nat} (hx : x < 2 ^ n) (hy : y < 2 ^ lo) :
    (place 32 lo n x : Word) ||| BitVec.ofNat 32 y = BitVec.ofNat 32 (2 ^ lo * x + y) := by
  have hshift : (place 32 lo n x : Word) = BitVec.ofNat 32 (2 ^ lo * x) := by
    apply BitVec.eq_of_toNat_eq
    rw [place, Nat.mod_eq_of_lt hx, BitVec.toNat_shiftLeft, BitVec.toNat_ofNat, BitVec.toNat_ofNat, Nat.shiftLeft_eq, Nat.mod_mul_mod,
      Nat.mul_comm]
  rw [hshift, ← BitVec.ofNat_or, ← Nat.two_pow_add_eq_or_of_lt hy]

/-! ### Registers deleted or masked one after the other -/

/-- A key among those taken out of a table reads as the default, every other as before. -/
theorem get_foldl_del {α : Type} (d : α) (l : List Nat) (m : SMap α) (p : Nat) :
    SMap.get d (l.foldl SMap.del m) p = if p ∈ l then d else SMap.get d m p := by
  induction l generalizing m with
  | nil => simp
  | cons a t ih =>
    rw [List.foldl_cons, ih, SMap.get_del]
    by_cases ht : p ∈ t <;> by_cases ha : p = a <;> simp [ht, ha]

/-- Registers of a list, each with the bits outside a mask cleared. -/
def Core.maskRegs (k : Core) (m : Word) (l : List Nat) : Core := l.foldl (fun a o => a.setReg o (a.reg o &&& m)) k

theorem maskRegs_eq (k : Core) (m : Word) (l : List Nat) : k.maskRegs m l = { k with regs := (k.maskRegs m l).regs } := by
  induction l generalizing k with
  | nil => rfl
  | cons a t ih => exact ih (k.setReg a (k.reg a &&& m))

theorem maskRegs_reg (k : Core) (m : Word) (l : List Nat) (p : Nat) :
    (k.maskRegs m l).reg p = if p ∈ l then k.reg p &&& m else k.reg p := by
  induction l generalizing k with
  | nil => rfl
  | cons a t ih =>
    rw [show k.maskRegs m (a :: t) = (k.setReg a (k.reg a &&& m)).maskRegs m t from rfl, ih]
    by_cases ha : p = a
    · subst ha
      rw [Core.setReg_reg_self, BitVec.and_assoc, BitVec.and_self, ite_self, if_pos List.mem_cons_self]
    · rw [Core.setReg_reg_other _ _ ha]
      simp only [List.mem_cons, ha, false_or]

/-! ### END and CLEAR -/

/-- The registers whose bit 31 the end of a section clears: those of the channels and of the units (R217). -/
def sectionRegs : List Nat :=
  (List.range 16).map (fun n => rCH_ICFG + 0x40 * n) ++ (List.range 16).map (fun n => rCH_OCFG + 0x40 * n) ++
    units.map (fun u => rDF_UCFG + 0x40 * u)

/-- The registers as the end of a section leaves them (R217). -/
def Core.sectionCleared (k : Core) : Core := k.maskRegs 0x7FFFFFFF#32 sectionRegs

theorem clearSection_masked (k : Core) : k.clearSection =
    { k.sectionCleared with
      df := .idle, seq := .idle, inq := [], store := [], readyQ := [], running := none, held := [], spill := [], freed := [], fwd := 0,
      spilling := false, waiting := none, lent := false, idleCc := 0, regs := k.sectionCleared.regs.set rDF_NOPROG 0 } := rfl

theorem clearSection_eq (k : Core) : k.clearSection =
    { k with df := .idle, seq := .idle, inq := [], store := [], readyQ := [], running := none, held := [], spill := [], freed := [], fwd := 0,
             spilling := false, waiting := none, lent := false, idleCc := 0, regs := k.sectionCleared.regs.set rDF_NOPROG 0 } := by
  have h : k.sectionCleared = { k with regs := k.sectionCleared.regs } := maskRegs_eq k _ _
  rw [clearSection_masked]
  generalize k.sectionCleared = k1 at h ⊢
  rw [h]

/-- The ACTIVE and VALID bits are clear once the section has ended (R217). -/
theorem clearSection_inactive (k : Core) {off : Nat} (h : off ∈ sectionRegs) : (k.clearSection.reg off).getLsbD 31 = false := by
  have hne : off ≠ rDF_NOPROG := by
    rintro rfl
    exact absurd h (by decide)
  have hreg : k.clearSection.reg off = k.sectionCleared.reg off := by
    rw [clearSection_masked, Core.reg, SMap.get_set_other _ _ _ _ _ hne, Core.reg]
  rw [hreg, Core.sectionCleared, maskRegs_reg, if_pos h, BitVec.getLsbD_and, show (0x7FFFFFFF#32).getLsbD 31 = false by decide, Bool.and_false]

/-! ### ABORT -/

/-- The abort record and what the core holds once its section aborts (R218, R219), whatever settings it has taken since. -/
theorem enterAbort_discards {k k' : Core} {cause kind : Byte} {src : CoreId} (hc : cause.toNat < 8)
    (h : (k.enterAbort cause kind src).RegsOnly k' [rDF_WINDOW, rDF_STALL]) :
    k'.df = .aborting ∧ k'.seq = .idle ∧ k'.running = none ∧ k'.inq = [] ∧ k'.store = [] ∧ k'.spill = [] ∧ k'.matQ = [] ∧ k'.mvQ = [] ∧
      k'.reg rDF_ABREC = BitVec.ofNat 32 (2 ^ 31 + cause.toNat * 2 ^ 16 + kind.toNat * 2 ^ 8) ∧ k'.mem = k.mem ∧ k'.s = k.s := by
  obtain ⟨heq, hregs⟩ := h
  refine ⟨?_, ?_, ?_, ?_, ?_, ?_, ?_, ?_, ?_, ?_, ?_⟩
  case refine_9 =>
    have hkind := kind.isLt
    have hlow : (place 32 8 8 kind.toNat : Word) = BitVec.ofNat 32 (2 ^ 8 * kind.toNat) := by
      have h0 := place_or_ofNat (lo := 8) (n := 8) (y := 0) hkind (by decide)
      simpa using h0
    rw [hregs _ (by decide)]
    show SMap.get _ (SMap.set (SMap.set (SMap.set _ _ _) _ _) _ _) rDF_ABREC = _
    rw [SMap.get_set_other _ _ _ _ _ (by decide), SMap.get_set_other _ _ _ _ _ (by decide), SMap.get_set_self, hlow, BitVec.or_assoc,
      place_or_ofNat (n := 3) hc (by omega), place_or_ofNat (by decide) (by omega)]
    congr 1
    omega
  all_goals rw [heq]; rfl

/-- The record of the core whose abort reached the slot's line (R219). -/
theorem enterAbort_absrc (k : Core) (cause kind : Byte) (src : CoreId) :
    (k.enterAbort cause kind src).reg rDF_ABSRC = BitVec.ofNat 32 (src.y.toNat * 1024 + src.x.toNat) := by
  have hx := src.x.isLt
  have hlow : (place 32 0 10 src.x.toNat : Word) = BitVec.ofNat 32 src.x.toNat := by
    have h0 := place_or_ofNat (lo := 0) (n := 10) (y := 0) hx (by decide)
    simpa using h0
  show SMap.get _ (SMap.set (SMap.set _ _ _) _ _) rDF_ABSRC = _
  rw [SMap.get_set_other _ _ _ _ _ (by decide), SMap.get_set_self, hlow, place_or_ofNat src.y.isLt hx, Nat.mul_comm (2 ^ 10),
    show (2 : Nat) ^ 10 = 1024 by decide]

/-! ### Re-encoding -/

/-- What re-encoding changes of a working context: registers that record errors, the stored bytes with their codes, and messages (R117). -/
def K.Recoded (k k' : K) : Prop :=
  k' = { k with msgs := k'.msgs,
                core := { k.core with regs := k'.core.regs, mem := k'.core.mem, flips := k'.core.flips, crcErr := k'.core.crcErr } }

theorem K.Recoded.refl (k : K) : k.Recoded k := rfl

theorem K.Recoded.trans {a b c : K} (h1 : a.Recoded b) (h2 : b.Recoded c) : a.Recoded c := by
  unfold K.Recoded at h1 h2 ⊢
  rw [h1] at h2
  exact h2

theorem recoded_foldl {α : Type} {f : K → α → K} (h : ∀ (k : K) (x : α), k.Recoded (f k x)) (l : List α) (k : K) : k.Recoded (l.foldl f k) := by
  induction l generalizing k with
  | nil => exact .refl k
  | cons x t ih => exact (h k x).trans (ih _)

theorem spErr_recoded (k : K) (agent kind off bit : Nat) (req : Option CoreId) : k.Recoded (k.spErr agent kind off bit req) := by
  obtain ⟨rs, hrs⟩ := spErr_regsOnly k agent kind off bit req
  obtain ⟨m, -, -, h⟩ := spErr_eq k agent kind off bit req
  unfold K.Recoded
  rw [hrs, h]
  rw [h] at hrs
  exact congrArg (fun x => ({ k with core := x, msgs := k.msgs ++ [m] } : K)) hrs

theorem spFound_recoded (k : K) (agent off : Nat) (l : LineScan) (req : Option CoreId) : k.Recoded (k.spFound agent off l req) := by
  have hfold : ∀ (kind : Nat) (ws : List Nat) (a : K), a.Recoded (ws.foldl (fun a w => a.spErr agent kind w 0 req) a) := fun kind ws =>
    recoded_foldl (fun a w => spErr_recoded a agent kind w 0 req) ws
  unfold K.spFound
  extract_lets k1 k2 k3
  have h1 : k.Recoded k1 := recoded_foldl (fun a (w : Nat × Nat) => spErr_recoded a agent 0x01 w.1 w.2 req) l.ce k
  have h3 : k2.Recoded k3 := by
    dsimp only [k3]
    split
    · exact spErr_recoded k2 agent 0x03 off 0 req
    · exact .refl _
  exact ((h1.trans (hfold 0x02 l.ue k1)).trans h3).trans (hfold 0x04 l.par k3)

/-- A line written under its code. -/
theorem line_recoded (a : K) (off : Nat) (m : Mem) : a.Recoded { a with core := { a.core.freshLine off with mem := m } } := rfl

theorem recodeLines_recoded (k : K) (lines : List Nat) : k.Recoded (k.recodeLines lines) := by
  unfold K.recodeLines
  generalize hf : (fun (a : K) (off : Nat) => _ : K → Nat → K) = f
  refine recoded_foldl (fun a off => ?_) lines k
  rw [← hf]
  exact (spFound_recoded a agRECODE off (a.core.scanLine off) none).trans (line_recoded _ off _)

end Sys2Proof.Machine
end

section
/-! SUPPORT. START: the staged registers taken, the weights region checked against the reserved areas, and the clears (R111, R216). -/

namespace Sys2Proof.Machine

/-! ### The staged registers -/

/-- A register that takes a value where one is staged. -/
def Core.stage (k : Core) (off : Nat) (v : Option Word) : Core :=
  match v with
  | some v => k.setReg off v
  | none => k

theorem stage_reg_some (k : Core) (off : Nat) (v : Word) : (k.stage off (some v)).reg off = v := Core.setReg_reg_self _ _ _

theorem stage_reg_other (k : Core) {off p : Nat} (v : Option Word) (h : p ≠ off) : (k.stage off v).reg p = k.reg p := by
  cases v
  · rfl
  · exact Core.setReg_reg_other _ _ h

theorem stage_eq (k : Core) (off : Nat) (v : Option Word) : k.stage off v = { k with regs := (k.stage off v).regs } := by
  cases v <;> rfl

/-- CORE_NUMCTL as START sets it, if it does (R98, R216, R239). -/
def Core.numctlNext (k : Core) (guarded : Bool) : Option Word :=
  match k.shNumctl with
  | some v => some (Machine.forceNan guarded v)
  | none => if guarded then some (Machine.forceNan guarded (k.reg rCORE_NUMCTL)) else none

/-- The core with the staged numerics, MX_CTRL and MX_CKCFG taken (R216, R360). -/
def Core.stagedEngines (k : Core) (guarded : Bool) : Core :=
  ((k.stage rCORE_NUMCTL (k.numctlNext guarded)).stage rMX_CTRL k.shMxctrl).stage rMX_CKCFG k.shCkcfg

/-- SP_REGION with the staged WTOP, where there is one (R216). -/
def Core.regionNext (k : Core) (guarded : Bool) : Option Word :=
  k.shWtop.map (fun v => setField ((k.stagedEngines guarded).reg rSP_REGION) 0 5 v.toNat)

theorem applyStaged_eq (k : Core) (guarded : Bool) : k.applyStaged guarded =
    { (k.stagedEngines guarded).stage rSP_REGION (k.regionNext guarded) with
      shNumctl := none, shMxctrl := none, shCkcfg := none, shWtop := none } := by
  have hnum : (match k.shNumctl with
      | some v => k.setReg rCORE_NUMCTL (forceNan guarded v)
      | none => if guarded then k.setReg rCORE_NUMCTL (forceNan guarded (k.reg rCORE_NUMCTL)) else k) =
      k.stage rCORE_NUMCTL (k.numctlNext guarded) := by
    unfold Core.numctlNext
    cases k.shNumctl with
    | some v => rfl
    | none => cases guarded <;> rfl
  unfold Core.applyStaged Core.regionNext Core.stagedEngines
  rw [← hnum]
  cases k.shWtop <;> rfl

theorem stagedEngines_eq (k : Core) (guarded : Bool) : k.stagedEngines guarded = { k with regs := (k.stagedEngines guarded).regs } := by
  unfold Core.stagedEngines
  generalize k.numctlNext guarded = v
  have h1 := stage_eq k rCORE_NUMCTL v
  generalize k.stage rCORE_NUMCTL v = k1 at h1 ⊢
  have h2 := stage_eq k1 rMX_CTRL k.shMxctrl
  generalize k1.stage rMX_CTRL k.shMxctrl = k2 at h2 ⊢
  rw [stage_eq, h2, h1]

/-- What taking the staged registers changes of a core. -/
theorem applyStaged_frame (k : Core) (guarded : Bool) : k.applyStaged guarded =
    { k with regs := (k.applyStaged guarded).regs, shNumctl := none, shMxctrl := none, shCkcfg := none, shWtop := none } := by
  rw [applyStaged_eq]
  have h1 := stagedEngines_eq k guarded
  generalize k.stagedEngines guarded = k1 at h1 ⊢
  rw [stage_eq, h1]

section
variable {k : Core} {guarded : Bool}

theorem applyStaged_numctl {v : Word} (h : k.shNumctl = some v) : (k.applyStaged guarded).reg rCORE_NUMCTL = forceNan guarded v := by
  rw [applyStaged_eq]
  show ((k.stagedEngines guarded).stage rSP_REGION _).reg rCORE_NUMCTL = _
  rw [stage_reg_other _ _ (by decide), Core.stagedEngines, stage_reg_other _ _ (by decide), stage_reg_other _ _ (by decide), Core.numctlNext, h,
    stage_reg_some]

theorem applyStaged_mxctrl {v : Word} (h : k.shMxctrl = some v) : (k.applyStaged guarded).reg rMX_CTRL = v := by
  rw [applyStaged_eq]
  show ((k.stagedEngines guarded).stage rSP_REGION _).reg rMX_CTRL = _
  rw [stage_reg_other _ _ (by decide), Core.stagedEngines, stage_reg_other _ _ (by decide), h, stage_reg_some]

theorem applyStaged_ckcfg {v : Word} (h : k.shCkcfg = some v) : (k.applyStaged guarded).reg rMX_CKCFG = v := by
  rw [applyStaged_eq]
  show ((k.stagedEngines guarded).stage rSP_REGION _).reg rMX_CKCFG = _
  rw [stage_reg_other _ _ (by decide), Core.stagedEngines, h, stage_reg_some]

/-- WTOP is the staged value, or stays (R216, R360). -/
theorem applyStaged_wtop : (k.applyStaged guarded).wtop = k.topNext := by
  rw [applyStaged_eq, Core.topNext, Core.regionNext]
  show field (((k.stagedEngines guarded).stage rSP_REGION _).reg rSP_REGION) 0 5 = _
  cases k.shWtop with
  | some v => exact (congrArg (field · 0 5) (stage_reg_some _ _ _)).trans ((field_setField _ _ (by decide)).trans (Nat.mod_eq_of_lt v.isLt))
  | none =>
    show field ((k.stagedEngines guarded).reg rSP_REGION) 0 5 = k.wtop
    rw [Core.stagedEngines, stage_reg_other _ _ (by decide), stage_reg_other _ _ (by decide), stage_reg_other _ _ (by decide)]
    rfl

end

/-! ### The boundary of a section -/

/-- The working context once the lines whose class a new WTOP changes are re-encoded (R117). -/
def K.recodedTo (k : K) (new : Nat) : K :=
  if new = k.core.wtop then k
  else k.recodeLines (k.core.dirtyLines (min k.core.wtop new * 0x4000) (max k.core.wtop new * 0x4000))

/-- The core with its staged registers taken; where WTOP changes, scans are off and the re-encoding holds its banks (R117, R216, R379). -/
def K.boundedTo (k : K) (new : Nat) : Core :=
  let c1 := (k.recodedTo new).core.applyStaged k.guarded
  if new = k.core.wtop then c1
  else { c1.setReg rFLT_WCTL 0 with
    scan := none, recode := banksBetween (min k.core.wtop new * 0x4000) (max k.core.wtop new * 0x4000) }

/-- The core with the records and stall counters cleared that START clears (R216). -/
def Core.countsCleared (k : Core) : Core := { k with regs := clearedByStart.foldl SMap.del k.regs }

/-- DF_FIN.COUNT and DF_SPILL.PEAK are cleared too (R216). -/
def Core.startCleared (k : Core) : Core :=
  (k.countsCleared.setReg rDF_FIN (setField (k.countsCleared.reg rDF_FIN) 16 16 0)).setReg rDF_SPILL 0

/-- The core in STARTING (R214, R216). -/
def Core.started (k : Core) : Core := { k.startCleared.rlbClear with df := .starting, delivered := [], satNow := 0 }

/-- A working context whose START the check of R111 refuses. -/
def K.startAborted (k : K) : K :=
  let k3 := (k.startRefused k.core.weightsLimit).abortNow 5 0x08
  K.leadReports { k3 with core := { k3.core with df := .aborted, recode := 0 } }

/-- The working context as the check of R111 finds it. -/
def K.atBoundary (k : K) (new : Nat) : K := { k.recodedTo new with core := k.boundedTo new }

/-- The working context in STARTING. -/
def K.starting (k : K) (new : Nat) : K := { k.recodedTo new with core := (k.boundedTo new).started }

/-- What START does of a LOADED core, by the WTOP of the section that begins (R216). -/
def K.startTo (k : K) (new : Nat) : K × Option Nat :=
  if (k.boundedTo new).weightsLimit < new * 0x4000 then ((k.atBoundary new).startAborted, none) else (k.starting new, none)

theorem start_eq {k : K} (hd : k.core.df = .loaded) : k.start = k.startTo k.core.topNext := by
  have hnew : k.core.topNext = (match k.core.shWtop with
      | some v => v.toNat
      | none => k.core.wtop) := by
    rw [Core.topNext]
    cases k.core.shWtop <;> rfl
  rw [K.start, if_neg (by rw [hd]; decide), hnew]
  rfl

theorem recodedTo_recoded (k : K) (new : Nat) : k.Recoded (k.recodedTo new) := by
  unfold K.recodedTo
  split
  · exact .refl k
  · exact recodeLines_recoded k _

theorem recodedTo_errOnly (k : K) (new : Nat) : k.ErrOnly (k.recodedTo new) := by
  unfold K.recodedTo
  split
  · exact .refl k
  · exact recodeLines_errOnly k _

/-- What a section boundary changes of a core before START clears its registers (R216). -/
theorem boundedTo_frame (k : K) (new : Nat) : k.boundedTo new =
    { k.core with
      regs := (k.boundedTo new).regs, mem := (k.boundedTo new).mem, flips := (k.boundedTo new).flips, crcErr := (k.boundedTo new).crcErr,
      scan := (k.boundedTo new).scan, recode := (k.boundedTo new).recode, shNumctl := none, shMxctrl := none, shCkcfg := none, shWtop := none } := by
  have h1 := congrArg K.core (recodedTo_recoded k new)
  unfold K.boundedTo
  generalize (k.recodedTo new).core = k1 at h1 ⊢
  have h2 := applyStaged_frame k1 k.guarded
  generalize k1.applyStaged k.guarded = k2 at h2 ⊢
  dsimp only at h1 ⊢
  split
  · rw [h2, h1]
  · rw [h2, h1]
    rfl

/-- The registers of the engines are those that taking the staged values leaves. -/
theorem boundedTo_reg_staged (k : K) (new : Nat) {off : Nat} (h : off ≠ rFLT_WCTL) :
    (k.boundedTo new).reg off = ((k.recodedTo new).core.applyStaged k.guarded).reg off := by
  unfold K.boundedTo
  dsimp only
  split
  · rfl
  · exact Core.setReg_reg_other _ _ h

theorem boundedTo_reg (k : K) (new : Nat) {off : Nat} (h1 : 0x3000 ≤ off) (h2 : off < 0xC000) : (k.boundedTo new).reg off = k.core.reg off := by
  rw [boundedTo_reg_staged k new (by simp only [rFLT_WCTL]; omega), applyStaged_reg _ _ h1]
  exact (recodedTo_errOnly k new).2 off h1 h2

theorem boundedTo_weightsLimit (k : K) (new : Nat) : (k.boundedTo new).weightsLimit = k.core.weightsLimit :=
  weightsLimit_congr (fun n hn => boundedTo_reg k new (by simp only [rCH_ICFG]; omega) (by simp only [rCH_ICFG]; omega))

theorem startTo_fits {k : K} {new : Nat} (h : new * 0x4000 ≤ k.core.weightsLimit) : k.startTo new = (k.starting new, none) := by
  rw [K.startTo, if_neg (by rw [boundedTo_weightsLimit]; omega)]

theorem startTo_reaches {k : K} {new : Nat} (h : k.core.weightsLimit < new * 0x4000) : k.startTo new = ((k.atBoundary new).startAborted, none) := by
  rw [K.startTo, if_pos (by rw [boundedTo_weightsLimit]; omega)]

/-- A section boundary works on the core it began with, of the same slot. -/
theorem atBoundary_keeps (k : K) (new : Nat) : (k.atBoundary new).c = k.c ∧ (k.atBoundary new).slot = k.slot := by
  have h : k.Recoded (k.recodedTo new) := recodedTo_recoded k new
  unfold K.Recoded at h
  have hc := congrArg K.c h
  have hs := congrArg K.slot h
  dsimp only [K.atBoundary] at hc hs ⊢
  exact ⟨hc, hs⟩

theorem starting_c (k : K) (new : Nat) : (k.starting new).c = k.c := by
  dsimp only [K.starting]
  exact (recodedTo_errOnly k new).1

section
variable {k : K} {new : Nat} {v : Word}

theorem boundedTo_numctl (h : k.core.shNumctl = some v) : (k.boundedTo new).reg rCORE_NUMCTL = forceNan k.guarded v := by
  rw [boundedTo_reg_staged k new (by decide)]
  exact applyStaged_numctl (by rw [recodedTo_recoded k new]; exact h)

theorem boundedTo_mxctrl (h : k.core.shMxctrl = some v) : (k.boundedTo new).reg rMX_CTRL = v := by
  rw [boundedTo_reg_staged k new (by decide)]
  exact applyStaged_mxctrl (by rw [recodedTo_recoded k new]; exact h)

theorem boundedTo_ckcfg (h : k.core.shCkcfg = some v) : (k.boundedTo new).reg rMX_CKCFG = v := by
  rw [boundedTo_reg_staged k new (by decide)]
  exact applyStaged_ckcfg (by rw [recodedTo_recoded k new]; exact h)

end

/-- The WTOP that a section boundary leaves (R216, R360). -/
theorem boundedTo_wtop (k : K) : (k.boundedTo k.core.topNext).wtop = k.core.topNext := by
  rw [Core.wtop, boundedTo_reg_staged k _ (by decide)]
  refine applyStaged_wtop.trans ?_
  have hsh : (k.recodedTo k.core.topNext).core.shWtop = k.core.shWtop := by rw [recodedTo_recoded k _]
  rw [Core.topNext, hsh]
  cases hw : k.core.shWtop with
  | some v =>
    rw [Core.topNext, hw]
    rfl
  | none =>
    have hsame : k.core.topNext = k.core.wtop := by rw [Core.topNext, hw]; rfl
    rw [K.recodedTo, if_pos hsame, hsame]
    rfl

/-- With WTOP as it was nothing is re-encoded (R117). -/
theorem boundedTo_mem_same {k : K} {new : Nat} (h : new = k.core.wtop) : (k.boundedTo new).mem = k.core.mem := by
  rw [K.boundedTo, K.recodedTo, if_pos h, if_pos h, applyStaged_frame]

/-! ### The clears of START -/

theorem countsCleared_reg (k : Core) (off : Nat) : k.countsCleared.reg off = if off ∈ clearedByStart then coreReset off else k.reg off := by
  rw [Core.reg, Core.countsCleared, get_foldl_del, Core.reg]

/-- A register of the core that START has cleared and whose buffer it has emptied, but for those it sets or counts in (R216). -/
theorem started_reg (k : Core) {off : Nat} (h : off ∉ [rDF_FIN, rDF_SPILL, rSP_RLBINV, rSP_RLBINV + 4]) :
    k.started.reg off = if off ∈ clearedByStart then coreReset off else k.reg off := by
  simp only [List.mem_cons, List.not_mem_nil, or_false, not_or] at h
  obtain ⟨hfin, hspill, hinv, hinv4⟩ := h
  rw [Core.reg, Core.started, Core.rlbClear_regs, get_bump_other _ _ _ _ _ hinv hinv4, ← Core.reg, Core.startCleared,
    Core.setReg_reg_other _ _ hspill, Core.setReg_reg_other _ _ hfin, countsCleared_reg]

/-- What START changes of a core besides its registers (R216). -/
theorem started_frame (k : Core) : k.started =
    { k with regs := k.started.regs, rlb := [], slots := k.started.slots, df := .starting, delivered := [], satNow := 0 } := by
  have h : k.countsCleared = { k with regs := k.countsCleared.regs } := by
    unfold Core.countsCleared
    generalize clearedByStart.foldl SMap.del k.regs = rs
    rfl
  unfold Core.started Core.startCleared
  generalize k.countsCleared = k1 at h ⊢
  rw [h]
  rfl

/-- DF_FIN.COUNT is 0 after START (R216). -/
theorem started_fin (k : Core) : field (k.started.reg rDF_FIN) 16 16 = 0 := by
  rw [Core.reg, Core.started, Core.rlbClear_regs, get_bump_other _ _ _ _ _ (by decide) (by decide), ← Core.reg, Core.startCleared,
    Core.setReg_reg_other _ _ (by decide), Core.setReg_reg_self, field_setField _ _ (by decide), Nat.zero_mod]

/-! ### A START that is refused -/

theorem report_core (k : K) (block kind detail addr : Nat) :
    (k.report block kind detail addr).core = k.core.noteMsg (k.msgOf block kind detail addr) := rfl

theorem leadReports_cases (k : K) : k.leadReports = k ∨
    k.leadReports = k.report 7 0x68 (field (k.core.reg rDF_ABREC) 16 3 + 256 * field (k.core.reg rDF_ABREC) 8 8)
      (k.core.secid * 2 ^ 32 + field (k.core.reg rDF_ABSRC) 0 20) := by
  unfold K.leadReports
  split
  · exact .inr rfl
  · exact .inl rfl

/-- What a report of the lead core leaves of a working context (R219, R400). -/
theorem leadReports_keeps (k : K) : k.leadReports.c = k.c ∧ k.leadReports.slot = k.slot ∧ k.leadReports.abort = k.abort ∧
    k.leadReports.core = { k.core with regs := k.leadReports.core.regs } ∧ ∀ off, off < 0xC000 → k.leadReports.core.reg off = k.core.reg off := by
  rcases leadReports_cases k with h | h <;> rw [h]
  · exact ⟨rfl, rfl, rfl, rfl, fun _ _ => rfl⟩
  · rw [report_core]
    exact ⟨rfl, rfl, rfl, noteMsg_regsOnly _ _, fun _ ho => noteMsg_reg _ _ ho⟩

theorem spRecord_regsOnly (k : Core) (agent kind off bit : Nat) :
    k.spRecord agent kind off bit = { k with regs := (k.spRecord agent kind off bit).regs } := by
  unfold Core.spRecord
  split <;> rfl

/-- The record and the message of the check of R111 change registers of the core alone. -/
theorem startRefused_keeps (k : K) (off : Nat) : (k.startRefused off).c = k.c ∧ (k.startRefused off).slot = k.slot ∧
    (k.startRefused off).core = { k.core with regs := (k.startRefused off).core.regs } := by
  refine ⟨rfl, rfl, ?_⟩
  rw [K.startRefused, report_core]
  have h := spRecord_regsOnly k.core agRECODE 0x08 off 0
  generalize k.core.spRecord agRECODE 0x08 off 0 = k1 at h ⊢
  rw [noteMsg_regsOnly, h]

/-- A START that the check of R111 refuses leaves the core ABORTED with cause 5 and its slot's abort line signalled (R111, R219). -/
theorem startAborted_aborts {k : K} (h : k.core.abortable = true) : k.startAborted.c = k.c ∧ k.startAborted.slot = k.slot ∧
    k.startAborted.abort = some (5, 8) ∧ k.startAborted.core.df = .aborted ∧ k.startAborted.core.reg rDF_ABREC = 0x80050800 := by
  obtain ⟨hc, hslot, hcore⟩ := startRefused_keeps k k.core.weightsLimit
  have hab : (k.startRefused k.core.weightsLimit).core.abortable = true := by
    rw [hcore]
    exact h
  unfold K.startAborted
  generalize k.startRefused k.core.weightsLimit = k2 at hc hslot hab
  have hnow : k2.abortNow 5 0x08 = { k2 with core := k2.core.enterAbort 5 8 k2.c, abort := some (5, 8) } := if_pos hab
  rw [hnow]
  obtain ⟨lc, lslot, labort, lcore, lreg⟩ := leadReports_keeps
    { k2 with core := { k2.core.enterAbort 5 8 k2.c with df := .aborted, recode := 0 }, abort := some (5, 8) }
  refine ⟨lc.trans hc, lslot.trans hslot, labort, ?_, (lreg _ (by decide)).trans ?_⟩
  · rw [lcore]
  · obtain ⟨-, -, -, -, -, -, -, -, hrec, -, -⟩ := enterAbort_discards (k := k2.core) (cause := 5) (kind := 8) (src := k2.c) (by decide) (.refl _ _)
    exact hrec

end Sys2Proof.Machine
end

section
/-! SUPPORT. The commands of a section's life as steps of one core, and the obligation on them. -/

namespace Sys2Proof.Machine

/-! ### Commands that pass -/

/-- What follows a step of a core that may have become IDLE leaves the section slots. -/
theorem settled_slots (s : State) (c : CoreId) : (s.settled c).slots = s.slots := by
  unfold State.settled
  split
  · rfl
  · rw [passProgress_eq]
    obtain ⟨rs, h | ⟨w, st, h⟩⟩ := takeItems_eq s c <;> rw [h]

/-- A section command that Ryist gives and the core's state allows (R214, R231). -/
theorem dfCommand_passes {s : State} {c : CoreId} {o : Origin} {f : K → K × Option Nat} {k1 : K} (ha : s.alive c = true) (ho : isSystem o = true)
    (hf : f (kOf s c) = (k1, none)) (hc : k1.c = c) :
    k1.core.RegsOnly ((dfCommand c o s f).core c) [rDF_WINDOW, rDF_STALL] ∧ (dfCommand c o s f).resp = .done ∧
      s.othersKept (dfCommand c o s f) c ∧
      (k1.abort.isSome = true → ((dfCommand c o s f).slots.get .reset k1.slot).abortLine.isSome = true) := by
  have h : dfStep o f (kOf s c) = { k1 with resp := .done } := by
    rw [dfStep, if_pos ho, hf]
    rfl
  obtain ⟨hcore, hresp, -, hoth⟩ := dfCommand_keeps ha h hc
  refine ⟨hcore, hresp, hoth, fun hab => ?_⟩
  obtain ⟨a, hab⟩ := Option.isSome_iff_exists.1 hab
  have hd : dfCommand c o s f = (kPut s { k1 with resp := .done }).settled c := by
    rw [dfCommand, if_pos ha, onCoreSettled, onCore, if_pos (alive_onGrid ha), ← h]
    rfl
  rw [hd, settled_slots]
  exact kPut_abortLine (k := { k1 with resp := .done }) hab

/-! ### What a section that has ended leaves -/

/-- The core once its section has ended, whatever its output queues hold and whatever settings it has taken since (R217). -/
def Core.Ended (k k' : Core) : Prop :=
  k' = { k with df := .idle, seq := .idle, inq := [], store := [], readyQ := [], running := none, held := [], spill := [], freed := [],
                fwd := 0, spilling := false, waiting := none, lent := false, idleCc := 0, outq := k'.outq, regs := k'.regs } ∧
    k.clearSection.regsKept k' [rDF_WINDOW, rDF_STALL]

theorem clearSection_ended {k k' : Core} (h : k.clearSection.RegsOnly k' [rDF_WINDOW, rDF_STALL]) : k.Ended k' := by
  obtain ⟨hcore, hregs⟩ := h
  refine ⟨?_, hregs⟩
  have hx := clearSection_eq k
  generalize k.clearSection = x at hx hcore
  rw [hcore, hx]

theorem clearSection_emptied {k k' : Core} (h : ({ k.clearSection with outq := [] } : Core).RegsOnly k' [rDF_WINDOW, rDF_STALL]) :
    k.Ended k' ∧ k'.outq = [] := by
  have hx := clearSection_eq k
  unfold Core.Ended
  generalize k.clearSection = x at h hx ⊢
  obtain ⟨hcore, hregs⟩ := h
  exact ⟨⟨by rw [hcore, hx], hregs⟩, by rw [hcore]⟩

theorem ended_cleared {k k' : Core} (h : k.Ended k') :
    k'.df = .idle ∧ k'.seq = .idle ∧ k'.running = none ∧ k'.store = [] ∧ k'.spill = [] ∧
      (∀ n, n < 16 → k'.ichActive n = false ∧ k'.ochActive n = false ∧ k'.entries n = []) ∧ (∀ u, u < 8 → k'.unitValid u = false) ∧
      k'.mem = k.mem ∧ k'.s = k.s ∧ k'.istore = k.istore := by
  obtain ⟨heq, hregs⟩ := h
  have hoff : ∀ off ∈ sectionRegs, (k'.reg off).getLsbD 31 = false := by
    intro off hm
    have hne : off ∉ [rDF_WINDOW, rDF_STALL] := by
      intro hw
      have hall : ∀ o ∈ [rDF_WINDOW, rDF_STALL], o ∉ sectionRegs := by decide
      exact hall off hw hm
    rw [hregs off hne, clearSection_inactive k hm]
  have hic : ∀ n, n < 16 → rCH_ICFG + 0x40 * n ∈ sectionRegs := by decide
  have hoc : ∀ n, n < 16 → rCH_OCFG + 0x40 * n ∈ sectionRegs := by decide
  have huc : ∀ u, u < 8 → rDF_UCFG + 0x40 * u ∈ sectionRegs := by decide
  have hinq : k'.inq = [] := by rw [heq]
  refine ⟨?_, ?_, ?_, ?_, ?_, fun n hn => ⟨hoff _ (hic n hn), hoff _ (hoc n hn), ?_⟩, fun u hu => hoff _ (huc u hu), ?_, ?_, ?_⟩
  case refine_6 =>
    rw [Core.entries, hinq]
    rfl
  all_goals rw [heq]

/-! ### What a section that starts leaves -/

/-- The core in STARTING: its staged registers taken, what START clears cleared, and its stored bytes as they were where WTOP stays (R216). -/
theorem started_leaves {k : K} {k' : Core} (h : (k.boundedTo k.core.topNext).started.RegsOnly k' [rDF_WINDOW, rDF_STALL]) :
    k'.df = .starting ∧ k'.reg rCORE_TRAP = 0 ∧ k'.reg rMX_NANREC0 = 0 ∧ field (k'.reg rDF_FIN) 16 16 = 0 ∧ k'.rlb = [] ∧
      (k.core.topNext = k.core.wtop → k'.mem = k.core.mem) ∧ k'.wtop = k.core.topNext ∧ k'.s = k.core.s ∧ k'.inq = k.core.inq ∧
      (∀ v, k.core.shNumctl = some v → k'.reg rCORE_NUMCTL = forceNan k.guarded v) ∧
      (∀ v, k.core.shMxctrl = some v → k'.reg rMX_CTRL = v) ∧ (∀ v, k.core.shCkcfg = some v → k'.reg rMX_CKCFG = v) := by
  obtain ⟨hcore, hregs⟩ := h
  rw [started_frame] at hcore
  have hreg : ∀ off, off ∉ [rDF_WINDOW, rDF_STALL] → off ∉ [rDF_FIN, rDF_SPILL, rSP_RLBINV, rSP_RLBINV + 4] →
      k'.reg off = if off ∈ clearedByStart then coreReset off else (k.boundedTo k.core.topNext).reg off :=
    fun off h h' => (hregs off h).trans (started_reg _ h')
  have hkept : ∀ off, off ∉ [rDF_WINDOW, rDF_STALL] → off ∉ [rDF_FIN, rDF_SPILL, rSP_RLBINV, rSP_RLBINV + 4] → off ∉ clearedByStart →
      k'.reg off = (k.boundedTo k.core.topNext).reg off := fun off h h' hc => (hreg off h h').trans (if_neg hc)
  have hframe := boundedTo_frame k k.core.topNext
  refine ⟨?_, ?_, ?_, ?_, ?_, fun hsame => ?_, ?_, ?_, ?_, fun v hv => ?_, fun v hv => ?_, fun v hv => ?_⟩
  · rw [hcore]
  · exact (hreg _ (by decide) (by decide)).trans (if_pos (by decide))
  · exact (hreg _ (by decide) (by decide)).trans (if_pos (by decide))
  · rw [hregs _ (by decide)]
    exact started_fin _
  · rw [hcore]
  · rw [hcore]
    exact boundedTo_mem_same hsame
  · rw [Core.wtop, hkept _ (by decide) (by decide) (by decide)]
    exact boundedTo_wtop k
  · rw [hcore, hframe]
  · rw [hcore, hframe]
  · exact (hkept _ (by decide) (by decide) (by decide)).trans (boundedTo_numctl hv)
  · exact (hkept _ (by decide) (by decide) (by decide)).trans (boundedTo_mxctrl hv)
  · exact (hkept _ (by decide) (by decide) (by decide)).trans (boundedTo_ckcfg hv)

/-! ### A core that goes to RUN -/

/-- Scans that the section boundary switches on change registers alone (R379). -/
theorem scansOn_regsOnly (k : Core) (loaded : Bool) : k.RegsOnly (k.scansOn loaded) [rFLT_WSTAT, rFLT_WCTL] := by
  unfold Core.scansOn
  split
  · unfold Core.setWctl
    rw [if_pos rfl]
    dsimp only
    split
    · exact ⟨rfl, fun off h => Core.setReg_reg_other _ _ (by simp at h; exact h.2)⟩
    · refine ⟨rfl, fun off h => ?_⟩
      simp only [List.mem_cons, List.not_mem_nil, or_false, not_or] at h
      rw [Core.setReg_reg_other _ _ h.2, Core.setReg_reg_other _ _ h.1]
  · exact .refl k _

/-- With nothing to offer the queue of ready entries alone is put in order. -/
theorem offerAll_nil (k : Core) : k.offerAll [] = { k with readyQ := (k.offerAll []).readyQ } := rfl

/-- The core in RUN, its scans on where its weights are loaded and locked (R214, R379). -/
def Core.inRun (k : Core) (loaded : Bool) : Core :=
  ({ k.setReg rDF_NOPROG 0 with df := .run, recode := 0 } : Core).scansOn loaded

theorem inRun_eq (k : Core) (loaded : Bool) : k.inRun loaded = { k with df := .run, recode := 0, regs := (k.inRun loaded).regs } :=
  (scansOn_regsOnly _ loaded).1

theorem inRun_noprog (k : Core) (loaded : Bool) : (k.inRun loaded).reg rDF_NOPROG = 0 :=
  ((scansOn_regsOnly ({ k.setReg rDF_NOPROG 0 with df := .run, recode := 0 } : Core) loaded).2 _ (by decide)).trans
    (Core.setReg_reg_self k _ _)

section
variable {s : State} {c : CoreId} {o : Origin} (ha : s.alive c = true)
include ha

/-- ARM of a core that passes its checks (R214, R215). -/
theorem arm_loads (ho : isSystem o = true) (hd : (s.core c).df = .idle) (hk : (s.core c).armCheck = none) :
    ∃ t : State, exec (.arm c o) s = .next t ∧ t.resp = .done ∧ (t.core c).df = .loaded ∧ (t.core c).epoch = ((s.core c).epoch + 1) % 4 ∧
      (t.core c).reg rDF_ABREC = 0 ∧ (t.core c).secid = (s.core c).secid ∧ (t.core c).slotNo = (s.core c).slotNo ∧
      (t.core c).mem = (s.core c).mem ∧ (t.core c).s = (s.core c).s ∧ s.othersKept t c := by
  obtain ⟨⟨hcore, hregs⟩, hresp, hoth, -⟩ := dfCommand_passes ha ho (arm_passes (k := kOf s c) hd hk) rfl
  have hcfg : ((dfCommand c o s K.arm).core c).reg rDF_SECCFG =
      setField ((s.core c).reg rDF_SECCFG) 0 2 (field ((s.core c).reg rDF_SECCFG) 0 2 + 1) := by
    rw [hregs _ (by decide)]
    show (s.core c).armed.reg rDF_SECCFG = _
    rw [Core.armed]
    show (Core.setReg (Core.setReg _ _ _) _ _).reg rDF_SECCFG = _
    rw [Core.setReg_reg_other _ _ (by decide), Core.setReg_reg_other _ _ (by decide), Core.setReg_reg_self]
  refine ⟨_, rfl, hresp, ?_, ?_, ?_, ?_, ?_, ?_, ?_, hoth⟩
  · rw [hcore]
    rfl
  · rw [Core.epoch, hcfg, field_setField _ _ (by decide)]
    rfl
  · rw [hregs _ (by decide)]
    show (Core.setReg (Core.setReg _ _ _) _ _).reg rDF_ABREC = _
    rw [Core.setReg_reg_other _ _ (by decide), Core.setReg_reg_self]
  · rw [Core.secid, hcfg, field_setField_other _ _ (by decide) (by decide), Core.secid]
  · rw [Core.slotNo, hcfg, field_setField_other _ _ (by decide) (by decide), Core.slotNo]
  · rw [hcore]
    rfl
  · rw [hcore]
    rfl

/-- START of a core whose weights fit below its reserved areas (R111, R214, R216). -/
theorem start_starts (ho : isSystem o = true) (hd : (s.core c).df = .loaded) (hl : (s.core c).topNext * 0x4000 ≤ (s.core c).weightsLimit) :
    ∃ t : State, exec (.start c o) s = .next t ∧ t.resp = .done ∧
      ((kOf s c).boundedTo (s.core c).topNext).started.RegsOnly (t.core c) [rDF_WINDOW, rDF_STALL] ∧ s.othersKept t c := by
  have hstart : (kOf s c).start = ((kOf s c).starting (s.core c).topNext, none) := (start_eq hd).trans (startTo_fits hl)
  obtain ⟨hcore, hresp, hoth, -⟩ := dfCommand_passes ha ho hstart (starting_c _ _)
  exact ⟨_, rfl, hresp, hcore, hoth⟩

/-- START of a core whose weights reach a reserved area (R111, R219). -/
theorem start_aborts (ho : isSystem o = true) (hd : (s.core c).df = .loaded) (hl : (s.core c).weightsLimit < (s.core c).topNext * 0x4000) :
    ∃ t : State, exec (.start c o) s = .next t ∧ t.resp = .done ∧ (t.core c).df = .aborted ∧ (t.core c).reg rDF_ABREC = 0x80050800 ∧
      (t.slots.get .reset (s.core c).slotNo).abortLine.isSome = true ∧ s.othersKept t c := by
  have hstart : (kOf s c).start = (((kOf s c).atBoundary (s.core c).topNext).startAborted, none) := (start_eq hd).trans (startTo_reaches hl)
  have hab : ((kOf s c).atBoundary (s.core c).topNext).core.abortable = true := by
    show ((kOf s c).boundedTo (s.core c).topNext).abortable = true
    rw [boundedTo_frame]
    unfold Core.abortable
    rw [kOf_core, hd]
  obtain ⟨hc, hslot⟩ := atBoundary_keeps (kOf s c) (s.core c).topNext
  obtain ⟨kc, kslot, kabort, kdf, krec⟩ := startAborted_aborts hab
  obtain ⟨⟨hcore, hregs⟩, hresp, hoth, hline⟩ := dfCommand_passes ha ho hstart (kc.trans hc)
  refine ⟨_, rfl, hresp, ?_, (hregs _ (by decide)).trans krec, ?_, hoth⟩
  · rw [hcore]
    exact kdf
  · have h := hline (by rw [kabort]; rfl)
    rwa [kslot, hslot] at h


/-- END of a quiet section (R214, R217). -/
theorem dfEnd_ends (ho : isSystem o = true) (hq : (s.core c).quiet = true) :
    ∃ t : State, exec (.dfCtrlEnd c o) s = .next t ∧ t.resp = .done ∧ (s.core c).Ended (t.core c) ∧
      s.othersKept t c := by
  have hf : K.dfEnd (kOf s c) = ({ kOf s c with core := (s.core c).clearSection }, none) := if_pos hq
  obtain ⟨hcore, hresp, hoth, -⟩ := dfCommand_passes ha ho hf rfl
  exact ⟨_, rfl, hresp, clearSection_ended hcore, hoth⟩

/-- ABORT by Ryist (R214, R219). -/
theorem dfAbort_aborts (ho : isSystem o = true) (hab : (s.core c).abortable = true) :
    ∃ t : State, exec (.abort c o) s = .next t ∧ t.resp = .done ∧ ((s.core c).enterAbort 4 0 c).RegsOnly (t.core c) [rDF_WINDOW, rDF_STALL] ∧
      s.othersKept t c := by
  have hf : K.dfAbort (kOf s c) = ({ kOf s c with core := (s.core c).enterAbort 4 0 c }, none) := if_pos hab
  obtain ⟨hcore, hresp, hoth, -⟩ := dfCommand_passes ha ho hf rfl
  exact ⟨_, rfl, hresp, hcore, hoth⟩

/-- CLEAR of an aborted section, which empties its output queues too (R182, R214, R217). -/
theorem dfClear_clears (ho : isSystem o = true) (hd : (s.core c).df = .aborted) :
    ∃ t : State, exec (.clear c o) s = .next t ∧ t.resp = .done ∧
      (s.core c).Ended (t.core c) ∧ (t.core c).outq = [] ∧ s.othersKept t c := by
  have hf : K.dfClear (kOf s c) = ({ kOf s c with core := { (s.core c).clearSection with outq := [] } }, none) :=
    if_pos (by rw [kOf_core, hd]; rfl)
  obtain ⟨hcore, hresp, hoth, -⟩ := dfCommand_passes ha ho hf rfl
  obtain ⟨hend, hout⟩ := clearSection_emptied hcore
  exact ⟨_, rfl, hresp, hend, hout, hoth⟩

/-- The abort line of its slot reaches a core (R219). -/
theorem abortLine_aborts {cause kind : Byte} {src : CoreId} (hl : (s.slots.get .reset (s.core c).slotNo).abortLine = some (cause, kind, src))
    (hab : (s.core c).abortable = true) : ∃ t : State, exec (.abortLineSignal c) s = .next t ∧
      t.core c = (s.core c).enterAbort 1 kind src ∧ s.othersKept t c := by
  refine ⟨kPut s { kOf s c with core := (s.core c).enterAbort 1 kind src }, ?_, kPut_core rfl, kPut_other rfl⟩
  show execAbortLineSignal c s = _
  simp only [execAbortLineSignal, hl, onLive_of_alive ha, kOf_core, hab, if_true]

/-- An aborting core whose engines are idle, the lead core of its section (R214, R218, R219). -/
theorem abortComplete_reports (hd : (s.core c).df = .aborting) (he : (s.core c).enginesIdle = true)
    (hlead : ((s.core c).reg rDF_SECCFG).getLsbD 9 = true) : ∃ t : State, ∃ m : Msg, exec (.abortComplete c) s = .next t ∧
      (t.core c).df = .aborted ∧ t.transit = s.transit ++ [m] ∧ m.kind = 0x68 ∧ m.block = 7 ∧
      m.detail.toNat = field ((s.core c).reg rDF_ABREC) 16 3 + 256 * field ((s.core c).reg rDF_ABREC) 8 8 ∧
      (t.core c).mem = (s.core c).mem ∧ s.othersKept t c := by
  have hcond : ((s.core c).df == .aborting && (s.core c).enginesIdle) = true := by rw [hd, he]; rfl
  have hrep : K.leadReports { kOf s c with core := { s.core c with df := .aborted, recode := 0 } } = _ := if_pos hlead
  have h16 : field ((s.core c).reg rDF_ABREC) 16 3 < 2 ^ 3 := BitVec.isLt _
  have h8 : field ((s.core c).reg rDF_ABREC) 8 8 < 2 ^ 8 := BitVec.isLt _
  refine ⟨kPut s (K.leadReports { kOf s c with core := { s.core c with df := .aborted, recode := 0 } }),
    (kOf s c).msgOf 7 0x68 (field ((s.core c).reg rDF_ABREC) 16 3 + 256 * field ((s.core c).reg rDF_ABREC) 8 8)
      ((s.core c).secid * 2 ^ 32 + field ((s.core c).reg rDF_ABSRC) 0 20), ?_, ?_, ?_, rfl, rfl, ?_, ?_, ?_⟩
  · show execAbortComplete c s = _
    simp only [execAbortComplete, onLive_of_alive ha, kOf_core, hcond, if_true]
  · rw [hrep, kPut_core (show K.c _ = c from rfl), report_core, noteMsg_regsOnly]
  · rw [hrep, kPut_transit]
    rfl
  · exact toNat_ofNat_lt (by show field ((s.core c).reg rDF_ABREC) 16 3 + 256 * field ((s.core c).reg rDF_ABREC) 8 8 < 2 ^ 16; omega)
  · rw [hrep, kPut_core (show K.c _ = c from rfl), report_core, noteMsg_regsOnly]
  · rw [hrep]
    exact kPut_other rfl

/-- A core whose re-encoding has ended, with no entry that waits to be offered (R207, R214). -/
theorem boundaryComplete_runs (hd : (s.core c).df = .starting) (hw : (s.core c).waitingOffers = []) :
    ∃ t : State, exec (.boundaryComplete c) s = .next t ∧ (t.core c).df = .run ∧ (t.core c).recode = 0 ∧ (t.core c).reg rDF_NOPROG = 0 ∧
      (t.core c).inq = (s.core c).inq ∧ (t.core c).mem = (s.core c).mem ∧ (t.core c).s = (s.core c).s ∧ s.othersKept t c := by
  generalize hjob : (s.slots.get SectionSlot.reset (s.core c).slotNo).job.isSome = loaded
  have hstep : exec (.boundaryComplete c) s =
      .next (kPut s { kOf s c with core := ((s.core c).inRun loaded).offerAll ((s.core c).inRun loaded).waitingOffers }) := by
    show execBoundaryComplete c s = _
    simp only [execBoundaryComplete, onLive_of_alive ha, kOf_core, hd, hjob, beq_self_eq_true, if_true]
    rfl
  have hcore := inRun_eq (s.core c) loaded
  have hprog := inRun_noprog (s.core c) loaded
  generalize (s.core c).inRun loaded = k1 at hcore hprog hstep
  have hnone : k1.waitingOffers = [] := by
    rw [hcore]
    exact hw
  rw [hnone] at hstep
  refine ⟨_, hstep, ?_, ?_, ?_, ?_, ?_, ?_, kPut_other rfl⟩ <;> rw [kPut_core (show K.c _ = c from rfl), offerAll_nil]
  case refine_3 => exact hprog
  all_goals rw [hcore]

end

/-! ### The obligation -/

/-- Settles O27. -/
theorem sectionLife : Obligations.SectionLife := by
  unfold Obligations.SectionLife
  refine ⟨fun s c o => ?_, fun s c o cause kind src => ?_⟩
  · intro k ha
    refine ⟨arm_loads ha, fun ho hd hl => ?_, start_aborts ha, boundaryComplete_runs ha⟩
    obtain ⟨t, ht, hresp, hcore, hoth⟩ := start_starts ha ho hd hl
    obtain ⟨h1, h2, h3, h4, h5, h6, h7, h8, h9, h10, h11, h12⟩ := started_leaves (k := kOf s c) hcore
    exact ⟨t, ht, hresp, h1, h2, h3, h4, h5, h6, h7, h8, h9, h10, h11, h12, hoth⟩
  · intro k cleared aborting ha
    refine ⟨fun ho hq => ?_, fun ho hab => ?_, fun hl hab => ?_, abortComplete_reports ha, fun ho hd => ?_⟩
    · obtain ⟨t, ht, hresp, hend, hoth⟩ := dfEnd_ends ha ho hq
      obtain ⟨h1, h2, h3, h4, h5, h6, h7, h8, h9, h10⟩ := ended_cleared hend
      exact ⟨t, ht, hresp, h1, h2, h3, h4, h5, h6, h7, h8, h9, h10, hoth⟩
    · obtain ⟨t, ht, hresp, hcore, hoth⟩ := dfAbort_aborts ha ho hab
      obtain ⟨h1, h2, h3, h4, h5, h6, h7, h8, h9, h10, h11⟩ := enterAbort_discards (by decide) hcore
      exact ⟨t, ht, hresp, h1, h2, h3, h4, h5, h6, h7, h8, h9, h10, h11, hoth⟩
    · obtain ⟨t, ht, hcore, hoth⟩ := abortLine_aborts ha hl hab
      obtain ⟨h1, h2, h3, h4, h5, h6, h7, h8, h9, h10, h11⟩ := enterAbort_discards (by decide)
        (hcore ▸ .refl _ _ : (k.enterAbort 1 kind src).RegsOnly (t.core c) [rDF_WINDOW, rDF_STALL])
      exact ⟨t, ht, ⟨h1, h2, h3, h4, h5, h6, h7, h8, h9, h10, h11, hoth⟩, hcore ▸ enterAbort_absrc k 1 kind src⟩
    · obtain ⟨t, ht, hresp, hend, hout, hoth⟩ := dfClear_clears ha ho hd
      obtain ⟨h1, h2, h3, h4, h5, h6, h7, h8, h9, h10⟩ := ended_cleared hend
      exact ⟨t, ht, hresp, ⟨h1, h2, h3, h4, h5, h6, h7, h8, h9, h10, hoth⟩, hout⟩

end Sys2Proof.Machine
end

section
/-! SUPPORT. SP_BANKPWR: the mode field of each bank, and a write of one of them (R121, R122, R137). -/

namespace Sys2Proof.Machine

/-! ### The mode fields -/

/-- The code of a mode in SP_BANKPWR (R137). -/
def modeCode : BankMode → Nat
  | .on => 0
  | .retain => 1
  | .off => 2

theorem modeOf_modeCode (m : BankMode) : modeOf (modeCode m) = m := by cases m <;> rfl

theorem modeCode_lt (m : BankMode) : modeCode m < 3 := by cases m <;> decide

/-- The number whose digits to base 4 are `d 0`, `d 1`, … -/
def quads (d : Nat → Nat) (n : Nat) : Nat := (List.range n).foldl (fun a i => a + 4 ^ i * d i) 0

theorem quads_succ (d : Nat → Nat) (n : Nat) : quads d (n + 1) = quads d n + 4 ^ n * d n := by
  rw [quads, List.range_succ, List.foldl_append]
  rfl

theorem quads_lt {d : Nat → Nat} (h : ∀ i, d i < 4) (n : Nat) : quads d n < 4 ^ n := by
  induction n with
  | zero => exact Nat.one_pos
  | succ n ih =>
    have hd : 4 ^ n * d n ≤ 4 ^ n * 3 := Nat.mul_le_mul_left _ (Nat.le_of_lt_succ (h n))
    rw [quads_succ, Nat.pow_succ]
    omega

/-- The digits of a number written to base 4. -/
theorem quads_digit {d : Nat → Nat} (h : ∀ i, d i < 4) {n i : Nat} (hi : i < n) : quads d n / 4 ^ i % 4 = d i := by
  induction n with
  | zero => omega
  | succ n ih =>
    rw [quads_succ]
    rcases Nat.lt_succ_iff_lt_or_eq.1 hi with hlt | rfl
    · obtain ⟨j, rfl⟩ := Nat.exists_eq_add_of_lt hlt
      have hsplit : 4 ^ (i + j + 1) * d (i + j + 1) = 4 ^ i * (4 * (4 ^ j * d (i + j + 1))) := by rw [Nat.pow_succ, Nat.pow_add]; ring
      rw [hsplit, Nat.add_mul_div_left _ _ (by positivity), Nat.add_mul_mod_self_left, ih hlt]
    · rw [Nat.add_mul_div_left _ _ (by positivity), Nat.div_eq_of_lt (quads_lt h i), Nat.zero_add, Nat.mod_eq_of_lt (h i)]

/-- A digit to base 4 of a word is its field of two bits. -/
theorem field_quad (v : Word) (i : Nat) : v.toNat / 4 ^ i % 4 = field v (2 * i) 2 := by
  rw [field, BitVec.extractLsb'_toNat, Nat.shiftRight_eq_div_pow, Nat.pow_mul]

/-- A field of the lower half of a word. -/
theorem field_low16 (v : Word) {lo n : Nat} (h : lo + n ≤ 16) : field (v &&& (0xFFFF : Word)) lo n = field v lo n := by
  have hones : ∀ j, j < 16 → (0xFFFF : Word).getLsbD j = true := by decide
  have hbits : (v &&& (0xFFFF : Word)).extractLsb' lo n = v.extractLsb' lo n := by
    refine BitVec.eq_of_getLsbD_eq fun i hi => ?_
    rw [BitVec.getLsbD_extractLsb', BitVec.getLsbD_extractLsb', BitVec.getLsbD_and, hones _ (by omega), Bool.and_true]
  rw [field, hbits, field]

/-! ### Banks asked for a mode -/

/-- The banks of a list, each asked for the mode a word names for it. -/
def Core.askBanks (k : Core) (v : Word) (l : List Nat) : Core :=
  l.foldl (fun a b => { a with banks := a.banks.set b ((a.bank b).ask (modeOf (v.toNat / 4 ^ b % 4))) }) k

theorem askBanks_eq (k : Core) (v : Word) (l : List Nat) : k.askBanks v l = { k with banks := (k.askBanks v l).banks } := by
  induction l generalizing k with
  | nil => rfl
  | cons a t ih => exact ih _

theorem askBanks_bank_other (k : Core) (v : Word) {l : List Nat} {b : Nat} (h : b ∉ l) : (k.askBanks v l).bank b = k.bank b := by
  induction l generalizing k with
  | nil => rfl
  | cons a t ih =>
    rw [List.mem_cons, not_or] at h
    obtain ⟨hba, hbt⟩ := h
    exact (ih _ hbt).trans (SMap.get_set_other _ _ _ _ _ hba)

theorem askBanks_bank (k : Core) (v : Word) {l : List Nat} {b : Nat} (hn : l.Nodup) (h : b ∈ l) :
    (k.askBanks v l).bank b = (k.bank b).ask (modeOf (v.toNat / 4 ^ b % 4)) := by
  induction l generalizing k with
  | nil => exact absurd h List.not_mem_nil
  | cons a t ih =>
    obtain ⟨hat, hnt⟩ := List.nodup_cons.1 hn
    rcases List.mem_cons.1 h with rfl | hbt
    · exact (askBanks_bank_other _ v hat).trans (SMap.get_set_self _ _ _ _)
    · refine (ih _ hnt hbt).trans (congrArg (fun x => Bank.ask x _) ?_)
      exact SMap.get_set_other _ _ _ _ _ (by rintro rfl; exact hat hbt)

/-! ### A write of the register -/

theorem writeReg_bankpwr (k : K) (v : Word) (o : Origin) : k.writeReg rSP_BANKPWR v o = k.writeBankpwr v := rfl

/-- What a write of SP_BANKPWR that is not refused makes of the core (R122). -/
def Core.bankpwrSet (k : Core) (v : Word) : Core := (k.setReg rSP_BANKPWR (v &&& 0xFFFF)).askBanks v (List.range 8)

theorem writeBankpwr_taken {k : K} {v : Word} (h : k.core.bankpwrOk v.toNat = true) :
    k.writeBankpwr v = ({ k with core := k.core.bankpwrSet v }, none) := by
  rw [K.writeBankpwr, if_pos h]
  rfl

theorem writeBankpwr_refused {k : K} {v : Word} (h : k.core.bankpwrOk v.toNat = false) : k.writeBankpwr v = (k, some 0x09) := by
  rw [K.writeBankpwr, h]
  rfl

theorem bankpwrSet_eq (k : Core) (v : Word) :
    k.bankpwrSet v = { k with regs := k.regs.set rSP_BANKPWR (v &&& 0xFFFF), banks := (k.bankpwrSet v).banks } :=
  askBanks_eq _ _ _

theorem bankpwrSet_bank (k : Core) (v : Word) {b : Nat} (h : b < 8) :
    (k.bankpwrSet v).bank b = (k.bank b).ask (modeOf (field v (2 * b) 2)) := by
  rw [← field_quad]
  exact askBanks_bank _ v List.nodup_range (List.mem_range.2 h)

theorem bankpwrSet_reg (k : Core) (v : Word) : (k.bankpwrSet v).reg rSP_BANKPWR = v &&& 0xFFFF := by
  rw [bankpwrSet_eq]
  exact Core.setReg_reg_self k _ _

theorem bankpwrSet_regsKept (k : Core) (v : Word) : k.regsKept (k.bankpwrSet v) [rSP_BANKPWR] := by
  intro off h
  rw [bankpwrSet_eq]
  exact Core.setReg_reg_other k _ (by simpa using h)

theorem bankpwrSet_bodyKept (k : Core) (v : Word) : k.bodyKept (k.bankpwrSet v) := by
  rw [bankpwrSet_eq]
  exact ⟨rfl, rfl, rfl, rfl, rfl, rfl, rfl, rfl, rfl⟩

/-- The modes that a word names are allowed where no section is configured and the weights region is not locked (R122). -/
theorem bankpwrOk_of_unlocked {k : Core} {v : Word} (hd : k.df = .idle) (hw : k.wlock = false) (h : ∀ i, i < 8 → field v (2 * i) 2 ≠ 3) :
    k.bankpwrOk v.toNat = true := by
  refine List.all_eq_true.2 fun i hi => ?_
  have hfree : (i == 7 && k.configured || k.wlock && decide (i * 0xC000 < k.wtop * 0x4000)) = false := by
    simp [Core.configured, hd, hw]
  simp only [field_quad, hfree, Bool.not_false, Bool.or_true, Bool.and_true, bne_iff_ne, ne_eq]
  exact h i (List.mem_range.1 hi)

/-- A bank that holds locked weights or the queues of a section does not sleep (R122). -/
theorem bankpwrOk_held {k : Core} {v : Word} {n : Nat} (hn : n < 8) (hm : field v (2 * n) 2 ≠ 0)
    (h : (n = 7 ∧ k.df ≠ .idle) ∨ (k.wlock = true ∧ 0xC000 * n < k.wtop * 0x4000)) : k.bankpwrOk v.toNat = false := by
  have hheld : (n == 7 && k.configured || k.wlock && decide (n * 0xC000 < k.wtop * 0x4000)) = true := by
    rcases h with ⟨rfl, hd⟩ | ⟨hw, hlt⟩
    · simp [Core.configured, hd]
    · simp [hw, Nat.mul_comm n, hlt]
  refine List.all_eq_false.2 ⟨n, List.mem_range.2 hn, ?_⟩
  simp only [field_quad, hheld, Bool.not_true, Bool.or_false]
  simp [hm]

/-- The mode SP_BANKPWR shows of a bank: the one asked for last (R122). -/
def Bank.wanted (b : Bank) : BankMode := b.target.getD b.mode

theorem ask_mode {b : Bank} {m : BankMode} (ht : b.target = none) (hm : b.mode ≠ m) : b.ask m = { b with target := some m } := by
  rw [Bank.ask, ht]
  exact if_neg hm

section
variable {s : State} {c : CoreId} {o : Origin} {n : BitVec 3}

/-- A field of SP_BANKPWR, where the register shows the modes of the banks, after one has been replaced. -/
theorem shown_ne_three {k : Core} {m i : Nat} (hk : k.reg rSP_BANKPWR = BitVec.ofNat 32 (quads (fun i => modeCode (k.bank i).wanted) 8))
    (hm : m < 3) (hi : i < 8) : field (setField (k.reg rSP_BANKPWR) (2 * n.toNat) 2 m) (2 * i) 2 ≠ 3 := by
  have hn := n.isLt
  by_cases h : i = n.toNat
  · rw [h, field_setField _ _ (by omega)]
    omega
  · have hlt : quads (fun i => modeCode (k.bank i).wanted) 8 < 2 ^ 32 :=
      (quads_lt (fun i => (modeCode_lt _).trans (by decide)) 8).trans (by decide)
    rw [field_setField_other _ _ (by omega) (by omega), hk, ← field_quad, BitVec.toNat_ofNat, Nat.mod_eq_of_lt hlt,
      quads_digit (fun i => (modeCode_lt _).trans (by decide)) hi]
    exact (modeCode_lt _).ne

/-- A bank is asked for another mode (R121, R122). -/
theorem bankWrite_asks {cmd : Instr} {mode : BankMode} (he : exec cmd s = .next (bankWrite c o n.toNat (modeCode mode) s))
    (hs : s.servesReg c rSP_BANKPWR o)
    (hk : (s.core c).reg rSP_BANKPWR = BitVec.ofNat 32 (quads (fun i => modeCode ((s.core c).bank i).wanted) 8))
    (ht : ((s.core c).bank n.toNat).target = none) (hd : (s.core c).df = .idle) (hw : (s.core c).wlock = false)
    (hm : ((s.core c).bank n.toNat).mode ≠ mode) :
    ∃ t : State, exec cmd s = .next t ∧ s.accessed t c .done ∧
      (t.core c).bank n.toNat = { (s.core c).bank n.toNat with target := some mode } ∧
      field ((t.core c).reg rSP_BANKPWR) (2 * n.toNat) 2 = modeCode mode ∧ (s.core c).regsKept (t.core c) [rSP_BANKPWR] ∧
      (t.core c).mem = (s.core c).mem ∧ (s.core c).bodyKept (t.core c) := by
  have hn := n.isLt
  have hlow : modeCode mode < 2 ^ 2 := (modeCode_lt mode).trans (by decide)
  have hok := bankpwrOk_of_unlocked hd hw fun i hi => shown_ne_three (n := n) hk (modeCode_lt mode) hi
  have hfield : field (setField ((s.core c).reg rSP_BANKPWR) (2 * n.toNat) 2 (modeCode mode)) (2 * n.toNat) 2 = modeCode mode := by
    rw [field_setField _ _ (by omega), Nat.mod_eq_of_lt hlow]
  obtain ⟨t, htn, hacc, hcore⟩ := write_takes (k1 := (s.core c).bankpwrSet _) he hs ((writeReg_bankpwr _ _ _).trans (writeBankpwr_taken hok))
    (by rw [bankpwrSet_eq])
  refine ⟨t, htn, hacc, ?_⟩
  rw [hcore]
  refine ⟨?_, ?_, bankpwrSet_regsKept _ _, ?_, bankpwrSet_bodyKept _ _⟩
  · rw [bankpwrSet_bank _ _ hn, hfield, modeOf_modeCode, ask_mode ht hm]
  · rw [bankpwrSet_reg, field_low16 _ (by omega), hfield]
  · rw [bankpwrSet_eq]

/-- A write that would put to sleep a bank in use is refused (R122; the code is log entry 39). -/
theorem bankWrite_refused {cmd : Instr} {m : Nat} (he : exec cmd s = .next (bankWrite c o n.toNat m s)) (hs : s.servesReg c rSP_BANKPWR o)
    (hm : m % 4 ≠ 0) (h : (n.toNat = 7 ∧ (s.core c).df ≠ .idle) ∨ ((s.core c).wlock = true ∧ 0xC000 * n.toNat < (s.core c).wtop * 0x4000)) :
    ∃ t : State, exec cmd s = .next t ∧ s.accessed t c (.err 0x09) ∧ t.core c = s.core c := by
  have hn := n.isLt
  have hok := bankpwrOk_held (v := setField ((s.core c).reg rSP_BANKPWR) (2 * n.toNat) 2 m) hn (by rwa [field_setField _ _ (by omega)]) h
  have hw : (kOf s c).writeReg rSP_BANKPWR (setField ((s.core c).reg rSP_BANKPWR) (2 * n.toNat) 2 m) o = (kOf s c, some 0x09) :=
    (writeReg_bankpwr _ _ _).trans (writeBankpwr_refused hok)
  exact ⟨_, he.trans (by rw [bankWrite, State.coreWrite, coreAccess_served hs, hw]; rfl), kPut_accessed _ rfl⟩

end

end Sys2Proof.Machine
end

section
/-! SUPPORT. Steps of the scratchpad: a bank at the end of its change, the write-back of a corrected line, the scrub and the zero fill
(R116, R119 to R123). -/

namespace Sys2Proof.Machine

/-! ### A step of the scratchpad -/

theorem present_padUp {s : State} {c : CoreId} (h : s.present c = true) : s.padUp c = true := by
  simp only [State.present, Bool.and_eq_true] at h
  simp [State.padUp, h]

/-- A step of the scratchpad of a present core is a step of that core. -/
theorem onPad_present {s : State} {c : CoreId} (h : s.present c = true) (f : K → K) : onPad c s f = kPut s (f (kOf s c)) := by
  rw [onPad, if_pos (present_padUp h), onCore, if_pos (present_onGrid h)]

/-! ### A bank that is zeroed, a bank that is replaced -/

theorem Mem.read_zero (m : Mem) (a n p : Nat) : Mem.read (Mem.zero m a n) p = if a ≤ p ∧ p < a + n then 0 else Mem.read m p := by
  have h := SMap.get_filter_key Mem.blank m (fun x => decide (x < a ∨ a + n ≤ x)) p
  by_cases hp : a ≤ p ∧ p < a + n
  · rw [if_pos hp]
    exact h.trans (by rw [if_neg (by simp; omega)]; rfl)
  · rw [if_neg hp]
    exact h.trans (by rw [if_pos (by simp; omega)]; rfl)

/-- What zeroing a bank changes: the stored bytes and their codes. -/
theorem zeroBank_eq (k : Core) (b : Nat) :
    k.zeroBank b = { k with mem := Mem.zero k.mem (0xC000 * b) 0xC000, flips := (k.zeroBank b).flips, crcErr := (k.zeroBank b).crcErr } := rfl

/-- A core with one bank replaced. -/
def Core.setBank (k : Core) (n : Nat) (b : Bank) : Core := { k with banks := k.banks.set n b }

theorem setBank_bank (k : Core) (n : Nat) (b : Bank) : (k.setBank n b).bank n = b := SMap.get_set_self _ _ _ _

/-! ### The end of a change of mode, and of the fill after a wake -/

theorem takeLater_none {b : Bank} (h : b.later = none) : b.takeLater = b := by rw [Bank.takeLater, h]

/-- Nothing is left to drain of a bank (R123). -/
def Core.drained (k : Core) (n : Nat) : Prop :=
  (k.bank n).filling = false ∧ (k.bank n).pendWr = 0 ∧ (k.bank n).writeback = [] ∧ ∀ w ∈ k.lineWr, bankOf w.off ≠ n

section
variable {k : K} {n : Nat}

theorem drained_guard (h : k.core.drained n) :
    ((k.core.bank n).filling || decide (0 < (k.core.bank n).pendWr) || !(k.core.bank n).writeback.isEmpty ||
      k.core.lineWr.any (fun w => bankOf w.off == n)) = false := by
  obtain ⟨hf, hp, hw, hl⟩ := h
  simpa [hf, hp, hw] using hl

theorem bankChangeEnd_retain (h : k.core.drained n) (hl : (k.core.bank n).later = none) (ht : (k.core.bank n).target = some .retain) :
    bankChangeEnd n k = { k with core := k.core.setBank n { k.core.bank n with
      mode := .retain, target := none, owed := (k.core.bank n).owed || (k.core.bank n).mode == BankMode.off } } := by
  rw [← takeLater_none (b := { k.core.bank n with mode := .retain, target := none, owed := _ }) hl]
  simp only [bankChangeEnd, ht, drained_guard h]
  rfl

theorem bankChangeEnd_off (h : k.core.drained n) (hl : (k.core.bank n).later = none) (ht : (k.core.bank n).target = some .off) :
    bankChangeEnd n k = { k with core := (k.core.zeroBank n).setBank n { k.core.bank n with mode := .off, target := none } } := by
  rw [← takeLater_none (b := { k.core.bank n with mode := .off, target := none }) hl]
  simp only [bankChangeEnd, ht, drained_guard h]
  rfl

theorem bankChangeEnd_on (h : k.core.drained n) (hl : (k.core.bank n).later = none) (ht : (k.core.bank n).target = some .on)
    (hm : (k.core.bank n).mode = .retain) (ho : (k.core.bank n).owed = false) :
    bankChangeEnd n k = { k with core := k.core.setBank n { k.core.bank n with mode := .on, target := none } } := by
  have hkept : ((k.core.bank n).mode == BankMode.off || (k.core.bank n).owed) = false := by rw [hm, ho]; rfl
  rw [← takeLater_none (b := { k.core.bank n with mode := .on, target := none }) hl]
  simp only [bankChangeEnd, ht, drained_guard h, hkept]
  rfl

theorem bankChangeEnd_wakes (h : k.core.drained n) (ht : (k.core.bank n).target = some .on) (hm : (k.core.bank n).mode = .off) :
    bankChangeEnd n k = { k with core := k.core.setBank n { k.core.bank n with filling := true } } := by
  have hempty : ((k.core.bank n).mode == BankMode.off || (k.core.bank n).owed) = true := by rw [hm]; rfl
  simp only [bankChangeEnd, ht, drained_guard h, hempty]
  rfl

theorem firedOnly_of_eq {k k' : K} (h : k' = k) : k.FiredOnly k' := h ▸ .refl k

/-- The fill after a wake ends: the bank reads zero and is ON; beside that watches fire (R121, R193). -/
theorem bankFillEnd_fires (hf : (k.core.bank n).filling = true) (hl : (k.core.bank n).later = none) :
    K.FiredOnly { k with core := (k.core.zeroBank n).setBank n { k.core.bank n with mode := .on, target := none, filling := false, owed := false } }
      (bankFillEnd n k) := by
  rw [← takeLater_none (b := { k.core.bank n with mode := .on, target := none, filling := false, owed := false }) hl]
  simp only [bankFillEnd, hf, if_true]
  exact evalWatches_firedOnly _ _

end

section
variable {s : State} {c : CoreId} {n : Nat} {f : K → K} {x : Bank}

/-- What the end of a change of mode claims of a step: one bank is as given, and its bytes are zeroed or kept. -/
def State.bankEnds (s t : State) (c : CoreId) (n : Nat) (x : Bank) (zeroed : Bool) : Prop :=
  (t.core c).bank n = x ∧
    (∀ p, Mem.read (t.core c).mem p = if zeroed = true ∧ 0xC000 * n ≤ p ∧ p < 0xC000 * n + 0xC000 then 0 else Mem.read (s.core c).mem p) ∧
    (s.core c).bodyKept (t.core c) ∧ s.othersKept t c

/-- A step of the scratchpad that replaces one bank and keeps every byte. -/
theorem onPad_setBank (hp : s.present c = true) (hf : f (kOf s c) = { kOf s c with core := (s.core c).setBank n x }) :
    ((onPad c s f).core c).mem = (s.core c).mem ∧ s.bankEnds (onPad c s f) c n x false := by
  have hc : (f (kOf s c)).c = c := by rw [hf]; rfl
  have hcore : (onPad c s f).core c = (s.core c).setBank n x := by rw [onPad_present hp, kPut_core hc, hf]
  have hmem : ((onPad c s f).core c).mem = (s.core c).mem := by rw [hcore]; rfl
  refine ⟨hmem, ?_, fun p => by rw [hmem, if_neg (by simp)], ?_, ?_⟩
  · rw [hcore, setBank_bank]
  · rw [hcore]
    exact ⟨rfl, rfl, rfl, rfl, rfl, rfl, rfl, rfl, rfl⟩
  · rw [onPad_present hp]
    exact kPut_other hc

/-- A step of the scratchpad that zeroes one bank and replaces its state, whatever watches fire. -/
theorem onPad_zeroBank (hp : s.present c = true)
    (hf : K.FiredOnly { kOf s c with core := ((s.core c).zeroBank n).setBank n x } (f (kOf s c))) :
    s.bankEnds (onPad c s f) c n x true := by
  obtain ⟨hf, -⟩ := hf
  have hc : (f (kOf s c)).c = c := by rw [hf]; rfl
  have hcore : (onPad c s f).core c = { ((s.core c).zeroBank n).setBank n x with
      watches := (f (kOf s c)).core.watches, regs := (f (kOf s c)).core.regs } := by
    rw [onPad_present hp, kPut_core hc]
    exact congrArg K.core hf
  refine ⟨?_, fun p => ?_, ?_, ?_⟩
  · rw [hcore]
    exact setBank_bank _ _ _
  · rw [hcore]
    exact (Mem.read_zero _ _ _ _).trans (by simp only [true_and])
  · rw [hcore]
    exact ⟨rfl, rfl, rfl, rfl, rfl, rfl, rfl, rfl, rfl⟩
  · rw [onPad_present hp]
    exact kPut_other hc

end

/-! ### The write-back of a corrected line -/

theorem get_foldl_del_range {α : Type} (d : α) (m : SMap α) (a n p : Nat) :
    SMap.get d ((List.range n).foldl (fun f i => SMap.del f (a + i)) m) p = if a ≤ p ∧ p < a + n then d else SMap.get d m p := by
  induction n with
  | zero => rw [if_neg (by omega)]; rfl
  | succ n ih =>
    rw [List.range_succ, List.foldl_append, List.foldl_cons, List.foldl_nil, SMap.get_del, ih]
    by_cases hp : p = a + n
    · rw [if_pos hp, if_pos (by omega)]
    · rw [if_neg hp]
      exact if_congr (by omega) rfl rfl

/-- A line written with a fresh code holds no error (R114). -/
theorem cleanLine_of_fresh {k k' : Core} {off : Nat} (ho : off % 64 = 0) (hf : k'.flips = (k.freshLine off).flips)
    (hc : k'.crcErr = (k.freshLine off).crcErr) : k'.cleanLine off = true := by
  rw [Core.cleanLine, Bool.and_eq_true]
  constructor
  · refine List.all_eq_true.2 fun i hi => beq_iff_eq.2 ?_
    have hlt := List.mem_range.1 hi
    rw [Core.flip, hf]
    refine (get_foldl_del_range _ _ _ _ _).trans (if_pos ?_)
    omega
  · rw [hc]
    exact beq_iff_eq.2 ((SMap.get_del _ _ _ _).trans (if_pos rfl))

/-- A line that its code corrects is rewritten, and nothing else changes (R116). -/
theorem correctLine_rewrites {k : Core} {off : Nat} (hb : (k.scanLine off).bad = false) :
    k.correctLine off = { k.freshLine off with mem := Mem.writeLine k.mem off (k.scanLine off).data } := by
  simp only [Core.correctLine, hb]
  rfl

theorem readLine_writeLine (m : Mem) (a : Nat) (l : Line) : Mem.readLine (Mem.writeLine m a l) a = l := by
  refine Mem.readLine_eq fun i hi => ?_
  rw [Mem.writeLine, Mem.read_writeN_in _ _ _ _ _ hi]
  apply BitVec.eq_of_toNat_eq
  rw [BitVec.extractLsb'_toNat, BitVec.toNat_ofNat, Nat.shiftRight_eq_div_pow]
  congr 2
  rw [Nat.pow_mul]

/-- The core after the write-back of a line that its code corrects. -/
def Core.writtenBack (k : Core) (n off : Nat) (rest : List Nat) : Core :=
  (k.correctLine off).setBank n { k.bank n with writeback := rest }

theorem lineWriteback_corrects {k : K} {n off : Nat} {rest : List Nat} (hw : (k.core.bank n).writeback = off :: rest)
    (hh : k.core.padHeld off = false) (hi : k.core.inWeights off = true) :
    lineWriteback n k = { k with core := k.core.writtenBack n off rest } := by
  simp only [lineWriteback, hw, hh, hi]
  rfl

theorem writtenBack_eq {k : Core} {n off : Nat} {rest : List Nat} (hb : (k.scanLine off).bad = false) :
    k.writtenBack n off rest = { k.freshLine off with
      mem := Mem.writeLine k.mem off (k.scanLine off).data, banks := k.banks.set n { k.bank n with writeback := rest } } := by
  rw [Core.writtenBack, correctLine_rewrites hb]
  rfl

/-- The write-back stores the corrected data with a fresh code, and changes nothing else but the bank (R116). -/
theorem writtenBack_leaves {k : Core} {n off : Nat} {rest : List Nat} (hb : (k.scanLine off).bad = false) (ho : off % 64 = 0) :
    ((k.writtenBack n off rest).bank n).writeback = rest ∧ Mem.readLine (k.writtenBack n off rest).mem off = (k.scanLine off).data ∧
      (k.writtenBack n off rest).cleanLine off = true ∧
      (∀ q, q < off ∨ off + 64 ≤ q → Mem.read (k.writtenBack n off rest).mem q = Mem.read k.mem q) ∧
      k.bodyKept (k.writtenBack n off rest) ∧
      (k.writtenBack n off rest).regs = k.regs := by
  refine ⟨congrArg Bank.writeback (setBank_bank _ _ _), ?_⟩
  rw [writtenBack_eq hb]
  exact ⟨readLine_writeLine _ _ _, cleanLine_of_fresh (k := k) ho rfl rfl, fun q hq => Mem.read_writeN_other _ _ _ _ _ hq,
    ⟨rfl, rfl, rfl, rfl, rfl, rfl, rfl, rfl, rfl⟩, rfl⟩

/-- The write-back of a corrected line (R116). -/
theorem lineWriteback_writes {s : State} {c : CoreId} {n : BitVec 3} {off : Nat} {rest : List Nat} (hp : s.present c = true)
    (hw : ((s.core c).bank n.toNat).writeback = off :: rest) (hh : (s.core c).padHeld off = false) (hi : (s.core c).inWeights off = true) :
    ∃ t : State, exec (.lineWriteback c n) s = .next t ∧ s.othersKept t c ∧ t.core c = (s.core c).writtenBack n.toNat off rest := by
  have hf : lineWriteback n.toNat (kOf s c) = { kOf s c with core := (s.core c).writtenBack n.toNat off rest } := lineWriteback_corrects hw hh hi
  refine ⟨onPad c s (lineWriteback n.toNat), rfl, ?_⟩
  rw [onPad_present hp, hf]
  exact ⟨kPut_other rfl, kPut_core rfl⟩

/-! ### The scrub -/

/-- The line the scrub reads next (R119). -/
def Core.scrubNext (k : Core) : Nat := if k.scrubPos < k.wtop * 256 then k.scrubPos else 0

/-- The scrub stands at the last line of the weights region. -/
def Core.scrubLast (k : Core) : Bool := decide (k.wtop * 256 ≤ k.scrubNext + 1)

/-- The scrub has moved on from a line without errors. -/
def Core.scrubbed (k : Core) : Core :=
  { k with scrubPos := if k.scrubLast then 0 else k.scrubNext + 1, regs := bump k.regs rSP_SCRUBPASS (if k.scrubLast then 1 else 0) }

theorem spFound_clean {k : K} {agent off : Nat} {req : Option CoreId} (hc : k.core.cleanLine off = true) :
    k.spFound agent off (k.core.scanLine off) req = k := by
  rw [scanLine_clean hc]
  rfl

theorem scrubRead_clean {k : K} (hl : k.core.wtop * 256 ≠ 0) (hh : k.core.padHeld (64 * k.core.scrubNext) = false)
    (hc : k.core.cleanLine (64 * k.core.scrubNext) = true) : scrubRead k = { k with core := k.core.scrubbed } := by
  have hpos : (if k.core.scrubPos < k.core.wtop * 256 then k.core.scrubPos else 0) = k.core.scrubNext := rfl
  have hce : (k.core.scanLine (64 * k.core.scrubNext)).ce = [] := by rw [scanLine_clean hc]
  simp only [scrubRead, hpos, hl, hh, if_false, Bool.false_eq_true, spFound_clean hc, hce, List.isEmpty_nil, if_true, ite_self]
  unfold Core.scrubbed
  rw [show decide (k.core.wtop * 256 ≤ k.core.scrubNext + 1) = k.core.scrubLast from rfl]
  cases k.core.scrubLast <;> rfl

/-- The scrub reads a line without errors and moves on (R119). -/
theorem scrubRead_advances {s : State} {c : CoreId} (hp : s.present c = true) (hl : (s.core c).wtop * 256 ≠ 0)
    (hh : (s.core c).padHeld (64 * (s.core c).scrubNext) = false) (hc : (s.core c).cleanLine (64 * (s.core c).scrubNext) = true) :
    ∃ t : State, exec (.scrubRead c) s = .next t ∧ t.transit = s.transit ∧ s.othersKept t c ∧ t.core c = (s.core c).scrubbed := by
  have hf : scrubRead (kOf s c) = { kOf s c with core := (s.core c).scrubbed } := scrubRead_clean hl hh hc
  refine ⟨onPad c s scrubRead, rfl, ?_⟩
  rw [onPad_present hp, hf]
  exact ⟨List.append_nil _, kPut_other rfl, kPut_core rfl⟩

theorem scrubbed_regsKept (k : Core) : k.regsKept k.scrubbed [rSP_SCRUBPASS, rSP_SCRUBPASS + 4] := by
  intro off h
  simp only [List.mem_cons, List.not_mem_nil, or_false, not_or] at h
  obtain ⟨h1, h2⟩ := h
  exact get_bump_other _ _ _ _ _ h1 h2

/-- The pass over the region is counted where it ends. -/
theorem scrubbed_pass (k : Core) :
    pairAt k.scrubbed.regs rSP_SCRUBPASS = pairAt k.regs rSP_SCRUBPASS + (if k.scrubLast then 1 else 0) := by
  refine (pairAt_bump _ _ _).trans (congrArg (pairAt k.regs rSP_SCRUBPASS + ·) ?_)
  cases k.scrubLast <;> rfl

/-! ### The zero fill -/

section
variable {k : K}

/-- Banks of a list zeroed one after the other. -/
def Core.zeroBanks (k : Core) (l : List Nat) : Core := l.foldl Core.zeroBank k

theorem zeroBanks_eq (k : Core) (l : List Nat) :
    k.zeroBanks l = { k with mem := (k.zeroBanks l).mem, flips := (k.zeroBanks l).flips, crcErr := (k.zeroBanks l).crcErr } := by
  induction l generalizing k with
  | nil => rfl
  | cons a t ih => exact ih (k.zeroBank a)

theorem zeroBanks_read (k : Core) {l : List Nat} {p : Nat} (h : p / 0xC000 ∈ l) : Mem.read (k.zeroBanks l).mem p = 0 := by
  have hstay (l : List Nat) : ∀ k : Core, Mem.read k.mem p = 0 → Mem.read (k.zeroBanks l).mem p = 0 := by
    induction l with
    | nil => exact fun _ h => h
    | cons a t ih => exact fun k h => ih _ ((Mem.read_zero _ _ _ _).trans (by rw [h, ite_self]))
  induction l generalizing k with
  | nil => exact absurd h List.not_mem_nil
  | cons a t ih =>
    rcases List.mem_cons.1 h with rfl | ht
    · exact hstay t _ ((Mem.read_zero _ _ _ _).trans (if_pos (by omega)))
    · exact ih _ ht

/-- Where every bank serves, a zero fill zeroes each of them (R120). -/
theorem zeroAll_banks {l : List Nat} {k : Core} (h : ∀ b ∈ l, (k.bank b).serves = true) :
    l.foldl (fun (a : Core) b => if (a.bank b).mode == .on && (a.bank b).target.isNone then a.zeroBank b
      else { a with banks := a.banks.set b { a.bank b with owed := true } }) k = k.zeroBanks l := by
  induction l generalizing k with
  | nil => rfl
  | cons a t ih =>
    obtain ⟨ha, ht⟩ := List.forall_mem_cons.1 h
    have hon : ((k.bank a).mode == BankMode.on && (k.bank a).target.isNone) = true := ha
    rw [List.foldl_cons, if_pos hon]
    exact ih ht

theorem wroteBanks_firedOnly (l : List Nat) (k : K) :
    k.FiredOnly (l.foldl (fun a b => if (a.core.bank b).serves then a.wroteBytes (0xC000 * b) 0xC000 else a) k) := by
  induction l generalizing k with
  | nil => exact .refl k
  | cons b t ih =>
    refine .trans ?_ (ih _)
    dsimp only
    split
    · exact evalWatches_firedOnly _ _
    · exact .refl k

/-- The core at the end of a zero fill that finds every bank ON (R120). -/
def Core.zeroed (k : Core) : Core :=
  { (k.setReg rSP_REGION (setField (k.reg rSP_REGION) 31 1 0)).zeroBanks (List.range 8) with zeroing := false }

theorem zeroed_eq (k : Core) : k.zeroed = { k with
    regs := k.regs.set rSP_REGION (setField (k.reg rSP_REGION) 31 1 0), zeroing := false,
    mem := k.zeroed.mem, flips := k.zeroed.flips, crcErr := k.zeroed.crcErr } := by
  have h := zeroBanks_eq (k.setReg rSP_REGION (setField (k.reg rSP_REGION) 31 1 0)) (List.range 8)
  exact congrArg (fun x => ({ x with zeroing := false } : Core)) h

theorem zeroAll_fires (h : ∀ b, b < 8 → (k.core.bank b).serves = true) : K.FiredOnly { k with core := k.core.zeroed } (zeroAll k) := by
  have hb := zeroAll_banks (k := k.core.setReg rSP_REGION (setField (k.core.reg rSP_REGION) 31 1 0)) fun b hb => h b (List.mem_range.1 hb)
  dsimp only [zeroAll]
  rw [hb]
  exact wroteBanks_firedOnly _ _

/-- What of the core stays as a zero fill has left it, though watches fire (R120, R193). -/
theorem zeroed_leaves {k k' : Core} (h : k' = { k.zeroed with watches := k'.watches, regs := k'.regs })
    (hr : ∀ off, off ∉ [rSY_FIRED, rSY_FIRED + 4] → k'.reg off = k.zeroed.reg off) :
    k'.zeroing = false ∧ (∀ p, p < 0x60000 → Mem.read k'.mem p = 0) ∧ k'.wlock = false ∧ k'.wtop = k.wtop ∧
      k'.reg rFLT_WCTL = k.reg rFLT_WCTL ∧ k'.scan = k.scan ∧ k.bodyKept k' := by
  have hregion : k'.reg rSP_REGION = setField (k.reg rSP_REGION) 31 1 0 := by
    rw [hr _ (by decide), zeroed_eq]
    exact Core.setReg_reg_self k _ _
  refine ⟨?_, fun p hp => ?_, ?_, ?_, ?_, ?_, ?_⟩
  · rw [h]; rfl
  · rw [h]
    exact zeroBanks_read _ (List.mem_range.2 (by omega))
  · rw [Core.wlock, hregion, getLsbD_setField _ _ _ _ (by decide)]
    rfl
  · rw [Core.wtop, hregion, field_setField_other _ _ (by decide) (by decide), Core.wtop]
  · rw [hr _ (by decide), zeroed_eq]
    exact Core.setReg_reg_other k _ (by decide)
  · rw [h, zeroed_eq]
  · rw [h, zeroed_eq]
    exact ⟨rfl, rfl, rfl, rfl, rfl, rfl, rfl, rfl, rfl⟩

end

/-- The end of a zero fill (R120). -/
theorem zeroFillEnd_zeroes {s : State} {c : CoreId} (hp : s.present c = true) (hz : (s.core c).zeroing = true)
    (h : ∀ b, b < 8 → ((s.core c).bank b).serves = true) :
    ∃ t : State, exec (.zeroFillEnd c) s = .next t ∧ (t.core c).zeroing = false ∧ (∀ p, p < 0x60000 → Mem.read (t.core c).mem p = 0) ∧
      (t.core c).wlock = false ∧ (t.core c).wtop = (s.core c).wtop ∧ (t.core c).reg rFLT_WCTL = (s.core c).reg rFLT_WCTL ∧
      (t.core c).scan = (s.core c).scan ∧ (s.core c).bodyKept (t.core c) ∧ s.othersKept t c := by
  obtain ⟨hf, hregs⟩ := zeroAll_fires (k := kOf s c) h
  have hc : (zeroAll (kOf s c)).c = c := by rw [hf]; rfl
  have ht : onPad c s (fun k => if k.core.zeroing then zeroAll k else k) = kPut s (zeroAll (kOf s c)) := by
    rw [onPad_present hp, if_pos (show (kOf s c).core.zeroing = true from hz)]
  have hcore := kPut_core (s := s) hc
  obtain ⟨h1, h2, h3, h4, h5, h6, h7⟩ := zeroed_leaves (congrArg K.core hf) hregs
  refine ⟨_, congrArg Host.Outcome.next ht, ?_⟩
  rw [hcore]
  exact ⟨h1, h2, h3, h4, h5, h6, h7, kPut_other hc⟩

/-! ### The statement -/

/-- Settles O30: each event replaces one bank, one line or all banks of the core, and watches that fire change nothing of it. -/
theorem banksAndFills : Obligations.BanksAndFills := by
  unfold Obligations.BanksAndFills
  refine ⟨fun s c o n => ⟨fun hs hk ht => ?_, fun hs h => ?_, fun hp hw hb hl hf hline => ?_, fun hp hf hl => ?_⟩,
    fun s c n off rest hp => ⟨fun hw hh hi ho _ hb => ?_, fun hl hh _ hc => ?_, fun hz hb => ?_⟩⟩
  · obtain ⟨hreg, -⟩ := hk
    have hshown : (s.core c).reg rSP_BANKPWR = BitVec.ofNat 32 (quads (fun i => modeCode ((s.core c).bank i).wanted) 8) := hreg
    exact ⟨fun hd hlock hm => bankWrite_asks (mode := .retain) rfl hs hshown ht hd hlock hm,
      fun hd hlock hm => bankWrite_asks (mode := .off) rfl hs hshown ht hd hlock hm,
      fun hd hlock hm => bankWrite_asks (mode := .on) rfl hs hshown ht hd hlock hm⟩
  · have hheld : (n.toNat = 7 ∧ (s.core c).df ≠ .idle) ∨ ((s.core c).wlock = true ∧ 0xC000 * n.toNat < (s.core c).wtop * 0x4000) :=
      h.imp_left fun ⟨h7, hd⟩ => ⟨congrArg BitVec.toNat h7, hd⟩
    exact ⟨bankWrite_refused (m := 1) rfl hs (by decide) hheld, bankWrite_refused (m := 2) rfl hs (by decide) hheld⟩
  · have hdr : (kOf s c).core.drained n.toNat := ⟨hf, hw, hb, hline⟩
    refine ⟨fun ht => ⟨_, rfl, ?_⟩, fun ht => ⟨_, rfl, ?_⟩, fun ht hm ho => ⟨_, rfl, ?_⟩, fun ht hm => ⟨_, rfl, ?_⟩⟩
    · obtain ⟨-, hbank, hrest⟩ := onPad_setBank hp (bankChangeEnd_retain hdr hl ht)
      exact ⟨hbank.trans (by rw [hbank]; simp [hf]), hrest⟩
    · obtain ⟨hbank, hrest⟩ := onPad_zeroBank hp (firedOnly_of_eq (bankChangeEnd_off hdr hl ht))
      exact ⟨hbank.trans (by rw [hbank]; simp [hf]), hrest⟩
    · obtain ⟨-, hbank, hrest⟩ := onPad_setBank hp (bankChangeEnd_on hdr hl ht hm ho)
      exact ⟨hbank.trans (by rw [hbank]; simp [hf]), hrest⟩
    · obtain ⟨hmem, hbank, -, hbody, hothers⟩ := onPad_setBank hp (bankChangeEnd_wakes hdr ht hm)
      exact ⟨hbank, hmem, hbody, hothers⟩
  · obtain ⟨hbank, hrest⟩ := onPad_zeroBank hp (bankFillEnd_fires (k := kOf s c) hf hl)
    exact ⟨_, rfl, hbank.trans (by rw [hbank]; rfl), hrest⟩
  · obtain ⟨t, htn, hothers, hcore⟩ := lineWriteback_writes hp hw hh hi
    obtain ⟨h1, h2, h3, h4, h5, h6⟩ := writtenBack_leaves (n := n.toNat) (rest := rest) hb ho
    refine ⟨t, htn, ?_⟩
    rw [hcore]
    exact ⟨h1, h2, h3, h4, h5, h6, hothers⟩
  · obtain ⟨t, htn, htr, hothers, hcore⟩ := scrubRead_advances hp (Nat.ne_of_gt hl) hh hc
    refine ⟨t, htn, ?_, htr, ?_, ?_, ?_, ?_, hothers⟩
    all_goals rw [hcore]
    · exact if_congr Iff.rfl rfl rfl
    · exact scrubbed_pass _
    · exact scrubbed_regsKept _
    · rfl
    · exact ⟨rfl, rfl, rfl, rfl, rfl, rfl, rfl, rfl, rfl⟩
  · exact zeroFillEnd_zeroes hp hz hb

end Sys2Proof.Machine
end

section
/-! SUPPORT. Steps of Ryist on a ring pair: which cores they touch, and what of the pair, the jobs and the routers they leave (R198, R199,
R244, R255). -/

namespace Sys2Proof.Machine

/-! ### A step that stays at its core -/

/-- A step of a working context that keeps whose it is, where it is and its router. -/
structure K.AtHome (k k' : K) : Prop where
  c : k'.c = k.c
  rt : k'.rt = k.rt
  here : k'.here = k.here

theorem K.AtHome.trans {a b c : K} (h1 : a.AtHome b) (h2 : b.AtHome c) : a.AtHome c :=
  ⟨h2.c.trans h1.c, h2.rt.trans h1.rt, h2.here.trans h1.here⟩

theorem K.Recoded.atHome {k k' : K} (h : k.Recoded k') : k.AtHome k' := by
  rw [h]
  exact ⟨rfl, rfl, rfl⟩

theorem K.FiredOnly.atHome {k k' : K} (h : k.FiredOnly k') : k.AtHome k' := by
  rw [h.1]
  exact ⟨rfl, rfl, rfl⟩

theorem readLine_atHome (k : K) (agent : Nat) (req : Option CoreId) (acc : Nat) : k.AtHome (k.readLine agent req acc).1 := by
  unfold K.readLine
  split
  · exact (spErr_recoded _ _ _ _ _ _).atHome
  · extract_lets off l k1 core1 k2
    have h1 : k.AtHome k1 := (spFound_recoded _ _ _ _ _).atHome
    refine h1.trans ?_
    dsimp only [k2]
    split
    · exact ⟨rfl, rfl, rfl⟩
    · exact ⟨rfl, rfl, rfl⟩

theorem wroteBytes_atHome (k : K) (c : Core) (off n : Nat) : k.AtHome (K.wroteBytes { k with core := c } off n) :=
  K.AtHome.trans (b := { k with core := c }) ⟨rfl, rfl, rfl⟩ (evalWatches_firedOnly _ _).atHome

theorem writeBytes_atHome (k : K) (agent : Nat) (req : Option CoreId) (off : Nat) (bs : List Byte) :
    k.AtHome (k.writeBytes agent req off bs).1 := by
  unfold K.writeBytes
  split
  · exact (spErr_recoded _ _ _ _ _ _).atHome
  · unfold K.commitBytes
    split
    · extract_lets line l k1
      have h1 : k.AtHome k1 := (spFound_recoded _ _ _ _ _).atHome
      clear_value k1
      split
      · exact h1
      · dsimp only
        exact h1.trans (wroteBytes_atHome k1 _ _ _)
    · dsimp only
      exact wroteBytes_atHome k _ _ _

theorem register_atHome (k : K) (l : Line) (sys : Bool) : k.AtHome (k.register l sys).1 := by
  unfold K.register
  split
  · exact ⟨rfl, rfl, rfl⟩
  · extract_lets w
    split
    · split <;> exact ⟨rfl, rfl, rfl⟩
    · split
      · exact ⟨rfl, rfl, rfl⟩
      · extract_lets k1 v
        dsimp only
        split
        · exact K.AtHome.trans (b := k1) ⟨rfl, rfl, rfl⟩ (fire_firedOnly _ _ _ _).atHome
        · exact ⟨rfl, rfl, rfl⟩

/-! ### Steps on a ring pair -/

/-- A step on a ring pair: jobs, routers and the yard cycle counter are as before, the pair keeps its index block, and of the cores that
`E` names only the one that holds the block may differ (R244, R255). -/
structure State.RingStep (s t : State) (p : Pid) (r : BitVec 3) (E : Nat → Prop) : Prop where
  jobs : t.jobs = s.jobs
  routers : t.routers = s.routers
  phase : t.bu.phase = s.bu.phase
  yc : t.yc = s.yc
  idx : (t.ring p r).idx = (s.ring p r).idx
  cores : ∀ n, (∀ c off, (s.ring p r).idx = some (c, off) → n ≠ coreKey c) → E n → t.cores.get s.blankCore n = s.cores.get s.blankCore n

section
variable {s t u : State} {p : Pid} {r : BitVec 3} {E : Nat → Prop}

theorem State.RingStep.refl (s : State) : s.RingStep s p r E := ⟨rfl, rfl, rfl, rfl, rfl, fun _ _ _ => rfl⟩

theorem State.RingStep.trans (h1 : s.RingStep t p r E) (h2 : t.RingStep u p r E) : s.RingStep u p r E := by
  refine ⟨h2.jobs.trans h1.jobs, h2.routers.trans h1.routers, h2.phase.trans h1.phase, h2.yc.trans h1.yc, h2.idx.trans h1.idx, fun n hn he => ?_⟩
  have hb : t.blankCore = s.blankCore := by rw [State.blankCore, State.blankCore, h1.phase]
  have h := h2.cores n (h1.idx.symm ▸ hn) he
  rw [hb] at h
  exact h.trans (h1.cores n hn he)

/-- A step that touches neither cores nor rings. -/
theorem ringStep_of_kept (hj : t.jobs = s.jobs) (hr : t.routers = s.routers) (hb : t.bu = s.bu) (hy : t.yc = s.yc)
    (hc : t.cores = s.cores) (hg : t.rings = s.rings) : s.RingStep t p r E := by
  refine ⟨hj, hr, by rw [hb], hy, ?_, fun _ _ _ => by rw [hc]⟩
  rw [State.ring, State.ring, hg]

/-- A step of the core that holds the pair's index block. -/
theorem onCore_ringStep {c : CoreId} {f : K → K} (hf : ∀ k, K.AtHome k (f k))
    (hc : ∀ n, E n → (∀ c off, (s.ring p r).idx = some (c, off) → n ≠ coreKey c) → n ≠ coreKey c) : s.RingStep (onCore c s f) p r E := by
  have hco := onCore_coresOnly c s f
  refine ⟨by rw [hco], onCore_routers (fun k => ⟨(hf k).rt, (hf k).here⟩) c s, by rw [hco], by rw [hco],
    by rw [hco.ringsStill.ring], fun n hn he => ?_⟩
  unfold onCore
  split
  · exact (kPut_other (hf _).c).2 n (hc n he hn)
  · rfl

theorem setRing_ringStep {g : Ring} (h : g.idx = (s.ring p r).idx) : s.RingStep (s.setRing p r g) p r E :=
  ⟨rfl, rfl, rfl, rfl, by rw [ring_setRing, if_pos ⟨rfl, rfl⟩, h], fun _ _ _ => rfl⟩

/-- The pair of a state after it has been set. -/
theorem ring_setRing_self (s : State) (p : Pid) (r : BitVec 3) (g : Ring) : (s.setRing p r g).ring p r = g := by
  rw [ring_setRing, if_pos ⟨rfl, rfl⟩]

/-! ### Index words -/

theorem idxStore_ringStep (s : State) (p : Pid) (r : BitVec 3) (k : Nat) (v : DWord) : s.RingStep (s.idxStore p r k v) p r E := by
  unfold State.idxStore
  split
  · exact .refl s
  · rename_i c off hidx
    split
    · exact onCore_ringStep (fun _ => writeBytes_atHome _ _ _ _ _) fun n _ hn => hn c off hidx
    · exact .refl s

theorem padUp_onGrid {c : CoreId} (h : s.padUp c = true) : onGrid c = true := by
  simp only [State.padUp, Bool.and_eq_true] at h
  exact h.1.1.1

theorem idxLoad_ringStep (s : State) (p : Pid) (r : BitVec 3) (k : Nat) : s.RingStep (s.idxLoad p r k).1 p r E := by
  unfold State.idxLoad
  split
  · exact .refl s
  · rename_i c off hidx
    split
    · rename_i hup
      have honce : kPut s ((kOf s c).readLine agNET none (off + 64 * k)).1 = onCore c s (fun q => (q.readLine agNET none (off + 64 * k)).1) :=
        (if_pos (padUp_onGrid hup)).symm
      dsimp only
      rw [honce]
      exact onCore_ringStep (fun _ => readLine_atHome _ _ _ _) fun n _ hn => hn c off hidx
    · exact .refl s

/-! ### Publication -/

theorem notify_ringStep (s : State) (fn vec : Nat) : s.RingStep (s.notify fn vec) p r E := by
  obtain ⟨pend, out, h, -⟩ := notify_eq s fn vec
  rw [h]
  exact ringStep_of_kept rfl rfl rfl rfl rfl rfl

theorem storeAt_ringStep (s : State) (a : DWord) (bs : List Byte) : s.RingStep (s.storeAt a bs) p r E := by
  unfold State.storeAt
  split
  · refine foldl_relates (R := fun s t => State.RingStep s t p r E) .refl State.RingStep.trans (fun s i => ?_) s
    dsimp only
    split
    · exact ringStep_of_kept rfl rfl rfl rfl rfl rfl
    · exact ringStep_of_kept rfl rfl rfl rfl rfl rfl
  · exact ringStep_of_kept rfl rfl rfl rfl rfl rfl

/-- A step of publication: the pair keeps the readers' indexes too (R198). -/
structure State.Published (s t : State) (p : Pid) (r : BitVec 3) (E : Nat → Prop) : Prop extends s.RingStep t p r E where
  subRd : (t.ring p r).subRd = (s.ring p r).subRd
  compRd : (t.ring p r).compRd = (s.ring p r).compRd

theorem State.Published.refl (s : State) : s.Published s p r E := ⟨.refl s, rfl, rfl⟩

theorem State.Published.trans (h1 : s.Published t p r E) (h2 : t.Published u p r E) : s.Published u p r E :=
  ⟨h1.toRingStep.trans h2.toRingStep, h2.subRd.trans h1.subRd, h2.compRd.trans h1.compRd⟩

theorem setRing_published {g : Ring} (hi : g.idx = (s.ring p r).idx) (hs : g.subRd = (s.ring p r).subRd)
    (hc : g.compRd = (s.ring p r).compRd) : s.Published (s.setRing p r g) p r E :=
  ⟨setRing_ringStep hi, by rw [ring_setRing_self, hs], by rw [ring_setRing_self, hc]⟩

/-- A step of publication that leaves the pair itself as it is. -/
theorem State.RingStep.published (h : s.RingStep t p r E) (hg : s.RingsStill t) : s.Published t p r E :=
  ⟨h, by rw [hg.ring], by rw [hg.ring]⟩

theorem publishAt_published (s : State) (p : Pid) (r : BitVec 3) (bs : List Byte) (n : Nat) : s.Published (s.publishAt p r bs n) p r E := by
  unfold State.publishAt
  extract_lets g s1 w s2
  have h1 : s.Published s1 p r E := (storeAt_ringStep s _ _).published (storeAt_ringsStill s _ _)
  have hg : g = s1.ring p r := ((storeAt_ringsStill s _ _).ring p r).symm
  have h2 : s1.Published s2 p r E := by
    refine (setRing_published ?_ ?_ ?_).trans ((idxStore_ringStep _ _ _ _ _).published (idxStore_ringsStill _ _ _ _ _)) <;> rw [← hg]
  split
  · exact h1.trans h2
  · exact (h1.trans h2).trans ((notify_ringStep _ _ _).published (notify_ringsStill _ _ _))

theorem ycount_published (s : State) (lo n : Nat) : s.Published (s.ycount lo n) p r E := ⟨ringStep_of_kept rfl rfl rfl rfl rfl rfl, rfl, rfl⟩

theorem publishOne_published (s : State) (p : Pid) (r : BitVec 3) (x : RingRecord) : s.Published (s.publishOne p r x) p r E := by
  unfold State.publishOne
  have h1 : s.Published (s.publishAt p r x.bytes x.bytes.length) p r E := publishAt_published s p r _ _
  generalize s.publishAt p r x.bytes x.bytes.length = s1 at h1
  have h2 : s.Published (s1.setRing p r { s1.ring p r with published := (s1.ring p r).published ++ [x] }) p r E :=
    h1.trans (setRing_published rfl rfl rfl)
  dsimp only
  split
  · exact h2.trans ((ycount_published _ _ _).trans (ycount_published _ _ _))
  · exact h2

theorem publishList_published (p : Pid) (r : BitVec 3) (l : List RingRecord) (s : State) : s.Published (publishList p r l s) p r E := by
  have hwait (s : State) (l : List RingRecord) : s.Published (s.setRing p r { s.ring p r with waiting := l }) p r E :=
    setRing_published rfl rfl rfl
  induction l generalizing s with
  | nil => exact hwait s []
  | cons y l ih =>
    unfold publishList
    dsimp only
    split
    · exact hwait s _
    · split
      · exact hwait s _
      · split
        · exact (publishOne_published s p r y).trans (ih _)
        · exact hwait s _
      · split
        · exact hwait s _
        · have hskip : s.Published (s.publishSkip p r) p r E := publishAt_published s p r _ _
          split
          · split
            · exact (hskip.trans (publishOne_published _ p r y)).trans (ih _)
            · exact hskip.trans (hwait _ _)
          · exact hskip.trans (hwait _ _)

theorem loadRdidx_ringStep (s : State) (p : Pid) (r : BitVec 3) : s.RingStep (s.loadRdidx p r) p r E ∧
    ((s.loadRdidx p r).ring p r).subRd = (s.ring p r).subRd := by
  have h : s.RingStep (s.idxLoad p r 3).1 p r E := idxLoad_ringStep s p r 3
  have hg := (idxLoad_ringsStill s p r 3).ring p r
  unfold State.loadRdidx
  split
  · rename_i s1 v heq
    rw [heq] at h hg
    dsimp only at h hg ⊢
    split
    · exact ⟨h.trans (setRing_ringStep rfl), by rw [ring_setRing_self, hg]⟩
    · exact ⟨h, by rw [hg]⟩
  · rename_i s1 heq
    rw [heq] at h hg
    exact ⟨h, by rw [hg]⟩

/-- A record that joins its ring (R255). -/
theorem pushRecord_step (s : State) (p : Pid) (r : BitVec 3) (x : RingRecord) : s.RingStep (s.pushRecord p r x) p r E ∧
    ((s.pushRecord p r x).ring p r).subRd = (s.ring p r).subRd ∧ s.recorded (s.pushRecord p r x) p r x := by
  obtain ⟨hload, hsub⟩ := loadRdidx_ringStep (E := E) s p r
  have hrec := loadRdidx_recordsKept s p r
  have hpub := publishList_published (E := E) p r (((s.loadRdidx p r).ring p r).waiting ++ [x]) (s.loadRdidx p r)
  have hcar := (publishList_publishes p r (((s.loadRdidx p r).ring p r).waiting ++ [x]) (s.loadRdidx p r)).carried p r
  refine ⟨hload.trans hpub.toRingStep, hpub.subRd.trans hsub, hcar.trans ?_⟩
  rw [if_pos ⟨rfl, rfl⟩, hrec.published, hrec.waiting, List.append_assoc]

/-! ### Records read -/

/-- A core key is not that of the helper core that watches a partition's rings. -/
def State.offHelper (s : State) (p : Pid) (n : Nat) : Prop := ∀ h, s.helperCore p = some h → n ≠ coreKey h

theorem watchRing_ringStep (s : State) (p : Pid) (r : BitVec 3) : s.RingStep (s.watchRing p r) p r (s.offHelper p) ∧
    s.RingsStill (s.watchRing p r) := by
  unfold State.watchRing
  split
  · rename_i c off h hidx hhelp
    extract_lets s1 mine
    have h1 : s.RingStep s1 p r (s.offHelper p) ∧ s.RingsStill s1 := by
      dsimp only [s1]
      split
      · exact ⟨onCore_ringStep (fun _ => ⟨rfl, rfl, rfl⟩) fun n hn _ => hn h hhelp, (onCore_coresOnly _ _ _).ringsStill⟩
      · exact ⟨.refl s, .refl s⟩
    have hidx1 : (s1.ring p r).idx = some (c, off) := by rw [h1.2.ring, hidx]
    split
    · exact ⟨h1.1.trans (onCore_ringStep (fun _ => register_atHome _ _ _) fun n _ hn => hn c off hidx1),
        h1.2.trans (onCore_coresOnly _ _ _).ringsStill⟩
    · exact h1
  · exact ⟨.refl s, .refl s⟩

/-- What reading a record's index and header leaves (R199, R244). -/
theorem fetchRecord_step {host : List Byte} {s1 : State} {x : RawRecord} (h : s.fetchRecord p r host = some (s1, x)) :
    s.RingStep s1 p r (s.offHelper p) ∧ s.RecordsKept s1 ∧ (s1.ring p r).subRd = (s.ring p r).subRd := by
  have hload : s.RingStep (s.idxLoad p r 0).1 p r (s.offHelper p) := idxLoad_ringStep s p r 0
  have hstill := idxLoad_ringsStill s p r 0
  have hco : s.coresOnly (s.idxLoad p r 0).1 := by
    unfold State.idxLoad
    split
    · exact .refl s
    · split
      · exact kPut_anyCoresOnly s _
      · exact .refl s
  unfold State.fetchRecord at h
  split at h
  · exact absurd h (by simp)
  · split at h
    · exact absurd h (by simp)
    · rename_i u w heq
      rw [heq] at hload hstill hco
      dsimp only at h hload hstill hco
      have hset : u.RingStep (u.setRing p r { u.ring p r with subWr := w }) p r (s.offHelper p) := setRing_ringStep rfl
      have hkept : u.RecordsKept (u.setRing p r { u.ring p r with subWr := w }) := setRing_recordsKept rfl rfl
      have hhelp : (u.setRing p r { u.ring p r with subWr := w }).offHelper p = s.offHelper p := by rw [hco]; rfl
      obtain ⟨hwatch, hwstill⟩ := watchRing_ringStep (u.setRing p r { u.ring p r with subWr := w }) p r
      rw [hhelp] at hwatch
      have hsub : ((u.setRing p r { u.ring p r with subWr := w }).watchRing p r).ring p r = { u.ring p r with subWr := w } := by
        rw [hwstill.ring, ring_setRing_self]
      have hs1 : s1 = (u.setRing p r { u.ring p r with subWr := w }).watchRing p r := by
        split at h
        · exact absurd h (by simp)
        · split at h
          · exact absurd h (by simp)
          · split at h
            · exact absurd h (by simp)
            · exact (congrArg Prod.fst (Option.some.inj h)).symm
      rw [hs1]
      exact ⟨(hload.trans hset).trans hwatch, (hstill.recordsKept.trans hkept).trans hwstill.recordsKept, by rw [hsub, hstill.ring]⟩

/-- What passing a record leaves (R199). -/
theorem readRecord_step (s : State) (p : Pid) (r : BitVec 3) (len : Nat) : s.RingStep (s.readRecord p r len) p r E ∧
    s.RecordsKept (s.readRecord p r len) ∧ ((s.readRecord p r len).ring p r).subRd = (s.ring p r).subRd + BitVec.ofNat 64 (recSize len) := by
  unfold State.readRecord State.advanceRd
  extract_lets g v
  refine ⟨State.RingStep.trans (t := s.setRing p r { g with subRd := v }) (setRing_ringStep rfl) (idxStore_ringStep _ _ _ _ _),
    State.RecordsKept.trans (t := s.setRing p r { g with subRd := v }) (setRing_recordsKept rfl rfl)
      (idxStore_ringsStill _ _ _ _ _).recordsKept, ?_⟩
  rw [(idxStore_ringsStill _ _ _ _ _).ring, ring_setRing_self]

/-- Every core but those that serve the pair is as before. -/
theorem State.RingStep.ringCoresKept (h : s.RingStep t p r (s.offHelper p)) : s.ringCoresKept t p r :=
  ⟨h.phase, fun n hn hh => h.cores n (h.idx ▸ hn) hh⟩

end

end Sys2Proof.Machine
end

section
/-! SUPPORT. The job table, and the records that a job ends with: outputs released, jobs completed and killed, what waits for ring space
(R253 to R255, R260, R375 to R381). -/

namespace Sys2Proof.Machine

/-! ### The job table -/

section
variable {s t u : State} {p : Pid} {r : BitVec 3} {id : DWord} {j : Job} {E : Nat → Prop}

/-- What a job found in the table is. -/
theorem job?_isJob (h : s.job? p r id = some j) : j.p = p ∧ j.r = r ∧ j.jobid = id ∧ j.phase ≠ .finished := by
  have hj := List.find?_some h
  simpa [isJob, and_assoc] using hj

/-- A job that is changed, its name kept, is found as it has become. -/
theorem job?_onJob_map {f : Job → Job} (hf : ∀ x, isJob p r id x = true → isJob p r id (f x) = true) (h : s.job? p r id = some j) :
    (s.onJob p r id f).job? p r id = some (f j) := by
  have hsame : isJob p r id ∘ (fun x => if isJob p r id x then f x else x) = isJob p r id := by
    funext x
    cases hx : isJob p r id x with
    | true => simp [hx, hf x hx]
    | false => simp [hx]
  have hj : isJob p r id j = true := List.find?_some h
  show (s.jobs.map _).find? _ = _
  rw [List.find?_map, hsame, show s.jobs.find? (isJob p r id) = some j from h]
  exact congrArg some (if_pos hj)

/-- A job that has left the table is not found. -/
theorem job?_removed (s : State) (p : Pid) (r : BitVec 3) (id : DWord) :
    ({ s with jobs := s.jobs.filter (fun x => !isJob p r id x) } : State).job? p r id = none := by
  refine List.find?_eq_none.2 fun x hx => ?_
  simpa using (List.mem_filter.1 hx).2

theorem job?_of_jobs (h : t.jobs = s.jobs) (p : Pid) (r : BitVec 3) (id : DWord) : t.job? p r id = s.job? p r id := by
  rw [State.job?, State.job?, h]

theorem published_published (s t : State) : t.Published (published s t) p r E := by
  obtain ⟨ys, h, -⟩ := published_yregs s t
  rw [h]
  exact ⟨ringStep_of_kept rfl rfl rfl rfl rfl rfl, rfl, rfl⟩

theorem setPstate_published (s : State) (q : Pid) (st : Nat) : s.Published (s.setPstate q st) p r E := by
  obtain ⟨ps, ys, h, heq, -⟩ := setPstate_eq s q st
  rw [heq]
  exact ⟨ringStep_of_kept rfl rfl rfl rfl rfl rfl, rfl, rfl⟩

/-- What follows publication and leaves the pair alone leaves what has been recorded (R255). -/
theorem recorded_after {x : RingRecord} (h : s.recorded t p r x) (ht : u.ring p r = t.ring p r) : s.recorded u p r x := by
  rw [State.recorded, ht]
  exact h

theorem recorded_before {x : RingRecord} (h : t.recorded u p r x) (ht : t.ring p r = s.ring p r) : s.recorded u p r x := by
  rw [State.recorded, ← ht]
  exact h

theorem published_ring (s t : State) (p : Pid) (r : BitVec 3) : (published s t).ring p r = t.ring p r := by
  obtain ⟨ys, h, -⟩ := published_yregs s t
  rw [h]
  rfl

/-- Steps on a pair, between which neither cores nor the pair have changed. -/
theorem State.RingStep.ringCoresKept_then {v : State} (h1 : s.RingStep t p r (s.offHelper p)) (h2 : u.RingStep v p r (s.offHelper p))
    (hb : u.bu = t.bu) (hc : u.cores = t.cores) (hg : u.ring p r = t.ring p r) : s.ringCoresKept v p r := by
  have hphase : u.bu.phase = s.bu.phase := by rw [hb, h1.phase]
  have hblank : u.blankCore = s.blankCore := by rw [State.blankCore, State.blankCore, hphase]
  refine ⟨h2.phase.trans hphase, fun n hn hh => ?_⟩
  have hidx := h2.cores n (h2.idx ▸ hn) hh
  rw [hblank, hc] at hidx
  refine hidx.trans (h1.cores n ?_ hh)
  rw [← h1.idx, ← hg, ← h2.idx]
  exact hn

/-- Steps on a pair after one that has changed neither cores nor the pair. -/
theorem State.RingStep.ringCoresKept_since (h : t.RingStep u p r (s.offHelper p)) (hb : t.bu = s.bu) (hc : t.cores = s.cores)
    (hg : t.ring p r = s.ring p r) : s.ringCoresKept u p r := (State.RingStep.refl s).ringCoresKept_then h hb hc hg

/-! ### A job finishes -/

/-- The state in which a job has left the table and its energy is added (R254). -/
def State.finishing (s : State) (j : Job) : State :=
  (State.ycount { s with jobs := s.jobs.filter (fun x => !isJob j.p j.r j.jobid x) } (ringOff j.p j.r + 0x20) (j.energyPj / 1000000000)).ycount
    (yJB + 0x108 + 0x40 * j.p.toNat) (j.energyPj / 1000000000)

/-- What the end of a job leaves: its record in its ring, the reader's index, and every core that does not serve the pair (R254, R255). -/
theorem finishJob_step (s : State) (j : Job) :
    (s.finishing j).RingStep (s.finishJob j) j.p j.r E ∧ ((s.finishJob j).ring j.p j.r).subRd = (s.ring j.p j.r).subRd ∧
      s.recorded (s.finishJob j) j.p j.r (s.completion j) ∧ (s.finishJob j).job? j.p j.r j.jobid = none := by
  obtain ⟨hstep, hsub, hrec⟩ := pushRecord_step (E := E) (s.finishing j) j.p j.r (s.completion j)
  have hgone : (s.finishing j).job? j.p j.r j.jobid = none := job?_removed s j.p j.r j.jobid
  have hend : ((s.finishing j).pushRecord j.p j.r (s.completion j)).Published (s.finishJob j) j.p j.r E ∧
      ((s.finishing j).pushRecord j.p j.r (s.completion j)).RingsStill (s.finishJob j) := by
    have hdef : s.finishJob j = if (((s.finishing j).pushRecord j.p j.r (s.completion j)).partition j.p).state = 3 ∨
        (((s.finishing j).pushRecord j.p j.r (s.completion j)).partition j.p).state = 4 then (s.finishing j).pushRecord j.p j.r (s.completion j)
        else ((s.finishing j).pushRecord j.p j.r (s.completion j)).setPstate j.p
          (((s.finishing j).pushRecord j.p j.r (s.completion j)).restPstate j.p) := rfl
    rw [hdef]
    split
    · exact ⟨.refl _, .refl _⟩
    · exact ⟨setPstate_published _ _ _, setPstate_ringsStill _ _ _⟩
  refine ⟨hstep.trans hend.1.toRingStep, hend.1.subRd.trans hsub, recorded_after hrec (hend.2.ring _ _), ?_⟩
  rw [job?_of_jobs (hend.1.jobs.trans hstep.jobs), hgone]

/-! ### Outputs and stages -/

/-- An output is released when its hold has passed (R375, R377, R378). -/
theorem outputDecision_releases {arg : BitVec 6} {f : DWord} (hs : s.fc.safe = false) (hj : s.job? p r id = some j)
    (hf : j.output arg.toNat = .final f) (hy : f.toNat + 125000 ≤ s.yc.toNat) :
    ∃ t : State, ∃ j', exec (.outputDecision p r id arg) s = .next t ∧ t.job? p r id = some j' ∧ j'.output arg.toNat = .released f s.yc ∧
      j'.lastRelease = s.yc ∧ s.recorded t p r (.release id (BitVec.ofNat 8 arg.toNat) false 0 0 0 f s.yc) ∧ s.ringCoresKept t p r := by
  obtain ⟨hp, hr, hid, -⟩ := job?_isJob hj
  have hexec : exec (.outputDecision p r id arg) s = .next (s.releaseOut j arg.toNat f) := by
    show execOutputDecision p r id arg s = _
    simp [execOutputDecision, hj, hf, hs, Nat.not_lt.2 hy]
  subst hp hr hid
  have hjob := job?_onJob_map (f := fun x => { x with outputs := x.outputs.set arg.toNat (.released f s.yc), lastRelease := s.yc })
    (fun _ hx => hx) hj
  obtain ⟨hstep, -, hrec⟩ := pushRecord_step (E := s.offHelper j.p)
    ((s.onJob j.p j.r j.jobid (fun x => { x with outputs := x.outputs.set arg.toNat (.released f s.yc), lastRelease := s.yc })).ycount
      (yFC + 0x30) 1) j.p j.r (.release j.jobid (BitVec.ofNat 8 arg.toNat) false 0 0 0 f s.yc)
  refine ⟨_, _, hexec, (job?_of_jobs hstep.jobs _ _ _).trans hjob, SMap.get_set_self _ _ _ _, rfl, hrec, ?_⟩
  exact hstep.ringCoresKept_since rfl rfl rfl

theorem outputDecision_holds {arg : BitVec 6} {f : DWord} (hj : s.job? p r id = some j)
    (hf : j.output arg.toNat = .final f) (hy : s.yc.toNat < f.toNat + 125000) : exec (.outputDecision p r id arg) s = .next s := by
  show execOutputDecision p r id arg s = _
  simp [execOutputDecision, hj, hf, hy]

/-- A guarded stage passes its hold (R381). -/
theorem stageHoldExpiry_passes {stage : BitVec 8} {f : DWord} (hs : s.fc.safe = false) (hj : s.job? p r id = some j)
    (hf : j.stageEnds.get .open stage.toNat = .final f) (hr : j.replaying = none) (hy : f.toNat + 125000 ≤ s.yc.toNat)
    (hl : stage.toNat + 1 ≠ j.pkg.nstage) :
    ∃ t : State, ∃ j', exec (.stageHoldExpiry p r id stage) s = .next t ∧ t.job? p r id = some j' ∧
      j'.stageEnds.get .open stage.toNat = .released f s.yc ∧ j'.phase = j.phase ∧ s.coresKept t := by
  have hexec : exec (.stageHoldExpiry p r id stage) s = .next (published s
      (s.onJob p r id (fun x => { x with stageEnds := x.stageEnds.set stage.toNat (.released f s.yc) }))) := by
    show execStageHoldExpiry p r id stage s = _
    simp [execStageHoldExpiry, hj, hf, hs, hr, Nat.not_lt.2 hy, hl]
  have hjob := job?_onJob_map (f := fun x => { x with stageEnds := x.stageEnds.set stage.toNat (.released f s.yc) }) (fun _ hx => hx) hj
  obtain ⟨ys, hpub, -⟩ := published_yregs s (s.onJob p r id (fun x => { x with stageEnds := x.stageEnds.set stage.toNat (.released f s.yc) }))
  rw [hpub] at hexec
  exact ⟨_, _, hexec, hjob, SMap.get_set_self _ _ _ _, rfl, fun _ => ⟨rfl, rfl, rfl⟩⟩

end

/-! ### Sections freed and cores stepped, with RT_PID as it is -/

/-- Clearing merge slots of a router leaves RT_PID (R165). -/
theorem clearMerge_rtPid (x : Router) (l : List Nat) : (x.clearMerge l).reg rRT_PID = x.reg rRT_PID := by
  refine foldl_relates (R := fun a b => Router.reg b rRT_PID = Router.reg a rRT_PID) (fun _ => rfl) (fun h1 h2 => h2.trans h1)
    (fun a n => ?_) x
  have hne : rRT_PID ≠ rRT_RED + 0x20 * n := by simp only [rRT_PID, rRT_RED]; omega
  dsimp only
  split
  · exact SMap.get_set_other _ _ _ _ _ hne
  · rfl

theorem clearMerges_rtPid (s : State) (n : Nat) (q : Nat × Nat) : (s.clearMerges n).rtPid q = s.rtPid q := by
  refine foldl_relates (R := fun a b => State.rtPid b q = State.rtPid a q) (fun _ => rfl) (fun h1 h2 => h2.trans h1) (fun a e => ?_) s
  rw [rtPid_onRouter]
  split
  · rename_i hk
    rw [clearMerge_rtPid, State.rtPid, State.router, State.router, hk]
  · rfl

theorem freeSections_rtPid (s : State) (l : List Nat) (q : Nat × Nat) : (s.freeSections l).rtPid q = s.rtPid q := by
  refine foldl_relates (R := fun a b => State.rtPid b q = State.rtPid a q) (fun _ => rfl) (fun h1 h2 => h2.trans h1) (fun a n => ?_) s
  exact clearMerges_rtPid a n q

theorem freeSections_sectionsOnly (s : State) (l : List Nat) : s.sectionsOnly (s.freeSections l) :=
  foldl_relates (R := State.sectionsOnly) (fun _ => rfl) State.sectionsOnly.trans (fun a n => freeSection_sectionsOnly a n) s

theorem clearMerges_routersOnly (s : State) (n : Nat) : s.routersOnly (s.clearMerges n) := by
  refine foldl_relates (R := State.routersOnly) (fun _ => rfl) State.routersOnly.trans (fun a e => ?_) s
  exact onRouter_eq a e.1 e.2.1 _

theorem dfAbort_atHome (k : K) : k.AtHome k.dfAbort.1 := by
  unfold K.dfAbort
  split <;> exact ⟨rfl, rfl, rfl⟩

/-- An ABORT that Ryist sends to a section changes cores and merge slots, and no RT_PID (R165, R219). -/
theorem sendAbort_keeps (s : State) (n : Nat) : s.coresOnly (s.sendAbort n) ∧ ∀ q, (s.sendAbort n).rtPid q = s.rtPid q := by
  have hclear : s.coresOnly (s.clearMerges n) := by
    rw [clearMerges_routersOnly s n]
    rfl
  refine ⟨hclear.trans (onCores_coresOnly _ _ _), fun q => ?_⟩
  refine (rtPid_of_routers (foldl_relates (R := fun a b => State.routers b = State.routers a) (fun _ => rfl) (fun h1 h2 => h2.trans h1)
    (fun a c => ?_) _) q).trans (clearMerges_rtPid s n q)
  exact onCore_routers (fun k => ⟨(dfAbort_atHome k).rt, (dfAbort_atHome k).here⟩) c a

/-- Sections of a job aborted, one after the other. -/
def State.sendAborts (s : State) (l : List Nat) : State := l.foldl (fun (a : State) n => a.sendAbort n) s

theorem sendAborts_keeps (s : State) (l : List Nat) : s.coresOnly (s.sendAborts l) ∧ ∀ q, (s.sendAborts l).rtPid q = s.rtPid q :=
  foldl_relates (R := fun a b => State.coresOnly a b ∧ ∀ q, State.rtPid b q = State.rtPid a q) (fun a => ⟨.refl a, fun _ => rfl⟩)
    (fun h1 h2 => ⟨h1.1.trans h2.1, fun q => (h2.2 q).trans (h1.2 q)⟩) (fun a n => sendAbort_keeps a n) s

/-! ### Completion -/

section
variable {s : State} {p : Pid} {r : BitVec 3} {j : Job}

/-- A job whose scrubs are not done goes on waiting for its record (R254). -/
theorem jobCompletionPublish_waits (hj : s.job? p r j.jobid = some j) (h : s.scrubsDone j = false) :
    exec (.jobCompletionPublish p r j.jobid) s = .next s := by
  show execJobCompletionPublish p r j.jobid s = _
  simp [execJobCompletionPublish, hj, h]

/-- A job that has ended, all it waits for done, leaves the table with its record (R253, R254). -/
theorem jobCompletionPublish_completes (hs : s.fc.safe = false) (hj : s.job? p r j.jobid = some j) (hph : j.phase = .ended)
    (hd : j.allDecided = true) (ho : j.outs = []) (hscr : s.scrubsDone j = true) :
    ∃ t : State, ∃ y, exec (.jobCompletionPublish p r j.jobid) s = .next t ∧ t.job? p r j.jobid = none ∧ s.recorded t p r y ∧
      y.completes j.jobid j.status.toNat j.detail.toNat ∧ s.ringCoresKept t p r := by
  obtain ⟨hp, hr, -, -⟩ := job?_isJob hj
  subst hp hr
  obtain ⟨u, hu, hexec⟩ : ∃ u, s.sectionsOnly u ∧ exec (.jobCompletionPublish j.p j.r j.jobid) s =
      .next (published s (u.finishJob { j with scrubbed := j.kept.isEmpty })) := by
    refine ⟨if !j.kept.isEmpty then s else s.freeSections (s.jobSlots j), ?_, ?_⟩
    · split
      · rfl
      · exact freeSections_sectionsOnly _ _
    · show execJobCompletionPublish j.p j.r j.jobid s = _
      simp only [execJobCompletionPublish, hj, hd, hs, hscr, hph, ho, List.any_nil, Bool.and_false]
      rfl
  obtain ⟨hstep, -, hrec, hgone⟩ := finishJob_step (E := s.offHelper j.p) u { j with scrubbed := j.kept.isEmpty }
  have hpub := published_published (p := j.p) (r := j.r) (E := s.offHelper j.p) s (u.finishJob { j with scrubbed := j.kept.isEmpty })
  refine ⟨_, _, hexec, (job?_of_jobs hpub.jobs _ _ _).trans hgone, recorded_before (recorded_after hrec (published_ring _ _ _ _)) ?_,
    ⟨rfl, rfl, rfl⟩, ?_⟩
  · rw [hu]
    rfl
  · refine (hstep.trans hpub.toRingStep).ringCoresKept_since ?_ ?_ ?_ <;> rw [hu] <;> rfl

/-- The firewalls of a killed job's clusters are open once its kill has ended, and nothing of any ring has changed (R260). -/
theorem killEnds_opens (s : State) (j : Job) : s.RingsStill (s.killEnds j) ∧
    ∀ cl ∈ j.clusters, ∀ q ∈ clusterPositions cl, ((s.killEnds j).rtPid q).getLsbD 31 = false := by
  have hcores := onCores_coresOnly (j.clusters.flatMap s.usableCores) s (fun k => { k with core := k.core.zeroSync })
  unfold State.killEnds
  extract_lets s1
  have hopen := onClustersPid_routersOnly s1 j.clusters (fun w => setField w 31 1 false.toNat)
  have hroute : s1.RingsStill (s1.onClustersPid j.clusters (fun w => setField w 31 1 false.toNat)) := by
    rw [hopen]
    exact ⟨⟨rfl, rfl, rfl, rfl, rfl⟩, rfl, fun _ _ => rfl⟩
  refine ⟨(hcores.ringsStill.trans hroute).trans (freeSections_ringsStill _ _), fun cl hcl q hq => ?_⟩
  refine (congrArg (fun w => BitVec.getLsbD w 31) (freeSections_rtPid _ _ q)).trans ?_
  exact onClustersPid_rtPid (P := fun w => w.getLsbD 31 = false) (setClosed_bit false) hcl hq

/-- A killed job whose core resets and scrubs are done leaves the table with its record, its firewalls open (R260). -/
theorem jobCompletionPublish_killed (hs : s.fc.safe = false) (hj : s.job? p r j.jobid = some j) (hph : j.phase = .killed)
    (hk : j.killYc = none) (hst : (s.partition p).state ≠ 3) (hd : j.allDecided = true) (hscr : s.scrubsDone j = true) :
    ∃ t : State, ∃ y, exec (.jobCompletionPublish p r j.jobid) s = .next t ∧ t.job? p r j.jobid = none ∧ s.recorded t p r y ∧
      y.completes j.jobid j.status.toNat j.detail.toNat ∧ ∀ cl ∈ j.clusters, ∀ q ∈ clusterPositions cl, (t.rtPid q).getLsbD 31 = false := by
  obtain ⟨hp, hr, -, -⟩ := job?_isJob hj
  subst hp hr
  have hexec : exec (.jobCompletionPublish j.p j.r j.jobid) s = .next (published s ((s.killEnds j).finishJob j)) := by
    show execJobCompletionPublish j.p j.r j.jobid s = _
    simp only [execJobCompletionPublish, hj, hd, hs, hscr, hph, hk, hst]
    rfl
  obtain ⟨hstill, hopen⟩ := killEnds_opens s j
  obtain ⟨hstep, -, hrec, hgone⟩ := finishJob_step (E := fun _ => True) (s.killEnds j) j
  have hpub := published_published (p := j.p) (r := j.r) (E := fun _ => True) s ((s.killEnds j).finishJob j)
  refine ⟨_, _, hexec, (job?_of_jobs hpub.jobs _ _ _).trans hgone,
    recorded_before (recorded_after hrec (published_ring _ _ _ _)) (hstill.ring _ _), ⟨rfl, rfl, rfl⟩, fun cl hcl q hq => ?_⟩
  rw [rtPid_of_routers (hpub.routers.trans hstep.routers) q]
  exact hopen cl hcl q hq

/-! ### Kills -/

/-- The outputs of a job whose undecided ones are withdrawn are all decided (R257, R260). -/
theorem withdrawn_decided (j : Job) (i : Nat) (h : i ∈ j.outs) : (j.withdrawn.get .open i).decided = true := by
  have hset : ∀ (m : SMap GateState) x, (SMap.get .open m i).decided = true ∨ (x = i ∧ ¬ (j.output i).decided = true) →
      (SMap.get .open (if (j.output x).decided then m else m.set x .withdrawn) i).decided = true := by
    intro m x h
    split
    · rename_i hx
      exact h.resolve_right fun ⟨he, hn⟩ => hn (he ▸ hx)
    · rw [SMap.get_set]
      split
      · rfl
      · rename_i hne
        exact h.resolve_right fun ⟨he, _⟩ => hne he.symm
  refine foldl_reaches (P := fun m => (SMap.get GateState.open m i).decided = true) (hit := fun x => x = i ∧ ¬ (j.output i).decided = true)
    (fun m x hx => hset m x (.inr hx)) (fun m x hx => hset m x (.inl hx)) ?_
  by_cases hd : (j.output i).decided = true
  · exact .inl hd
  · exact .inr ⟨i, h, rfl, hd⟩

/-- The entry of a job that is being killed (R260, R263). -/
def Job.killedAt (j : Job) (status : Nat) (yc : DWord) : Job :=
  { j with
    phase := .killed, status := BitVec.ofNat 16 status, detail := 0, fcause := 0xFF, fkind := 0, fcore := 0, replaying := none
    clusters := j.clusters ++ j.kept, kept := [], outputs := j.withdrawn, killYc := some yc
    endStamp := if j.started.isSome && j.phase == .running then yc else j.endStamp }

theorem killedAt_allDecided (j : Job) (status : Nat) (yc : DWord) : (j.killedAt status yc).allDecided = true :=
  List.all_eq_true.2 fun i hi => withdrawn_decided j i hi

theorem killStart_waiting {status : Nat} (h : j.phase = .waiting) : s.killStart j status = s.finishJob (j.killedAt status s.yc) := if_pos h

/-- The state in which the firewalls of a killed job's clusters have closed (R260). -/
def State.killClosed (s : State) (j dead : Job) : State :=
  (State.onJob { s with residents := s.residents.filter (fun x => !(x.p == j.p && x.r == j.r && x.clusters == j.kept)) }
    j.p j.r j.jobid (fun _ => dead)).onClustersPid dead.clusters (fun w => setField w 31 1 true.toNat)

theorem killStart_placed {status : Nat} (h : j.phase ≠ .waiting) :
    s.killStart j status = (s.killClosed j (j.killedAt status s.yc)).sendAborts (s.jobSlots j) := if_neg h

/-- What a kill of a job that is placed leaves: its entry, its clusters' firewalls closed, and the ring as it was (R260). -/
theorem killStart_step {status : Nat} (h : j.phase ≠ .waiting) (hj : s.job? p r j.jobid = some j) :
    (s.killStart j status).job? p r j.jobid = some (j.killedAt status s.yc) ∧ (s.killStart j status).rings = s.rings ∧
      ∀ cl ∈ (j.killedAt status s.yc).clusters, ∀ q ∈ clusterPositions cl, ((s.killStart j status).rtPid q).getLsbD 31 = true := by
  obtain ⟨hp, hr, -, -⟩ := job?_isJob hj
  subst hp hr
  have hdead : isJob j.p j.r j.jobid (j.killedAt status s.yc) = true := by simp [isJob, Job.killedAt]
  have hclosed := onClustersPid_routersOnly
    (State.onJob { s with residents := s.residents.filter (fun x => !(x.p == j.p && x.r == j.r && x.clusters == j.kept)) }
      j.p j.r j.jobid (fun _ => j.killedAt status s.yc)) (j.killedAt status s.yc).clusters (fun w => setField w 31 1 true.toNat)
  obtain ⟨hco, hpid⟩ := sendAborts_keeps (s.killClosed j (j.killedAt status s.yc)) (s.jobSlots j)
  rw [killStart_placed h]
  refine ⟨?_, ?_, fun cl hcl q hq => ?_⟩
  · refine (job?_of_jobs (t := (s.killClosed j (j.killedAt status s.yc)).sendAborts (s.jobSlots j)) ?_ _ _ _).trans (job?_onJob hj hdead)
    rw [hco, State.killClosed, hclosed]
    rfl
  · rw [hco, State.killClosed, hclosed]
    rfl
  · rw [hpid]
    exact onClustersPid_rtPid (P := fun w => w.getLsbD 31 = true) (setClosed_bit true) hcl hq

section
variable {s1 : State} {x : RawRecord} {host : List Byte}

/-- A KILL that names a job which is not being killed starts the kill (R246, R260). -/
theorem exec_kill (hf : s.fetchRecord p r host = some (s1, x)) (hk : x.kind = 2) (hid : BitVec.ofNat 64 (numAt x.payload 0 8) = j.jobid)
    (hj : (s1.readRecord p r x.len).job? p r j.jobid = some j) (hph : j.phase ≠ .killed) :
    exec (.kill p r host) s = .next (published s ((s1.readRecord p r x.len).killStart j 3)) := by
  have hlive : (some j).filter (fun j => j.phase != .killed) = some j := if_pos (by simpa using hph)
  show execKill p r host s = _
  simp only [execKill, hf, hk, ne_eq, not_true_eq_false, if_false, hid, hj, hlive]

/-- What reading a ring's record up to its end leaves (R199). -/
theorem recordRead_step (hf : s.fetchRecord p r host = some (s1, x)) :
    s.RingStep (s1.readRecord p r x.len) p r (s.offHelper p) ∧ s.RecordsKept (s1.readRecord p r x.len) ∧
      ((s1.readRecord p r x.len).ring p r).subRd = (s.ring p r).subRd + BitVec.ofNat 64 (recSize x.len) := by
  obtain ⟨hstep, hkept, hsub⟩ := fetchRecord_step hf
  obtain ⟨hstep', hkept', hsub'⟩ := readRecord_step (E := s.offHelper p) s1 p r x.len
  exact ⟨hstep.trans hstep', hkept.trans hkept', by rw [hsub', hsub]⟩

/-- A job that waits to be placed is removed by its KILL, with its record (R263). -/
theorem kill_removes (hf : s.fetchRecord p r host = some (s1, x)) (hk : x.kind = 2) (hid : BitVec.ofNat 64 (numAt x.payload 0 8) = j.jobid)
    (hj : s.job? p r j.jobid = some j) (hph : j.phase = .waiting) :
    ∃ t : State, ∃ y, exec (.kill p r host) s = .next t ∧ s.readPast t p r (recSize x.len) ∧ t.job? p r j.jobid = none ∧
      s.recorded t p r y ∧ y.completes j.jobid 3 0 := by
  obtain ⟨hread, hkept, hsub⟩ := recordRead_step hf
  have hj2 : (s1.readRecord p r x.len).job? p r j.jobid = some j := (job?_of_jobs hread.jobs _ _ _).trans hj
  have hexec := exec_kill hf hk hid hj2 (by rw [hph]; decide)
  rw [killStart_waiting hph] at hexec
  obtain ⟨hp, hr, -, -⟩ := job?_isJob hj
  subst hp hr
  generalize s1.readRecord j.p j.r x.len = u at *
  obtain ⟨hstep, hsub', hrec, hgone⟩ := finishJob_step (E := s.offHelper j.p) u (j.killedAt 3 u.yc)
  have hpub := published_published (p := j.p) (r := j.r) (E := s.offHelper j.p) s (u.finishJob (j.killedAt 3 u.yc))
  have hring := published_ring s (u.finishJob (j.killedAt 3 u.yc)) j.p j.r
  have hcar : s.recorded (u.finishJob (j.killedAt 3 u.yc)) j.p j.r (u.completion (j.killedAt 3 u.yc)) := by
    have h := hkept.carried j.p j.r
    rw [State.recorded] at hrec ⊢
    exact hrec.trans (congrArg (· ++ [_]) h)
  refine ⟨_, _, hexec, ⟨?_, ?_⟩, (job?_of_jobs hpub.jobs _ _ _).trans hgone, recorded_after hcar hring, ⟨rfl, rfl, rfl⟩⟩
  · rw [hring]
    exact hsub'.trans hsub
  · exact hread.ringCoresKept_then (hstep.trans hpub.toRingStep) rfl rfl rfl

/-- A job that is placed is killed: its outputs are withdrawn and its clusters' firewalls close (R260). -/
theorem kill_starts (hf : s.fetchRecord p r host = some (s1, x)) (hk : x.kind = 2) (hid : BitVec.ofNat 64 (numAt x.payload 0 8) = j.jobid)
    (hj : s.job? p r j.jobid = some j) (hw : j.phase ≠ .waiting) (hph : j.phase ≠ .killed) :
    ∃ t : State, exec (.kill p r host) s = .next t ∧ (t.ring p r).subRd = (s.ring p r).subRd + BitVec.ofNat 64 (recSize x.len) ∧
      t.job? p r j.jobid = some (j.killedAt 3 s.yc) ∧
      (∀ cl ∈ (j.killedAt 3 s.yc).clusters, ∀ q ∈ clusterPositions cl, (t.rtPid q).getLsbD 31 = true) ∧ t.carried p r = s.carried p r := by
  obtain ⟨hread, hkept, hsub⟩ := recordRead_step hf
  have hj2 : (s1.readRecord p r x.len).job? p r j.jobid = some j := (job?_of_jobs hread.jobs _ _ _).trans hj
  have hexec := exec_kill hf hk hid hj2 hph
  obtain ⟨hjob, hrings, hclosed⟩ := killStart_step (status := 3) hw hj2
  have hyc := hread.yc
  generalize s1.readRecord p r x.len = u at *
  have hpub := published_published (p := p) (r := r) (E := fun _ => True) s (u.killStart j 3)
  have hring : (published s (u.killStart j 3)).ring p r = u.ring p r := by
    rw [published_ring, State.ring, State.ring, hrings]
  rw [hyc] at hjob hclosed
  refine ⟨_, hexec, by rw [hring, hsub], (job?_of_jobs hpub.jobs _ _ _).trans hjob, fun cl hcl q hq => ?_, ?_⟩
  · rw [rtPid_of_routers hpub.routers]
    exact hclosed cl hcl q hq
  · rw [State.carried, hring]
    exact hkept.carried p r

end

/-! ### What waits for ring space -/

/-- What waits follows the reader's index (R255). -/
theorem completionPublishResume_follows {rd : DWord} {s1 : State} (hen : s.ringEn p r = true) (hl : s.idxLoad p r 3 = (s1, some rd))
    (h1 : (s.ring p r).compRd.toNat ≤ rd.toNat) (h2 : rd.toNat ≤ (s.ring p r).compWr.toNat) (h64 : rd.toNat % 64 = 0) :
    ∃ t : State, exec (.completionPublishResume p r) s = .next t ∧ (t.ring p r).compRd = rd ∧
      (t.ring p r).published ++ (t.ring p r).waiting = (s.ring p r).published ++ (s.ring p r).waiting ∧ t.jobs = s.jobs ∧
      s.ringCoresKept t p r := by
  have hring : s1.ring p r = s.ring p r := by
    have h := (idxLoad_ringsStill s p r 3).ring p r
    rwa [hl] at h
  have hload : s.loadRdidx p r = s1.setRing p r { s.ring p r with compRd := rd } := by
    rw [State.loadRdidx, hl]
    simp [hring, h1, h2, h64]
  obtain ⟨hstep, -⟩ := loadRdidx_ringStep (E := s.offHelper p) s p r
  have hkept := loadRdidx_recordsKept s p r
  have hpub := publishList_published (E := s.offHelper p) p r ((s.loadRdidx p r).ring p r).waiting (s.loadRdidx p r)
  have hcar := (publishList_publishes p r ((s.loadRdidx p r).ring p r).waiting (s.loadRdidx p r)).carried p r
  refine ⟨_, if_pos hen, ?_, ?_, hpub.jobs.trans hstep.jobs, (hstep.trans hpub.toRingStep).ringCoresKept⟩
  · rw [hpub.compRd, hload, ring_setRing_self]
  · refine hcar.trans ?_
    rw [if_pos ⟨rfl, rfl⟩, hkept.published, hkept.waiting]

end

end Sys2Proof.Machine
end

section
/-! SUPPORT. Steps of several cores, each from what the others have left: sections that end and clusters that are scrubbed (R120, R217,
R261, R264). -/

namespace Sys2Proof.Machine

/-! ### One core after the other, however often each is named -/

/-- Of steps of cores of a list, each relating a core's state to the one it leaves: every core is as before or so related, and those of the list
are. -/
theorem foldl_cores_relate {g : State → CoreId → State} {Q : Core → Core → Prop} (htrans : ∀ {a b c}, Q a b → Q b c → Q a c)
    (hstep : ∀ (t : State) (c : CoreId), onGrid c = true → t.othersKept (g t c) c ∧ Q (t.core c) ((g t c).core c)) {l : List CoreId}
    (hg : ∀ c ∈ l, onGrid c = true) (s : State) :
    (∀ d, (l.foldl g s).core d = s.core d ∨ Q (s.core d) ((l.foldl g s).core d)) ∧ ∀ c ∈ l, Q (s.core c) ((l.foldl g s).core c) := by
  have hone (t : State) {c : CoreId} (hc : onGrid c = true) (d : CoreId) : (g t c).core d = t.core d ∨ Q (t.core d) ((g t c).core d) := by
    obtain ⟨hoth, hq⟩ := hstep t c hc
    by_cases h : coreKey d = coreKey c
    · have hsame (u : State) : u.core d = u.core c := by rw [State.core, State.core, h]
      rw [hsame t, hsame (g t c)]
      exact .inr hq
    · refine .inl ?_
      have hk := hoth.2 _ h
      rw [State.core, State.core, ← hk]
      simp only [State.blankCore, hoth.1]
  induction l generalizing s with
  | nil => exact ⟨fun _ => .inl rfl, fun _ h => absurd h List.not_mem_nil⟩
  | cons c l ih =>
    obtain ⟨hc, hl⟩ := List.forall_mem_cons.1 hg
    obtain ⟨hall, hin⟩ := ih hl (g s c)
    refine ⟨fun d => ?_, fun d hd => ?_⟩
    · rcases hone s hc d with h1 | h1
      · have h := hall d
        rwa [h1] at h
      · rcases hall d with h2 | h2
        · exact .inr (by rw [List.foldl_cons, h2]; exact h1)
        · exact .inr (htrans h1 h2)
    · rcases List.mem_cons.1 hd with rfl | hd
      · obtain ⟨-, hq⟩ := hstep s d hc
        rcases hall d with h2 | h2
        · rw [List.foldl_cons, h2]
          exact hq
        · exact htrans hq h2
      · have h := hin d hd
        rcases hone s hc d with h1 | h1
        · rwa [h1] at h
        · exact htrans h1 h

/-- The same of a step of working contexts. -/
theorem onCores_relate {f : K → K} {Q : Core → Core → Prop} (htrans : ∀ {a b c}, Q a b → Q b c → Q a c) (hc : ∀ k, (f k).c = k.c)
    (hstep : ∀ k : K, Q k.core (f k).core) {l : List CoreId} (hg : ∀ c ∈ l, onGrid c = true) (s : State) :
    ∀ c ∈ l, Q (s.core c) ((onCores l s f).core c) := by
  refine (foldl_cores_relate (g := fun a c => onCore c a f) (Q := Q) htrans (fun t c hgc => ?_) hg s).2
  rw [onCore, if_pos hgc]
  have hct : (f (kOf t c)).c = c := hc _
  refine ⟨kPut_other hct, ?_⟩
  rw [kPut_core hct]
  exact hstep (kOf t c)

/-! ### The sections of a slot end -/

/-- No section is configured on the core and none of its tasks runs. -/
def Core.atRest (k : Core) : Prop := k.df = .idle ∧ k.running = none

/-- A core that END has reached: quiet or at rest before, it is at rest; its memory, scalar registers and program counter stay (R217). -/
def Core.rests (k k' : Core) : Prop :=
  ((k.quiet = true ∨ k.atRest) → k'.atRest) ∧ k'.mem = k.mem ∧ k'.s = k.s ∧ k'.pc = k.pc

theorem Core.rests.trans {a b c : Core} (h1 : a.rests b) (h2 : b.rests c) : a.rests c := by
  obtain ⟨r1, m1, s1, p1⟩ := h1
  obtain ⟨r2, m2, s2, p2⟩ := h2
  exact ⟨fun h => r2 (.inr (r1 h)), m2.trans m1, s2.trans s1, p2.trans p1⟩

/-- Ryist clears the merge slots of a core and sends it END (R165, R217). -/
def K.endSection (k : K) : K := (K.dfEnd k.clearMerge).1

theorem endSection_keeps (k : K) : k.endSection.c = k.c ∧ k.endSection.here = k.here := by
  unfold K.endSection K.dfEnd
  split <;> exact ⟨rfl, rfl⟩

theorem endSection_rests (k : K) : k.core.rests k.endSection.core := by
  unfold K.endSection K.dfEnd
  by_cases hq : k.core.quiet = true
  · rw [if_pos (show k.clearMerge.core.quiet = true from hq)]
    have hx := clearSection_eq k.core
    show k.core.rests k.core.clearSection
    generalize k.core.clearSection = x at hx
    rw [hx]
    exact ⟨fun _ => ⟨rfl, rfl⟩, rfl, rfl, rfl⟩
  · rw [if_neg (show ¬ k.clearMerge.core.quiet = true from hq)]
    exact ⟨fun h => h.resolve_left hq, rfl, rfl, rfl⟩

/-- Registers that the core takes afterwards are no matter. -/
theorem Core.rests.regs {a b c : Core} {l : List Nat} (h1 : a.rests b) (h2 : b.RegsOnly c l) : a.rests c := by
  rw [h2.1]
  exact h1

/-- The END of a core, after which it may take the settings that wait for it (R361). -/
theorem onCoreSettled_rests (s : State) {c : CoreId} (h : onGrid c = true) :
    s.othersKept (onCoreSettled c s K.endSection) c ∧ (s.core c).rests ((onCoreSettled c s K.endSection).core c) := by
  obtain ⟨hc, hh⟩ := endSection_keeps (kOf s c)
  have hst := onCoreSettled_stepped (f := K.endSection) h hc hh
  exact ⟨hst.others, (endSection_rests (kOf s c)).regs hst.core⟩

/-- The cores of a list reached by END, one after the other. -/
def State.endSections (s : State) (cs : List CoreId) : State := cs.foldl (fun a c => onCoreSettled c a K.endSection) s

theorem freeSection_slot (s : State) (n : Nat) : (s.freeSection n).slots.get .reset n = .reset := by
  unfold State.freeSection
  dsimp only
  exact SMap.get_set_self _ _ _ _

/-- A slot without a job whose cores are all quiet is free again, and its cores are at rest (R217, R250). -/
theorem slotQuiet_ends {s : State} {slot : BitVec 6} (hne : s.coresOfSlot slot.toNat ≠ []) (hs : s.fc.safe = false)
    (hq : ∀ c ∈ s.coresOfSlot slot.toNat, s.alive c = true ∧ (s.core c).quiet = true) (hj : (s.slots.get .reset slot.toNat).job = none) :
    ∃ t : State, exec (.slotQuiet slot) s = .next t ∧ t.slots.get .reset slot.toNat = .reset ∧
      (∀ c ∈ s.coresOfSlot slot.toNat, (t.core c).atRest) ∧ s.coresKept t := by
  have hall : (s.coresOfSlot slot.toNat).all (fun c => s.alive c && (s.core c).quiet) = true :=
    List.all_eq_true.2 fun c hc => by simp [hq c hc]
  have hexec : exec (.slotQuiet slot) s =
      .next (((s.clearMerges slot.toNat).endSections (s.coresOfSlot slot.toNat)).freeSection slot.toNat) := by
    show execSlotQuiet slot s = _
    simp only [execSlotQuiet, hs, hall, hj, List.isEmpty_eq_false_iff.2 hne, Option.bind_none]
    rfl
  have hcore (c : CoreId) : (s.clearMerges slot.toNat).core c = s.core c := by
    rw [clearMerges_routersOnly s slot.toNat]
    rfl
  obtain ⟨heach, hin⟩ := foldl_cores_relate (g := fun a c => onCoreSettled c a K.endSection) (Q := Core.rests) Core.rests.trans
    (fun t c h => onCoreSettled_rests t h) (l := s.coresOfSlot slot.toNat) (fun c hc => alive_onGrid (hq c hc).1) (s.clearMerges slot.toNat)
  have hfree (u : State) (c : CoreId) : (u.freeSection slot.toNat).core c = u.core c := by
    rw [freeSection_sectionsOnly u slot.toNat]
    rfl
  refine ⟨_, hexec, freeSection_slot _ _, fun c hc => ?_, fun c => ?_⟩
  · obtain ⟨hrest, -⟩ := hin c hc
    rw [hfree]
    exact hrest (.inl (by rw [hcore]; exact (hq c hc).2))
  · rw [hfree, ← hcore]
    rcases heach c with h | ⟨-, hkept⟩
    · rw [State.endSections, h]
      exact ⟨rfl, rfl, rfl⟩
    · exact hkept

/-! ### Scrubs of a cluster -/

/-- JB_SCRUBMAP written by Ryist asks for a scrub, which JB_MAPGEN tells of (R261, R264). -/
theorem jbScrubmapWrite_asks {s : State} (cl : BitVec 13) (hs : s.fc.safe = false) :
    ∃ t : State, exec (.jbScrubmapWrite .ryist cl) s = .next t ∧ t.resp = .done ∧ (t.cluster cl.toNat).scrubPend = true ∧
      t.cores = s.cores ∧ t.yreg (yJB + 4) = s.yreg (yJB + 4) + (if s.mapView = t.mapView then 0 else 2) ∧
      (∀ off, off ≠ yJB + 4 → t.yreg off = s.yreg off) := by
  have hexec : exec (.jbScrubmapWrite .ryist cl) s = .next ((published s (s.askScrub cl.toNat)).answer none) := by
    show execJbScrubmapWrite .ryist cl s = _
    simp [execJbScrubmapWrite, yardWrite, hs, isSystem]
  have hpend : ((s.askScrub cl.toNat).cluster cl.toNat).scrubPend = true := by
    rw [State.askScrub, cluster_setCluster, if_pos rfl]
  have hgen : (s.askScrub cl.toNat).yreg (yJB + 4) = s.yreg (yJB + 4) := rfl
  by_cases hview : s.mapView = (s.askScrub cl.toNat).mapView
  · have hsame : published s (s.askScrub cl.toNat) = s.askScrub cl.toNat := if_pos (.inr hview)
    rw [hsame] at hexec
    refine ⟨_, hexec, rfl, hpend, rfl, ?_, fun _ _ => rfl⟩
    exact hgen.trans (by rw [if_pos (show s.mapView = ((s.askScrub cl.toNat).answer none).mapView from hview)]; exact (BitVec.add_zero _).symm)
  · have htold : published s (s.askScrub cl.toNat) = (s.askScrub cl.toNat).setYreg (yJB + 4) ((s.askScrub cl.toNat).yreg (yJB + 4) + 2) :=
      if_neg (fun h => h.elim (fun h => h hgen) hview)
    rw [htold] at hexec
    refine ⟨_, hexec, rfl, hpend, rfl, ?_, fun off hoff => (yreg_setYreg _ _ _ _).trans (if_neg hoff)⟩
    rw [if_neg (show ¬ s.mapView = (((s.askScrub cl.toNat).setYreg (yJB + 4) ((s.askScrub cl.toNat).yreg (yJB + 4) + 2)).answer none).mapView
      from hview)]
    exact (yreg_setYreg _ _ _ _).trans (if_pos rfl)

theorem jbScrubmapWrite_refused {s : State} (h : s.pfServes) (cl : BitVec 13) :
    exec (.jbScrubmapWrite .pf cl) s = .next { s with resp := .err 0x09 } := by
  show execJbScrubmapWrite .pf cl s = _
  rw [execJbScrubmapWrite, yardWrite_pf h]
  rfl

/-- A scrub has begun on a core (R120, R261). -/
def Core.inScrub (k : Core) : Prop := k.zeroing = true ∧ k.reg rFLT_WCTL = 0

theorem startZero_inScrub (k : Core) : k.startZero.inScrub := ⟨rfl, Core.setReg_reg_self _ _ _⟩

theorem scrubStart_inScrub (k : Core) : k.scrubStart.inScrub := by
  unfold Core.scrubStart
  exact startZero_inScrub _

theorem scrubbed_onGrid {s : State} {n : Nat} {c : CoreId} (h : c ∈ s.scrubbed n) : onGrid c = true := padUp_onGrid (List.mem_filter.1 h).2

/-- A scrub that is pending begins when the cluster's cores are idle (R261). -/
theorem clusterScrub_begins {s : State} {cl : BitVec 13} (hp : s.bu.power = true) (hpend : (s.cluster cl.toNat).scrubPend = true)
    (hbusy : (s.cluster cl.toNat).scrubbing = false) (hidle : s.clusterIdle cl.toNat = true) :
    ∃ t : State, exec (.clusterScrub cl) s = .next t ∧ (t.cluster cl.toNat).scrubbing = true ∧
      ∀ c ∈ s.scrubbed cl.toNat, (t.core c).inScrub := by
  have hexec : exec (.clusterScrub cl) s = .next (onCores (s.scrubbed cl.toNat)
      (s.setCluster cl.toNat (fun e => { e with scrubbing := true })) (fun k => { k with core := k.core.scrubStart })) := by
    show execClusterScrub cl s = _
    simp [execClusterScrub, hp, hpend, hbusy, hidle]
  have hcl : ((s.setCluster cl.toNat (fun e => { e with scrubbing := true })).cluster cl.toNat).scrubbing = true := by
    rw [cluster_setCluster, if_pos rfl]
  have hcores := onCores_relate (f := fun k => { k with core := k.core.scrubStart }) (Q := fun _ k' => k'.inScrub) (fun _ h => h) (fun _ => rfl)
    (fun k => scrubStart_inScrub k.core) (fun c (hc : c ∈ s.scrubbed cl.toNat) => scrubbed_onGrid hc)
    (s.setCluster cl.toNat (fun e => { e with scrubbing := true }))
  refine ⟨_, hexec, ?_, hcores⟩
  rw [State.cluster, (onCores_coresOnly _ _ _).ringsStill.clusters]
  exact hcl

/-- The scrub has ended on a core: its store is without instructions, and a zero fill that was under way has ended (R120, R261). -/
def Core.scrubOver (k k' : Core) : Prop :=
  k'.zeroing = false ∧ k'.istore = [] ∧ k'.s = k.s ∧ (k.zeroing = false → k'.mem = k.mem) ∧
    (k.zeroing = true → (∀ b, b < 8 → (k.bank b).serves = true) → ∀ q, q < 0x60000 → Mem.read k'.mem q = 0)

theorem Core.scrubOver.trans {a b c : Core} (h1 : a.scrubOver b) (h2 : b.scrubOver c) : a.scrubOver c := by
  obtain ⟨z1, -, s1, m1, f1⟩ := h1
  obtain ⟨z2, i2, s2, m2, -⟩ := h2
  refine ⟨z2, i2, s2.trans s1, fun h => (m2 z1).trans (m1 h), fun h hb q hq => ?_⟩
  rw [m2 z1]
  exact f1 h hb q hq

/-- Watches that fire after a zero fill leave what it has left of the flag and of the scalar registers (R193). -/
theorem wroteBanks_ends (l : List Nat) {k0 k : K} (hc : k.c = k0.c) (hz : k.core.zeroing = false) (hs : k.core.s = k0.core.s) :
    let z := l.foldl (fun a b => if (a.core.bank b).serves then a.wroteBytes (0xC000 * b) 0xC000 else a) k
    z.c = k0.c ∧ z.core.zeroing = false ∧ z.core.s = k0.core.s := by
  intro z
  obtain ⟨hf, -⟩ : k.FiredOnly z := wroteBanks_firedOnly l k
  rw [hf]
  exact ⟨hc, hz, hs⟩

/-- A zero fill that ends leaves the scalar registers, whichever banks are on (R120). -/
theorem zeroAll_ends (k : K) : (zeroAll k).c = k.c ∧ (zeroAll k).core.zeroing = false ∧ (zeroAll k).core.s = k.core.s := by
  dsimp only [zeroAll]
  generalize List.range 8 = l
  refine wroteBanks_ends l rfl rfl ?_
  dsimp only
  refine foldl_relates (R := fun a b => Core.s b = Core.s a) (fun _ => rfl) (fun h1 h2 => h2.trans h1) (fun a b => ?_) _
  split <;> rfl

/-- The store filled with illegal words on top. -/
theorem fillIstore_over {k k' : Core} (hz : k'.zeroing = false) (hs : k'.s = k.s) (hm : k.zeroing = false → k'.mem = k.mem)
    (hf : k.zeroing = true → (∀ b, b < 8 → (k.bank b).serves = true) → ∀ q, q < 0x60000 → Mem.read k'.mem q = 0) :
    k.scrubOver k'.fillIstore :=
  ⟨hz, rfl, hs, hm, hf⟩

theorem scrubDone_over (k : K) : k.scrubDone.c = k.c ∧ k.core.scrubOver k.scrubDone.core := by
  by_cases hz : k.core.zeroing = true
  · have hdone : k.scrubDone = { zeroAll k with core := (zeroAll k).core.fillIstore } := by rw [K.scrubDone, if_pos hz]
    obtain ⟨hc, hzero, hsreg⟩ := zeroAll_ends k
    have hfill : (∀ b, b < 8 → (k.core.bank b).serves = true) → ∀ q, q < 0x60000 → Mem.read (zeroAll k).core.mem q = 0 := by
      intro hb
      obtain ⟨hf, hregs⟩ := zeroAll_fires hb
      obtain ⟨-, hmem, -⟩ := zeroed_leaves (congrArg K.core hf) hregs
      exact hmem
    generalize zeroAll k = z at *
    rw [hdone]
    exact ⟨hc, fillIstore_over hzero hsreg (fun h => absurd (hz.symm.trans h) (by decide)) fun _ => hfill⟩
  · have hdone : k.scrubDone = { k with core := k.core.fillIstore } := by rw [K.scrubDone, if_neg hz]
    rw [hdone]
    exact ⟨rfl, fillIstore_over (by simpa using hz) rfl (fun _ => rfl) fun h => absurd h hz⟩

/-- An empty instruction store holds illegal words alone (R261). -/
theorem decodeInsn_empty (c : CoreId) {k : Core} (h : k.istore = []) (i : Nat) : decodeInsn c (k.insnAt i) = none := by
  rw [Core.insnAt, h, SMap.get_nil]
  rfl

/-- A scrub ends (R261). -/
theorem clusterScrubEnd_ends {s : State} {cl : BitVec 13} (hp : s.bu.power = true) (hbusy : (s.cluster cl.toNat).scrubbing = true) :
    ∃ t : State, exec (.clusterScrubEnd cl) s = .next t ∧ (t.cluster cl.toNat).scrubbing = false ∧ (t.cluster cl.toNat).scrubPend = false ∧
      ∀ c ∈ s.scrubbed cl.toNat, (s.core c).scrubOver (t.core c) := by
  have hexec : exec (.clusterScrubEnd cl) s = .next (published s (s.scrubEnd cl.toNat)) := if_pos (by rw [hp, hbusy]; rfl)
  have hcl : (s.scrubEnd cl.toNat).scrubClear cl.toNat := by
    rw [State.scrubClear, State.scrubEnd, cluster_setCluster, if_pos rfl]
    exact ⟨rfl, rfl⟩
  have hcores := onCores_relate (f := K.scrubDone) (Q := Core.scrubOver) Core.scrubOver.trans (fun k => (scrubDone_over k).1)
    (fun k => (scrubDone_over k).2) (fun c (hc : c ∈ s.scrubbed cl.toNat) => scrubbed_onGrid hc) s
  obtain ⟨ys, hpub, -⟩ := published_yregs s (s.scrubEnd cl.toNat)
  rw [hpub] at hexec
  exact ⟨_, hexec, hcl.2, hcl.1, hcores⟩

/-! ### The statement -/

/-- Settles O38: of jobs and records, each clause is one step on a ring pair, which leaves what the ring carried; of slots and scrubs, each
core of a list takes the same step from whatever the others have left. -/
theorem jobsEnd : Obligations.JobsEnd := by
  unfold Obligations.JobsEnd
  refine ⟨fun s s1 p r j slot arg stage f rd host x => ?_, fun s cl c => ?_⟩
  · intro e g cs
    refine ⟨fun hne hs hq hj => ?_,
      fun hs hj => ⟨outputDecision_releases hs hj, outputDecision_holds hj, ?_, ?_, ?_, jobCompletionPublish_waits hj⟩,
      fun hf hk hid hj => ⟨kill_removes hf hk hid hj, fun hw hph => ?_⟩, completionPublishResume_follows⟩
    · exact slotQuiet_ends hne hs hq hj
    · exact fun hf hr hy hl => stageHoldExpiry_passes hs hj hf hr hy hl
    · exact fun hph hd ho hscr => jobCompletionPublish_completes hs hj hph hd ho hscr
    · exact fun hph hk hst hd hscr => jobCompletionPublish_killed hs hj hph hk hst hd hscr
    · obtain ⟨t, hexec, hsub, hjob, hclosed, hcar⟩ := kill_starts hf hk hid hj hw hph
      exact ⟨t, _, hexec, hsub, hjob, rfl, rfl, rfl, killedAt_allDecided j 3 s.yc, rfl, hclosed, hcar⟩
  · intro n e
    refine ⟨jbScrubmapWrite_asks cl, fun hu hph hs => ⟨_, jbScrubmapWrite_refused ⟨hu, hph, hs⟩ cl, rfl⟩,
      fun hp hpend hbusy hidle => ?_, fun hp hbusy hc => ?_⟩
    · obtain ⟨t, hexec, hcl, hcores⟩ := clusterScrub_begins hp hpend hbusy hidle
      exact ⟨t, hexec, hcl, hcores c⟩
    · obtain ⟨t, hexec, hdone, hpend, hcores⟩ := clusterScrubEnd_ends hp hbusy
      obtain ⟨hzero, hstore, hsreg, hkept, hfill⟩ := hcores c hc
      exact ⟨t, hexec, hdone, hpend, hfill, hkept, hzero, fun i _ => decodeInsn_empty c hstore i, hsreg⟩

end Sys2Proof.Machine
end

section
/-! SUPPORT. A packet on its way: hops of the mesh, rides on a ring line, ramps and relays, flits that fail their check, and two
acknowledgements that meet (R148, R151 to R156, R163, R167, R176). -/

namespace Sys2Proof.Machine

/-! ### A flight that is set -/

theorem updAt_eq_modify {α : Type} (g : α → α) (l : List α) (n : Nat) : updAt g l n = l.modify n g := by
  induction l generalizing n with
  | nil => simp [updAt]
  | cons a t ih => cases n with
    | zero => rfl
    | succ n => simp [updAt, ih]

theorem setFlight_moved {s : State} {f : Nat} {x : Flight} (y : Flight) (h : s.flights[f]? = some x) : s.moved (s.setFlight f y) f y := by
  have hfl : (s.setFlight f y).flights = s.flights.modify f (fun _ => y) := updAt_eq_modify _ _ _
  refine ⟨?_, ?_, fun g hg => ?_, rfl⟩
  · rw [hfl, List.getElem?_modify_eq, h]
    rfl
  · rw [hfl, List.length_modify]
  · rw [hfl, List.getElem?_modify_ne _ _ (Ne.symm hg)]

/-! ### Flits that are checked -/

/-- The check of flits that no link has changed (R145, R167). -/
theorem checked_whole {s : State} {f px py port block : Nat} {x : Flight} (h : x.pkt.valid = true) :
    s.checked f x none px py port block = (s, some x.pkt) := by
  simp only [State.checked, Packet.receive, h, Bool.true_or, if_true]

/-- A flit that fails its check is counted and reported at its router (R167). -/
def State.crcNoted (s : State) (x : Flight) (px py port n : Nat) : State :=
  (s.onRouter px py (fun r => r.count rRT_CRCDISC 1)).routerReport px py 10 0x20
    (port * 2 ^ 13 + x.vc * 2 ^ 11 + (if n = 0 then 2 ^ 10 else 0)) 0

section
variable {s : State} {f : Nat} {x : Flight} (hat : s.atPlace f x) (hfresh : x.fresh = true)
include hat hfresh

/-- FLIT_ARRIVAL at a router of a packet that is whole (R176). -/
theorem flitArrival_router {px py port : Nat} (hloc : x.loc = .router px py port) (hv : x.pkt.valid = true) :
    exec (.flitArrival f none) s = .next ((s.received px py x.pkt.flits).forward f x px py port) := by
  obtain ⟨hget, hover⟩ := hat
  show execFlitArrival f none s = _
  simp only [execFlitArrival, hget, hfresh, hover, hloc, checked_whole hv, Bool.not_true, Bool.or_self, Bool.false_eq_true, if_false]
  rw [← hloc, ← hfresh]

/-- A packet whose head fails leaves the mesh (R167). -/
theorem flitArrival_headFails {px py port : Nat} {e : BitVec 576} (hloc : x.loc = .router px py port)
    (hr : x.pkt.receive x.vc (some (0, e)) = .fails 0) :
    exec (.flitArrival f (some (0, e))) s = .next (((s.received px py x.pkt.flits).crcNoted x px py port 0).dropFlight f) := by
  obtain ⟨hget, hover⟩ := hat
  show execFlitArrival f (some (0, e)) s = _
  simp only [execFlitArrival, hget, hfresh, hover, hloc, State.checked, hr, Bool.not_true, Bool.or_self, Bool.false_eq_true, if_false, if_true]
  rfl

/-- A packet with a later flit that fails goes on as a killed one (R167). -/
theorem flitArrival_laterFails {px py port n : Nat} {e : BitVec 576} (hloc : x.loc = .router px py port)
    (hr : x.pkt.receive x.vc (some (n, e)) = .fails n) (hn : 0 < n) :
    exec (.flitArrival f (some (n, e))) s =
      .next (((s.received px py x.pkt.flits).crcNoted x px py port n).forward f { x with pkt := x.pkt.kill n } px py port) := by
  obtain ⟨hget, hover⟩ := hat
  show execFlitArrival f (some (n, e)) s = _
  simp only [execFlitArrival, hget, hfresh, hover, hloc, State.checked, hr, if_neg (Nat.pos_iff_ne_zero.1 hn), Bool.not_true, Bool.or_self,
    Bool.false_eq_true, if_false]
  rw [State.crcNoted, if_neg (Nat.pos_iff_ne_zero.1 hn)]

/-- FLIT_ARRIVAL at a station (R153 to R155). -/
theorem flitArrival_station {yAxis : Bool} {line pos : Nat} {side : DateSide} (hloc : x.loc = .station yAxis line pos side)
    (hv : x.pkt.valid = true) : exec (.flitArrival f none) s = .next (s.ride f x yAxis line pos side) := by
  obtain ⟨hget, hover⟩ := hat
  show execFlitArrival f none s = _
  simp only [execFlitArrival, hget, hfresh, hover, hloc, checked_whole hv, Bool.not_true, Bool.or_self, Bool.false_eq_true, if_false]
  rw [← hloc, ← hfresh]

/-- FLIT_ARRIVAL at a relay (R156). -/
theorem flitArrival_relay {px py : Nat} (hloc : x.loc = .relay px py) (hv : x.pkt.valid = true) :
    exec (.flitArrival f none) s = .next (s.setFlight f { x with fresh := false }) := by
  obtain ⟨hget, hover⟩ := hat
  show execFlitArrival f none s = _
  simp only [execFlitArrival, hget, hfresh, hover, hloc, checked_whole hv, Bool.not_true, Bool.or_self, Bool.false_eq_true, if_false]

end

/-! ### Routes of the mesh (R151) -/

/-- A packet of class 0 goes towards its destination. -/
theorem nextHop_mesh {p : Packet} (h : p.rclass = 0) (px py : Nat) : nextHop p px py = towards px py p.dst.px.toNat p.dst.py.toNat := by
  rw [nextHop, h]
  rfl

/-- A packet of class 2 goes along its column towards its waypoint (R156). -/
theorem nextHop_waypoint {p : Packet} (h : p.rclass = 2) (px py : Nat) : nextHop p px py = towards px py px p.wpy.toNat := by
  rw [nextHop, h]
  rfl

theorem towards_east {ax bx : Nat} (ay bY : Nat) (h : ax < bx) : towards ax ay bx bY = some (ax + 1, ay, 1) := by
  rw [towards, if_pos h]

theorem towards_west {ax bx : Nat} (ay bY : Nat) (h : bx < ax) : towards ax ay bx bY = some (ax - 1, ay, 2) := by
  rw [towards, if_neg (by omega), if_pos h]

theorem towards_north {ay bY : Nat} (x : Nat) (h : ay < bY) : towards x ay x bY = some (x, ay + 1, 3) := by
  rw [towards, if_neg (by omega), if_neg (by omega), if_pos h]

theorem towards_south {ay bY : Nat} (x : Nat) (h : bY < ay) : towards x ay x bY = some (x, ay - 1, 4) := by
  rw [towards, if_neg (by omega), if_neg (by omega), if_neg (by omega), if_pos h]

theorem towards_self (x y : Nat) : towards x y x y = none := by
  simp only [towards, Nat.lt_irrefl, if_false]

/-! ### From one router to the next -/

/-- A checked packet that does not spread and is no contribution moves on (R151). -/
theorem forward_single {s : State} {f px py port : Nat} {x : Flight} (hc : x.cast = .single) (h6 : x.pkt.op ≠ 6) :
    s.forward f x px py port = s.moveOn f x px py := by
  rw [State.forward, if_neg (by simp [hc]), if_neg (fun h => h6 h.1)]

/-- Flight `f`, whose `n` flits router (px, py) has received and sent on, has become `y` (R176). -/
def State.hopped (s : State) (f px py n : Nat) (y : Flight) : State := ((s.received px py n).setFlight f y).passed px py n

theorem hopped_moved {s : State} {f : Nat} {x : Flight} (px py n : Nat) (y : Flight) (h : s.flights[f]? = some x) :
    s.moved (s.hopped f px py n y) f y := by
  obtain ⟨hf, hlen, hoth, -⟩ := setFlight_moved y h
  exact ⟨hf, hlen, hoth, rfl⟩

/-- What the router of a hop counts. -/
theorem hopped_router (s : State) (f px py n : Nat) (y : Flight) :
    (s.hopped f px py n y).router px py = ((s.router px py).count rRT_FLITSIN n).count rRT_FLITSOUT n := by
  rw [State.hopped, State.passed, onRouter_router_self]
  show ((s.received px py n).router px py).count rRT_FLITSOUT n = _
  rw [State.received, onRouter_router_self]

theorem hopped_flitsIn (s : State) (f px py n : Nat) (y : Flight) :
    pairAt ((s.hopped f px py n y).router px py).regs rRT_FLITSIN = pairAt (s.router px py).regs rRT_FLITSIN + BitVec.ofNat 64 n := by
  rw [hopped_router]
  exact (pairAt_bump_other _ _ _ _ (by decide) (by decide) (by decide)).trans (Router.count_pairAt _ _ _)

theorem hopped_flitsOut (s : State) (f px py n : Nat) (y : Flight) :
    pairAt ((s.hopped f px py n y).router px py).regs rRT_FLITSOUT = pairAt (s.router px py).regs rRT_FLITSOUT + BitVec.ofNat 64 n := by
  rw [hopped_router, Router.count_pairAt]
  exact congrArg (· + _) (pairAt_bump_other _ _ _ _ (by decide) (by decide) (by decide))

section
variable {s : State} {f px py port : Nat} {x : Flight} (hat : s.atPlace f x) (hfresh : x.fresh = true) (hloc : x.loc = .router px py port)
  (hv : x.pkt.valid = true) (hc : x.cast = .single) (h6 : x.pkt.op ≠ 6)
include hat hfresh hloc hv hc h6

/-- A packet goes on over its next link (R151, R176). -/
theorem flitArrival_hops {q : Nat × Nat × Nat} (h10 : x.pkt.op ≠ 10) (hn : nextHop x.pkt px py = some q) (hs : s.stops q.1 q.2.1 = false) :
    exec (.flitArrival f none) s =
      .next (s.hopped f px py x.pkt.flits { x with loc := .router q.1 q.2.1 q.2.2, fresh := true }) := by
  rw [flitArrival_router hat hfresh hloc hv, forward_single hc h6, moveOn_hop (s := s.received px py x.pkt.flits) hn hs h10]
  rfl

/-- A packet that no link takes further leaves its router for the relay of its waypoint (R156). -/
theorem flitArrival_toRelay (hn : nextHop x.pkt px py = none) (hr : x.pkt.rclass = 2) :
    exec (.flitArrival f none) s = .next (s.hopped f px py x.pkt.flits { x with loc := .relay px py, fresh := true }) := by
  rw [flitArrival_router hat hfresh hloc hv, forward_single hc h6, State.moveOn, hn]
  simp only [hr, if_true]
  rfl

/-- A packet at its destination's router leaves it for its T port, if its endpoint is that one (R144). -/
theorem flitArrival_toPort (hn : nextHop x.pkt px py = none) (hr : x.pkt.rclass ≠ 2)
    (hd : x.pkt.dst = { ext := true, px := BitVec.ofNat 10 px, py := BitVec.ofNat 10 py }) :
    exec (.flitArrival f none) s = .next (s.hopped f px py x.pkt.flits { x with loc := .tport px py, fresh := true }) := by
  rw [flitArrival_router hat hfresh hloc hv, forward_single hc h6, State.moveOn, hn]
  simp only [if_neg hr, if_pos hd]
  rfl

/-- A packet at the router of its core stays for its delivery (R151). -/
theorem flitArrival_stays (hn : nextHop x.pkt px py = none) (hr : x.pkt.rclass ≠ 2) (hd : x.pkt.dst.ext = false) :
    exec (.flitArrival f none) s = .next ((s.received px py x.pkt.flits).setFlight f { x with fresh := false }) := by
  have hd' : x.pkt.dst ≠ { ext := true, px := BitVec.ofNat 10 px, py := BitVec.ofNat 10 py } := fun h => by simp [h] at hd
  rw [flitArrival_router hat hfresh hloc hv, forward_single hc h6, State.moveOn, hn]
  simp only [if_neg hr, if_neg hd']

end

/-! ### Flits that fail their check (R167) -/

/-- What counting and reporting a flit that fails changes. -/
theorem crcNoted_eq (s : State) (x : Flight) (px py port n : Nat) : s.crcNoted x px py port n = { s with
    routers := (s.onRouter px py (fun r => r.count rRT_CRCDISC 1)).routers
    transit := s.transit ++ [s.routerMsg px py 10 0x20 (port * 2 ^ 13 + x.vc * 2 ^ 11 + (if n = 0 then 2 ^ 10 else 0)) 0]
    cores := (s.crcNoted x px py port n).cores } := by
  unfold State.crcNoted
  rw [routerReport_eq]
  rfl

theorem crcNoted_router (s : State) (x : Flight) (px py port n : Nat) :
    (s.crcNoted x px py port n).router px py = (s.router px py).count rRT_CRCDISC 1 := by
  rw [crcNoted_eq]
  show (s.onRouter px py (fun r => r.count rRT_CRCDISC 1)).router px py = _
  exact onRouter_router_self s px py _

/-- One flit that fails its check has been counted at router (px, py) and reported. -/
def State.crcReported (s t : State) (px py : Nat) : Prop :=
  pairAt (t.router px py).regs rRT_CRCDISC = pairAt (s.router px py).regs rRT_CRCDISC + BitVec.ofNat 64 1 ∧
    ∃ m, t.transit = s.transit ++ [m] ∧ m.kind = 0x20 ∧ m.block = 10

theorem crcNoted_reported (s : State) (x : Flight) (px py k port n : Nat) :
    s.crcReported ((s.received px py k).crcNoted x px py port n) px py := by
  refine ⟨?_, _, by rw [crcNoted_eq]; rfl, rfl, rfl⟩
  rw [crcNoted_router, Router.count_pairAt, State.received, onRouter_router_self]
  exact congrArg (· + _) (pairAt_bump_other _ _ _ _ (by decide) (by decide) (by decide))

theorem crcReported_passed {s t : State} {px py : Nat} (k : Nat) (h : s.crcReported t px py) : s.crcReported (t.passed px py k) px py := by
  obtain ⟨hctr, hmsg⟩ := h
  refine ⟨?_, hmsg⟩
  rw [State.passed, onRouter_router_self]
  exact (pairAt_bump_other _ _ _ _ (by decide) (by decide) (by decide)).trans hctr

/-- A packet with a later flit that fails goes on over its next link as a killed one. -/
theorem flitArrival_killed {s : State} {f px py port n : Nat} {x : Flight} {e : BitVec 576} {q : Nat × Nat × Nat} (hat : s.atPlace f x)
    (hfresh : x.fresh = true) (hloc : x.loc = .router px py port) (hc : x.cast = .single) (h6 : x.pkt.op ≠ 6) (h10 : x.pkt.op ≠ 10)
    (hr : x.pkt.receive x.vc (some (n, e)) = .fails n) (hn : 0 < n) (hhop : nextHop (x.pkt.kill n) px py = some q)
    (hs : s.stops q.1 q.2.1 = false) :
    ∃ t : State, exec (.flitArrival f (some (n, e))) s = .next t ∧ s.crcReported t px py ∧
      t.flights[f]? = some { x with pkt := x.pkt.kill n, loc := .router q.1 q.2.1 q.2.2, fresh := true } := by
  have hrep := crcNoted_reported s x px py x.pkt.flits port n
  have heq := crcNoted_eq (s.received px py x.pkt.flits) x px py port n
  have hex := flitArrival_laterFails hat hfresh hloc hr hn
  generalize (s.received px py x.pkt.flits).crcNoted x px py port n = u at hrep heq hex
  have hstop : u.stops q.1 q.2.1 = false := by rw [heq]; exact hs
  have hfl : u.flights[f]? = some x := by rw [heq]; exact hat.1
  rw [forward_single (x := { x with pkt := x.pkt.kill n }) hc h6, moveOn_hop (x := { x with pkt := x.pkt.kill n }) hhop hstop h10] at hex
  exact ⟨_, hex, crcReported_passed _ hrep, (setFlight_moved _ hfl).1⟩

/-! ### Ring lines (R153 to R155) -/

/-- The side of the date line on which a packet leaves a station: the hop that crosses the line has ended there (R154). -/
def DateSide.here (side : DateSide) : DateSide := if side = .crossing then .after else side

theorem ride_on {s : State} {f : Nat} {x : Flight} {yAxis : Bool} {line pos : Nat} {side : DateSide} (hp : pos ≠ ringPos (offStation x.pkt yAxis))
    (hs : s.stops (stationRouter yAxis line ((pos + 1) % 72)).1 (stationRouter yAxis line ((pos + 1) % 72)).2 = false) :
    s.ride f x yAxis line pos side =
      s.setFlight f { x with loc := .station yAxis line ((pos + 1) % 72) (if (pos + 1) % 72 = 0 then .crossing else side.here), fresh := true } := by
  simp only [State.ride, if_neg hp, hs, Bool.false_eq_true, if_false]
  rfl

theorem ride_off {s : State} {f : Nat} {x : Flight} {yAxis : Bool} {line pos : Nat} {side : DateSide}
    (hp : pos = ringPos (offStation x.pkt yAxis)) :
    s.ride f x yAxis line pos side = s.setFlight f { x with loc := .station yAxis line pos side.here, fresh := false } := by
  rw [State.ride, if_pos hp]
  rfl

/-! ### Ramps and relays (R148, R155, R156) -/

section
variable {s : State} {f : Nat} {x : Flight} (hat : s.atPlace f x) (hfresh : x.fresh = false)
include hat hfresh

/-- A packet of an express route joins the line of its row at its ring router. -/
theorem ringOnRamp_row {px py port : Nat} (hloc : x.loc = .router px py port) (hr : x.pkt.rclass = 1) (hx : px % 8 = 4) (hy : py % 8 = 4)
    (hg : px / 8 ≠ x.pkt.dst.px.toNat / 8) :
    exec (.ringOnRamp f) s =
      .next ((s.setFlight f { x with loc := .station false (py / 8) (ringPos (px / 8)) .before, fresh := true }).passed px py x.pkt.flits) := by
  obtain ⟨hget, hover⟩ := hat
  show execRingOnRamp f s = _
  simp [execRingOnRamp, hget, hfresh, hover, hloc, hr, hx, hy, hg]

/-- A packet that has reached its station leaves the line for its ring router. -/
theorem ringOffRamp_leaves {yAxis : Bool} {line pos : Nat} {side : DateSide} (hloc : x.loc = .station yAxis line pos side) :
    exec (.ringOffRamp f) s = .next (s.setFlight f { x with
      loc := .router (stationRouter yAxis line pos).1 (stationRouter yAxis line pos).2 (if yAxis then 6 else 5), fresh := true }) := by
  obtain ⟨hget, hover⟩ := hat
  show execRingOffRamp f s = _
  simp only [execRingOffRamp, hget, hfresh, hover, hloc, Bool.or_self, Bool.false_eq_true, if_false]

/-- A relay sends a packet on by its second leg, as a mesh packet. -/
theorem waypointRelay_hops {px py : Nat} {q : Nat × Nat × Nat} (hloc : x.loc = .relay px py) (h10 : x.pkt.op ≠ 10)
    (hn : nextHop { x.pkt with rclass := 0 } px py = some q) (hs : s.stops q.1 q.2.1 = false) :
    exec (.waypointRelay f) s = .next ((s.setFlight f
      { x with pkt := { x.pkt with rclass := 0 }, loc := .router q.1 q.2.1 q.2.2, fresh := true }).passed px py x.pkt.flits) := by
  obtain ⟨hget, hover⟩ := hat
  have hmove := moveOn_hop (s := s) (f := f) (x := { x with pkt := { x.pkt with rclass := 0 } }) hn hs h10
  rw [hfresh, hloc] at hmove
  show execWaypointRelay f s = _
  simp only [execWaypointRelay, hget, hfresh, hover, hloc, Bool.or_self, Bool.false_eq_true, if_false]
  rw [hmove]
  rfl

end

/-! ### Acknowledgements that meet (R163) -/

/-- The first of two acknowledgements of one write joins the second at its place, which takes its counts. -/
theorem sendOn_merges {s : State} {x y : Flight} (hfl : s.flights.length = 2) (h1 : s.flights[1]? = some y) (hm : x.mergesAck y = true) :
    s.sendOn 0 x = ({ s with flights := [{ y with pkt := { y.pkt with head := addCounts x.pkt.head y.pkt.head } }] }, true) := by
  obtain ⟨a, b, hab⟩ := List.length_eq_two.1 hfl
  obtain rfl : b = y := by simpa [hab] using h1
  unfold State.sendOn
  split
  · rename_i hi
    exact absurd (List.find?_eq_none.1 hi 1 (by simp [hfl])) (by simp [h1, hm])
  · rename_i i hi
    have hmeets := List.find?_some hi
    simp only [Bool.and_eq_true, bne_iff_ne] at hmeets
    obtain ⟨hne, -⟩ := hmeets
    have h2 : i < 2 := by simpa [hfl] using List.mem_of_find?_eq_some hi
    obtain rfl : i = 1 := by omega
    rw [hab]
    rfl

/-- Two acknowledgements of one write at one place merge. -/
theorem mergesAck_of_same {x y : Flight} {h : BitVec 384} (hx : x.cast = .single) (hy : y.cast = .single) (hf : y.fresh = true)
    (hloc : x.loc = y.loc) (hop : x.pkt.op = 10) (hk : x.pkt.killed = false) (hp : y.pkt = { x.pkt with head := h }) :
    x.mergesAck y = true := by
  simp [Flight.mergesAck, hx, hy, hf, hloc, hop, hk, hp]

theorem flitArrival_merges {s : State} {x y : Flight} {px py port : Nat} {h : BitVec 384} (hfl : s.flights = [x, y]) (hx : x.fresh = true)
    (hy : y.fresh = true) (hcx : x.cast = .single) (hcy : y.cast = .single) (hlx : x.loc = .router px py port)
    (hly : y.loc = .router (px + 1) py 1) (hop : x.pkt.op = 10) (hv : x.pkt.valid = true) (hk : x.pkt.killed = false)
    (hr : x.pkt.rclass = 0) (hp : y.pkt = { x.pkt with head := h }) (hlt : px < x.pkt.dst.px.toNat) (hs : s.stops (px + 1) py = false) :
    exec (.flitArrival 0 none) s = .next { s.received px py x.pkt.flits with
      flights := [{ y with pkt := { x.pkt with head := addCounts x.pkt.head h } }] } := by
  have hat : s.atPlace 0 x := ⟨by rw [hfl]; rfl, rfl⟩
  have hn : nextHop x.pkt px py = some (px + 1, py, 1) := (nextHop_mesh hr px py).trans (towards_east _ _ hlt)
  have hstop : (s.received px py x.pkt.flits).stops (px + 1) py = false := hs
  have hmerge := sendOn_merges (s := s.received px py x.pkt.flits) (x := { x with loc := .router (px + 1) py 1, fresh := true }) (y := y)
    (congrArg List.length hfl) (congrArg (·[1]?) hfl) (mergesAck_of_same hcx hcy hy hly.symm hop hk hp)
  rw [flitArrival_router hat hx hlx hv, forward_single hcx (by simp [hop]), State.moveOn, hn]
  simp only [hstop, hmerge, Bool.false_eq_true, if_false, if_true, hp]

/-! ### The obligation -/

/-- Settles O33: each clause is one step on one flight, by the place it stands at; the last is the step in which two flights become one. -/
theorem packetsMove : Obligations.PacketsMove := by
  unfold Obligations.PacketsMove
  refine ⟨fun s f x px py port line pos yAxis side n e => ?_, fun s x y px py port h hfl hx hy hcx hcy hlx hly hop hv hk hr hp hlt hs => ?_⟩
  · intro p bx bY st off next here counts goes reports hat hv h10
    have hset (y : Flight) : s.moved (s.setFlight f y) f y := setFlight_moved y hat.1
    have hgoes {qx qy inPort : Nat} (hfresh : x.fresh = true) (hloc : x.loc = .router px py port) (hc : x.cast = .single) (h6 : p.op ≠ 6)
        (hn : nextHop p px py = some (qx, qy, inPort)) : goes qx qy inPort := fun hs =>
      ⟨_, flitArrival_hops hat hfresh hloc hv hc h6 h10 hn hs, hopped_moved px py _ _ hat.1, hopped_flitsIn .., hopped_flitsOut ..⟩
    refine ⟨fun hfresh hloc hc h6 hr => ?_, fun hfresh hloc => ⟨fun hp hs => ?_, fun hp => ?_⟩, fun hfresh hloc hr hx hy hg => ?_,
      fun hfresh hloc => ?_, fun hfresh hloc hc h6 hr hw => ?_, fun hfresh hloc => ?_, fun hfresh hloc hlt hs => ?_, fun hfresh hloc hr => ?_⟩
    · have hmesh := nextHop_mesh (p := p) hr px py
      have hr2 : p.rclass ≠ 2 := by simp [hr]
      refine ⟨fun hlt => hgoes hfresh hloc hc h6 (hmesh.trans (towards_east _ _ hlt)),
        fun hlt => hgoes hfresh hloc hc h6 (hmesh.trans (towards_west _ _ hlt)), fun hx hlt => ?_, fun hx hlt => ?_, fun hx hy hext => ?_,
        fun hx hy hext => ?_, fun hlt hs hrec hn => ?_⟩
      · exact hgoes hfresh hloc hc h6 (by rw [hmesh, hx]; exact towards_north _ hlt)
      · exact hgoes hfresh hloc hc h6 (by rw [hmesh, hx]; exact towards_south _ hlt)
      · have hnone : nextHop p px py = none := by rw [hmesh, hx, hy]; exact towards_self _ _
        obtain ⟨h1, h2, h3, -⟩ := hset { x with fresh := false }
        exact ⟨_, flitArrival_stays hat hfresh hloc hv hc h6 hnone hr2 hext, h1, h2, h3, rfl⟩
      · have hnone : nextHop p px py = none := by rw [hmesh, hx, hy]; exact towards_self _ _
        have hd : p.dst = { ext := true, px := BitVec.ofNat 10 px, py := BitVec.ofNat 10 py } := by
          rw [hx, hy, BitVec.ofNat_toNat, BitVec.ofNat_toNat, BitVec.setWidth_eq, BitVec.setWidth_eq, ← hext]
        exact ⟨_, flitArrival_toPort hat hfresh hloc hv hc h6 hnone hr2 hd, hopped_moved px py _ _ hat.1⟩
      · exact flitArrival_killed hat hfresh hloc hc h6 h10 hrec hn (hmesh.trans (towards_east _ _ hlt)) hs
    · refine ⟨_, (flitArrival_station hat hfresh hloc hv).trans (congrArg _ (ride_on hp hs)), rfl, ?_⟩
      rw [← hfresh]
      exact hset _
    · exact ⟨_, (flitArrival_station hat hfresh hloc hv).trans (congrArg _ (ride_off hp)), rfl, hset _⟩
    · obtain ⟨h1, h2, h3, -⟩ := hset { x with loc := .station false (py / 8) (ringPos (px / 8)) .before, fresh := true }
      exact ⟨_, ringOnRamp_row hat hfresh hloc hr hx hy hg, h1, h2, h3, rfl⟩
    · refine ⟨_, ringOffRamp_leaves hat hfresh hloc, rfl, ?_⟩
      cases yAxis <;> exact hset _
    · have hnone : nextHop p px py = none := by rw [nextHop_waypoint hr, hw]; exact towards_self _ _
      refine ⟨_, flitArrival_toRelay hat hfresh hloc hv hc h6 hnone hr, ?_⟩
      rw [← hfresh]
      exact hopped_moved px py _ _ hat.1
    · exact ⟨_, flitArrival_relay hat hfresh hloc hv, hset _⟩
    · obtain ⟨h1, h2, h3, -⟩ := hset { x with pkt := { p with rclass := 0 }, loc := .router (px + 1) py 1, fresh := true }
      exact ⟨_, waypointRelay_hops hat hfresh hloc h10 ((nextHop_mesh rfl px py).trans (towards_east _ _ hlt)) hs, h1, h2, h3, rfl⟩
    · have hrep := crcNoted_reported s x px py p.flits port 0
      have heq := crcNoted_eq (s.received px py p.flits) x px py port 0
      have hex := flitArrival_headFails hat hfresh hloc hr
      generalize (s.received px py p.flits).crcNoted x px py port 0 = u at hrep heq hex
      exact ⟨_, hex, (dropFlight_length (s := u) (by rw [heq]; exact hat.1)).trans (by rw [heq]; rfl), hrep⟩
  · exact ⟨_, flitArrival_merges hfl hx hy hcx hcy hlx hly hop hv hk hr hp hlt hs, rfl, rfl, rfl⟩

end Sys2Proof.Machine
end

section
/-! SUPPORT. The first contribution of a REDUCE packet to its junction, and the credits that come back for an output channel's messages
(R182, R183, R185, R187). -/

namespace Sys2Proof.Machine

/-! ### A line of a channel queue -/

/-- A line that stands in its bank reads as it was written (R114, R115). -/
theorem putBytes_readLine (k : Core) {off : Nat} (l : Line) (ho : off % 64 = 0) : Mem.readLine (k.putBytes off (Line.bytes l)).mem off = l := by
  refine Mem.readLine_eq fun i hi => ?_
  rw [putBytes_read_line ho (bytes_length l), if_pos (by omega), Nat.add_sub_cancel_left, nth_bytes l hi]

/-- The channel-queue logic writes a line to a bank that serves it, and watches fire: the place of the core, its scalar registers and its
channel queues stay (R182, R193). -/
theorem logicLine_writes {k : K} {off : Nat} (l : Line) (hs : (k.core.bank (bankOf off)).serves = true) :
    (k.logicLine off l).c = k.c ∧ (k.logicLine off l).here = k.here ∧
      (k.logicLine off l).core.mem = (k.core.putBytes off (Line.bytes l)).mem ∧
      (k.logicLine off l).core.s = k.core.s ∧ (k.logicLine off l).core.inq = k.core.inq := by
  have hr : k.core.logicRefused true off = none := if_pos hs
  have hfire : K.FiredOnly { k with core := k.core.putBytes off (Line.bytes l) } (k.logicLine off l) := by
    rw [K.logicLine, K.logicBytes, hr]
    exact evalWatches_firedOnly _ _
  obtain ⟨hsreg, -, hinq, -⟩ := putBytes_body k.core off (Line.bytes l)
  rw [hfire.1]
  exact ⟨rfl, rfl, rfl, hsreg, hinq⟩

/-- Every entry of a channel queue lies in bank 7 (R110). -/
theorem bankOf_entryOff {n i : Nat} (hn : n < 16) (hi : i < 32) : bankOf (entryOff n i) = 7 := by
  rw [bankOf, entryOff]
  omega

/-! ### The one entry of a channel -/

/-- Of core `k` has become `k'`, in which entry `i`, with count `count`, is the only one of channel `n` and line `l` stands there; the scalar
registers are as before. -/
structure Core.Queued (k k' : Core) (n i : Nat) (l : Line) (count : Nat) (whole : Bool) : Prop where
  entry : ∃ e, k'.entries n = [e] ∧ e.k = i ∧ e.count = count ∧ e.whole = whole
  line : Mem.readLine k'.mem (entryOff n i) = l
  sregs : k'.s = k.s

theorem entries_setEntries (k : Core) (n : Nat) (l : List QEntry) : (k.setEntries n l).entries n = l := SMap.get_set_self _ _ _ _

/-- A change of the entry that leaves its number and its count. -/
theorem Core.Queued.onEntry {k k' : Core} {n i count : Nat} {l : Line} {w w' : Bool} {f : QEntry → QEntry} (h : k.Queued k' n i l count w)
    (hf : ∀ e : QEntry, e.whole = w → (f e).k = e.k ∧ (f e).count = e.count ∧ (f e).whole = w') :
    k.Queued (k'.onEntry n i f) n i l count w' := by
  obtain ⟨⟨e, he, hi, hcnt, hw⟩, hl, hs⟩ := h
  obtain ⟨fi, fcnt, fw⟩ := hf e hw
  refine ⟨⟨f e, ?_, fi.trans hi, fcnt.trans hcnt, fw⟩, hl, hs⟩
  rw [Core.onEntry, entries_setEntries, he, List.map_singleton, if_pos hi]

/-- An arrival at an empty channel takes entry `i` (R182). -/
theorem newEntry_queued {k : K} {n i : Nat} (a : Arrival) (whole : Bool) (hq : k.core.queuesOn) (hn : n < 16) (hi : i < 32)
    (hempty : k.core.entries n = []) : (k.newEntry n i a whole).c = k.c ∧ (k.newEntry n i a whole).here = k.here ∧
      k.core.Queued (k.newEntry n i a whole).core n i a.line a.count whole := by
  have hline := putBytes_readLine k.core a.line (off := entryOff n i) (by rw [entryOff]; omega)
  obtain ⟨hc, hh, hmem, hs, hinq⟩ := logicLine_writes a.line (k := k) (off := entryOff n i) (by rw [bankOf_entryOff hn hi]; exact hq)
  unfold K.newEntry
  generalize k.logicLine (entryOff n i) a.line = k1 at hc hh hmem hs hinq
  extract_lets e c1 c2
  have hcore : k.core.Queued c2 n i a.line a.count whole := by
    refine ⟨⟨e, ?_, rfl, rfl, rfl⟩, ?_, hs⟩
    · show (k1.core.setEntries n (k1.core.entries n ++ [e])).entries n = [e]
      rw [entries_setEntries, Core.entries, hinq, ← Core.entries, hempty, List.nil_append]
    · exact (congrArg (fun m => Mem.readLine m (entryOff n i)) hmem).trans hline
  obtain ⟨hentry, hl, hsr⟩ := hcore
  refine ⟨hc, hh, ?_⟩
  split <;> exact ⟨hentry, hl, hsr⟩

/-! ### Offers (R207, R208) -/

/-- Two cores that differ in their registers and in what the tag-match store holds. -/
def Core.StoreOnly (k k' : Core) : Prop := k' = { k with regs := k'.regs, store := k'.store, readyQ := k'.readyQ, held := k'.held }

theorem Core.StoreOnly.trans {a b c : Core} (h1 : a.StoreOnly b) (h2 : b.StoreOnly c) : a.StoreOnly c := by
  unfold Core.StoreOnly at h1 h2 ⊢
  rw [h1] at h2
  exact h2

theorem noteReady_storeOnly (k : Core) (u : Nat) (tag : BitVec 16) : k.StoreOnly (k.noteReady u tag) := by
  unfold Core.noteReady
  split
  · exact rfl
  · split <;> exact rfl

theorem hold_storeOnly (k : Core) (n i : Nat) : k.StoreOnly (k.hold n i) := by
  unfold Core.hold
  split <;> exact rfl

/-- An offer marks its entry, and beyond that changes registers and the store; or there is nothing to offer. -/
theorem offer_cases (k : Core) (n i : Nat) :
    k.offer n i = k ∨ (k.onEntry n i (fun x => { x with offered := true })).StoreOnly (k.offer n i) := by
  unfold Core.offer
  split
  · refine .inr ?_
    extract_lets k0 k1
    have h1 : (k.onEntry n i (fun x => { x with offered := true })).StoreOnly k1 := by
      dsimp only [k1, k0]
      split <;> exact rfl
    clear_value k1
    refine h1.trans ?_
    split
    · split
      · exact hold_storeOnly k1 n i
      · refine Core.StoreOnly.trans ?_ (noteReady_storeOnly _ _ _)
        exact rfl
    · split
      · refine Core.StoreOnly.trans ?_ (noteReady_storeOnly _ _ _)
        exact rfl
      · exact hold_storeOnly k1 n i
  · exact .inl rfl

/-- A message that is presented, whether the core runs or not, stays where it is (R186, R207). -/
theorem Core.Queued.present {k k' : Core} {n i count : Nat} {l : Line} {w : Bool} (h : k.Queued k' n i l count w) :
    k.Queued (k'.present n i) n i l count w := by
  unfold Core.present
  split
  · rcases offer_cases k' n i with hk | hk
    · rw [hk]
      exact h
    · obtain ⟨hentry, hl, hs⟩ := h.onEntry (f := fun x => { x with offered := true }) fun _ hw => ⟨rfl, rfl, hw⟩
      rw [hk]
      exact ⟨hentry, hl, hs⟩
  · exact h

/-! ### A contribution -/

/-- An entry that its junction delivers stands whole where it was (R186). -/
theorem deliver_queued {k : Core} {k1 : K} {n i count : Nat} {l : Line} {w : Bool} (h : k.Queued k1.core n i l count w) :
    k.Queued (k1.deliver n i).core n i l count true := by
  unfold K.deliver
  extract_lets d c1 c2
  obtain ⟨hentry, hl, hs⟩ : k.Queued c1 n i l count true := h.onEntry fun _ _ => ⟨rfl, rfl, rfl⟩
  obtain ⟨hentry, hl, hs⟩ : k.Queued (c2.present n i) n i l count true := .present ⟨hentry, hl, hs⟩
  exact ⟨hentry, hl, hs⟩

theorem Core.Queued.noteSat {k k' : Core} {n i count : Nat} {l : Line} {w : Bool} (h : k.Queued k' n i l count w) (sat : Bool) :
    k.Queued (k'.noteSat n sat) n i l count w := by
  obtain ⟨hentry, hl, hs⟩ := h
  unfold Core.noteSat
  split <;> exact ⟨hentry, hl, hs⟩

/-- The first contribution to a junction that REDUCE packets feed starts an entry, which is delivered if it is all the junction expects
(R185, R187). -/
theorem contribute_first {k : K} {n i : Nat} {a : Arrival} (detail : Nat) (hempty : k.core.entries n = []) (hred : k.core.fedByReduce n = true)
    (hle : a.count ≤ k.core.jn n) (hfree : k.core.freeEntry n = some i) (howes : a.owes = false) :
    k.contribute n a detail =
      if k.core.jn n = a.count then (k.newEntry n i a false).deliver n i else k.newEntry n i a false := by
  have ha : ({ a with owes := false } : Arrival) = a := by rw [← howes]
  simp only [K.contribute, hempty, hred, hfree, howes, ha, K.contribCredit, List.find?_nil, Bool.not_true, Bool.false_and, Bool.false_eq_true,
    if_false, if_neg (Nat.not_lt.2 hle)]

/-- What the junction keeps of a REDUCE packet (R187). -/
def Packet.contribution (p : Packet) : Arrival :=
  { line := (p.lines.head?).getD 0, tag := 0, seq := 0, och := 0, src := p.src, count := p.rcount, owes := false, reinj := false, counted := false }

/-- The junction that takes the REDUCE packets of a number (R187). -/
def Core.reduceChannel (k : Core) (redid : Nat) : Option Nat :=
  (List.range 16).find? (fun j => k.configured && k.ichActive j && k.isJunction j && k.fedByReduce j
    && field (k.reg (rCH_IRED + 0x40 * j)) 0 12 == redid)

theorem reduceChannel_some {k : Core} {redid n : Nat} (h : k.reduceChannel redid = some n) : n < 16 ∧ k.fedByReduce n = true := by
  have hn := List.find?_some h
  simp only [Bool.and_eq_true] at hn
  obtain ⟨⟨-, hred⟩, -⟩ := hn
  exact ⟨List.mem_range.1 (List.mem_of_find?_eq_some h), hred⟩

/-- REDUCE_ARRIVAL at the junction of its number (R187). -/
theorem reduceArrive_contributes {p : Packet} {k : K} {n : Nat} {l : Line} (hab : k.core.abDiscards = false) (hl : p.lines = [l])
    (hfind : k.core.reduceChannel p.redid = some n) (hrop : p.rop = k.core.junctionOp n) :
    reduceArrive p k = { k.contribute n p.contribution p.redid with core := (k.contribute n p.contribution p.redid).core.noteSat n p.rsat } := by
  have hok : ¬ (p.rop ≠ k.core.junctionOp n ∨ p.lines.length ≠ 1) := by simp [hrop, hl]
  rw [Core.reduceChannel] at hfind
  simp only [reduceArrive, hab, hfind, if_neg hok, Bool.false_eq_true, if_false]
  rfl

/-- The first contribution of a REDUCE packet in its junction (R185, R187). -/
theorem reduceArrive_queued {p : Packet} {k : K} {n i : Nat} {l : Line} (hab : k.core.abDiscards = false) (hl : p.lines = [l])
    (hfind : k.core.reduceChannel p.redid = some n) (hrop : p.rop = k.core.junctionOp n)
    (hempty : k.core.entries n = []) (hfree : k.core.freeEntry n = some i) (hi : i < 32) (hq : k.core.queuesOn) (hle : p.rcount ≤ k.core.jn n) :
    (reduceArrive p k).c = k.c ∧ (reduceArrive p k).here = k.here ∧
      k.core.Queued (reduceArrive p k).core n i l p.rcount (decide (p.rcount = k.core.jn n)) := by
  obtain ⟨hn, hred⟩ := reduceChannel_some hfind
  obtain ⟨hc, hh, hnew⟩ := newEntry_queued (k := k) p.contribution false hq hn hi hempty
  rw [show p.contribution.line = l by simp [Packet.contribution, hl]] at hnew
  rw [reduceArrive_contributes hab hl hfind hrop, contribute_first p.redid hempty hred hle hfree rfl]
  by_cases hall : k.core.jn n = p.rcount
  · rw [if_pos (show k.core.jn n = p.contribution.count from hall), decide_eq_true hall.symm]
    exact ⟨hc, hh, (deliver_queued hnew).noteSat p.rsat⟩
  · rw [if_neg (show ¬ k.core.jn n = p.contribution.count from hall), decide_eq_false (Ne.symm hall)]
    exact ⟨hc, hh, hnew.noteSat p.rsat⟩

/-! ### Credits (R183) -/

/-- A message of an output channel once a credit for number `seq` has come. -/
def OutMsg.credited (seq : BitVec 16) (e : OutMsg) : OutMsg := if e.seq = seq then { e with gather := e.gather + 1 } else e

/-- An output channel once that credit has come, with `rc` receivers for each message: a message is complete when all its receivers have
returned one. -/
def OutChan.credited (o : OutChan) (seq : BitVec 16) (rc : Nat) : OutChan :=
  { o with outst := (o.outst.map (OutMsg.credited seq)).filter (fun e => !(e.seq == seq && rc ≤ e.gather)) }

theorem OutMsg.credited_of_eq {seq : BitVec 16} {e : OutMsg} (h : e.seq = seq) : e.credited seq = { e with gather := e.gather + 1 } := if_pos h

theorem OutMsg.credited_of_ne {seq : BitVec 16} {e : OutMsg} (h : e.seq ≠ seq) : e.credited seq = e := if_neg h

/-- With one receiver the first credit completes the message. -/
theorem credited_completes {o : OutChan} {seq : BitVec 16} {rc : Nat} (h : rc ≤ 1) :
    ∀ e ∈ (o.credited seq rc).outst, e.seq ≠ seq := by
  intro e he hseq
  obtain ⟨hmem, hopen⟩ := List.mem_filter.1 he
  obtain ⟨x, -, rfl⟩ := List.mem_map.1 hmem
  by_cases hx : x.seq = seq
  · rw [OutMsg.credited_of_eq hx] at hopen
    have hle : rc ≤ x.gather + 1 := by omega
    simp [hx, hle] at hopen
  · rw [OutMsg.credited_of_ne hx] at hseq
    exact hx hseq

/-- Messages of other numbers stay outstanding. -/
theorem credited_keeps {o : OutChan} {seq : BitVec 16} (rc : Nat) {e : OutMsg} (he : e ∈ o.outst) (hne : e.seq ≠ seq) :
    e ∈ (o.credited seq rc).outst :=
  List.mem_filter.2 ⟨List.mem_map.2 ⟨e, he, OutMsg.credited_of_ne hne⟩, by simp [hne]⟩

/-- The number of the message that a credit belongs to. -/
def Packet.creditSeq (p : Packet) : BitVec 16 := p.head.extractLsb' 0 16

/-- A core that has taken a credit for an outstanding message. -/
def Core.credited (k : Core) (m : Nat) (seq : BitVec 16) : Core :=
  { k.count (rCH_OCRET + 0x40 * m) 1 with outq := k.outq.set m ((k.outq.get .reset m).credited seq (field (k.ocfg m) 0 19)) }

theorem creditArrive_credited {p : Packet} {k : K} {m : Nat} (hab : k.core.abDiscards = false) (hm : creditChannel p = some m)
    (hout : (k.core.outq.get .reset m).outst.any (fun e => e.seq == p.creditSeq) = true) :
    creditArrive p k = { k with core := k.core.credited m p.creditSeq } := by
  unfold Packet.creditSeq at *
  simp only [creditArrive, hab, hm, hout, Option.getD_some, Bool.not_true, Bool.false_eq_true, if_false]
  rfl

/-- A credit for no outstanding message is counted, marked and reported (R183). -/
theorem creditArrive_stray {p : Packet} {k : K} {m : Nat} (hab : k.core.abDiscards = false) (hm : creditChannel p = some m)
    (hout : (k.core.outq.get .reset m).outst.any (fun e => e.seq == p.creditSeq) = false) : ∃ rs, creditArrive p k =
      K.report { k with core := { k.core with regs := rs } } 6 0x62 p.creditSeq.toNat (m * 2 ^ 21 + epBits p.src) := by
  unfold Packet.creditSeq at *
  simp only [creditArrive, hab, hm, hout, Option.getD_some, Bool.not_false, Bool.false_eq_true, if_false, if_true]
  exact ⟨_, rfl⟩

/-- The credit counters of the output channels are 0 at reset and lie apart from the settings a pass may take (R200, R361). -/
theorem ocret_apart : ∀ m < 16, rCH_OCRET + 0x40 * m ∉ [rDF_WINDOW, rDF_STALL] ∧ rCH_OCRET + 0x40 * m + 4 ∉ [rDF_WINDOW, rDF_STALL] ∧
    coreReset (rCH_OCRET + 0x40 * m) = 0 ∧ coreReset (rCH_OCRET + 0x40 * m + 4) = 0 := by decide

theorem State.Stepped.outq {s t : State} {c : CoreId} {k : K} (h : s.Stepped t c k) : (t.core c).outq = k.core.outq := by rw [h.core.1]

theorem credited_counts (k : Core) (m : Nat) (seq : BitVec 16) :
    pairAt (k.credited m seq).regs (rCH_OCRET + 0x40 * m) = pairAt k.regs (rCH_OCRET + 0x40 * m) + 1 := count_pairAt_self k _

theorem credited_outq (k : Core) (m : Nat) (seq : BitVec 16) (j : Nat) : (k.credited m seq).outq.get .reset j =
    if j = m then (k.outq.get .reset m).credited seq (field (k.ocfg m) 0 19) else k.outq.get .reset j := SMap.get_set _ _ _ _ _

/-! ### The obligation -/

/-- Settles O25: an arrival is one step of its core, which leaves the entry of the first contribution, or the messages outstanding after a
credit. -/
theorem reductionsAndCredits : Obligations.ReductionsAndCredits := by
  unfold Obligations.ReductionsAndCredits
  intro s c p n i m l k o ha hab
  refine ⟨fun hop hl hfind hrop hempty hfree hi hq hle => ?_, fun hm hch hout => ?_, fun hm hch hout => ?_⟩
  · obtain ⟨hc, hh, ⟨e, he, hei, hcnt, hw⟩, hline, hs⟩ := reduceArrive_queued (k := kOf s c) hab hl hfind hrop hempty hfree hi hq hle
    obtain ⟨t, hex, htook, hst⟩ : ∃ t, exec (.reduceArrival c) s = .next t ∧ s.took t c ∧
        State.Stepped { s with inbox := s.inbox.tail } t c (reduceArrive p (kOf s c)) :=
      ⟨_, rfl, arrival_step ha (by simp [hop]) rfl hc hh⟩
    exact ⟨t, e, hex, htook, (congrArg (fun q => SMap.get [] q n) hst.inq).trans he, hei, hcnt, hw,
      (congrArg (fun x => Mem.readLine x (entryOff n i)) hst.mem).trans hline, hst.sregs.trans hs⟩
  · obtain ⟨t, hex, htook, hst⟩ : ∃ t, exec (.creditReturnArrival c) s = .next t ∧ s.took t c ∧
        State.Stepped { s with inbox := s.inbox.tail } t c { kOf s c with core := k.credited m p.creditSeq } :=
      ⟨_, rfl, arrival_step ha (by simp [hch]) (creditArrive_credited hab hch hout) rfl rfl⟩
    have hoq (j : Nat) : (t.core c).outq.get .reset j = _ := (congrArg (·.get .reset j) hst.outq).trans (credited_outq k m p.creditSeq j)
    refine ⟨t, hex, htook, ?_, fun hone => ?_, fun e he hne => ?_, fun j hj => ?_, hst.mem, hst.sregs⟩
    · obtain ⟨hlo, hhi, hzero⟩ := ocret_apart m hm
      exact (hst.pair hlo hhi hzero).trans (credited_counts k m p.creditSeq)
    · rw [hoq, if_pos rfl]
      exact credited_completes hone
    · rw [hoq, if_pos rfl]
      exact credited_keeps _ he hne
    · rw [hoq, if_neg hj]
  · obtain ⟨rs, harr⟩ := creditArrive_stray (p := p) (k := kOf s c) hab hch hout
    obtain ⟨t, hex, htook, hst⟩ : ∃ t, exec (.creditReturnArrival c) s = .next t ∧ s.took t c ∧
        State.Stepped { s with inbox := s.inbox.tail } t c (K.report { kOf s c with core := { k with regs := rs } } 6 0x62 p.creditSeq.toNat
          (m * 2 ^ 21 + epBits p.src)) :=
      ⟨_, rfl, arrival_step ha (by simp [hch]) harr rfl rfl⟩
    refine ⟨t, _, hex, htook, hst.transit, rfl, rfl, ?_, hst.outq.trans ?_⟩
    · exact (BitVec.ofNat_toNat _ _).trans (BitVec.setWidth_eq _)
    · rw [report_core, noteMsg_regsOnly]

end Sys2Proof.Machine
end

section
/-! SUPPORT. Sync counters, signals and watch requests. -/

namespace Sys2Proof.Machine

/-! ### Device addresses -/

/-- The parts of a device address, from which it was made (R12). -/
theorem mkAddr_fields {sp off : Nat} (c : CoreId) (hs : sp < 16) (ho : off < 2 ^ 40) :
    addrSpace (mkAddr sp c off) = sp ∧ addrCore (mkAddr sp c off) = c ∧ addrOff40 (mkAddr sp c off) = off := by
  have hx := c.x.isLt
  have hy := c.y.isLt
  have hv : (mkAddr sp c off).toNat = sp * 2 ^ 60 + c.y.toNat * 2 ^ 50 + c.x.toNat * 2 ^ 40 + off := toNat_ofNat_lt (by omega)
  refine ⟨?_, ?_, ?_⟩
  · rw [addrSpace, field_eq_div, hv]; omega
  · have hax : addrX (mkAddr sp c off) = c.x.toNat := by rw [addrX, field_eq_div, hv]; omega
    have hay : addrY (mkAddr sp c off) = c.y.toNat := by rw [addrY, field_eq_div, hv]; omega
    rw [addrCore, hax, hay, coreAt, BitVec.ofNat_toNat, BitVec.ofNat_toNat, BitVec.setWidth_eq, BitVec.setWidth_eq]
  · rw [addrOff40, field_eq_div, hv]; omega

/-! ### Sync counters (R189) -/

theorem counterAt_counter {n : Nat} (h : n < 32) : counterAt (0x4040 + 8 * n) = some n := by
  rw [counterAt, if_pos (by simp only [rSY_CNT]; omega)]
  simp only [rSY_CNT]
  congr 1
  omega

/-- A counter written, before its watches are evaluated (R189). -/
def Core.withCounter (k : Core) (n : Nat) (v : DWord) : Core := { k with regs := setPair k.regs (rSY_CNT + 8 * n) v }

theorem withCounter_counter (k : Core) (n m : Nat) (v : DWord) : (k.withCounter n v).counter m = if m = n then v else k.counter m := by
  split
  · subst m; exact pairAt_setPair k.regs (rSY_CNT + 8 * n) v
  · exact pairAt_setPair_other k.regs (rSY_CNT + 8 * n) (rSY_CNT + 8 * m) v (by omega) (by omega) (by omega)

theorem setCounter_fires (k : K) (n : Nat) (v : DWord) : K.FiredOnly { k with core := k.core.withCounter n v } (k.setCounter n v) := by
  rw [K.setCounter, K.wroteCounter]
  exact evalWatches_firedOnly _ _

/-- The counters after one is set, whatever watches fire (R189). -/
theorem setCounter_counter (k : K) (n : Nat) (v : DWord) {m : Nat} (hm : m < 32) :
    (k.setCounter n v).core.counter m = if m = n then v else k.core.counter m :=
  ((setCounter_fires k n v).pairAt_eq (counterResets m hm)).trans (withCounter_counter k.core n m v)

/-- What setting a counter leaves of a core's step. -/
theorem setCounter_keeps (k : K) (n : Nat) (v : DWord) : (k.setCounter n v).c = k.c ∧ (k.setCounter n v).here = k.here ∧
    (k.setCounter n v).core.pc = k.core.pc ∧ (k.setCounter n v).core.s = k.core.s ∧ (k.setCounter n v).core.mem = k.core.mem := by
  rw [(setCounter_fires k n v).1]
  exact ⟨rfl, rfl, rfl, rfl, rfl⟩

/-- A pair of registers that holds no sync counter is as before when one is set, but for the count of fired watches. -/
theorem setCounter_pairAt (k : K) {n lo : Nat} (v : DWord) (hn : n < 32) (h : rSY_CNT + 0x100 ≤ lo)
    (hl : ∀ off ∈ [lo, lo + 4], off ∉ [rSY_FIRED, rSY_FIRED + 4] ∧ coreReset off = 0) :
    pairAt (k.setCounter n v).core.regs lo = pairAt k.core.regs lo :=
  ((setCounter_fires k n v).pairAt_eq hl).trans (pairAt_setPair_other k.core.regs (rSY_CNT + 8 * n) lo v (by omega) (by omega) (by omega))

theorem counter_retireAt (k : Core) (n : Nat) {m : Nat} (hm : m < 32) : (k.retireAt n).counter m = k.counter m := by
  have h : ∀ m < 32, rSY_CNT + 8 * m ∉ retireRegs ∧ rSY_CNT + 8 * m + 4 ∉ retireRegs := by decide
  exact Core.retireAt_pairAt k n (h m hm).1 (h m hm).2

theorem State.Stepped.counter {s t : State} {c : CoreId} {k : K} (h : s.Stepped t c k) {m : Nat} (hm : m < 32) :
    (t.core c).counter m = k.core.counter m := by
  have hr : ∀ m < 32, rSY_CNT + 8 * m ∉ [rDF_WINDOW, rDF_STALL] ∧ rSY_CNT + 8 * m + 4 ∉ [rDF_WINDOW, rDF_STALL] ∧
      coreReset (rSY_CNT + 8 * m) = 0 ∧ coreReset (rSY_CNT + 8 * m + 4) = 0 := by decide
  obtain ⟨hlo, hhi, hzero⟩ := hr m hm
  exact h.pair hlo hhi hzero

/-! ### SIG -/

/-- SIG to a counter of the own core sets it and retires (R190). -/
theorem sig_own {s : State} {c : CoreId} {a b : SReg} {n pc : Nat} {w : Word} (hf : s.free c [a, b]) (hn : n < 32) (hg : onGrid c = true)
    (ha : (s.core c).sreg a = mkAddr 1 c (0x4040 + 8 * n)) :
    sigBody a b pc w (kOf s c) = ((kOf s c).setCounter n ((s.core c).counter n + (s.core c).sreg b)).advance := by
  obtain ⟨hsp, hc, hoff⟩ := mkAddr_fields (sp := 1) (off := 0x4040 + 8 * n) c (by omega) (by omega)
  rw [sigBody, whenReady_of_free hf (fun _ h => h)]
  simp only [kOf_core, kOf_c, ha, hoff, hsp, hc, hg, counterAt_counter hn, ne_eq, not_true_eq_false, Bool.not_true, Bool.false_eq_true, or_self,
    if_false, if_true]

/-- The SIG packet to a counter of another core (R190, R201). -/
def K.sigPacket (k : K) (n : Nat) (v : DWord) : Packet := k.packet 4 1 (0x4040 + 8 * n) 3 0 0 (headOf v.toNat) []

/-- SIG to a counter of another core leaves as a packet and retires (R190). -/
theorem sig_remote {s : State} {c there : CoreId} {a b : SReg} {n pc : Nat} {w : Word} (hf : s.free c [a, b]) (hn : n < 32)
    (hg : onGrid there = true) (hne : there ≠ c) (ha : (s.core c).sreg a = mkAddr 1 there (0x4040 + 8 * n)) :
    sigBody a b pc w (kOf s c) = ((kOf s c).sendTo ((s.core c).sreg a) ((kOf s c).sigPacket n ((s.core c).sreg b))).advance := by
  obtain ⟨hsp, hc, hoff⟩ := mkAddr_fields (sp := 1) (off := 0x4040 + 8 * n) there (by omega) (by omega)
  rw [sigBody, whenReady_of_free hf (fun _ h => h)]
  simp only [kOf_core, kOf_c, ha, hoff, hsp, hc, hg, hne, counterAt_counter hn, ne_eq, not_true_eq_false, Bool.not_true, Bool.false_eq_true,
    or_self, if_false]
  rfl

/-- A SIG packet for a sync counter is no credit return (R183, R201). -/
theorem noCredit_counter (p : Packet) {n : Nat} (hn : n < 32) (h : p.off.toNat = 0x4040 + 8 * n) : creditChannel p = none := by
  rw [creditChannel, if_neg (by omega)]

/-- A SIG packet that arrives adds its payload to its counter and is counted, whatever watches fire (R189, R201). -/
theorem sigArrive_counts (p : Packet) (k : K) {n : Nat} (hn : n < 32) (h : p.off.toNat = 0x4040 + 8 * n) :
    (sigArrive p k).c = k.c ∧ (sigArrive p k).here = k.here ∧
      (∀ m, m < 32 → (sigArrive p k).core.counter m = if m = n then k.core.counter n + p.head.extractLsb' 0 64 else k.core.counter m) ∧
      pairAt (sigArrive p k).core.regs rSY_SIGS = pairAt k.core.regs rSY_SIGS + 1 ∧
      (sigArrive p k).core.mem = k.core.mem ∧ (sigArrive p k).core.s = k.core.s := by
  have harr : sigArrive p k = K.setCounter { k with core := k.core.count rSY_SIGS 1 } n (k.core.counter n + p.head.extractLsb' 0 64) := by
    simp only [sigArrive, h, counterAt_counter hn]
  obtain ⟨hc, hh, -, hs, hm⟩ := setCounter_keeps { k with core := k.core.count rSY_SIGS 1 } n (k.core.counter n + p.head.extractLsb' 0 64)
  rw [harr]
  refine ⟨hc, hh, fun m hlt => ?_, ?_, hm, hs⟩
  · rw [setCounter_counter _ _ _ hlt]
    exact ite_congr rfl (fun _ => rfl) fun _ => count_pairAt_other k.core 1 (by simp only [rSY_CNT, rSY_SIGS]; omega)
  · exact (setCounter_pairAt _ _ hn (by decide) (by decide)).trans (count_pairAt_self k.core rSY_SIGS)

/-! ### Watch requests (R192, R193) -/

/-- A core with a watch in an entry. -/
def Core.watching (k : Core) (i : Nat) (w : Option Watch) : Core := { k with watches := k.watches.set i w }

/-- A request that is no cancellation takes the lowest free entry, and fires at once when its condition holds (R192, R193). -/
theorem register_entry {k : K} {l : Line} {w : Watch} {i : Nat} (hr : k.core.watchRefusal l = none) (hv : w.value = lineDWord l 0)
    (hc : w.ctrl = lineDWord l 1) (hcancel : w.ctrl.getLsbD 22 = false) (hi : k.core.freeWatch = some i) :
    k.register l w.sys = (if w.holds (k.core.watched w) then K.fire { k with core := k.core.watching i (some w) } i w (k.core.watched w)
      else { k with core := k.core.watching i (some w) }, none) := by
  obtain ⟨v, ct, sys⟩ := w
  subst hv hc
  simp only [K.register, hr, hcancel, hi, Bool.false_eq_true, if_false]
  rfl

/-- A watch request at its core: registered, and acknowledged or refused (R192). -/
def requestArrives (p : Packet) (k : K) : K :=
  let r := k.register ((p.lines.head?).getD 0) p.sys
  match r.2 with
  | none => r.1.replyAck p
  | some e => r.1.replyErr p e

/-- A request of one line that is no cancellation is registered and acknowledged, its WMSG first when it fires at once (R192, R193). -/
theorem requestArrives_entry {p : Packet} {k : K} {l : Line} {w : Watch} {i : Nat} (hr : k.core.watchRefusal l = none)
    (hv : w.value = lineDWord l 0) (hc : w.ctrl = lineDWord l 1) (hcancel : w.ctrl.getLsbD 22 = false) (hi : k.core.freeWatch = some i)
    (hl : p.lines = [l]) (hsys : w.sys = p.sys) : requestArrives p k =
      (if w.holds (k.core.watched w) then K.fire { k with core := k.core.watching i (some w) } i w (k.core.watched w)
        else { k with core := k.core.watching i (some w) }).replyAck p := by
  have hreg := register_entry hr hv hc hcancel hi
  rw [hsys] at hreg
  simp only [requestArrives, hl, List.head?_cons, Option.getD_some, hreg]

theorem State.Stepped.watches {s t : State} {c : CoreId} {k : K} (h : s.Stepped t c k) : (t.core c).watches = k.core.watches := by rw [h.core.1]

/-- The WMSG of a watch that fires (R193). -/
def K.wmsg (k : K) (w : Watch) (v : DWord) : Packet :=
  let p := k.packet 5 1 (rSY_RVAL + 8 * w.channel) 3 0 0 (headOf v.toNat) []
  if w.sys then { p with sys := true } else p

theorem wmsg_op (k : K) (w : Watch) (v : DWord) : (k.wmsg w v).op = 5 := by
  unfold K.wmsg; cases w.sys <;> rfl

theorem wmsg_head (k : K) (w : Watch) (v : DWord) : (k.wmsg w v).head = BitVec.ofNat 384 v.toNat := by
  unfold K.wmsg; cases w.sys <;> rfl

/-- An instruction reads a line of the own scratchpad that nothing delays or refuses (R178, R192). -/
theorem ownLine_local {s : State} {c : CoreId} {ad : DWord} {pc : Nat} {f : K → Line → K} (h : (s.core c).localAccess c ad 64 false) :
    (kOf s c).ownLine pc ad f = f (kOf s c) (Mem.readLine (s.core c).mem (addrOff40 ad)) := by
  obtain ⟨hown, hal, hlt, hheld, hhaz, href, hclean⟩ := h
  have hin : K.ownLine.inOwn c ad = true := by simp [K.ownLine.inOwn, hown, padSize, hlt]
  have hline : addrOff40 ad / 64 * 64 = addrOff40 ad := by
    have := addrOff40_mod (ad := ad) (n := 64) (by decide)
    omega
  have hhaz' : (s.core c).hazard (s.core c).num [addrOff40 ad] [] = false := hhaz
  simp only [K.ownLine, kOf_c, kOf_core, hin, aligned_of_mod hal, hheld, hhaz', readLine_clean (k := kOf s c) href hclean, hline,
    Bool.not_true, Bool.or_self, Bool.false_eq_true, if_false]

/-- WATCH at the own core registers its request and retires with 0 (R192). -/
theorem watch_own {s : State} {c : CoreId} {d a b : SReg} {l : Line} {w : Watch} {i pc : Nat} {wd : Word} (hg : onGrid c = true)
    (hr : (s.core c).watchRefusal l = none) (hv : w.value = lineDWord l 0) (hc : w.ctrl = lineDWord l 1) (hcancel : w.ctrl.getLsbD 22 = false)
    (hi : (s.core c).freeWatch = some i) (hf : s.free c [d, a, b]) (hloc : (s.core c).localAccess c ((s.core c).sreg a) 64 false)
    (hl : l = Mem.readLine (s.core c).mem (addrOff40 ((s.core c).sreg a))) (hsp : addrSpace ((s.core c).sreg b) = 1)
    (hthere : addrCore ((s.core c).sreg b) = c) (hsys : w.sys = (field ((kOf s c).rt.reg rRT_PID) 29 1 == 1))
    (hno : w.holds ((s.core c).watched w) = false) :
    watchBody d a b pc wd (kOf s c) = K.advance { kOf s c with core := ((s.core c).watching i (some w)).setS d 0 } := by
  rw [watchBody, whenReady_of_free hf (fun _ h => h), kOf_core, ownLine_local hloc, ← hl]
  have hreg := register_entry (k := kOf s c) hr hv hc hcancel hi
  rw [if_neg (by rw [kOf_core, hno]; decide), hsys] at hreg
  simp only [hsp, hthere, hg, kOf_core, kOf_c, hreg, ne_eq, not_true_eq_false, Bool.not_true, Bool.false_eq_true, if_false, if_true]
  rfl

/-! ### The obligation -/

/-- Settles O18: a signal and a watch request each are one step of their core; a watch that fires at once leaves its WMSG before the answer. -/
theorem signalsAndWatches : Obligations.SignalsAndWatches := by
  unfold Obligations.SignalsAndWatches
  refine ⟨fun s c a b n p => ?_, fun s c d a b p i l w => ?_⟩
  · intro k ad hn
    refine ⟨fun hi hf ha => ?_, fun there hi hf hg hne ha => ?_, fun ha hop hoff => ?_⟩
    · obtain ⟨hc, -, hpc, hs, hm⟩ := setCounter_keeps (kOf s c) n (k.counter n + k.sreg b)
      have hcnt (m : Nat) (hm : m < 32) := setCounter_counter (kOf s c) n (k.counter n + k.sreg b) hm
      have hex : exec (.sig c a b) s = .next (kPut s ((kOf s c).setCounter n (k.counter n + k.sreg b)).advance) :=
        (issue_of_issues hi).trans (by rw [sig_own hf hn (alive_onGrid hi.1) ha])
      generalize (kOf s c).setCounter n (k.counter n + k.sreg b) = z at hc hpc hs hm hcnt hex
      refine ⟨kPut s z.advance, hex, ?_⟩
      rw [kPut_core (show z.advance.c = c from hc), K.advance, retire_core_eq]
      refine ⟨?_, fun m hm hmn => ?_, ?_, fun r => ?_, hm, kPut_other hc⟩
      · rw [counter_retireAt _ _ hn, hcnt n hn, if_pos rfl]
      · rw [counter_retireAt _ _ hm, hcnt m hm, if_neg hmn]; rfl
      · rw [Core.retireAt_pc, hpc]; rfl
      · rw [Core.retireAt_sreg, Core.sreg, hs]; rfl
    · refine ⟨_, (kOf s c).sigPacket n (k.sreg b), (issue_of_issues hi).trans (by rw [sig_remote hf hn hg hne ha]), kPut_other rfl, rfl, rfl, ?_,
        rfl, ?_, ?_⟩
      · exact toNat_ofNat_lt (by omega)
      · rw [kPut_core (show K.c _ = c from rfl)]
        exact Core.retired_retireAt (by simp) fun _ _ => rfl
      · rw [kPut_core (show K.c _ = c from rfl)]
        rfl
    · obtain ⟨hc, hh, hcnt, hsigs, hm, hs⟩ := sigArrive_counts p (kOf s c) hn hoff
      obtain ⟨t, hex, htook, hst⟩ : ∃ t, exec (.sigArrival c) s = .next t ∧ s.took t c ∧
          State.Stepped { s with inbox := s.inbox.tail } t c (sigArrive p (kOf s c)) :=
        ⟨_, rfl, arrival_step ha (by simp [hop, noCredit_counter p hn hoff]) rfl hc hh⟩
      refine ⟨t, hex, htook, ?_, (hst.pair (by decide) (by decide) (by decide)).trans hsigs, fun m hm hmn => ?_, hst.mem.trans hm,
        hst.sregs.trans hs⟩
      · rw [hst.counter hn, hcnt n hn, if_pos rfl]; rfl
      · rw [hst.counter hm, hcnt m hm, if_neg hmn]; rfl
  · intro k there hr hv hc hcancel hi
    refine ⟨fun hiss hf hloc hl hsp hthere hsys hno => ?_, fun ha hreq hl hsys hno => ?_, fun ha hreq hl hsys hyes => ?_⟩
    · refine ⟨_, (issue_of_issues hiss).trans (by
        rw [watch_own (alive_onGrid hiss.1) hr hv hc hcancel hi hf hloc hl hsp hthere hsys hno]), ?_, ?_, ?_, ?_, List.append_nil _,
        kPut_other rfl⟩
      all_goals rw [kPut_core (show K.c _ = c from rfl), K.advance, retire_core_eq]
      · exact (congrArg (fun x : Core => x.watches.get none i) (Core.setS_eq (k.watching i (some w)) d 0)).trans (SMap.get_set_self _ _ _ _)
      · exact fun r => setS_sregs (k.watching i (some w)) d 0 r
      · rw [show ((k.watching i (some w)).setS d 0).pc = k.pc from Core.setS_pc _ _ _]
        exact Core.retired_retireAt (by simp) fun off _ => by rw [Core.setS_regs]; rfl
      · exact Core.setS_mem (k.watching i (some w)) d 0
    · have harr : requestArrives p (kOf s c) = K.replyAck { kOf s c with core := k.watching i (some w) } p :=
        (requestArrives_entry (k := kOf s c) hr hv hc hcancel hi hl hsys).trans (by rw [if_neg (by rw [kOf_core, hno]; decide)]; rfl)
      obtain ⟨t, hex, htook, hst⟩ : ∃ t, exec (.watchRequest c) s = .next t ∧ s.took t c ∧
          State.Stepped { s with inbox := s.inbox.tail } t c _ :=
        ⟨_, rfl, arrival_step ha hreq harr rfl rfl⟩
      exact ⟨t, _, hex, htook, (congrArg (·.get none i) hst.watches).trans (SMap.get_set_self _ _ _ _), hst.inj, rfl, rfl, rfl, hst.mem⟩
    · obtain ⟨q, hop, -, -, hdst, htxid, hack⟩ := reply_eq (K.fire { kOf s c with core := k.watching i (some w) } i w (k.watched w)) p 10 0 0 0
        (headOf 1) []
      have harr := (requestArrives_entry (k := kOf s c) hr hv hc hcancel hi hl hsys).trans ((by
        rw [if_pos (by rw [kOf_core, hyes])]; rfl : _ = K.reply _ p 10 0 0 0 (headOf 1) []).trans hack)
      obtain ⟨t, hex, htook, hst⟩ : ∃ t, exec (.watchRequest c) s = .next t ∧ s.took t c ∧
          State.Stepped { s with inbox := s.inbox.tail } t c _ :=
        ⟨_, rfl, arrival_step ha hreq harr rfl rfl⟩
      refine ⟨t, Sent.mk ((kOf s c).wmsg w (k.watched w)) (some (mkAddr 1 w.waiter (rSY_RVAL + 8 * w.channel))) true, q, hex, htook,
        (congrArg (·.get none i) hst.watches).trans (SMap.get_set_self _ _ _ _), hst.inj, wmsg_op _ _ _, rfl, wmsg_head _ _ _,
        (hst.pair (by decide) (by decide) (by decide)).trans (count_pairAt_self _ rSY_FIRED)⟩

end Sys2Proof.Machine
end

section
/-! SUPPORT. Reply channels: the WAIT that takes one, and the WMSG that fills one. -/

namespace Sys2Proof.Machine

/-! ### One bit of a word -/

theorem setField_clears {w : Nat} (v : BitVec w) (i : Nat) : setField v i 1 0 = v &&& ~~~ (1#w <<< i) := by simp [setField]

theorem setField_sets {w : Nat} (v : BitVec w) (i : Nat) : setField v i 1 1 = v ||| (1#w <<< i) := by
  have hjoin (m : BitVec w) : (v &&& ~~~m) ||| m = v ||| m := by
    ext j hj
    rw [BitVec.getElem_or, BitVec.getElem_and, BitVec.getElem_not, BitVec.getElem_or]
    cases v[j] <;> cases m[j] <;> rfl
  simp only [setField, pow_one, Nat.add_one_sub_one, BitVec.and_self, hjoin]

/-! ### WAIT (R194) -/

@[simp] theorem Core.retireAt_rfull (k : Core) (n : Nat) : (k.retireAt n).rfull = k.rfull := rfl
@[simp] theorem Core.retireAt_waiting (k : Core) (n : Nat) : (k.retireAt n).waiting = k.waiting := rfl
@[simp] theorem Core.setS_rfull (k : Core) (d : SReg) (v : DWord) : (k.setS d v).rfull = k.rfull := by rw [Core.setS_eq]

/-- The core whose WAIT ends with a value: its register holds it, and the core waits no longer (R194, R196). -/
def Core.waited (k : Core) (d : SReg) (v : DWord) : Core := { k.setS d v with waiting := none, lent := false, idleCc := 0 }

/-- The core whose WAIT takes a reply channel (R194). -/
def Core.tookReply (k : Core) (d : SReg) (ch : Nat) : Core :=
  { k.waited d (BitVec.ofNat 64 ch) with rfull := k.rfull &&& ~~~ (1#16 <<< ch) }

theorem tookReply_eq (k : Core) (d : SReg) (ch : Nat) : k.tookReply d ch =
    { k with s := (k.setS d (BitVec.ofNat 64 ch)).s, rfull := k.rfull &&& ~~~ (1#16 <<< ch), waiting := none, lent := false, idleCc := 0 } := by
  rw [Core.tookReply, Core.waited, Core.setS_eq]

theorem tookReply_sregs (k : Core) (d : SReg) (ch : Nat) : k.sregsSet (k.tookReply d ch) d (BitVec.ofNat 64 ch) :=
  fun r => by rw [tookReply_eq]; exact setS_sregs k d (BitVec.ofNat 64 ch) r

theorem tookReply_pc (k : Core) (d : SReg) (ch : Nat) : (k.tookReply d ch).pc = k.pc := by rw [tookReply_eq]

theorem tookReply_mem (k : Core) (d : SReg) (ch : Nat) : (k.tookReply d ch).mem = k.mem := by rw [tookReply_eq]

theorem tookReply_regs (k : Core) (d : SReg) (ch : Nat) : (k.tookReply d ch).regs = k.regs := by rw [tookReply_eq]

theorem tookReply_rfull (k : Core) (d : SReg) (ch : Nat) : (k.tookReply d ch).rfull = k.rfull &&& ~~~ (1#16 <<< ch) := rfl

theorem tookReply_waiting (k : Core) (d : SReg) (ch : Nat) : (k.tookReply d ch).waiting = none := rfl

theorem takeReply_eq (k : K) (d : SReg) (ch : Nat) : k.takeReply d ch = K.advance { k with core := k.core.tookReply d ch } := by
  rw [K.takeReply, setField_clears]
  rfl

theorem takeReply_core (k : K) (d : SReg) (ch : Nat) : (k.takeReply d ch).core = (k.core.tookReply d ch).retireAt (k.core.pc + 1) := by
  rw [takeReply_eq, K.advance, retire_core_eq, tookReply_pc]

/-- WAIT on a full channel of its mask takes it, its cycle counted (R194). -/
theorem wait_takes {s : State} {c : CoreId} {d a b : SReg} {ch pc : Nat} {w : Word} (hf : s.free c [d, a, b])
    (hm : ((s.core c).sreg a).extractLsb' 0 16 ≠ (0 : BitVec 16)) (hr : (s.core c).fullReply (((s.core c).sreg a).extractLsb' 0 16) = some ch) :
    waitBody d a b pc w (kOf s c) = K.takeReply { kOf s c with core := (s.core c).count rSY_WAITCYC 1 } d ch := by
  rw [waitBody, whenReady_of_free hf (fun _ h => h)]
  simp only [kOf_core, if_neg hm, hr]

/-- The core whose WAIT waits (R194). -/
def Core.waitsFor (k : Core) (d a b : SReg) : Core :=
  { k.count rSY_WAITCYC 1 with
    seq := .stall, waiting := some { d := d, mask := (k.sreg a).extractLsb' 0 16, limit := k.sreg b, elapsed := 1 } }

theorem wait_waits {s : State} {c : CoreId} {d a b : SReg} {pc : Nat} {w : Word} (hf : s.free c [d, a, b])
    (hm : ((s.core c).sreg a).extractLsb' 0 16 ≠ (0 : BitVec 16)) (hr : (s.core c).fullReply (((s.core c).sreg a).extractLsb' 0 16) = none) :
    waitBody d a b pc w (kOf s c) = { kOf s c with core := (s.core c).waitsFor d a b } := by
  rw [waitBody, whenReady_of_free hf (fun _ h => h)]
  simp only [kOf_core, if_neg hm, hr]
  rfl

/-- A WAIT whose time has passed retires with all ones (R194). -/
theorem exec_waitExpiry {s : State} {c : CoreId} {w : Waiting} (hl : s.alive c = true) (hd : (s.core c).df = .run)
    (hw : (s.core c).waiting = some w) (hlim : w.limit ≠ 0) (hel : w.limit.toNat ≤ w.elapsed) (hr : (s.core c).fullReply w.mask = none) :
    exec (.waitExpiry c) s = .next (kPut s (K.advance { kOf s c with core := (s.core c).waited w.d 0xFFFFFFFFFFFFFFFF })) := by
  show execWaitExpiry c s = _
  have hnow : ((s.core c).df == .run && w.limit != 0 && decide (w.limit.toNat ≤ w.elapsed) && ((s.core c).fullReply w.mask).isNone) = true := by
    rw [hd, bne_iff_ne.mpr hlim, decide_eq_true hel, hr]
    rfl
  simp only [execWaitExpiry, onLive_of_alive hl, kOf_core, hw]
  exact congrArg (fun k => Host.Outcome.next (kPut s k)) (if_pos hnow)

/-! ### WMSG (R193) -/

theorem replyAt_channel {ch : Nat} (h : ch < 16) : replyAt (0x4200 + 8 * ch) = some ch := by
  rw [replyAt, if_pos (by simp only [rSY_RVAL]; omega)]
  simp only [rSY_RVAL]
  congr 1
  omega

/-- A core whose reply channel a WMSG has filled; one that was full already is overrun (R193). -/
def Core.replied (k : Core) (ch : Nat) (p : Packet) : Core :=
  let c := if k.rfull.getLsbD ch then k.count rSY_OVERRUN 1 else k
  { c with
    rfull := setField c.rfull ch 1 1
    regs := (setPair c.regs (rSY_RVAL + 8 * ch) (p.head.extractLsb' 0 64)).set (rSY_RSRC + 4 * ch) (place 32 0 21 (epBits p.src)) }

theorem replied_eq (k : Core) (ch : Nat) (p : Packet) :
    k.replied ch p = { k with rfull := k.rfull ||| (1#16 <<< ch), regs := (k.replied ch p).regs } := by
  rw [← setField_sets]
  unfold Core.replied
  cases k.rfull.getLsbD ch <;> rfl

theorem replied_value (k : Core) {ch : Nat} (p : Packet) (h : ch < 16) :
    pairAt (k.replied ch p).regs (rSY_RVAL + 8 * ch) = p.head.extractLsb' 0 64 :=
  (pairAt_set_other _ _ _ _ (by simp only [rSY_RVAL, rSY_RSRC]; omega) (by simp only [rSY_RVAL, rSY_RSRC]; omega)).trans (pairAt_setPair _ _ _)

theorem place_epBits (e : Endpoint) : (place 32 0 21 (epBits e) : Word) = BitVec.ofNat 32 (epBits e) := by
  have hx := e.px.isLt
  have hy := e.py.isLt
  have hb := Bool.toNat_le e.ext
  rw [place, BitVec.shiftLeft_zero, Nat.mod_eq_of_lt (by rw [epBits]; omega)]

theorem replied_source (k : Core) (ch : Nat) (p : Packet) : (k.replied ch p).reg (rSY_RSRC + 4 * ch) = BitVec.ofNat 32 (epBits p.src) :=
  (SMap.get_set_self _ _ _ _).trans (place_epBits p.src)

/-- A WMSG fills its channel, and a WAIT on the channel takes it at once (R193, R194). -/
theorem wmsgArrive_cases (k : K) {p : Packet} {ch : Nat} (hch : ch < 16) (ho : p.off.toNat = 0x4200 + 8 * ch) :
    (wmsgArrive p k = { k with core := k.core.replied ch p } ∧ ∀ w, k.core.waiting = some w → w.mask.getLsbD ch = false) ∨
      ∃ w, k.core.waiting = some w ∧ wmsgArrive p k = K.takeReply { k with core := k.core.replied ch p } w.d ch := by
  have hw : (k.core.replied ch p).waiting = k.core.waiting := by rw [replied_eq]
  have heq : wmsgArrive p k = match (k.core.replied ch p).waiting with
      | some w => if w.mask.getLsbD ch then K.takeReply { k with core := k.core.replied ch p } w.d ch else { k with core := k.core.replied ch p }
      | none => { k with core := k.core.replied ch p } := by
    rw [wmsgArrive, ho, replyAt_channel hch]
    rfl
  rw [heq, hw]
  cases hk : k.core.waiting with
  | none => exact .inl ⟨rfl, fun w hw => by simp at hw⟩
  | some w =>
    by_cases hbit : w.mask.getLsbD ch = true
    · exact .inr ⟨w, rfl, if_pos hbit⟩
    · refine .inl ⟨if_neg hbit, fun w' hw' => ?_⟩
      obtain rfl := Option.some.inj hw'
      simpa using hbit

/-- What a WMSG leaves in its channel's registers, whether a WAIT takes it or not (R193). -/
theorem wmsgArrive_registers (k : K) {p : Packet} {ch : Nat} (hch : ch < 16) (ho : p.off.toNat = 0x4200 + 8 * ch) :
    (wmsgArrive p k).c = k.c ∧ (wmsgArrive p k).here = k.here ∧ (wmsgArrive p k).core.mem = k.core.mem ∧
      pairAt (wmsgArrive p k).core.regs (rSY_RVAL + 8 * ch) = p.head.extractLsb' 0 64 ∧
      (wmsgArrive p k).core.reg (rSY_RSRC + 4 * ch) = BitVec.ofNat 32 (epBits p.src) := by
  have hmem : (k.core.replied ch p).mem = k.core.mem := by rw [replied_eq]
  rcases wmsgArrive_cases k hch ho with ⟨h, -⟩ | ⟨w, -, h⟩
  · rw [h]
    exact ⟨rfl, rfl, hmem, replied_value k.core p hch, replied_source k.core ch p⟩
  · have hfree : ∀ ch < 16, rSY_RVAL + 8 * ch ∉ retireRegs ∧ rSY_RVAL + 8 * ch + 4 ∉ retireRegs ∧ rSY_RSRC + 4 * ch ∉ retireRegs := by decide
    obtain ⟨hlo, hhi, hsrc⟩ := hfree ch hch
    rw [h, takeReply_core]
    refine ⟨by rw [takeReply_eq]; rfl, by rw [takeReply_eq]; rfl, ?_, ?_, ?_⟩
    · rw [Core.retireAt_mem, tookReply_mem]; exact hmem
    · rw [Core.retireAt_pairAt _ _ hlo hhi, tookReply_regs]; exact replied_value k.core p hch
    · rw [Core.retireAt_reg _ _ hsrc, Core.reg, tookReply_regs]; exact replied_source k.core ch p

/-! ### The obligation -/

/-- Settles O20: a WAIT is one step of its core, whether it takes a channel, waits or expires; so is a WMSG, with the WAIT that it ends. -/
theorem waitsAndReplies : Obligations.WaitsAndReplies := by
  unfold Obligations.WaitsAndReplies
  intro s c d a b p w ch k mask
  refine ⟨fun hi hf hm hr => ?_, fun hi hf hm hr => ?_, fun hl hd hw hlim hel hr => ?_, fun ha hop hch ho => ?_⟩
  · refine ⟨_, (issue_of_issues hi).trans (by rw [wait_takes hf hm hr]), ?_⟩
    rw [kPut_core (show K.c _ = c by rw [takeReply_eq]; rfl), takeReply_core]
    refine ⟨fun r => ?_, Core.retireAt_pc _ _, ?_, ?_, ?_, ?_⟩
    · rw [Core.retireAt_sreg]
      exact tookReply_sregs (k.count rSY_WAITCYC 1) d ch r
    · rw [Core.retireAt_rfull, tookReply_rfull]; rfl
    · rw [Core.retireAt_waiting, tookReply_waiting]
    · rw [Core.retireAt_mem, tookReply_mem]; rfl
    · exact kPut_other (by rw [takeReply_eq]; rfl)
  · refine ⟨_, (issue_of_issues hi).trans (by rw [wait_waits hf hm hr]), ?_⟩
    rw [kPut_core (show K.c _ = c from rfl)]
    exact ⟨rfl, rfl, rfl, fun _ => rfl, rfl, kPut_other rfl⟩
  · refine ⟨_, exec_waitExpiry hl hd hw hlim hel hr, ?_⟩
    rw [kPut_core (show K.c _ = c from rfl), K.advance, retire_core_eq]
    refine ⟨?_, ?_, fun r => ?_, ?_, ?_, kPut_other rfl⟩
    · rw [Core.retireAt_waiting]; rfl
    · rw [Core.retireAt_pc]; exact congrArg (· + 1) (Core.setS_pc k w.d _)
    · rw [Core.retireAt_sreg]; exact setS_sregs k w.d _ r
    · rw [Core.retireAt_rfull]; exact Core.setS_rfull k w.d _
    · rw [Core.retireAt_mem]; exact Core.setS_mem k w.d _
  · obtain ⟨hc, hh, hmem, hval, hsrc⟩ := wmsgArrive_registers (kOf s c) hch ho
    obtain ⟨t, hex, htook, hst⟩ : ∃ t, exec (.wmsgArrival c) s = .next t ∧ s.took t c ∧
        State.Stepped { s with inbox := s.inbox.tail } t c (wmsgArrive p (kOf s c)) :=
      ⟨_, rfl, arrival_step ha (by simp [hop]) rfl hc hh⟩
    have hapart : ∀ ch < 16, rSY_RVAL + 8 * ch ∉ [rDF_WINDOW, rDF_STALL] ∧ rSY_RVAL + 8 * ch + 4 ∉ [rDF_WINDOW, rDF_STALL] ∧
        rSY_RSRC + 4 * ch ∉ [rDF_WINDOW, rDF_STALL] ∧ coreReset (rSY_RVAL + 8 * ch) = 0 ∧ coreReset (rSY_RVAL + 8 * ch + 4) = 0 := by decide
    obtain ⟨hlo, hhi, hs4, hz⟩ := hapart ch hch
    refine ⟨t, hex, htook, (hst.pair hlo hhi hz).trans hval, (hst.reg hs4).trans hsrc, hst.mem.trans hmem, fun hnone => ?_, fun hw hbit => ?_⟩
    · rcases wmsgArrive_cases (kOf s c) hch ho with ⟨h, -⟩ | ⟨w', hw', -⟩
      · rw [hst.core.1, h]
        exact congrArg Core.rfull (replied_eq k ch p)
      · exact absurd (hnone.symm.trans hw') (by simp)
    · rcases wmsgArrive_cases (kOf s c) hch ho with ⟨-, hno⟩ | ⟨w', hw', h⟩
      · exact absurd hbit (by rw [hno w hw]; decide)
      · obtain rfl : w = w' := Option.some.inj (hw.symm.trans hw')
        have hcore : (wmsgArrive p (kOf s c)).core = ((k.replied ch p).tookReply w.d ch).retireAt ((k.replied ch p).pc + 1) := by
          rw [h, takeReply_core]; rfl
        have hrep : (k.replied ch p).pc = k.pc ∧ (k.replied ch p).s = k.s := by rw [replied_eq]; exact ⟨rfl, rfl⟩
        refine ⟨?_, ?_, fun r => ?_⟩
        · rw [hst.core.1, hcore, Core.retireAt_waiting, tookReply_waiting]
        · rw [hst.pc, hcore, Core.retireAt_pc, hrep.1]
        · rw [Core.sreg, hst.sregs, hcore, ← Core.sreg, Core.retireAt_sreg]
          refine (tookReply_sregs (k.replied ch p) w.d ch r).trans ?_
          rw [Core.sreg, Core.sreg, hrep.2]

end Sys2Proof.Machine
end

section
/-! SUPPORT. SEND: the line that leaves on an output channel. -/

namespace Sys2Proof.Machine

/-! ### The head of a token (R180) -/

theorem tokenHead_fields (mask : BitVec 128) (tag seq : BitVec 16) {m : Nat} (hm : m < 16) :
    (tokenHead mask tag seq m).extractLsb' 128 16 = tag ∧ (tokenHead mask tag seq m).extractLsb' 144 16 = seq ∧
      ((tokenHead mask tag seq m).extractLsb' 160 4).toNat = m := by
  have hmask := mask.isLt
  have htag := tag.isLt
  have hseq := seq.isLt
  refine ⟨BitVec.eq_of_toNat_eq ?_, BitVec.eq_of_toNat_eq ?_, ?_⟩
  · refine (field_headOf (lo := 128) (n := 16) (by decide)).trans ?_
    omega
  · refine (field_headOf (lo := 144) (n := 16) (by decide)).trans ?_
    omega
  · refine (field_headOf (lo := 160) (n := 4) (by decide)).trans ?_
    omega

/-! ### A line on an output channel (R181) -/

/-- A core that has counted a message on an output channel (R230). -/
def Core.messaged (k : Core) (m : Nat) : Core := k.count (rCH_OMSG + 0x40 * m) 1

/-- A core whose output channel has sent a token: its SEQ is taken and outstanding (R181). -/
def Core.tokenSent (k : Core) (m : Nat) : Core :=
  { k.messaged m with outq := SMap.upd OutChan.reset k.outq m (fun o =>
      { next := o.next + 1, outst := o.outst ++ [{ seq := o.next, gather := 0 }] }) }

theorem tokenSent_channel (k : Core) (m : Nat) : (k.tokenSent m).outq.get .reset m =
    { next := (k.outq.get .reset m).next + 1, outst := (k.outq.get .reset m).outst ++ [OutMsg.mk (k.outq.get .reset m).next 0] } := by
  rw [Core.tokenSent, SMap.get_upd, if_pos rfl]

/-- The queue base that a channel's receiver names (R180). -/
def Core.odstOff (k : Core) (m : Nat) : Nat := 0x54000 + 0x800 * field (k.reg (rCH_ODST + 0x40 * m)) 0 4

/-- A token of channel `m` with line `l`, for one receiver or several (R180, R181). -/
def K.tokenPacket (k : K) (op off : Nat) (mask : BitVec 128) (m iter : Nat) (l : Line) : Packet :=
  k.packet op 0 off 4 1 0 (tokenHead mask (k.core.mkTag iter) (k.core.outq.get .reset m).next m) [l]

theorem tokenPacket_fields (k : K) (op off : Nat) (mask : BitVec 128) {m : Nat} (iter : Nat) (l : Line) (hm : m < 16) :
    (k.tokenPacket op off mask m iter l).tag = k.core.mkTag iter ∧
      (k.tokenPacket op off mask m iter l).tseq = (k.core.outq.get .reset m).next ∧ (k.tokenPacket op off mask m iter l).och.toNat = m :=
  tokenHead_fields _ _ _ hm

/-- The REDUCE packet of channel `m` with line `l` (R181, R187). -/
def K.contribution (k : K) (m : Nat) (l : Line) : Packet :=
  k.packet 6 0 0 4 1 0 (headOf (field (k.core.ocfg m) 0 12 + field (k.core.ocfg m) 22 2 * 2 ^ 12 + 2 ^ 16)) [l]

theorem contribution_fields (k : K) (m : Nat) (l : Line) :
    (k.contribution m l).redid = field (k.core.ocfg m) 0 12 ∧ (k.contribution m l).rcount = 1 := by
  have hid : field (k.core.ocfg m) 0 12 < 2 ^ 12 := BitVec.isLt _
  have hop : field (k.core.ocfg m) 22 2 < 2 ^ 2 := BitVec.isLt _
  refine ⟨(field_headOf (by decide)).trans ?_, (field_headOf (by decide)).trans ?_⟩ <;> omega

theorem sendOut_token {k : K} {m iter : Nat} {l : Line} (h : k.core.omode m = 0) : k.sendOut m iter l =
    { k with core := k.core.tokenSent m, out := k.out ++
      [Sent.mk (k.tokenPacket 3 (k.core.odstOff m) 0 m iter l) (some (mkAddr 0 (k.core.odst m) (k.core.odstOff m))) true] } := by
  simp only [K.sendOut, h]
  rfl

theorem sendOut_multicast {k : K} {m iter : Nat} {l : Line} (h : k.core.omode m = 1) : k.sendOut m iter l =
    { k with core := k.core.tokenSent m, out := k.out ++
      [Sent.mk (k.tokenPacket 8 (k.core.odstOff m) (k.core.omask m) m iter l) none true] } := by
  simp only [K.sendOut, h]
  rfl

theorem sendOut_contribution {k : K} {m iter : Nat} {l : Line} (h : k.core.omode m = 2) : k.sendOut m iter l =
    { k with core := k.core.messaged m, out := k.out ++ [Sent.mk (k.contribution m l) (some (mkAddr 0 (k.core.odst m) 0)) true] } := by
  simp only [K.sendOut, h]
  rfl

theorem messaged_count (k : Core) (m : Nat) :
    pairAt (k.messaged m).regs (rCH_OMSG + 0x40 * m) = pairAt k.regs (rCH_OMSG + 0x40 * m) + 1 := count_pairAt_self k _

/-! ### SEND -/

section
variable {s : State} {c : CoreId} {a b : SReg}

/-- SEND on an active channel whose window holds nothing back sends its line and retires (R181). -/
theorem send_leaves {pc : Nat} {w : Word} (hf : s.free c [a, b]) (hact : (s.core c).ochActive (field ((s.core c).sreg b) 0 4) = true)
    (hloc : (s.core c).localAccess c ((s.core c).sreg a) 64 false)
    (hopen : (s.core c).omode (field ((s.core c).sreg b) 0 4) < 2 → (s.core c).windowOpen (field ((s.core c).sreg b) 0 4) = true) :
    sendBody a b pc w (kOf s c) = ((kOf s c).sendOut (field ((s.core c).sreg b) 0 4) (field ((s.core c).sreg b) 16 14)
      (Mem.readLine (s.core c).mem (addrOff40 ((s.core c).sreg a)))).advance := by
  rw [sendBody, whenReady_of_free hf (fun _ h => h)]
  simp only [kOf_core, kOf_c, hact, Bool.not_true, Bool.false_eq_true, if_false, ownLine_local hloc]
  refine if_neg fun h => ?_
  simp only [Bool.and_eq_true, Bool.not_eq_true'] at h
  obtain ⟨⟨⟨⟨hmode, hclosed⟩, -⟩, -⟩, -⟩ := h
  exact absurd ((hopen (of_decide_eq_true hmode)).symm.trans hclosed) (by decide)

/-- A closed window holds SEND, counted for its channel and for the unit of the running task (R181, R230). -/
theorem send_held {pc : Nat} {w : Word} {r : Running} (hf : s.free c [a, b])
    (hact : (s.core c).ochActive (field ((s.core c).sreg b) 0 4) = true) (hloc : (s.core c).localAccess c ((s.core c).sreg a) 64 false)
    (hr : (s.core c).running = some r) (hmode : (s.core c).omode (field ((s.core c).sreg b) 0 4) < 2)
    (hclosed : (s.core c).windowOpen (field ((s.core c).sreg b) 0 4) = false) : sendBody a b pc w (kOf s c) =
      (kOf s c).hold [rCH_OSTALL + 0x40 * field ((s.core c).sreg b) 0 4, rDF_UWOUT + 0x40 * r.u.toNat] := by
  obtain ⟨hown, hal, hlt, -⟩ := hloc
  rw [sendBody, whenReady_of_free hf (fun _ h => h)]
  simp only [kOf_core, kOf_c, hact, Bool.not_true, Bool.false_eq_true, if_false, K.stallOut, hr]
  refine if_pos ?_
  simp only [Bool.and_eq_true, Bool.not_eq_true']
  exact ⟨⟨⟨⟨decide_eq_true hmode, hclosed⟩, hown⟩, decide_eq_true hlt⟩, aligned_of_mod hal⟩

/-- What SEND leaves of its core beside the channel it sends on, and the packet that goes out. -/
theorem send_next {m iter : Nat} {l : Line} {k1 : Core} {e : Sent} (hi : s.issues c (.send c a b)) (hm : m < 16)
    (hb : ∀ w, sendBody a b (s.core c).pc w (kOf s c) = ((kOf s c).sendOut m iter l).advance)
    (hout : (kOf s c).sendOut m iter l = { kOf s c with core := k1, out := (kOf s c).out ++ [e] })
    (hk1 : k1 = { (s.core c).messaged m with outq := k1.outq }) : ∃ t : State, exec (.send c a b) s = .next t ∧ t.inj = s.inj ++ [e] ∧
      (t.core c).outq = k1.outq ∧ pairAt (t.core c).regs (rCH_OMSG + 0x40 * m) = pairAt (s.core c).regs (rCH_OMSG + 0x40 * m) + 1 ∧
      (t.core c).pc = (s.core c).pc + 1 ∧ (s.core c).sregsKept (t.core c) ∧ (t.core c).mem = (s.core c).mem ∧ s.othersKept t c := by
  have hapart : ∀ m < 16, rCH_OMSG + 0x40 * m ∉ retireRegs ∧ rCH_OMSG + 0x40 * m + 4 ∉ retireRegs := by decide
  refine ⟨_, (issue_of_issues hi).trans (by rw [hb, hout]), rfl, ?_⟩
  rw [kPut_core (show K.c _ = c from rfl), K.advance, retire_core_eq]
  refine ⟨rfl, ?_, ?_, fun r => ?_, ?_, kPut_other rfl⟩
  · rw [Core.retireAt_pairAt _ _ (hapart m hm).1 (hapart m hm).2, hk1]
    exact messaged_count (s.core c) m
  · rw [Core.retireAt_pc, hk1]; rfl
  · rw [Core.retireAt_sreg, hk1]; rfl
  · rw [Core.retireAt_mem, hk1]; rfl

end

/-! ### The obligation -/

/-- Settles O21: the line of a SEND leaves in the packet of its channel's mode, and a closed window holds it. -/
theorem sendLeaves : Obligations.SendLeaves := by
  unfold Obligations.SendLeaves
  intro s c a b k m o sends token hi hf hact hloc
  have hm : m < 16 := BitVec.isLt _
  have htok := fun op off mask => tokenPacket_fields (kOf s c) op off mask (field (k.sreg b) 16 14) (Mem.readLine k.mem (addrOff40 (k.sreg a))) hm
  refine ⟨fun hmode hopen => ?_, fun hmode hopen => ?_, fun hmode => ?_, fun r hr hmode hclosed => ?_⟩
  · obtain ⟨t, hex, hinj, hq, hcnt, hpc, hs, hmem, hoth⟩ := send_next hi hm (fun w => send_leaves hf hact hloc fun _ => hopen)
      (sendOut_token hmode) rfl
    obtain ⟨htag, hseq, hoch⟩ := htok 3 (k.odstOff m) 0
    exact ⟨t, _, hex, hinj, rfl, rfl, rfl, ⟨⟨htag, hseq, hoch, by rw [hq]; exact tokenSent_channel k m⟩, rfl⟩, hcnt, hpc, hs, hmem, hoth⟩
  · obtain ⟨t, hex, hinj, hq, hcnt, hpc, hs, hmem, hoth⟩ := send_next hi hm (fun w => send_leaves hf hact hloc fun _ => hopen)
      (sendOut_multicast hmode) rfl
    obtain ⟨htag, hseq, hoch⟩ := htok 8 (k.odstOff m) (k.omask m)
    exact ⟨t, _, hex, hinj, rfl, rfl, rfl, ⟨⟨htag, hseq, hoch, by rw [hq]; exact tokenSent_channel k m⟩, rfl⟩, hcnt, hpc, hs, hmem, hoth⟩
  · obtain ⟨t, hex, hinj, hq, hcnt, hpc, hs, hmem, hoth⟩ := send_next hi hm (fun w => send_leaves hf hact hloc fun h => absurd h (by rw [hmode]; decide))
      (sendOut_contribution hmode) rfl
    obtain ⟨hid, hcount⟩ := contribution_fields (kOf s c) m (Mem.readLine k.mem (addrOff40 (k.sreg a)))
    exact ⟨t, _, hex, hinj, rfl, rfl, rfl, ⟨hid, hcount, hq, rfl⟩, hcnt, hpc, hs, hmem, hoth⟩
  · exact ⟨_, (issue_of_issues hi).trans (by rw [send_held hf hact hloc hr hmode hclosed]), kPut_hold s c _⟩

end Sys2Proof.Machine
end

section
/-! SUPPORT. A held offer of a channel that has two entries of one number. -/

namespace Sys2Proof.Machine

/-! ### Two entries of one number -/

/-- Entry 0 of a channel, with a message of tag 0. -/
def twinEntry (offered : Bool) : QEntry :=
  { k := 0, tag := 0, seq := 0, och := 0, src := farSource, order := 0, count := 1, whole := true, offered := offered, reinj := false, owes := true }

/-- A core in RUN whose unit 0 reads channel 0: two entries of the channel have number 0, and only the first has been offered; its offer is held. -/
def twinCore : Core :=
  { Core.reset with
    df := .run
    regs := [(rDF_UCFG, 0x80000000), (rDF_UREQ, 1)]
    inq := [(0, [twinEntry true, twinEntry false])]
    held := [(0, 0)] }

/-- The reset state with power, and that core. -/
def twinState : State := { State.reset with bu := { BringUp.reset with power := true }, cores := [(0, twinCore)] }

/-- The marks of the entries of the core's channel 0 that an outcome leaves. -/
def offeredMarks (o : Host.Outcome State Fault Refusal) : Option (List Bool) :=
  match o with
  | .next t => some (((t.core farCore).entries 0).map (·.offered))
  | _ => none

/-- The retry marks both entries as offered. -/
theorem twinState_marks : offeredMarks (exec (.heldOfferRetry farCore) twinState) = some [true, true] := by decide +kernel

theorem twinState_before : ((twinState.core farCore).entries 0).map (·.offered) = [true, false] := by decide +kernel

/-! ### The obligation -/

/-- Refutes O24: its clause on held offers asks that the entry found has been offered, but not that it is the only one of its number in the
channel, which every step keeps and an arbitrary state need not have. A retry marks each entry of the number as offered, so the channel's
entries change where the statement has them as before. -/
theorem not_tokensArrive : ¬ Obligations.TokensArrive := by
  unfold Obligations.TokensArrive
  rintro ⟨-, h⟩
  obtain ⟨t, -, ht, -, -, -, -, -, hentries, -⟩ := h twinState farCore 0 0 0 (twinEntry true) (by decide +kernel) (by decide +kernel) (by decide)
    (by decide +kernel) (by decide +kernel) (by decide +kernel) (by decide) (by decide +kernel) (by decide +kernel) (by decide +kernel) rfl
  have hmarks := twinState_marks
  rw [ht] at hmarks
  simp only [offeredMarks, hentries, twinState_before] at hmarks
  exact absurd hmarks (by decide)

end Sys2Proof.Machine
end

section
/-! SUPPORT. The channel-queue and spill logic: what its writes leave of a core, and the queue entries and records it moves (R182, R224 to
R226). -/

namespace Sys2Proof.Machine

/-! ### Lines written by the logic -/

/-- Bytes written within one line leave every other line as it was (R114, R115). -/
theorem putBytes_readLine_other (k : Core) {off p : Nat} {bs : List Byte} (hb : off % 64 + bs.length ≤ 64) (hp : p % 64 = 0)
    (hne : p ≠ off / 64 * 64) : Mem.readLine (k.putBytes off bs).mem p = Mem.readLine k.mem p := by
  refine Mem.readLine_eq fun i hi => ?_
  rw [Mem.readLine_byte _ _ hi]
  cases h : k.inWeights off with
  | false => rw [putBytes_read_activation bs h, if_neg (by omega)]
  | true =>
    rw [putBytes_weights bs h, Mem.read_put, if_neg (by omega)]
    exact Mem.read_writeN_other _ _ _ _ _ (by omega)

/-- Steps of the logic: memory under its codes, watches with their packets and count, and free values; nothing else of the core's step has
changed (R182, R193, R225). -/
structure K.Logged (k k' : K) : Prop where
  frame : k' = { k with
    out := k'.out
    free := k'.free
    core := { k.core with mem := k'.core.mem, flips := k'.core.flips, crcErr := k'.core.crcErr, watches := k'.core.watches, regs := k'.core.regs } }
  regs : ∀ off, off ∉ [rSY_FIRED, rSY_FIRED + 4] → k'.core.reg off = k.core.reg off

namespace K.Logged
variable {k k' k'' : K}

theorem refl (k : K) : k.Logged k := ⟨rfl, fun _ _ => rfl⟩

theorem trans (h1 : k.Logged k') (h2 : k'.Logged k'') : k.Logged k'' := by
  obtain ⟨e1, r1⟩ := h1
  obtain ⟨e2, r2⟩ := h2
  refine ⟨?_, fun off h => (r2 off h).trans (r1 off h)⟩
  rw [e1] at e2
  exact e2

theorem fresh (k : K) : k.Logged k.fresh := ⟨rfl, fun _ _ => rfl⟩

theorem queuesOn (h : k.Logged k') (hq : k.core.queuesOn) : k'.core.queuesOn := by rw [h.frame]; exact hq

end K.Logged

theorem logicBytes_logged {k : K} {off : Nat} (bs : List Byte) (h : (k.core.bank (bankOf off)).serves = true) : k.Logged (k.logicBytes off bs) := by
  have hr : k.core.logicRefused true off = none := if_pos h
  have hput := putBytes_eq k.core off bs
  have hfire : K.FiredOnly { k with core := k.core.putBytes off bs } (k.logicBytes off bs) := by
    rw [K.logicBytes, hr]
    exact evalWatches_firedOnly _ _
  obtain ⟨hframe, hregs⟩ := hfire
  generalize k.logicBytes off bs = k' at hframe hregs
  rw [hput] at hframe hregs
  exact ⟨by rw [hframe], hregs⟩

theorem logicBytes_mem {k : K} {off : Nat} (bs : List Byte) (h : (k.core.bank (bankOf off)).serves = true) :
    (k.logicBytes off bs).core.mem = (k.core.putBytes off bs).mem := by
  have hr : k.core.logicRefused true off = none := if_pos h
  rw [K.logicBytes, hr, K.wroteBytes, (evalWatches_firedOnly _ _).1]

/-- The note of the records' order (R225) lies beyond the records. -/
theorem noteOrder_logged {k : K} (hq : k.core.queuesOn) {off : Nat} (ho : off % 64 = 0) (hoff : off < 0x5FF00) :
    k.Logged k.noteOrder ∧ Mem.readLine k.noteOrder.core.mem off = Mem.readLine k.core.mem off := by
  have hwrite (a : K) (i : Nat) (hi : i < 4) (h : k.Logged a ∧ Mem.readLine a.core.mem off = Mem.readLine k.core.mem off) :
      k.Logged (a.logicLine (0x5FF00 + 64 * i) (Config.spillOrder k.free i)) ∧
        Mem.readLine (a.logicLine (0x5FF00 + 64 * i) (Config.spillOrder k.free i)).core.mem off = Mem.readLine k.core.mem off := by
    obtain ⟨hlog, hline⟩ := h
    have hbank : (a.core.bank (bankOf (0x5FF00 + 64 * i))).serves = true := by
      rw [show bankOf (0x5FF00 + 64 * i) = 7 by rw [bankOf]; omega]
      exact hlog.queuesOn hq
    refine ⟨hlog.trans (logicBytes_logged _ hbank), ?_⟩
    rw [K.logicLine, logicBytes_mem _ hbank, putBytes_readLine_other _ (by rw [bytes_length]; omega) ho (by omega), hline]
  have hall (l : List Nat) (hl : ∀ i ∈ l, i < 4) (a : K) (h : k.Logged a ∧ Mem.readLine a.core.mem off = Mem.readLine k.core.mem off) :
      k.Logged (l.foldl (fun a i => a.logicLine (0x5FF00 + 64 * i) (Config.spillOrder k.free i)) a) ∧
        Mem.readLine (l.foldl (fun a i => a.logicLine (0x5FF00 + 64 * i) (Config.spillOrder k.free i)) a).core.mem off =
          Mem.readLine k.core.mem off := by
    induction l generalizing a with
    | nil => exact h
    | cons i l ih => exact ih (fun j hj => hl j (List.mem_cons_of_mem _ hj)) _ (hwrite a i (hl i List.mem_cons_self) h)
  rw [K.noteOrder]
  split
  · exact ⟨.refl k, rfl⟩
  · obtain ⟨hlog, hline⟩ := hall (List.range 4) (fun i hi => List.mem_range.1 hi) k ⟨.refl k, rfl⟩
    generalize (List.range 4).foldl (fun a i => K.logicLine a (0x5FF00 + 64 * i) (Config.spillOrder k.free i)) k = z at hlog hline ⊢
    exact ⟨hlog.trans (.fresh z), hline⟩

/-- A line that the logic reads from its bank without errors (R206). -/
theorem logicRead_clean {k : K} {off : Nat} (hb : (k.core.bank (bankOf off)).serves = true) (hc : k.core.cleanLine off = true) :
    k.logicRead off = (k, Mem.readLine k.core.mem off) := by
  have hr : k.core.logicRefused false off = none := if_pos hb
  rw [K.logicRead, hr]
  simp only [spFound_clean hc]
  rw [scanLine_clean hc]

/-! ### An entry spilled (R224) -/

/-- Steps of the spill logic on a core: those of `Logged`, with registers and records changed besides. -/
def K.SpillStep (k k' : K) : Prop :=
  k' = { k with
    out := k'.out
    free := k'.free
    core := { k.core with mem := k'.core.mem, flips := k'.core.flips, crcErr := k'.core.crcErr, watches := k'.core.watches
                          regs := k'.core.regs, spill := k'.core.spill } }

theorem K.SpillStep.trans {k k' k'' : K} (h1 : k.SpillStep k') (h2 : k'.SpillStep k'') : k.SpillStep k'' := by
  unfold K.SpillStep at h1 h2 ⊢
  rw [h1] at h2
  exact h2

theorem K.Logged.spillStep {k k' : K} (h : k.Logged k') : k.SpillStep k' := by
  unfold K.SpillStep
  conv_lhs => rw [h.frame]
  have hspill : k'.core.spill = k.core.spill := by rw [h.frame]
  rw [hspill]

theorem bankOf_recordOff {r : Nat} (h : r < 224) : bankOf (recordOff r) = 7 := by
  rw [bankOf, recordOff]
  omega

theorem bankOf_directoryOff {r : Nat} (h : r < 224) : bankOf (directoryOff r) = 7 := by
  rw [bankOf, directoryOff]
  omega

theorem recordOff_aligned (r : Nat) : recordOff r % 64 = 0 := by
  rw [recordOff]
  omega

/-- A directory entry written leaves the records (R225). -/
theorem directory_logged {k : K} {r p : Nat} {bs : List Byte} (hq : k.core.queuesOn) (hr : r < 224) (hb : bs.length = 8) (hp : p < 224) :
    k.Logged (k.logicBytes (directoryOff r) bs) ∧
      Mem.readLine (k.logicBytes (directoryOff r) bs).core.mem (recordOff p) = Mem.readLine k.core.mem (recordOff p) := by
  have hbank : (k.core.bank (bankOf (directoryOff r))).serves = true := by rw [bankOf_directoryOff hr]; exact hq
  refine ⟨logicBytes_logged bs hbank, ?_⟩
  rw [logicBytes_mem bs hbank]
  refine putBytes_readLine_other k.core ?_ (recordOff_aligned p) ?_
  · rw [hb, directoryOff]; omega
  · rw [directoryOff, recordOff]; omega

/-- A line written to a record. -/
theorem record_logged {k : K} {r : Nat} (l : Line) (hq : k.core.queuesOn) (hr : r < 224) :
    k.Logged (k.logicLine (recordOff r) l) ∧ Mem.readLine (k.logicLine (recordOff r) l).core.mem (recordOff r) = l := by
  have hbank : (k.core.bank (bankOf (recordOff r))).serves = true := by rw [bankOf_recordOff hr]; exact hq
  rw [K.logicLine, logicBytes_mem _ hbank]
  exact ⟨logicBytes_logged _ hbank, putBytes_readLine k.core l (recordOff_aligned r)⟩

/-- A record that a core's spill area receives last (R225). -/
def Core.withRecord (k : Core) (x : SpillRec) : Core := ({ k with spill := k.spill ++ [x] } : Core).notePeak.count rDF_SPILLTOK 1

theorem spillLine_steps {k : K} (rec_ : SpillRec) (l : Line) {r : Nat} (hf : k.core.freeRecord = some r) : k.spillLine rec_ l =
    K.noteOrder { (k.logicLine (recordOff r) l).logicBytes (directoryOff r) (leBytes 8 ({ rec_ with r := r } : SpillRec).entry.toNat) with
      core := ((k.logicLine (recordOff r) l).logicBytes (directoryOff r)
        (leBytes 8 ({ rec_ with r := r } : SpillRec).entry.toNat)).core.withRecord { rec_ with r := r } } := by
  rw [K.spillLine, hf]
  rfl

/-- The first record of an empty spill area takes its line (R224, R225). -/
theorem spillLine_first {k : K} (rec_ : SpillRec) (l : Line) (hq : k.core.queuesOn) (hs : k.core.spill = []) :
    k.SpillStep (k.spillLine rec_ l) ∧ (k.spillLine rec_ l).core.spill = [{ rec_ with r := 0 }] ∧
      Mem.readLine (k.spillLine rec_ l).core.mem (recordOff 0) = l := by
  have hfree : k.core.freeRecord = some 0 := by
    rw [Core.freeRecord, hs]
    decide
  obtain ⟨hlog1, hline1⟩ := record_logged (r := 0) l hq (by decide)
  rw [spillLine_steps rec_ l hfree]
  generalize k.logicLine (recordOff 0) l = k1 at hlog1 hline1
  obtain ⟨hlog2, hline2⟩ := directory_logged (k := k1) (r := 0) (p := 0) (hlog1.queuesOn hq) (by decide)
    (leBytes_length 8 ({ rec_ with r := 0 } : SpillRec).entry.toNat) (by decide)
  generalize k1.logicBytes (directoryOff 0) (leBytes 8 ({ rec_ with r := 0 } : SpillRec).entry.toNat) = k2 at hlog2 hline2
  have hspill : k2.core.spill = [] := by rw [(hlog1.trans hlog2).frame]; exact hs
  have hrec : k2.SpillStep { k2 with core := k2.core.withRecord { rec_ with r := 0 } } := rfl
  have hq3 : (k2.core.withRecord { rec_ with r := 0 }).queuesOn := hlog2.queuesOn (hlog1.queuesOn hq)
  obtain ⟨hlog3, hline3⟩ := noteOrder_logged (k := { k2 with core := k2.core.withRecord { rec_ with r := 0 } }) hq3 (recordOff_aligned 0)
    (by decide)
  refine ⟨((hlog1.trans hlog2).spillStep.trans hrec).trans hlog3.spillStep, ?_, hline3.trans (hline2.trans hline1)⟩
  rw [hlog3.frame]
  exact congrArg (· ++ [({ rec_ with r := 0 } : SpillRec)]) hspill

/-- An entry is freed: its channel is without it, and at most its credit leaves (R182, R209). -/
theorem freeQEntry_frees (k : K) (n i : Nat) :
    k.freeQEntry n i = { k with
        out := (k.freeQEntry n i).out
        core := { k.core with inq := (k.freeQEntry n i).core.inq, held := (k.freeQEntry n i).core.held } } ∧
      ∀ y ∈ (k.freeQEntry n i).core.entries n, y.k ≠ i := by
  unfold K.freeQEntry
  split
  · rename_i hnone
    refine ⟨rfl, fun y hy hk => ?_⟩
    have := List.find?_eq_none.1 hnone y hy
    simp [hk] at this
  · have hgone : ∀ y ∈ ((k.core.setEntries n ((k.core.entries n).filter (fun x => x.k != i))).accept n i).entries n, y.k ≠ i := by
      intro y hy
      rw [show ((k.core.setEntries n ((k.core.entries n).filter (fun x => x.k != i))).accept n i).entries n =
        (k.core.entries n).filter (fun x => x.k != i) from entries_setEntries _ _ _] at hy
      simpa using (List.mem_filter.1 hy).2
    split <;> exact ⟨rfl, hgone⟩

theorem unoffer_storeOnly (k : Core) (n : Nat) (tag : BitVec 16) : k.StoreOnly (k.unoffer n tag) := by
  unfold Core.unoffer
  split <;> exact rfl

/-- Entries and records of a core have moved: those parts of it have changed, and nothing else of the core's step but its packets (R182, R207,
R224). -/
def K.Moved (k k' : K) : Prop :=
  k' = { k with
    out := k'.out
    free := k'.free
    core := { k.core with
      mem := k'.core.mem, flips := k'.core.flips, crcErr := k'.core.crcErr, watches := k'.core.watches, regs := k'.core.regs
      spill := k'.core.spill, inq := k'.core.inq, held := k'.core.held, store := k'.core.store, readyQ := k'.core.readyQ
      arrivals := k'.core.arrivals, freed := k'.core.freed } }

namespace K.Moved
variable {k k' k'' : K}

theorem trans (h1 : k.Moved k') (h2 : k'.Moved k'') : k.Moved k'' := by
  unfold K.Moved at h1 h2 ⊢
  rw [h1] at h2
  exact h2

theorem ofSpillStep (h : k.SpillStep k') : k.Moved k' := by
  unfold K.SpillStep at h
  unfold K.Moved
  rw [h]

theorem ofLogged (h : k.Logged k') : k.Moved k' := ofSpillStep h.spillStep

theorem ofStoreOnly {c : Core} (h : k.core.StoreOnly c) : k.Moved { k with core := c } := by
  unfold Core.StoreOnly at h
  unfold K.Moved
  rw [h]

end K.Moved

theorem freeQEntry_moved (k : K) (n i : Nat) : k.Moved (k.freeQEntry n i) := by
  have h := (freeQEntry_frees k n i).1
  unfold K.Moved
  rw [h]

/-- The record that a queue entry leaves in the spill area, no task being bound to it (R225). -/
def Core.recordOf (k : Core) (n : Nat) (e : QEntry) : SpillRec :=
  { r := 0, bound := false, jmsg := k.isJunction n, src := e.src, ich := BitVec.ofNat 4 n, och := e.och, seq := e.seq, tag := e.tag
    count := e.count, whole := e.whole, order := e.order, counted := e.offered }

/-- A core whose entry has been spilled: the store forgets the message where it had been accepted (R224). -/
def Core.unoffered (k : Core) (n : Nat) (e : QEntry) (held : Bool) : Core := if e.offered && !held then k.unoffer n e.tag else k

theorem unoffered_storeOnly (k : Core) (n : Nat) (e : QEntry) (held : Bool) : k.StoreOnly (k.unoffered n e held) := by
  unfold Core.unoffered
  split
  · exact unoffer_storeOnly k n e.tag
  · exact rfl

/-- An entry to which no task is bound is spilled (R224). -/
theorem spillEntry_steps {k : K} {n i : Nat} {e : QEntry} (hn : n < 16) (hi : i < 32) (he : (k.core.entries n).find? (fun x => x.k == i) = some e)
    (hb : k.core.bound n i = false) (hq : k.core.queuesOn) (hc : k.core.cleanLine (entryOff n i) = true)
    (hd : (k.spillLine (k.core.recordOf n e) (Mem.readLine k.core.mem (entryOff n i))).core.df = .run) : ∃ held, k.spillEntry n i =
      { (k.spillLine (k.core.recordOf n e) (Mem.readLine k.core.mem (entryOff n i))).freeQEntry n i with
        core := ((k.spillLine (k.core.recordOf n e) (Mem.readLine k.core.mem (entryOff n i))).freeQEntry n i).core.unoffered n e held } := by
  have hread := logicRead_clean (by rw [bankOf_entryOff hn hi]; exact hq) hc
  refine ⟨(k.spillLine (k.core.recordOf n e) (Mem.readLine k.core.mem (entryOff n i))).core.held.contains (BitVec.ofNat 4 n, i), ?_⟩
  rw [K.spillEntry, he]
  dsimp only
  rw [hread, hb]
  refine if_neg fun h => ?_
  exact absurd (hd.symm.trans (eq_of_beq h : (k.spillLine (k.core.recordOf n e) _).core.df = .aborting)) (by decide)

/-- An unbound entry goes to an empty spill area: its line stands in record 0, and its channel is without it (R224). -/
theorem spillEntry_first {k : K} {n i : Nat} {e : QEntry} (hn : n < 16) (hi : i < 32) (he : (k.core.entries n).find? (fun x => x.k == i) = some e)
    (hb : k.core.bound n i = false) (hq : k.core.queuesOn) (hc : k.core.cleanLine (entryOff n i) = true) (hs : k.core.spill = [])
    (hd : k.core.df = .run) : k.Moved (k.spillEntry n i) ∧ (k.spillEntry n i).core.spill = [k.core.recordOf n e] ∧
      Mem.readLine (k.spillEntry n i).core.mem (recordOff 0) = Mem.readLine k.core.mem (entryOff n i) ∧
      ∀ y ∈ (k.spillEntry n i).core.entries n, y.k ≠ i := by
  obtain ⟨hstep, hspill, hline⟩ := spillLine_first (k.core.recordOf n e) (Mem.readLine k.core.mem (entryOff n i)) hq hs
  obtain ⟨held, heq⟩ := spillEntry_steps hn hi he hb hq hc (by rw [hstep]; exact hd)
  rw [heq]
  generalize k.spillLine (k.core.recordOf n e) (Mem.readLine k.core.mem (entryOff n i)) = k1 at hstep hspill hline
  obtain ⟨hframe, hgone⟩ := freeQEntry_frees k1 n i
  have hmoved := freeQEntry_moved k1 n i
  generalize k1.freeQEntry n i = k2 at hframe hgone hmoved
  have hstore := unoffered_storeOnly k2.core n e held
  have hlast := K.Moved.ofStoreOnly hstore
  unfold Core.StoreOnly at hstore
  generalize k2.core.unoffered n e held = c at hstore hlast
  refine ⟨((K.Moved.ofSpillStep hstep).trans hmoved).trans hlast, ?_, ?_, ?_⟩
  · show c.spill = _
    rw [hstore, hframe]; exact hspill
  · show Mem.readLine c.mem _ = _
    rw [hstore, hframe]; exact hline
  · show ∀ y ∈ c.entries n, y.k ≠ i
    rw [hstore]; exact hgone

/-! ### A record that comes back (R226) -/

theorem freeRecordAt_steps {k : K} {r : Nat} (hq : k.core.queuesOn) (hr : r < 224) : k.SpillStep (k.freeRecordAt r) ∧
    (k.freeRecordAt r).core.spill = k.core.spill.filter (fun e => e.r != r) ∧
      ∀ off, off ∉ [rSY_FIRED, rSY_FIRED + 4] → (k.freeRecordAt r).core.reg off = k.core.reg off := by
  obtain ⟨hlog1, -⟩ := directory_logged (bs := List.replicate 8 0) (p := 0) hq hr (by simp) (by decide)
  rw [K.freeRecordAt]
  dsimp only
  generalize k.logicBytes (directoryOff r) (List.replicate 8 0) = k1 at hlog1
  have hdrop : k1.SpillStep { k1 with core := { k1.core with spill := k1.core.spill.filter (fun e => e.r != r) } } := rfl
  obtain ⟨hlog2, -⟩ := noteOrder_logged (k := { k1 with core := { k1.core with spill := k1.core.spill.filter (fun e => e.r != r) } })
    (hlog1.queuesOn hq) (recordOff_aligned 0) (by decide)
  have hspill : k1.core.spill = k.core.spill := by rw [hlog1.frame]
  refine ⟨(hlog1.spillStep.trans hdrop).trans hlog2.spillStep, ?_, fun off h => (hlog2.regs off h).trans (hlog1.regs off h)⟩
  rw [hlog2.frame]
  exact congrArg (List.filter _) hspill

/-- The entry that a token or contribution makes (R182). -/
def Arrival.entry (a : Arrival) (i order : Nat) (whole : Bool) : QEntry :=
  { k := i, tag := a.tag, seq := a.seq, och := a.och, src := a.src, order := order, count := a.count, whole := whole, offered := a.counted
    reinj := a.reinj, owes := a.owes }

/-- A core whose channel an entry has joined; no entry that a firing freed is left of a full queue (R182, R226). -/
def Core.joined (k : Core) (n : Nat) (e : QEntry) : Core :=
  let c : Core := { k.setEntries n (k.entries n ++ [e]) with arrivals := k.arrivals + 1 }
  if c.fullQueue n then { c with freed := c.freed.del n } else c

theorem joined_eq (k : Core) (n : Nat) (e : QEntry) : k.joined n e =
    { k with inq := k.inq.set n (k.entries n ++ [e]), arrivals := k.arrivals + 1, freed := (k.joined n e).freed } := by
  unfold Core.joined
  dsimp only
  split <;> rfl

theorem newEntry_steps (k : K) (n i : Nat) (a : Arrival) (whole : Bool) : k.newEntry n i a whole =
    { k.logicLine (entryOff n i) a.line with
      core := (k.logicLine (entryOff n i) a.line).core.joined n (a.entry i k.core.arrivals whole) } := rfl

/-- A new entry joins its channel, and its line stands there (R182). -/
theorem newEntry_joins {k : K} {n i : Nat} (a : Arrival) (whole : Bool) (hq : k.core.queuesOn) (hn : n < 16) (hi : i < 32) :
    k.Moved (k.newEntry n i a whole) ∧ (k.newEntry n i a whole).core.spill = k.core.spill ∧
      (k.newEntry n i a whole).core.entries n = k.core.entries n ++ [a.entry i k.core.arrivals whole] ∧
      Mem.readLine (k.newEntry n i a whole).core.mem (entryOff n i) = a.line ∧
      ∀ off, off ∉ [rSY_FIRED, rSY_FIRED + 4] → (k.newEntry n i a whole).core.reg off = k.core.reg off := by
  have hb : (k.core.bank (bankOf (entryOff n i))).serves = true := by rw [bankOf_entryOff hn hi]; exact hq
  have hlog : k.Logged (k.logicLine (entryOff n i) a.line) := logicBytes_logged _ hb
  have hline : Mem.readLine (k.logicLine (entryOff n i) a.line).core.mem (entryOff n i) = a.line := by
    rw [K.logicLine, logicBytes_mem _ hb]
    exact putBytes_readLine k.core a.line (by rw [entryOff]; omega)
  rw [newEntry_steps]
  generalize k.logicLine (entryOff n i) a.line = k1 at hlog hline
  have hinq : k1.core.entries n = k.core.entries n := by rw [hlog.frame]; rfl
  have hspill : k1.core.spill = k.core.spill := by rw [hlog.frame]
  rw [joined_eq]
  have hmoved (f : SMap Nat) : k1.Moved { k1 with
    core := { k1.core with inq := k1.core.inq.set n (k1.core.entries n ++ [a.entry i k.core.arrivals whole])
                           arrivals := k1.core.arrivals + 1, freed := f } } := rfl
  refine ⟨(K.Moved.ofLogged hlog).trans (hmoved _), hspill, ?_, hline, hlog.regs⟩
  exact (SMap.get_set_self _ _ _ _).trans (by rw [hinq])

theorem noteReady_regs (k : Core) (u : Nat) (tag : BitVec 16) : (k.noteReady u tag).regs = k.regs := by
  unfold Core.noteReady
  split
  · rfl
  · split <;> rfl

/-- A counter that an offer leaves: not that of the channel's messages nor that of held offers (R200, R207). -/
theorem offer_pairAt (k : Core) {n i lo : Nat} (hn : n < 16) (hmsg : lo + 4 < rCH_IMSG ∨ rCH_IMSG + 0x400 ≤ lo)
    (hheld : lo + 4 < rDF_HELD ∨ rDF_HELD + 4 < lo) : pairAt (k.offer n i).regs lo = pairAt k.regs lo := by
  have hhold (k : Core) : pairAt (k.hold n i).regs lo = pairAt k.regs lo := by
    unfold Core.hold
    split
    · rfl
    · exact count_pairAt_other k 1 hheld
  unfold Core.offer
  split
  · extract_lets k0 k1
    have h1 : pairAt k1.regs lo = pairAt k.regs lo := by
      dsimp only [k1, k0]
      split
      · rfl
      · exact count_pairAt_other k 1 (by simp only [rCH_IMSG] at hmsg ⊢; omega)
    clear_value k1
    split
    · split
      · exact (hhold k1).trans h1
      · rw [noteReady_regs]; exact h1
    · split
      · rw [noteReady_regs]; exact h1
      · exact (hhold k1).trans h1
  · rfl

/-- An offer leaves every entry of its channel but for the mark that it has been offered (R207). -/
theorem offer_entry (k : Core) {n i : Nat} {y : QEntry} (hy : y ∈ k.entries n) :
    y ∈ (k.offer n i).entries n ∨ { y with offered := true } ∈ (k.offer n i).entries n := by
  rcases offer_cases k n i with h | h
  · rw [h]; exact .inl hy
  · have hentries : (k.offer n i).entries n = (k.entries n).map (fun x => if x.k = i then { x with offered := true } else x) := by
      rw [h]
      exact entries_setEntries _ _ _
    rw [hentries]
    by_cases hk : y.k = i
    · exact .inr (List.mem_map.2 ⟨y, hy, if_pos hk⟩)
    · exact .inl (List.mem_map.2 ⟨y, hy, if_neg hk⟩)

theorem offer_moved (k : K) (n i : Nat) : k.Moved { k with core := k.core.offer n i } ∧ (k.core.offer n i).spill = k.core.spill ∧
    (k.core.offer n i).mem = k.core.mem := by
  rcases offer_cases k.core n i with h | h
  · rw [h]; exact ⟨rfl, rfl, rfl⟩
  · have hentry : k.Moved { k with core := k.core.onEntry n i (fun x => { x with offered := true }) } := rfl
    refine ⟨hentry.trans (K.Moved.ofStoreOnly (k := { k with core := k.core.onEntry n i (fun x => { x with offered := true }) }) h), ?_, ?_⟩ <;>
      rw [h] <;> rfl

theorem freeEntry_congr {k k' : Core} {n : Nat} (hreg : k'.icfg n = k.icfg n) (hinq : k'.inq = k.inq) : k'.freeEntry n = k.freeEntry n := by
  simp only [Core.freeEntry, Core.depth, Core.entries, hreg, hinq]

/-- What a record carries back to its channel (R226). -/
def SpillRec.arrival (r : SpillRec) (l : Line) : Arrival :=
  { line := l, tag := r.tag, seq := r.seq, och := r.och, src := r.src, count := r.count, owes := false, reinj := true, counted := r.counted }

/-- A whole record comes back to a free entry of its channel: its line stands there, and it is offered again (R226). -/
theorem reinject_returns {k : K} {n i : Nat} {r : SpillRec} (ho : k.core.oldestRecord n = some r) (hw : r.whole = true)
    (hf : k.core.freeEntry n = some i) (hn : n < 16) (hi : i < 32) (hr : r.r < 224) (hq : k.core.queuesOn)
    (hc : k.core.cleanLine (recordOff r.r) = true) (hd : k.core.df = .run) :
    k.Moved (k.reinject n) ∧ (∀ x ∈ (k.reinject n).core.spill, x.r ≠ r.r) ∧
      (∃ y ∈ (k.reinject n).core.entries n, y.k = i ∧ y.tag = r.tag ∧ y.src = r.src ∧ y.reinj = true ∧ y.owes = false) ∧
      Mem.readLine (k.reinject n).core.mem (entryOff n i) = Mem.readLine k.core.mem (recordOff r.r) ∧
      pairAt (k.reinject n).core.regs rDF_REINJ = pairAt k.core.regs rDF_REINJ + 1 := by
  have hread := logicRead_clean (k := k) (off := recordOff r.r) (by rw [bankOf_recordOff hr]; exact hq) hc
  obtain ⟨hstep, hspill, hregs⟩ := freeRecordAt_steps (r := r.r) hq hr
  have heq : k.reinject n = K.placeToken { k.freeRecordAt r.r with core := (k.freeRecordAt r.r).core.count rDF_REINJ 1 } n
      (r.arrival (Mem.readLine k.core.mem (recordOff r.r))) := by
    rw [K.reinject, ho, hf]
    dsimp only
    rw [hread]
    exact if_pos hw
  rw [heq]
  generalize k.freeRecordAt r.r = k1 at hstep hspill hregs
  have hicfg : (k1.core.count rDF_REINJ 1).icfg n = k.core.icfg n := by
    have hapart : ∀ n < 16, rCH_ICFG + 0x40 * n ∉ [rSY_FIRED, rSY_FIRED + 4] ∧ rCH_ICFG + 0x40 * n ≠ rDF_REINJ ∧
        rCH_ICFG + 0x40 * n ≠ rDF_REINJ + 4 := by decide
    obtain ⟨hfired, hlo, hhi⟩ := hapart n hn
    exact (get_bump_other k1.core.regs rDF_REINJ 1 _ _ hlo hhi).trans (hregs _ hfired)
  have hinq : k1.core.inq = k.core.inq := by rw [hstep]
  have hq1 : (k1.core.count rDF_REINJ 1).queuesOn := by
    show (k1.core.bank 7).serves = true
    rw [hstep]; exact hq
  have hd1 : k1.core.df = .run := by rw [hstep]; exact hd
  have hreinj : pairAt (k1.core.count rDF_REINJ 1).regs rDF_REINJ = pairAt k.core.regs rDF_REINJ + 1 := by
    rw [count_pairAt_self]
    exact congrArg (· + 1) (congrArg₂ (fun a b : Word => b ++ a) (hregs rDF_REINJ (by decide)) (hregs (rDF_REINJ + 4) (by decide)))
  have hcounted : k1.Moved { k1 with core := k1.core.count rDF_REINJ 1 } := rfl
  have hto := (K.Moved.ofSpillStep hstep).trans hcounted
  have hf1 : (k1.core.count rDF_REINJ 1).freeEntry n = some i := (freeEntry_congr hicfg hinq).trans hf
  generalize hk2 : ({ k1 with core := k1.core.count rDF_REINJ 1 } : K) = k2 at hto
  have hcore2 : k2.core = k1.core.count rDF_REINJ 1 := by rw [← hk2]
  obtain ⟨hmoved, hsp, hent, hline, hreg⟩ :=
    newEntry_joins (k := k2) (r.arrival (Mem.readLine k.core.mem (recordOff r.r))) true (by rw [hcore2]; exact hq1) hn hi
  have hput : k2.placeToken n (r.arrival (Mem.readLine k.core.mem (recordOff r.r))) =
      { k2.newEntry n i (r.arrival (Mem.readLine k.core.mem (recordOff r.r))) true with
        core := (k2.newEntry n i (r.arrival (Mem.readLine k.core.mem (recordOff r.r))) true).core.present n i } := by
    rw [K.placeToken, hcore2, hf1]
  rw [hput]
  generalize k2.newEntry n i (r.arrival (Mem.readLine k.core.mem (recordOff r.r))) true = k3 at hmoved hsp hent hline hreg
  have hpresent : k3.core.present n i = k3.core.offer n i := by
    refine if_pos ?_
    rw [hmoved, hcore2]
    exact beq_iff_eq.2 hd1
  rw [hpresent]
  obtain ⟨hoff, hosp, homem⟩ := offer_moved k3 n i
  refine ⟨(hto.trans hmoved).trans hoff, ?_, ?_, ?_, ?_⟩
  · intro x hx
    have hspill3 : (k3.core.offer n i).spill = k.core.spill.filter (fun e => e.r != r.r) :=
      hosp.trans (hsp.trans ((congrArg Core.spill hcore2).trans hspill))
    rw [show K.core _ = k3.core.offer n i from rfl, hspill3] at hx
    simpa using (List.mem_filter.1 hx).2
  · have hmem : (r.arrival (Mem.readLine k.core.mem (recordOff r.r))).entry i k2.core.arrivals true ∈ k3.core.entries n := by
      rw [hent]; exact List.mem_append_right _ List.mem_cons_self
    rcases offer_entry k3.core (i := i) hmem with h | h
    · exact ⟨_, h, rfl, rfl, rfl, rfl, rfl⟩
    · exact ⟨_, h, rfl, rfl, rfl, rfl, rfl⟩
  · exact (congrArg (Mem.readLine · (entryOff n i)) homem).trans hline
  · refine (offer_pairAt k3.core hn (by decide) (by decide)).trans (Eq.trans ?_ hreinj)
    rw [← hcore2]
    exact congrArg₂ (fun a b : Word => b ++ a) (hreg rDF_REINJ (by decide)) (hreg (rDF_REINJ + 4) (by decide))

/-! ### The steps of a core -/

section
variable {s : State} {c : CoreId}

theorem reinjectAll_empty {k : K} (hs : k.core.spill = []) (n : Nat) : k.reinjectAll n = k := by
  have hnone : (List.range 16).find? (fun ch => (k.core.oldestRecord ch).isSome && (k.core.freeEntry ch).isSome) = none := by
    refine List.find?_eq_none.2 fun ch _ => ?_
    simp [Core.oldestRecord, hs]
  cases n with
  | zero => rfl
  | succ n => rw [K.reinjectAll, hnone]

/-- The core of an episode, before anything of it moves (R223). -/
def K.inEpisode (k : K) : K := { k with core := { k.core with spilling := true } }

/-- The core after an episode that has spilled `moved` entries and re-injected some, `addr` naming the section and their number (R223). -/
def K.afterEpisode (k : K) (moved addr : Nat) : K :=
  K.report { k with core := ({ k.core.setReg rDF_NOPROG 0 with spilling := false } : Core).count rDF_SPILLEV 1 } 7 0x67 moved addr

/-- What follows the re-injections of an episode of core `co` (R223, R224). -/
def K.spillsRest (co : Core) (k1 : K) : K :=
  let list := k1.core.toSpill
  let k2 := k1.spillAll list
  if k2.core.df != .run then k2
  else
    let re := (pairAt k1.core.regs rDF_REINJ - pairAt co.regs rDF_REINJ).toNat
    let k3 : K := { k2 with core := { k2.core.setReg rDF_NOPROG 0 with spilling := false } }
    if list.isEmpty && re == 0 then k3
    else K.report { k3 with core := k3.core.count rDF_SPILLEV 1 } 7 0x67 list.length (co.secid * 2 ^ 32 + re)

theorem spillsRest_one {co : Core} {k1 : K} {n i : Nat} (hlist : k1.core.toSpill = [(n, i)]) (hd : k1.core.df = .run)
    (hrun : (k1.spillEntry n i).core.df = .run) : ∃ addr, k1.spillsRest co = (k1.spillEntry n i).afterEpisode 1 addr := by
  have hall : k1.spillAll [(n, i)] = k1.spillEntry n i := if_pos (beq_iff_eq.2 hd)
  have hgo : ¬ ((k1.spillEntry n i).core.df != .run) = true := by rw [hrun]; decide
  unfold K.spillsRest
  rw [hlist]
  dsimp only
  rw [hall, if_neg hgo]
  exact ⟨_, if_neg (by simp)⟩

/-- An episode that spills one entry and re-injects none reports it, and the core runs on (R223, R224). -/
theorem exec_deadlockDetection {n i : Nat} (hl : s.alive c = true) (hd : (s.core c).df = .run)
    (hw : field ((s.core c).reg rDF_WINDOW) 0 24 ≤ ((s.core c).reg rDF_NOPROG).toNat) (hs : (s.core c).spill = []) (hn : n < 16)
    (hu : 0 < (s.core c).used n) (hlist : (s.core c).toSpill = [(n, i)]) (hrun : ((kOf s c).inEpisode.spillEntry n i).core.df = .run) :
    ∃ addr, exec (.deadlockDetection c) s = .next (kPut s (((kOf s c).inEpisode.spillEntry n i).afterEpisode 1 addr)) := by
  have hany : (List.range 16).any (fun n => 0 < (s.core c).used n) = true := List.any_eq_true.2 ⟨n, List.mem_range.2 hn, decide_eq_true hu⟩
  have hcond : ((s.core c).df == .run && decide (field ((s.core c).reg rDF_WINDOW) 0 24 ≤ ((s.core c).reg rDF_NOPROG).toNat) &&
      (!(s.core c).spill.isEmpty || (List.range 16).any (fun n => 0 < (s.core c).used n))) = true := by
    rw [hd, decide_eq_true hw, hany, Bool.or_true]
    rfl
  have hre : (kOf s c).inEpisode.reinjectAll 224 = (kOf s c).inEpisode := reinjectAll_empty hs 224
  obtain ⟨addr, hrest⟩ := spillsRest_one (co := s.core c) (k1 := (kOf s c).inEpisode) hlist hd hrun
  refine ⟨addr, ?_⟩
  show execDeadlockDetection c s = _
  simp only [execDeadlockDetection, onLive_of_alive hl, kOf_core]
  exact congrArg (fun k => Host.Outcome.next (kPut s k)) ((if_pos hcond).trans ((congrArg (K.spillsRest (s.core c)) hre).trans hrest))

theorem exec_reInjection {ich : BitVec 4} {i : Nat} (hl : s.alive c = true) (hd : (s.core c).df = .run)
    (hf : 0 < (s.core c).freed.get 0 ich.toNat) (hi : (s.core c).freeEntry ich.toNat = some i) :
    exec (.reInjection c ich) s = .next (kPut s (K.reinject { kOf s c with core := { s.core c with
      freed := (s.core c).freed.set ich.toNat ((s.core c).freed.get 0 ich.toNat - 1) } } ich.toNat)) := by
  have hcond : ((s.core c).df == .run && decide (0 < (s.core c).freed.get 0 ich.toNat) && ((s.core c).freeEntry ich.toNat).isSome) = true := by
    rw [hd, decide_eq_true hf, hi]
    rfl
  show execReInjection c ich s = _
  simp only [execReInjection, onLive_of_alive hl, kOf_core]
  exact congrArg (fun k => Host.Outcome.next (kPut s k)) (if_pos hcond)

/-- The message of the stall limit (R228). -/
def K.stallMsg (k : K) : Msg := k.msgOf 7 0x66 k.core.slotNo (k.core.secid * 2 ^ 32 + (k.core.reg rDF_NOPROG).toNat)

/-- A lead core at the stall limit reports and aborts with cause 3 (R219, R228). -/
theorem exec_stallLimit (hl : s.alive c = true) (hd : (s.core c).df = .run) (hlead : ((s.core c).reg rDF_SECCFG).getLsbD 9 = true)
    (hst : field ((s.core c).reg rDF_STALL) 0 16 * 1024 ≤ ((s.core c).reg rDF_NOPROG).toNat) :
    exec (.stallLimit c) s = .next (kPut s { kOf s c with
      core := ((s.core c).noteMsg (kOf s c).stallMsg).enterAbort 3 0x66 c
      msgs := [(kOf s c).stallMsg]
      abort := some (3, 0x66) }) := by
  have hcond : ((s.core c).df == .run && ((s.core c).reg rDF_SECCFG).getLsbD 9 &&
      decide (field ((s.core c).reg rDF_STALL) 0 16 * 1024 ≤ ((s.core c).reg rDF_NOPROG).toNat)) = true := by
    rw [hd, hlead, decide_eq_true hst]
    rfl
  have hab : ((s.core c).noteMsg (kOf s c).stallMsg).abortable = true := by
    rw [noteMsg_regsOnly, Core.abortable]
    show (match (s.core c).df with | .loaded | .starting | .run => true | _ => false) = true
    rw [hd]
  show execStallLimit c s = _
  simp only [execStallLimit, onLive_of_alive hl, kOf_core]
  refine congrArg (fun k => Host.Outcome.next (kPut s k)) ((if_pos hcond).trans ?_)
  exact if_pos hab

theorem exec_lendingStart (hl : s.alive c = true) (hlend : (s.core c).lendable = true) (hidle : 4800 ≤ (s.core c).idleCc)
    (hd : (s.core c).df ≠ .idle) : exec (.lendingStart c) s = .next (kPut s { kOf s c with core := { s.core c with lent := true } }) := by
  have hcond : ((s.core c).lendable && decide (4800 ≤ (s.core c).idleCc) && (s.core c).configured) = true := by
    rw [hlend, decide_eq_true hidle, Core.configured, bne_iff_ne.2 hd]
    rfl
  show execLendingStart c s = _
  simp only [execLendingStart, onLive_of_alive hl, kOf_core]
  exact congrArg (fun k => Host.Outcome.next (kPut s k)) (if_pos hcond)

end

/-- DF_ABREC holds V, the cause and the kind of an abort (R219). -/
theorem enterAbort_record (k : Core) (cause kind : Byte) (src : CoreId) : (k.enterAbort cause kind src).reg rDF_ABREC =
    (place 32 31 1 1 ||| place 32 16 3 cause.toNat ||| place 32 8 8 kind.toNat) := by
  simp only [Core.enterAbort, Core.reg]
  rw [SMap.get_set_other _ _ _ _ _ (by decide), SMap.get_set_other _ _ _ _ _ (by decide), SMap.get_set_self]

/-! ### The progress pulse (R222) -/

/-- A table of cores in which the core of `c` has cleared its progress counter if it runs. -/
def pulsed (blank : Core) (m : SMap Core) (c : CoreId) : SMap Core :=
  let k := SMap.get blank m (coreKey c)
  if k.df == .run then m.set (coreKey c) (k.setReg rDF_NOPROG 0) else m

theorem pulsed_get (blank : Core) (m : SMap Core) (c : CoreId) (n : Nat) : SMap.get blank (pulsed blank m c) n =
    if n = coreKey c ∧ (SMap.get blank m n).df = .run then (SMap.get blank m n).setReg rDF_NOPROG 0 else SMap.get blank m n := by
  unfold pulsed
  by_cases hn : n = coreKey c
  · subst hn
    by_cases hd : (SMap.get blank m (coreKey c)).df = .run
    · rw [if_pos (beq_iff_eq.2 hd), SMap.get_set_self, if_pos ⟨rfl, hd⟩]
    · rw [if_neg (fun h => hd (beq_iff_eq.1 h)), if_neg (fun h => hd h.2)]
  · refine Eq.trans ?_ (if_neg fun h => hn h.1).symm
    dsimp only
    split
    · exact SMap.get_set_other _ _ _ _ _ hn
    · rfl

theorem pulsed_regsOnly (blank : Core) (m : SMap Core) (c : CoreId) (n : Nat) :
    (SMap.get blank m n).RegsOnly (SMap.get blank (pulsed blank m c) n) [rDF_NOPROG] := by
  rw [pulsed_get]
  split
  · exact ⟨rfl, fun off h => Core.setReg_reg_other _ _ (by simpa using h)⟩
  · exact .refl _ _

/-- Two positions on the grid's columns with one key are one position. -/
theorem coreKey_columns {c d : CoreId} (hc : c.x.toNat < 558) (hd : d.x.toNat < 558) (h : coreKey c = coreKey d) : c = d := by
  simp only [coreKey] at h
  obtain ⟨cx, cy⟩ := c
  obtain ⟨dx, dy⟩ := d
  simp only at hc hd h
  have hx : cx = dx := BitVec.eq_of_toNat_eq (by omega)
  have hy : cy = dy := BitVec.eq_of_toNat_eq (by omega)
  rw [hx, hy]

theorem SMap.mem_of_get_ne {α : Type} {d : α} {m : SMap α} {n : Nat} (h : SMap.get d m n ≠ d) : (n, SMap.get d m n) ∈ m := by
  induction m with
  | nil => exact absurd rfl h
  | cons e t ih =>
    obtain ⟨p, v⟩ := e
    rw [SMap.get] at h ⊢
    split
    · rename_i hp
      exact List.mem_cons.2 (.inl (by rw [hp]))
    · rename_i hp
      rw [if_neg hp] at h
      exact List.mem_cons_of_mem _ (ih h)

theorem coreAt_column (n : Nat) : (coreAt (n % 558) (n / 558)).x.toNat < 558 := by
  rw [coreAt, BitVec.toNat_ofNat]
  omega

theorem coresOfSlot_column {s : State} {n : Nat} {d : CoreId} (h : d ∈ s.coresOfSlot n) : d.x.toNat < 558 := by
  obtain ⟨e, -, rfl⟩ := List.mem_map.1 h
  exact coreAt_column e.1

/-- A core that runs a section of a slot is one of the slot's cores (R203). -/
theorem mem_coresOfSlot {s : State} {c : CoreId} (hg : onGrid c = true) (hd : (s.core c).df = .run) :
    c ∈ s.coresOfSlot (s.core c).slotNo := by
  simp only [onGrid, Bool.and_eq_true, decide_eq_true_eq] at hg
  obtain ⟨hx, -⟩ := hg
  have hne : s.core c ≠ s.blankCore := fun h => by
    have hidle : s.blankCore.df = .idle := by unfold State.blankCore; split <;> rfl
    rw [h, hidle] at hd
    exact absurd hd (by decide)
  refine List.mem_map.2 ⟨(coreKey c, s.core c), List.mem_filter.2 ⟨SMap.mem_of_get_ne hne, ?_⟩, ?_⟩
  · simp [Core.configured, hd]
  · have hmod : coreKey c % 558 = c.x.toNat := by rw [coreKey]; omega
    have hdiv : coreKey c / 558 = c.y.toNat := by rw [coreKey]; omega
    show coreAt (coreKey c % 558) (coreKey c / 558) = c
    rw [hmod, hdiv, coreAt, BitVec.ofNat_toNat, BitVec.ofNat_toNat, BitVec.setWidth_eq, BitVec.setWidth_eq]

/-- The cores of a slot that has made progress, after its pulse (R222). -/
def State.pulsedCores (s : State) (n : Nat) : SMap Core := (s.coresOfSlot n).foldl (pulsed s.blankCore) s.cores

theorem exec_progressPulse {s : State} {slot : BitVec 6} (h : (s.slots.get .reset slot.toNat).progress = true) :
    exec (.progressPulse slot) s = .next { s with cores := s.pulsedCores slot.toNat
                                                  slots := s.slots.set slot.toNat { s.slots.get .reset slot.toNat with progress := false } } := by
  show execProgressPulse slot s = _
  rw [execProgressPulse]
  exact if_neg (by rw [h]; decide)

theorem pulsedCores_regsOnly (s : State) (n p : Nat) :
    (SMap.get s.blankCore s.cores p).regsKept (SMap.get s.blankCore (s.pulsedCores n) p) [rDF_NOPROG] ∧
      SMap.get s.blankCore (s.pulsedCores n) p = { SMap.get s.blankCore s.cores p with regs := (SMap.get s.blankCore (s.pulsedCores n) p).regs } := by
  have h := foldl_relates (f := pulsed s.blankCore) (l := s.coresOfSlot n)
    (R := fun a b => (SMap.get s.blankCore a p).RegsOnly (SMap.get s.blankCore b p) [rDF_NOPROG]) (fun a => .refl _ _)
    (fun h1 h2 => ⟨(h1.trans h2).1, fun off ho => (h1.trans h2).2 off (by simpa using ho)⟩) (fun a d => pulsed_regsOnly _ _ _ _) s.cores
  exact ⟨h.2, h.1⟩

/-- A core that is none of the slot's is as before. -/
theorem pulsedCores_other {s : State} {n : Nat} {c : CoreId} (hc : c.x.toNat < 558) (h : c ∉ s.coresOfSlot n) :
    SMap.get s.blankCore (s.pulsedCores n) (coreKey c) = SMap.get s.blankCore s.cores (coreKey c) := by
  have hkeep (l : List CoreId) (hl : ∀ d ∈ l, coreKey d ≠ coreKey c) (m : SMap Core) :
      SMap.get s.blankCore (l.foldl (pulsed s.blankCore) m) (coreKey c) = SMap.get s.blankCore m (coreKey c) := by
    induction l generalizing m with
    | nil => rfl
    | cons d l ih =>
      rw [List.foldl_cons, ih (fun e he => hl e (List.mem_cons_of_mem _ he)), pulsed_get, if_neg]
      exact fun he => hl d List.mem_cons_self he.1.symm
  refine hkeep _ (fun d hd hk => h ?_) _
  rwa [← coreKey_columns (coresOfSlot_column hd) hc hk]

/-- A core of the slot that runs has cleared its progress counter. -/
theorem pulsedCores_cleared {s : State} {n : Nat} {c : CoreId} (hc : c ∈ s.coresOfSlot n) :
    (SMap.get s.blankCore (s.pulsedCores n) (coreKey c)).df = .run →
      (SMap.get s.blankCore (s.pulsedCores n) (coreKey c)).reg rDF_NOPROG = 0 := by
  have hdf (m : SMap Core) (d : CoreId) :
      (SMap.get s.blankCore (pulsed s.blankCore m d) (coreKey c)).df = (SMap.get s.blankCore m (coreKey c)).df := by
    rw [(pulsed_regsOnly s.blankCore m d (coreKey c)).1]
  refine foldl_reaches (f := pulsed s.blankCore) (hit := (· = c))
    (P := fun m => (SMap.get s.blankCore m (coreKey c)).df = .run → (SMap.get s.blankCore m (coreKey c)).reg rDF_NOPROG = 0)
    (fun m d hd hrun => ?_) (fun m d hm hrun => ?_) (.inr ⟨c, hc, rfl⟩)
  · rw [hdf] at hrun
    rw [pulsed_get, if_pos ⟨by rw [hd], hrun⟩]
    exact Core.setReg_reg_self _ _ _
  · rw [hdf] at hrun
    rw [pulsed_get]
    split
    · exact Core.setReg_reg_self _ _ _
    · exact hm hrun

/-! ### The obligation -/

/-- Settles O26: an episode and a re-injection move one entry through the spill logic; the other clauses change registers and the section's
state. -/
theorem stallsAndProgress : Obligations.StallsAndProgress := by
  unfold Obligations.StallsAndProgress
  refine ⟨fun s c n i e r ich => ?_, fun s slot c => ?_⟩
  · intro k hl hd
    refine ⟨fun hw hs hn hu hlist hi he hb hq hc => ?_, fun hf ho hwhole hi hi32 hr hq hc => ?_, fun hlead hst => ?_⟩
    · obtain ⟨hmoved, hspill, hline, hgone⟩ := spillEntry_first (k := (kOf s c).inEpisode) hn hi he hb hq hc hs hd
      obtain ⟨addr, hex⟩ := exec_deadlockDetection hl hd hw hs hn hu hlist (by rw [hmoved]; exact hd)
      generalize (kOf s c).inEpisode.spillEntry n i = z at hmoved hspill hline hgone hex
      have hz : z.c = c ∧ z.core.s = k.s ∧ z.msgs = [] := by rw [hmoved]; exact ⟨rfl, rfl, rfl⟩
      obtain ⟨hzc, hzs, hzm⟩ := hz
      refine ⟨_, (kOf s c).inEpisode.core.recordOf n e, z.msgOf 7 0x67 1 addr, hex, ?_⟩
      rw [kPut_core (k := z.afterEpisode 1 addr) hzc, K.afterEpisode, report_core, noteMsg_regsOnly]
      refine ⟨hspill, rfl, rfl, rfl, ?_, hline, hgone, ?_, rfl, ?_, rfl, rfl, rfl, hzs, kPut_other hzc⟩
      · exact toNat_ofNat_lt (by omega)
      · refine (noteMsg_reg _ _ (by decide)).trans ((get_bump_other _ rDF_SPILLEV 1 _ _ (by decide) (by decide)).trans ?_)
        exact Core.setReg_reg_self _ _ _
      · show s.transit ++ (z.msgs ++ [z.msgOf 7 0x67 1 addr]) = _
        rw [hzm]
        rfl
    · obtain ⟨hmoved, hspill, hentry, hline, hcount⟩ := reinject_returns (k := { kOf s c with core := { s.core c with
        freed := (s.core c).freed.set ich.toNat ((s.core c).freed.get 0 ich.toNat - 1) } }) ho hwhole hi (BitVec.isLt ich) hi32 hr hq hc hd
      have hex := exec_reInjection hl hd hf hi
      generalize K.reinject { kOf s c with core := { s.core c with
        freed := (s.core c).freed.set ich.toNat ((s.core c).freed.get 0 ich.toNat - 1) } } ich.toNat = z at hmoved hspill hentry hline hcount hex
      have hz : z.c = c ∧ z.core.s = k.s := by rw [hmoved]; exact ⟨rfl, rfl⟩
      obtain ⟨hzc, hzs⟩ := hz
      refine ⟨_, hex, ?_⟩
      rw [kPut_core hzc]
      exact ⟨hspill, hentry, hline, hcount, hzs, kPut_other hzc⟩
    · refine ⟨_, (kOf s c).stallMsg, exec_stallLimit hl hd hlead hst, rfl, rfl, rfl, ?_, ?_⟩
      · have hslot : k.slotNo < 2 ^ 6 := BitVec.isLt _
        exact toNat_ofNat_lt (show k.slotNo < 2 ^ 16 by omega)
      · rw [kPut_core (show K.c _ = c from rfl), noteMsg_regsOnly]
        exact ⟨rfl, (enterAbort_record _ 3 0x66 c).trans (by decide), rfl, rfl, kPut_other rfl⟩
  · intro e k
    refine ⟨fun hp hg => ?_, fun hl hlend hidle hd => ?_⟩
    · have hx : c.x.toNat < 558 := by
        simp only [onGrid, Bool.and_eq_true, decide_eq_true_eq] at hg
        exact hg.1
      obtain ⟨hregs, hframe⟩ := pulsedCores_regsOnly s slot.toNat (coreKey c)
      refine ⟨_, exec_progressPulse hp, congrArg SectionSlot.progress (SMap.get_set_self _ _ _ _), fun hrun hslot => ?_, fun hno => ?_,
        fun off ho => hregs off (by simpa using ho), ?_, ?_, ?_⟩
      · refine pulsedCores_cleared (hslot ▸ mem_coresOfSlot hg hrun) ?_
        rw [hframe]; exact hrun
      · exact pulsedCores_other hx hno
      all_goals exact (congrArg _ hframe).trans rfl
    · refine ⟨_, exec_lendingStart hl hlend hidle hd, kPut_core rfl, kPut_other rfl, kPut_coresOnly (k := { s.core c with lent := true }) rfl⟩

end Sys2Proof.Machine
end

section
/-! SUPPORT. Requests at a terminus: taken from its queue, read, written and answered (R269, R272, R273). -/

namespace Sys2Proof.Machine

/-! ### Taking a request and answering it -/

/-- The answer that a terminus sends to a request (R145, R170). -/
def Packet.termAnswer (p : Packet) (op aux sz len : Nat) (head : BitVec 384) (ls : List Line) : Packet :=
  { p with op := BitVec.ofNat 4 op, aux := BitVec.ofNat 8 aux, off := 0, space := 0, src := p.dst, dst := p.src
           sz := BitVec.ofNat 3 sz, len := BitVec.ofNat 3 len, rclass := 0, wpy := 0, head := head, lines := ls, killed := false }

/-- A terminus that has taken a request and done no more than to outer memory, counters and messages answers it (R145). -/
theorem termSend_answered {s u : State} (p : Packet) (op aux sz len : Nat) (head : BitVec 384) (ls : List Line) (htin : u.tin = s.tin.tail)
    (hinj : u.inj = s.inj) (hcores : u.cores = s.cores) : s.omAnswered (u.termSend p op aux sz len head ls)
      p (p.termAnswer op aux sz len head ls) (BitVec.ofNat 4 op) (BitVec.ofNat 8 aux) :=
  ⟨htin, congrArg (· ++ _) hinj, rfl, rfl, rfl, rfl, rfl, rfl, hcores⟩

section
variable {s : State} {t : Nat} {test : Packet → Bool} {p : Packet}

/-- The oldest request of a terminus is taken by the command that it is for (R273). -/
theorem takeOm_head (hh : s.tin.head? = some (t, p)) (hr : p.omRequest = true) (ht : test p = true) :
    takeOm t test [] s.tin = some (p, s.tin.tail) := by
  cases hq : s.tin with
  | nil => simp [hq] at hh
  | cons e rest =>
    obtain rfl : e = (t, p) := by simpa [hq] using hh
    rw [takeOm]
    exact if_pos ⟨⟨rfl, hr⟩, ht, by simp⟩

/-- A request that its terminus serves (R269). -/
theorem omServe_serves (f : Packet → State → State) (h : s.omServes t p) (ht : test p = true) :
    omServe t test s f = f p { s with tin := s.tin.tail } := by
  obtain ⟨hlost, hfit, hpow, hh, hr, hform, hext⟩ := h
  rw [omServe, takeOm_head hh hr ht]
  simp only [hlost, hfit, hpow, hform, hext, Bool.not_true, Bool.or_self, Bool.false_eq_true, if_false]

/-- A request that the extent table refuses is counted, reported and answered with ERR 0x0A (R269). -/
theorem omServe_refused (f : Packet → State → State) {cause : Nat} (hlost : (s.terminus t).lost = false) (hfit : s.fitted t = true)
    (hpow : s.bu.power = true) (hh : s.tin.head? = some (t, p)) (hr : p.omRequest = true) (hform : p.omFormed = true)
    (hext : s.extentRefusal p.sys p.pid p.off.toNat = some cause) (ht : test p = true) : omServe t test s f =
      ((State.ycount { s with tin := s.tin.tail } (yOM + 0x10000 * t + 0x030) 1).terminusReport t 18 0xC2 (omDetail p.sys p.pid t cause)
        p.off.toNat).termErr p 0x0A := by
  rw [omServe, takeOm_head hh hr ht]
  simp only [hlost, hfit, hpow, hform, hext, Bool.not_true, Bool.or_self, Bool.false_eq_true, if_false]

end

/-! ### Lines read and written -/

section
variable {s : State}

/-- A line that verifies is read without a message (R272). -/
theorem readOm_verifies {o : Nat} (sys : Bool) (pid : Pid) (h : s.omVerifies o) : s.readOm sys pid o 0 = (s, true) := by
  unfold State.omVerifies at h
  simp only [State.readOm, h, ne_eq, not_true_eq_false, false_or, show ¬ (2 ≤ 0) by omega, if_false, show ¬ (0 = 1) by omega]

/-- Outer memory's uncorrectable-read message (R272). -/
def State.omBadMsg (s : State) (sys : Bool) (pid : Pid) (o : Nat) : Msg :=
  { stamp := lo32 s.yc, address := BitVec.ofNat 48 (o / 64 * 64)
    detail := BitVec.ofNat 16 (omDetail sys pid (s.omPlace o).t ((s.omPlace o).stack * 2 ^ 6)), kind := 0xC1, block := 18, core := 0, cluster := 0
    field := BitVec.ofNat 7 (srcTerminus + (s.omPlace o).t) }

/-- A line two reads of which deliver damaged data does not verify: it is counted and reported (R272). -/
theorem readOm_damaged {o fails : Nat} (sys : Bool) (pid : Pid) (h : 2 ≤ fails) : s.readOm sys pid o fails =
    ({ s.ycount (yOM + 0x10000 * (s.omPlace o).t + 0x028) 1 with transit := s.transit ++ [s.omBadMsg sys pid o] }, false) := by
  unfold State.readOm
  dsimp only
  split
  · rfl
  · rw [if_pos (.inr h)]; rfl

theorem Mem.readLine_put (m : Mem) (o : Nat) (l : Line) : Mem.readLine (Mem.put m o (Line.bytes l)) o = l := by
  refine Mem.readLine_eq fun i hi => ?_
  rw [Mem.read_put, bytes_length, if_pos (by omega), Nat.add_sub_cancel_left, nth_bytes l hi]

theorem Mem.read_put_other (m : Mem) {o q : Nat} {bs : List Byte} (h : q < o ∨ o + bs.length ≤ q) : Mem.read (Mem.put m o bs) q = Mem.read m q := by
  rw [Mem.read_put, if_neg (by omega)]

/-- A word stored byte by byte (R11). -/
theorem Mem.read_put_word (m : Mem) (o : Nat) (v : DWord) {i : Nat} (h : i < 8) :
    Mem.read (Mem.put m o (leBytes 8 v.toNat)) (o + i) = v.extractLsb' (8 * i) 8 := by
  rw [Mem.read_put, leBytes_length, if_pos (by omega), Nat.add_sub_cancel_left, nth_leBytes _ h]
  apply BitVec.eq_of_toNat_eq
  rw [BitVec.extractLsb'_toNat, BitVec.toNat_ofNat, Nat.shiftRight_eq_div_pow, Nat.pow_mul]

theorem writeOm_keeps (s : State) {o n : Nat} {bs : List Byte} (h : bs.length = n) : s.omKept (s.writeOm o bs) o n :=
  fun q hq => Mem.read_put_other s.om.mem (by rw [h]; exact hq)

/-- A line just written bears the tag in force (R271). -/
theorem lineTag_writeOm (s : State) (o : Nat) (bs : List Byte) : (s.writeOm o bs).lineTag o = s.writeTag o := by
  have hfind : (s.writeOm o bs).om.tags.find? (fun e => e.1 == o / 64) = some (o / 64, s.writeTag o) := SMap.find_set_self s.om.tags _ _
  rw [State.lineTag, hfind]

end

/-- The low 8 bytes of a head are those of an aligned word (R142). -/
theorem headPart_word (h : BitVec 384) {off : Nat} (ho : off % 8 = 0) : headPart h 8 off = h.extractLsb' 0 64 := by
  apply BitVec.eq_of_toNat_eq
  rw [headPart, ho, BitVec.toNat_ofNat, BitVec.extractLsb'_toNat]
  simp

theorem headOf_word (v : DWord) : (headOf v.toNat).extractLsb' 0 64 = v := by
  apply BitVec.eq_of_toNat_eq
  refine (field_headOf (lo := 0) (n := 64) (by decide)).trans ?_
  have := v.isLt
  omega

/-! ### Requests of one line or word -/

section
variable {s : State} {p : Packet}

/-- A request of one line starts at the line (R267). -/
theorem omFormed_line (hsz : p.sz = 4) (h : p.omFormed = true) : p.off.toNat % 64 = 0 ∧ p.omLines = [p.off.toNat / 64] := by
  have hs : ¬ p.sz.toNat ≤ 3 := by rw [hsz]; decide
  simp only [Packet.omFormed, if_neg hs, Bool.and_eq_true, beq_iff_eq] at h
  refine ⟨h.1, ?_⟩
  rw [Packet.omLines, if_neg hs, hsz]
  rfl

theorem omFormed_word (hsz : p.sz = 3) (h : p.omFormed = true) : p.off.toNat % 8 = 0 ∧ p.span = 8 := by
  have hs : p.sz.toNat ≤ 3 := by rw [hsz]; decide
  have hspan : p.span = 8 := by rw [Packet.span, if_pos hs, hsz]; rfl
  simp only [Packet.omFormed, if_pos hs, hspan, Bool.and_eq_true, beq_iff_eq] at h
  exact ⟨h.1, hspan⟩

/-- A read of a line that verifies is counted and answered with its bytes (R272). -/
theorem omRead_answers (hsz : p.sz = 4) (hform : p.omFormed = true) (hv : s.omVerifies p.off.toNat) : omRead [] p s =
    (s.ycount (yOM + 0x10000 * (s.omPlace p.off.toNat).t + 0x010) 1).termSend p 9 0 4 1 0 [Mem.readLine s.om.mem p.off.toNat] := by
  obtain ⟨hal, hlines⟩ := omFormed_line hsz hform
  have hoff : 64 * (p.off.toNat / 64) = p.off.toNat := by omega
  have hread : s.readOm p.sys p.pid (64 * (p.off.toNat / 64)) 0 = (s, true) := readOm_verifies _ _ (by rw [hoff]; exact hv)
  have hs : ¬ p.sz.toNat ≤ 3 := by rw [hsz]; decide
  have hfold : (List.range p.omLines.length).foldl (fun (a : State × Bool) i =>
      ((a.1.readOm p.sys p.pid (64 * nth 0 p.omLines i) (nth 0 ([] : List (BitVec 2)) i).toNat).1,
        a.2 && (a.1.readOm p.sys p.pid (64 * nth 0 p.omLines i) (nth 0 ([] : List (BitVec 2)) i).toNat).2)) (s, true) = (s, true) := by
    rw [hlines]
    show ((s.readOm p.sys p.pid (64 * (p.off.toNat / 64)) 0).1, true && (s.readOm p.sys p.pid (64 * (p.off.toNat / 64)) 0).2) = _
    rw [hread]
    rfl
  unfold omRead
  dsimp only
  rw [hfold, hlines, if_neg hs, hsz]
  simp only [List.map_cons, List.map_nil, hoff]
  rfl

/-- A read of a line that does not verify is answered with ERR 0x08 (R272). -/
theorem omRead_damaged {fails : BitVec 2} (hsz : p.sz = 4) (hform : p.omFormed = true) (hf : 2 ≤ fails.toNat) : omRead [fails] p s =
    State.termErr { s.ycount (yOM + 0x10000 * (s.omPlace p.off.toNat).t + 0x028) 1 with
      transit := s.transit ++ [s.omBadMsg p.sys p.pid p.off.toNat] } p 0x08 := by
  obtain ⟨hal, hlines⟩ := omFormed_line hsz hform
  have hoff : 64 * (p.off.toNat / 64) = p.off.toNat := by omega
  have hread := readOm_damaged (s := s) (o := 64 * (p.off.toNat / 64)) p.sys p.pid hf
  have hfold : (List.range p.omLines.length).foldl (fun (a : State × Bool) i =>
      ((a.1.readOm p.sys p.pid (64 * nth 0 p.omLines i) (nth 0 [fails] i).toNat).1,
        a.2 && (a.1.readOm p.sys p.pid (64 * nth 0 p.omLines i) (nth 0 [fails] i).toNat).2)) (s, true) =
      s.readOm p.sys p.pid (64 * (p.off.toNat / 64)) fails.toNat := by
    rw [hlines]
    rfl
  unfold omRead
  dsimp only
  rw [hfold, hread, hoff]
  rfl

/-- A write of one line stores it under the key in force, is counted and acknowledged (R273). -/
theorem omWrite_line {l : Line} (hl : p.lines = [l]) : omWrite p s =
    ((s.writeOm p.off.toNat (Line.bytes l)).ycount (yOM + 0x10000 * (s.omPlace p.off.toNat).t + 0x018) 1).termAck p := by
  rw [omWrite, hl]
  rfl

/-- A write of one word to a line that verifies (R273). -/
theorem omPartial_word (hsz : p.sz = 3) (hform : p.omFormed = true) (hv : s.omVerifies (p.off.toNat / 64 * 64)) : omPartial 0 p s =
    ((s.writeOm p.off.toNat (leBytes 8 (p.head.extractLsb' 0 64 : DWord).toNat)).ycount
      (yOM + 0x10000 * (s.omPlace p.off.toNat).t + 0x018) 1).termAck p := by
  obtain ⟨hal, hspan⟩ := omFormed_word hsz hform
  unfold omPartial
  dsimp only
  rw [readOm_verifies _ _ hv, hspan, headPart_word _ hal]
  rfl

/-- An atomic addition to a word whose line verifies (R191, R273). -/
theorem omAtom_adds (haux : p.aux = 1) (hv : s.omVerifies (p.off.toNat / 64 * 64)) : omAtom 0 p s =
    (((s.writeOm p.off.toNat (leBytes 8 (BitVec.ofNat 64 (Mem.readN s.om.mem p.off.toNat 8) + p.head.extractLsb' 0 64 : DWord).toNat)).ycount
      (yOM + 0x10000 * (s.omPlace p.off.toNat).t + 0x010) 1).ycount (yOM + 0x10000 * (s.omPlace p.off.toNat).t + 0x018) 1).termSend p 9 0 3 0
        (headOf (BitVec.ofNat 64 (Mem.readN s.om.mem p.off.toNat 8) : DWord).toNat) [] := by
  have ha : p.aux.toNat = 1 := by rw [haux]; rfl
  unfold omAtom
  dsimp only
  rw [readOm_verifies _ _ hv, ha, if_neg (by decide)]
  rfl

end

/-! ### The obligation -/

/-- Settles O40: each request is the oldest at its terminus, so the command takes it and leaves what one line or word of it leaves. -/
theorem outerMemoryAccesses : Obligations.OuterMemoryAccesses := by
  unfold Obligations.OuterMemoryAccesses
  intro s t3 p l cause fails n off base a old
  have htake {test : Packet → Bool} (f : Packet → State → State) (h : s.omServes n p) (ht : test p = true) := omServe_serves f h ht
  refine ⟨fun h hop hsz hv => ?_, fun h hop hsz hf => ?_, fun hlost hfit hpow hh hop hsp hform hext hcause => ?_, fun h hop hsz hl => ?_,
    fun h hop hsz hv hf => ?_, fun h hop hsz haux hv hf => ?_, fun hfull hheld => ?_⟩
  · refine ⟨_, p.termAnswer 9 0 4 1 0 [Mem.readLine s.om.mem off], congrArg Host.Outcome.next ((htake (omRead []) h (by simp [hop])).trans
      (omRead_answers (s := { s with tin := s.tin.tail }) hsz h.2.2.2.2.2.1 hv)), termSend_answered p 9 0 4 1 0 _ rfl rfl rfl, rfl, rfl, rfl⟩
  · have hal := (omFormed_line hsz h.2.2.2.2.2.1).1
    refine ⟨_, p.termAnswer 11 0x08 0 0 0 [], s.omBadMsg p.sys p.pid off, congrArg Host.Outcome.next
      ((htake (omRead [fails]) h (by simp [hop])).trans (omRead_damaged (s := { s with tin := s.tin.tail }) hsz h.2.2.2.2.2.1 hf)),
      termSend_answered p 11 0x08 0 0 0 [] rfl rfl rfl, rfl, rfl, rfl, rfl, rfl, ?_⟩
    exact toNat_ofNat_lt (by have := p.off.isLt; omega)
  · have hr : p.omRequest = true := by simp [Packet.omRequest, hsp, hop]
    refine ⟨_, p.termAnswer 11 0x0A 0 0 0 [], _, congrArg Host.Outcome.next
      (omServe_refused (omRead []) hlost hfit hpow hh hr hform hext (by simp [hop])), termSend_answered p 11 0x0A 0 0 0 [] rfl rfl rfl, rfl, rfl, rfl,
      rfl, ?_, ?_⟩
    · exact toNat_ofNat_lt (by have := p.off.isLt; omega)
    · have hpid := p.pid.isLt
      have hsys := Bool.toNat_le p.sys
      have hn := t3.isLt
      exact toNat_ofNat_lt (by rw [omDetail]; omega)
  · refine ⟨_, p.termAnswer 10 0 0 0 (headOf 1) [], congrArg Host.Outcome.next ((htake omWrite h (by simp [hop, hsz])).trans
      (omWrite_line (s := { s with tin := s.tin.tail }) hl)), termSend_answered p 10 0 0 0 _ [] rfl rfl rfl, Mem.readLine_put _ _ _,
      lineTag_writeOm s off _, writeOm_keeps s (bytes_length l), rfl, rfl⟩
  · subst hf
    refine ⟨_, p.termAnswer 10 0 0 0 (headOf 1) [], congrArg Host.Outcome.next ((htake (omPartial 0) h (by simp [hop, hsz])).trans
      (omPartial_word (s := { s with tin := s.tin.tail }) hsz h.2.2.2.2.2.1 hv)), termSend_answered p 10 0 0 0 _ [] rfl rfl rfl,
      fun i hi => Mem.read_put_word _ _ a hi, writeOm_keeps s (leBytes_length 8 _), rfl, rfl⟩
  · subst hf
    refine ⟨_, p.termAnswer 9 0 3 0 (headOf old.toNat) [], congrArg Host.Outcome.next ((htake (omAtom 0) h (by simp [hop])).trans
      (omAtom_adds (s := { s with tin := s.tin.tail }) haux hv)), termSend_answered p 9 0 3 0 _ [] rfl rfl rfl, headOf_word old,
      fun i hi => Mem.read_put_word _ _ (old + a) hi, writeOm_keeps s (leBytes_length 8 _)⟩
  · refine ⟨s.onTerminus n (fun e => { e with full := false }), ?_, ?_, rfl⟩
    · show execTerminusAdmissionResume t3 s = _
      exact if_pos (by rw [hfull, decide_eq_true hheld]; rfl)
    · rw [State.terminus, State.onTerminus, SMap.get_upd, if_pos rfl]

end Sys2Proof.Machine
end


section
/-! SUPPORT. Submission records: one read and passed by, packages checked, placements dropped, and what publication leaves (R199, R243,
R246, R252, R255). -/

namespace Sys2Proof.Machine

/-! ### A pair and its cores -/

/-- A step of Ryist on a pair beyond publication: cores, packets and messages under way, and the pairs' index words. -/
def State.pairOnly (s t : State) : Prop :=
  t = { s with cores := t.cores, routers := t.routers, inj := t.inj, transit := t.transit, slots := t.slots, freeCtr := t.freeCtr,
               resp := t.resp, rings := t.rings }

section
variable {s s1 t u v : State} {p : Pid} {r : BitVec 3} {x : RawRecord} {host pkg bs : List Byte} {y : RingRecord}

theorem State.pairOnly.refl (s : State) : s.pairOnly s := rfl

theorem State.pairOnly.trans (h1 : s.pairOnly t) (h2 : t.pairOnly u) : s.pairOnly u := by
  unfold State.pairOnly at h1 h2 ⊢
  rw [h1] at h2
  exact h2

theorem State.coresOnly.pairOnly (h : s.coresOnly t) : s.pairOnly t := by
  unfold State.coresOnly at h
  unfold State.pairOnly
  rw [h]

theorem setRing_pairOnly (s : State) (p : Pid) (r : BitVec 3) (g : Ring) : s.pairOnly (s.setRing p r g) := rfl

theorem idxStore_pairOnly (s : State) (p : Pid) (r : BitVec 3) (k : Nat) (w : DWord) : s.pairOnly (s.idxStore p r k w) := by
  unfold State.idxStore
  split
  · exact .refl s
  · split
    · exact (onCore_coresOnly _ s _).pairOnly
    · exact .refl s

theorem idxLoad_pairOnly (s : State) (p : Pid) (r : BitVec 3) (k : Nat) : s.pairOnly (s.idxLoad p r k).1 := by
  unfold State.idxLoad
  split
  · exact .refl s
  · split
    · exact (kPut_anyCoresOnly s _).pairOnly
    · exact .refl s

theorem watchRing_pairOnly (s : State) (p : Pid) (r : BitVec 3) : s.pairOnly (s.watchRing p r) := by
  unfold State.watchRing
  split
  · rename_i c off h _ _
    extract_lets s1 mine
    have h1 : s.pairOnly s1 := by
      dsimp only [s1]
      split
      · exact (onCore_coresOnly _ s _).pairOnly
      · exact .refl s
    split
    · exact h1.trans (onCore_coresOnly _ s1 _).pairOnly
    · exact h1
  · exact .refl s

theorem fetchRecord_pairOnly (h : s.fetchRecord p r host = some (s1, x)) : s.pairOnly s1 := by
  have hload := idxLoad_pairOnly s p r 0
  unfold State.fetchRecord at h
  split at h
  · exact absurd h (by simp)
  · split at h
    · exact absurd h (by simp)
    · rename_i u w heq
      rw [heq] at hload
      dsimp only at h hload
      have hs1 : s1 = (u.setRing p r { u.ring p r with subWr := w }).watchRing p r := by
        split at h
        · exact absurd h (by simp)
        · split at h
          · exact absurd h (by simp)
          · split at h
            · exact absurd h (by simp)
            · exact (congrArg Prod.fst (Option.some.inj h)).symm
      rw [hs1]
      exact (hload.trans (setRing_pairOnly _ _ _ _)).trans (watchRing_pairOnly _ _ _)

theorem advanceRd_pairOnly (s : State) (p : Pid) (r : BitVec 3) (n : Nat) : s.pairOnly (s.advanceRd p r n) :=
  (setRing_pairOnly s p r _).trans (idxStore_pairOnly _ _ _ _ _)

/-- What the index of a submission ring's reader leaves as it advances by any number of bytes (R199). -/
theorem advanceRd_step (s : State) (p : Pid) (r : BitVec 3) (n : Nat) {E : Nat → Prop} : s.RingStep (s.advanceRd p r n) p r E ∧
    ((s.advanceRd p r n).ring p r).subRd = (s.ring p r).subRd + BitVec.ofNat 64 n := by
  unfold State.advanceRd
  extract_lets g w
  refine ⟨State.RingStep.trans (t := s.setRing p r { g with subRd := w }) (setRing_ringStep rfl) (idxStore_ringStep _ _ _ _ _), ?_⟩
  rw [(idxStore_ringsStill _ _ _ _ _).ring, ring_setRing_self]

/-- A record, or the rest of the region, is passed by (R199). -/
theorem advanceRd_readPast (hf : s.fetchRecord p r host = some (s1, x)) (n : Nat) : s.readPast (s1.advanceRd p r n) p r n := by
  obtain ⟨hstep, -, hsub⟩ := fetchRecord_step hf
  obtain ⟨hadv, hrd⟩ := advanceRd_step (E := s.offHelper p) s1 p r n
  exact ⟨by rw [hrd, hsub], (hstep.trans hadv).ringCoresKept⟩

/-! ### The index block -/

/-- Bytes put at an offset and read there at once. -/
theorem Mem.readN_put (m : Mem) (off : Nat) (bs : List Byte) : Mem.readN (Mem.put m off bs) off bs.length = leNat bs := by
  induction bs generalizing m off with
  | nil => rfl
  | cons b l ih =>
    have hfirst : Mem.read (Mem.put m off (b :: l)) off = b := by
      rw [Mem.read_put, if_pos ⟨le_rfl, by simp⟩, Nat.sub_self]
      rfl
    rw [List.length_cons, Mem.readN, hfirst, Mem.put, ih]
    rfl

/-- A word put at an offset of a scratchpad is read there, whatever the line's codes say (R114, R115). -/
theorem putBytes_readN (k : Core) (off : Nat) (w : DWord) : BitVec.ofNat 64 (Mem.readN (k.putBytes off (leBytes 8 w.toNat)).mem off 8) = w := by
  obtain ⟨m, hm⟩ : ∃ m, (k.putBytes off (leBytes 8 w.toNat)).mem = Mem.put m off (leBytes 8 w.toNat) := by
    cases h : k.inWeights off with
    | true => exact ⟨_, by rw [putBytes_weights _ h]⟩
    | false =>
      obtain ⟨k1, -, h2⟩ := putBytes_activation (leBytes 8 w.toNat) h
      exact ⟨_, by rw [h2]⟩
  have h := Mem.readN_put m off (leBytes 8 w.toNat)
  rw [leBytes_length] at h
  rw [hm, h, leNat_leBytes]
  exact BitVec.eq_of_toNat_eq (by rw [BitVec.toNat_ofNat]; have := w.isLt; omega)

theorem writeBytes_stores {k : K} {agent off : Nat} {req : Option CoreId} (w : DWord)
    (h : (k.writeBytes agent req off (leBytes 8 w.toNat)).2 = true) :
    BitVec.ofNat 64 (Mem.readN (k.writeBytes agent req off (leBytes 8 w.toNat)).1.core.mem off 8) = w := by
  have hput (a : K) : (K.wroteBytes { a with core := a.core.putBytes off (leBytes 8 w.toNat) } off (leBytes 8 w.toNat).length).core.mem =
      (a.core.putBytes off (leBytes 8 w.toNat)).mem := by
    unfold K.wroteBytes
    rw [(evalWatches_firedOnly _ _).1]
  unfold K.writeBytes at h ⊢
  split at h
  · exact absurd h (by simp)
  · unfold K.commitBytes at h ⊢
    split
    · rename_i hw
      rw [if_pos hw] at h
      extract_lets at h ⊢
      split
      · rename_i hbad
        rw [if_pos hbad] at h
        exact absurd h (by simp)
      · dsimp only
        rw [hput]
        exact putBytes_readN _ _ _
    · dsimp only
      rw [hput]
      exact putBytes_readN _ _ _

/-- An index word that the scratchpad takes stands in the block (R198, R199). -/
theorem idxStore_stores {c : CoreId} {off k : Nat} {w : DWord} (hi : (s.ring p r).idx = some (c, off)) (hup : s.padUp c = true)
    (hw : ((kOf s c).writeBytes agNET none (off + 64 * k) (leBytes 8 w.toNat)).2 = true) :
    BitVec.ofNat 64 (Mem.readN ((s.idxStore p r k w).core c).mem (off + 64 * k) 8) = w := by
  have hdef : s.idxStore p r k w = kPut s ((kOf s c).writeBytes agNET none (off + 64 * k) (leBytes 8 w.toNat)).1 := by
    unfold State.idxStore
    rw [hi]
    dsimp only
    rw [if_pos hup]
    exact if_pos (padUp_onGrid hup)
  rw [hdef, kPut_core (c := c) (writeBytes_atHome (kOf s c) _ _ _ _).c]
  exact writeBytes_stores w hw

/-- The reader's index is stored in the ring's index block (R199). -/
theorem advanceRd_stores (hf : s.fetchRecord p r host = some (s1, x)) (n : Nat) {c : CoreId} {off : Nat}
    (hi : (s.ring p r).idx = some (c, off)) (hup : s1.padUp c = true)
    (hw : ((kOf s1 c).writeBytes agNET none (off + 64) (leBytes 8 ((s1.advanceRd p r n).ring p r).subRd.toNat)).2 = true) :
    BitVec.ofNat 64 (Mem.readN ((s1.advanceRd p r n).core c).mem (off + 64) 8) = ((s1.advanceRd p r n).ring p r).subRd := by
  obtain ⟨hstep, -, -⟩ := fetchRecord_step hf
  have hrd := (advanceRd_step (E := fun _ => True) s1 p r n).2
  rw [hrd] at hw ⊢
  refine idxStore_stores (s := s1.setRing p r { s1.ring p r with subRd := (s1.ring p r).subRd + BitVec.ofNat 64 n }) (k := 1) ?_ hup hw
  rw [ring_setRing_self]
  exact hstep.idx.trans hi

/-! ### Records of no job -/

/-- A record that follows one passed by, where nothing but placements has changed between the two (R199, R255). -/
theorem readPast_recorded (hf : s.fetchRecord p r host = some (s1, x)) (y : RingRecord) (hb : u.bu = (s1.readRecord p r x.len).bu)
    (hc : u.cores = (s1.readRecord p r x.len).cores) (hg : u.rings = (s1.readRecord p r x.len).rings) :
    s.readPast (u.pushRecord p r y) p r (recSize x.len) ∧ s.recorded (u.pushRecord p r y) p r y := by
  obtain ⟨hread, hkept, hsub⟩ := recordRead_step hf
  obtain ⟨hpush, hsub', hrec⟩ := pushRecord_step (E := s.offHelper p) u p r y
  have hring : u.ring p r = (s1.readRecord p r x.len).ring p r := by rw [State.ring, State.ring, hg]
  refine ⟨⟨?_, hread.ringCoresKept_then hpush hb hc hring⟩, ?_⟩
  · rw [hsub', hring, hsub]
  · have h := hkept.carried p r
    rw [State.recorded, hring] at hrec
    exact hrec.trans (congrArg (· ++ [y]) h)

theorem readPast_published {n : Nat} (h : s.readPast t p r n) (w : State) : s.readPast (published w t) p r n := by
  obtain ⟨ys, hys, -⟩ := published_yregs w t
  rw [hys]
  exact h

/-- A record that Ryist answers with a completion record ends so, and no job has changed (R246, R253). -/
theorem completes_once {status detail : Nat} (hf : s.fetchRecord p r host = some (s1, x)) (id : DWord) (hs : status < 2 ^ 16)
    (hd : detail < 2 ^ 16) :
    let t := (s1.readRecord p r x.len).pushRecord p r (bareCompletion id status detail)
    s.readPast t p r (recSize x.len) ∧ s.recorded t p r (bareCompletion id status detail) ∧
      (bareCompletion id status detail).completes id status detail ∧ t.jobs = s.jobs := by
  obtain ⟨hpast, hrec⟩ := readPast_recorded hf (bareCompletion id status detail) rfl rfl rfl
  refine ⟨hpast, hrec, ⟨rfl, toNat_ofNat_lt hs, toNat_ofNat_lt hd⟩, ?_⟩
  exact (pushRecord_step (E := fun _ => True) _ p r _).1.jobs.trans (recordRead_step hf).1.jobs

/-! ### SUBMIT -/

theorem exec_submit (hf : s.fetchRecord p r host = some (s1, x)) (hk : x.kind = 1)
    (hw : s1.pkgPlaced p (readSubmit x) = true → addrSpace (readSubmit x).pkg = 4 →
      s1.hostReach (readSubmit x).pkg (readSubmit x).pkgLen true = true) :
    exec (.submit p r host pkg) s = .next (published s ((s1.readRecord p r x.len).takeSubmit p r (readSubmit x) pkg)) := by
  show execSubmit p r host pkg s = _
  unfold execSubmit
  rw [hf]
  dsimp only
  rw [if_neg]
  rintro (h | ⟨h1, h2, h3⟩)
  · exact h hk
  · rw [hw h1 h2] at h3
    exact absurd h3 (by decide)

/-- A package in host memory that cannot be reached waits (R243). -/
theorem exec_submit_waits (hf : s.fetchRecord p r host = some (s1, x)) (hp : s1.pkgPlaced p (readSubmit x) = true)
    (ha : addrSpace (readSubmit x).pkg = 4) (hr : s1.hostReach (readSubmit x).pkg (readSubmit x).pkgLen true = false) :
    exec (.submit p r host pkg) s = .next s := by
  show execSubmit p r host pkg s = _
  unfold execSubmit
  rw [hf]
  dsimp only
  exact if_pos (.inr ⟨hp, ha, by rw [hr]; rfl⟩)

/-- The package is read and checked in the state in which its record has been passed by: there it lies where it lay. -/
theorem readRecord_pkgPlaced (s1 : State) (p : Pid) (r : BitVec 3) (len : Nat) (q : SubmitRecord) :
    (s1.readRecord p r len).pkgPlaced p q = s1.pkgPlaced p q := by
  rw [show s1.readRecord p r len = _ from advanceRd_pairOnly s1 p r (recSize len)]
  rfl

theorem takeSubmit_unplaced {q : SubmitRecord} (h : s.pkgPlaced p q = false) :
    s.takeSubmit p r q pkg = s.pushRecord p r (bareCompletion q.jobid 4 7) := by simp [State.takeSubmit, h]

theorem takeSubmit_unread {q : SubmitRecord} (h : s.pkgPlaced p q = true) (hl : s.loadAt q.pkg q.pkgLen pkg = none) :
    s.takeSubmit p r q pkg = s.pushRecord p r (bareCompletion q.jobid 4 2) := by simp [State.takeSubmit, h, hl]

theorem takeSubmit_rejects {q : SubmitRecord} {d : Nat} (h : s.pkgPlaced p q = true) (hl : s.loadAt q.pkg q.pkgLen pkg = some bs)
    (hd : s.pkgReject p r q (readPackage bs) = some d) :
    s.takeSubmit p r q pkg = s.pushRecord p r (bareCompletion q.jobid 4 d) := by simp [State.takeSubmit, h, hl, hd]

/-- The state with a job that waits to be placed behind those it knows (R246). -/
def State.joinJob (s : State) (j : Job) : State := { s with jobs := s.jobs ++ [j] }

theorem takeSubmit_takes {q : SubmitRecord} (h : s.pkgPlaced p q = true) (hl : s.loadAt q.pkg q.pkgLen pkg = some bs)
    (hd : s.pkgReject p r q (readPackage bs) = none) :
    s.takeSubmit p r q pkg = ((s.otherDigest p r (readPackage bs).digest).joinJob (newJob p r q (readPackage bs))).jobsState p := by
  simp [State.takeSubmit, h, hl, hd, State.joinJob]

/-- The codes of R243 are those from 1 to 8. -/
theorem pkgReject_le {q : SubmitRecord} {k : Package} {d : Nat} (h : s.pkgReject p r q k = some d) : d ≤ 8 := by
  unfold State.pkgReject at h
  repeat' split at h
  all_goals simp at h
  all_goals omega

/-- A package that no check rejects names a job that the ring does not hold (R243, reason 7). -/
theorem pkgReject_fresh {q : SubmitRecord} {k : Package} (h : s.pkgReject p r q k = none) : s.jobs.any (isJob p r q.jobid) = false := by
  have hok : s.submitOk p r q k = true := by
    unfold State.pkgReject at h
    split_ifs at h with h1 h2 h3 h4 h5 h6 h7
    simpa using h7
  simp only [State.submitOk, Bool.and_eq_true, Bool.not_eq_true'] at hok
  tauto

/-- A SUBMIT whose package fails a check ends in a completion record with status 4 and the check's code (R243, R253). -/
theorem submit_fails {d : Nat} (hf : s.fetchRecord p r host = some (s1, x)) (hk : x.kind = 1)
    (hw : s1.pkgPlaced p (readSubmit x) = true → addrSpace (readSubmit x).pkg = 4 →
      s1.hostReach (readSubmit x).pkg (readSubmit x).pkgLen true = true) (hd : d ≤ 8)
    (ht : (s1.readRecord p r x.len).takeSubmit p r (readSubmit x) pkg =
      (s1.readRecord p r x.len).pushRecord p r (bareCompletion (readSubmit x).jobid 4 d)) :
    ∃ t : State, ∃ y, exec (.submit p r host pkg) s = .next t ∧ s.readPast t p r (recSize x.len) ∧ s.recorded t p r y ∧
      y.completes (readSubmit x).jobid 4 d ∧ t.jobs = s.jobs := by
  obtain ⟨hpast, hrec, hcomp, hjobs⟩ := completes_once hf (status := 4) (readSubmit x).jobid (by omega) (show d < 2 ^ 16 by omega)
  refine ⟨_, _, (exec_submit hf hk hw).trans (by rw [ht]), readPast_published hpast s, recorded_after hrec (published_ring _ _ _ _), hcomp, ?_⟩
  exact (published_published (p := p) (r := r) (E := fun _ => True) s _).jobs.trans hjobs

/-! ### KILL, and records of other kinds -/

/-- A KILL that names no job, or one that is being killed already, ends in status 7 (R246, R263). -/
theorem kill_nothing (hf : s.fetchRecord p r host = some (s1, x)) (hk : x.kind = 2)
    (hj : ∀ j, s.job? p r (BitVec.ofNat 64 (numAt x.payload 0 8)) = some j → j.phase = .killed) :
    ∃ t : State, ∃ y, exec (.kill p r host) s = .next t ∧ s.readPast t p r (recSize x.len) ∧ s.recorded t p r y ∧
      y.completes (BitVec.ofNat 64 (numAt x.payload 0 8)) 7 0 ∧ t.jobs = s.jobs := by
  obtain ⟨hpast, hrec, hcomp, hjobs⟩ :=
    completes_once hf (status := 7) (detail := 0) (BitVec.ofNat 64 (numAt x.payload 0 8)) (by omega) (by omega)
  have hnone : ((s1.readRecord p r x.len).job? p r (BitVec.ofNat 64 (numAt x.payload 0 8))).filter (fun j => j.phase != .killed) = none := by
    rw [job?_of_jobs (recordRead_step hf).1.jobs, Option.filter_eq_none_iff]
    intro j h
    simp [hj j h]
  refine ⟨_, _, ?_, hpast, hrec, hcomp, hjobs⟩
  show execKill p r host s = _
  unfold execKill
  rw [hf]
  dsimp only
  rw [if_neg (not_not.2 hk), hnone]

theorem exec_skipMarker (hf : s.fetchRecord p r host = some (s1, x)) (hk : x.kind = 0xFFFF) : exec (.unknownKindRecord p r host) s =
    .next (s1.advanceRd p r (s.rsSize p r - (s.ring p r).subRd.toNat % s.rsSize p r)) := by
  have hsize : s1.rsSize p r = s.rsSize p r := by
    rw [show s1 = _ from fetchRecord_pairOnly hf]
    rfl
  show execUnknownKindRecord p r host s = _
  unfold execUnknownKindRecord
  rw [hf]
  dsimp only
  rw [if_neg (by omega), if_pos hk, hsize, (fetchRecord_step hf).2.2]

/-- The state with a pair's ERR set (R199). -/
def State.ringErr (s : State) (p : Pid) (r : BitVec 3) (w : Word) : State := s.setYreg (ringOff p r) (w ||| 0x40000000#32)

theorem exec_unknownKind (hf : s.fetchRecord p r host = some (s1, x)) (h1 : x.kind ≠ 1) (h2 : x.kind ≠ 2) (h3 : x.kind ≠ 3)
    (h4 : x.kind ≠ 0xFFFF) : exec (.unknownKindRecord p r host) s =
    .next ((s1.advanceRd p r (recSize x.len)).ringErr p r (s.yreg (ringOff p r))) := by
  have hreg : s1.yreg (ringOff p r) = s.yreg (ringOff p r) := by
    rw [show s1 = _ from fetchRecord_pairOnly hf]
    rfl
  show execUnknownKindRecord p r host s = _
  unfold execUnknownKindRecord
  rw [hf]
  dsimp only
  rw [if_neg (by omega), if_neg h4, hreg]
  rfl

/-- Passing a record by changes no job. -/
theorem advanceRd_jobs (hf : s.fetchRecord p r host = some (s1, x)) (n : Nat) : (s1.advanceRd p r n).jobs = s.jobs :=
  (advanceRd_step (E := fun _ => True) s1 p r n).1.jobs.trans (fetchRecord_step hf).1.jobs

/-- Where there is no record, nothing is read (R199). -/
theorem exec_noRecord (hf : s.fetchRecord p r host = none) (cmd : Instr)
    (h : cmd ∈ [Instr.submit p r host pkg, .kill p r host, .unload p r host, .unknownKindRecord p r host]) : exec cmd s = .next s := by
  have hsub : execSubmit p r host pkg s = .next s := by rw [execSubmit, hf]
  have hkill : execKill p r host s = .next s := by rw [execKill, hf]
  have hun : execUnload p r host s = .next s := by rw [execUnload, hf]
  have hother : execUnknownKindRecord p r host s = .next s := by rw [execUnknownKindRecord, hf]
  simp only [List.mem_cons, List.not_mem_nil, or_false] at h
  rcases h with rfl | rfl | rfl | rfl
  · exact hsub
  · exact hkill
  · exact hun
  · exact hother

theorem readPast_of_kept {n : Nat} (h : s.readPast t p r n) (hb : u.bu = t.bu) (hc : u.cores = t.cores) (hg : u.rings = t.rings) :
    s.readPast u p r n := by
  unfold State.readPast State.ringCoresKept State.ring at h ⊢
  rw [hb, hc, hg]
  exact h

/-! ### Placements dropped -/

/-- Several resident placements are dropped. -/
def State.dropAll (s : State) (l : List Resident) : State := l.foldl (fun (a : State) z => a.dropResident z) s

theorem dropAll_releases (s : State) (l : List Resident) : s.releases (s.dropAll l) := by
  refine foldl_relates (R := State.releases) (fun _ => rfl) State.releases.trans (fun s z => ?_) s
  obtain ⟨_, _, _, _, h⟩ := dropResident_eq s z
  rw [h]
  rfl

/-- What remains stood in the table before, and was not dropped. -/
theorem mem_dropAll_residents {l : List Resident} {z : Resident} (h : z ∈ (s.dropAll l).residents) : z ∈ s.residents ∧ z ∉ l := by
  have hdrop (a : State) (y : Resident) : z ∉ (a.dropResident y).residents ↔ z ∉ a.residents ∨ y = z := by
    obtain ⟨_, _, _, _, he⟩ := dropResident_eq a y
    rw [he]
    show z ∉ a.residents.filter (· != y) ↔ _
    rw [List.mem_filter]
    by_cases hy : y = z
    · simp [hy]
    · simp [hy, Ne.symm hy]
  by_contra hn
  refine absurd h (foldl_reaches (P := fun a => z ∉ State.residents a) (hit := (· = z)) (fun a y hy => (hdrop a y).2 (.inr hy))
    (fun a y hy => (hdrop a y).2 (.inl hy)) ?_)
  by_cases hz : z ∈ s.residents
  · exact .inr ⟨z, by tauto, rfl⟩
  · exact .inl hz

/-- The jobs are those of before, by their names. -/
def State.jobsNamed (s t : State) : Prop := ∃ f : Job → Job, t.jobs = s.jobs.map f ∧ ∀ j p r id, isJob p r id (f j) = isJob p r id j

theorem State.jobsNamed.trans (h1 : s.jobsNamed t) (h2 : t.jobsNamed u) : s.jobsNamed u := by
  obtain ⟨f, hf, nf⟩ := h1
  obtain ⟨g, hg, ng⟩ := h2
  exact ⟨g ∘ f, by rw [hg, hf, List.map_map], fun j p r id => (ng _ p r id).trans (nf j p r id)⟩

/-- What leaves the table with a placement is no cluster's state, and no job's name. -/
theorem removeResident_keeps (s : State) (z : Resident) : (s.removeResident z).clusters = s.clusters ∧ s.jobsNamed (s.removeResident z) := by
  have hfree : s.sectionsOnly (z.layout.foldl (fun (a : State) pl => a.freeSection pl.slot.toNat) s) :=
    foldl_relates (R := State.sectionsOnly) (fun _ => rfl) State.sectionsOnly.trans
      (fun a (pl : SectionPlace) => freeSection_sectionsOnly a pl.slot.toNat) s
  unfold State.removeResident
  rw [hfree]
  refine ⟨rfl, _, rfl, fun j p r id => ?_⟩
  split <;> rfl

/-- A placement is dropped: the job it came from awaits the scrubs, the placement leaves the table, and the scrubs are asked for (R252, R254). -/
def State.awaiting (s : State) (z : Resident) : State :=
  { s with jobs := s.jobs.map (fun j => if j.p == z.p && j.r == z.r && j.kept == z.clusters then { j with away := j.away ++ j.kept } else j) }

theorem dropResident_scrubs (s : State) (z : Resident) : s.dropResident z = ((s.awaiting z).removeResident z).askScrubs z.clusters := rfl

/-- The clusters of a placement that is dropped await their scrub, and so does every cluster that did before (R252). -/
theorem dropResident_scrubPend (s : State) (z : Resident) {cl : Nat} (h : (s.cluster cl).scrubPend = true ∨ cl ∈ z.clusters) :
    ((s.dropResident z).cluster cl).scrubPend = true := by
  have hkept : ((s.awaiting z).removeResident z).clusters = s.clusters := (removeResident_keeps _ z).1
  rw [dropResident_scrubs]
  rcases h with h | h
  · refine foldl_reaches (P := fun a => (State.cluster a cl).scrubPend = true) (hit := (· = cl)) (fun a y hy => ?_) (fun a y hy => ?_) (.inl ?_)
    · simp [State.askScrub, hy]
    · rw [State.askScrub, cluster_setCluster]
      split
      · rfl
      · exact hy
    · rw [State.cluster, hkept]
      exact h
  · exact askScrubs_scrubPend h

theorem dropAll_scrubPend {l : List Resident} {z : Resident} {cl : Nat} (hz : z ∈ l) (hcl : cl ∈ z.clusters) :
    ((s.dropAll l).cluster cl).scrubPend = true :=
  foldl_reaches (P := fun a => (State.cluster a cl).scrubPend = true) (hit := fun y => cl ∈ y.clusters)
    (fun a y hy => dropResident_scrubPend a y (.inr hy)) (fun a y hy => dropResident_scrubPend a y (.inl hy)) (.inr ⟨z, hz, hcl⟩)

theorem dropResident_jobsNamed (s : State) (z : Resident) : s.jobsNamed (s.dropResident z) := by
  have hawait : s.jobsNamed (s.awaiting z) := by
    refine ⟨_, rfl, fun j p r id => ?_⟩
    split <;> rfl
  have hscrub := askScrubs_clustersOnly ((s.awaiting z).removeResident z) z.clusters
  refine (hawait.trans (removeResident_keeps _ z).2).trans ⟨id, ?_, fun _ _ _ _ => rfl⟩
  rw [dropResident_scrubs, hscrub, List.map_id]

theorem otherDigest_jobsNamed (s : State) (p : Pid) (r : BitVec 3) (d : BitVec 384) : s.jobsNamed (s.otherDigest p r d) := by
  have hdrop : s.jobsNamed (s.dropAll ((s.residentsOf p r).filter (fun x => x.digest != d))) :=
    foldl_relates (R := State.jobsNamed) (fun s => ⟨id, (List.map_id _).symm, fun _ _ _ _ => rfl⟩) State.jobsNamed.trans
      (fun s z => dropResident_jobsNamed s z) s
  refine hdrop.trans ⟨_, rfl, fun j p r id => ?_⟩
  split <;> rfl

theorem otherDigest_releases (s : State) (p : Pid) (r : BitVec 3) (d : BitVec 384) : s.releases (s.otherDigest p r d) :=
  (dropAll_releases s _).trans rfl

/-- A ring's resident placements of other digests are dropped (R252). -/
theorem otherDigest_residents {d : BitVec 384} {z : Resident} (h : z ∈ (s.otherDigest p r d).residentsOf p r) : z.digest = d := by
  obtain ⟨hz, hring⟩ := List.mem_filter.1 h
  obtain ⟨hs, hl⟩ := mem_dropAll_residents (l := (s.residentsOf p r).filter (fun x => x.digest != d)) hz
  by_contra hd
  exact hl (List.mem_filter.2 ⟨List.mem_filter.2 ⟨hs, hring⟩, by simpa using hd⟩)

/-- The ring's jobs of other digests retain nothing (R252). -/
theorem otherDigest_noKeep {d : BitVec 384} {j : Job} (h : j ∈ (s.otherDigest p r d).jobs) (hp : j.p = p) (hr : j.r = r)
    (hd : j.pkg.digest ≠ d) : j.noKeep = true := by
  obtain ⟨i, -, hi⟩ := List.mem_map.1 h
  rw [← hi]
  split
  · rfl
  · rename_i hn
    rw [if_neg hn] at hi
    subst hi
    exact absurd (by simp [hp, hr, hd]) hn

/-! ### A job accepted -/

/-- What the state of the partition and JB_MAPGEN take from a step (R264). -/
theorem published_jobsState (s u : State) (q : Pid) : ∃ ps ys h, published s (u.jobsState q) = { u with parts := ps, yregs := ys, host := h } := by
  obtain ⟨ys', hpub, -⟩ := published_yregs s (u.jobsState q)
  rw [hpub]
  unfold State.jobsState
  split
  · exact ⟨_, _, _, rfl⟩
  · obtain ⟨ps, ys, h, heq, -⟩ := setPstate_eq u q (u.restPstate q)
    rw [heq]
    exact ⟨_, _, _, rfl⟩

/-- A job whose name no other bears is found as it has joined. -/
theorem job?_joinJob {q : SubmitRecord} {k : Package} (h : s.jobsNamed u) (hfresh : s.jobs.any (isJob p r q.jobid) = false) :
    (u.joinJob (newJob p r q k)).job? p r q.jobid = some (newJob p r q k) := by
  obtain ⟨f, hjobs, hname⟩ := h
  have hnone : u.jobs.find? (isJob p r q.jobid) = none := by
    rw [hjobs]
    refine List.find?_eq_none.2 fun y hy => ?_
    obtain ⟨j, hj, rfl⟩ := List.mem_map.1 hy
    rw [hname]
    exact List.any_eq_false.1 hfresh j hj
  show (u.jobs ++ [newJob p r q k]).find? _ = _
  rw [List.find?_append, hnone, Option.none_or]
  exact List.find?_cons_of_pos (by simp [isJob, newJob])

/-- A job that no check rejects waits to be placed, and the ring's placements and jobs of other digests give way (R243, R246, R252). -/
theorem submit_accepted (hf : s.fetchRecord p r host = some (s1, x)) (hk : x.kind = 1) (hp : s1.pkgPlaced p (readSubmit x) = true)
    (hw : addrSpace (readSubmit x).pkg = 4 → s1.hostReach (readSubmit x).pkg (readSubmit x).pkgLen true = true)
    (hl : (s1.readRecord p r x.len).loadAt (readSubmit x).pkg (readSubmit x).pkgLen pkg = some bs)
    (hd : (s1.readRecord p r x.len).pkgReject p r (readSubmit x) (readPackage bs) = none) :
    ∃ t : State, exec (.submit p r host pkg) s = .next t ∧ s.readPast t p r (recSize x.len) ∧
      t.job? p r (readSubmit x).jobid = some (newJob p r (readSubmit x) (readPackage bs)) ∧ t.jobs.length = s.jobs.length + 1 ∧
      (t.ring p r).published = (s.ring p r).published ∧ (∀ z ∈ t.residentsOf p r, z.digest = (readPackage bs).digest) ∧
      ∀ j ∈ t.jobs, j.p = p → j.r = r → j.pkg.digest ≠ (readPackage bs).digest → j.noKeep = true := by
  obtain ⟨hread, hkept, hsub⟩ := recordRead_step hf
  have hexec := exec_submit (pkg := pkg) hf hk (fun _ => hw)
  rw [takeSubmit_takes ((readRecord_pkgPlaced _ _ _ _ _).trans hp) hl hd] at hexec
  have hfresh := pkgReject_fresh hd
  have hnamed := otherDigest_jobsNamed (s1.readRecord p r x.len) p r (readPackage bs).digest
  have hpast : s.readPast (s1.readRecord p r x.len) p r (recSize x.len) := ⟨hsub, hread.ringCoresKept⟩
  have hrel := otherDigest_releases (s1.readRecord p r x.len) p r (readPackage bs).digest
  have hres := @otherDigest_residents (s1.readRecord p r x.len) p r (readPackage bs).digest
  have hnk := @otherDigest_noKeep (s1.readRecord p r x.len) p r (readPackage bs).digest
  generalize (s1.readRecord p r x.len).otherDigest p r (readPackage bs).digest = u at *
  generalize s1.readRecord p r x.len = s2 at *
  obtain ⟨ps, ys, h, hpub⟩ := published_jobsState s (u.joinJob (newJob p r (readSubmit x) (readPackage bs))) p
  rw [hpub] at hexec
  have hbu : u.bu = s2.bu := by rw [hrel]
  have hcores : u.cores = s2.cores := by rw [hrel]
  have hring : u.rings = s2.rings := by rw [hrel]
  refine ⟨_, hexec, readPast_of_kept hpast hbu hcores hring, ?_, ?_, ?_, fun z hz => hres hz, fun j hj h1 h2 h3 => ?_⟩
  · exact job?_joinJob hnamed hfresh
  · show (u.jobs ++ [_]).length = _
    obtain ⟨f, hjobs, -⟩ := hnamed
    rw [List.length_append, hjobs, List.length_map, hread.jobs]
    rfl
  · refine Eq.trans ?_ (hkept.published p r)
    exact congrArg (fun m => (SMap.get Ring.reset m (ringKey p r)).published) hring
  · rcases List.mem_append.1 hj with hj | hj
    · exact hnk hj h1 h2 h3
    · rw [List.mem_singleton.1 hj] at h3
      exact absurd rfl h3

end

end Sys2Proof.Machine
end


section
/-! SUPPORT. Ring pairs enabled and disabled: their registers, index blocks and what publication leaves of them (R244, R245, R256, R264). -/

namespace Sys2Proof.Machine

/-! ### What publication leaves -/

/-- A register of the yard that no publication counts in: a ring pair's up to its counters, or a page of the inbox (R264, R292). -/
def setupReg (off : Nat) : Prop := 0x4000 ≤ off % 0x10000 ∧ (off % 0x10000 < 0x6000 ∨ off % 64 < 0x28)

/-- Placements, the registers a pair is set up with, and the writer's index of its submission ring are as before. -/
structure State.SetupKept (s t : State) (p : Pid) (r : BitVec 3) : Prop where
  residents : t.residents = s.residents
  subWr : (t.ring p r).subWr = (s.ring p r).subWr
  yregs : ∀ off, setupReg off → t.yreg off = s.yreg off

section
variable {s t u w : State} {p : Pid} {r : BitVec 3}

theorem State.SetupKept.refl (s : State) : s.SetupKept s p r := ⟨rfl, rfl, fun _ _ => rfl⟩

theorem State.SetupKept.trans (h1 : s.SetupKept t p r) (h2 : t.SetupKept u p r) : s.SetupKept u p r :=
  ⟨h2.residents.trans h1.residents, h2.subWr.trans h1.subWr, fun off h => (h2.yregs off h).trans (h1.yregs off h)⟩

theorem State.pairOnly.setupKept (h : s.pairOnly t) (hg : (t.ring p r).subWr = (s.ring p r).subWr) : s.SetupKept t p r :=
  ⟨by rw [h], hg, fun _ _ => by rw [h]; rfl⟩

theorem setRing_setupKept {g : Ring} (h : g.subWr = (s.ring p r).subWr) : s.SetupKept (s.setRing p r g) p r :=
  ⟨rfl, by rw [ring_setRing_self, h], fun _ _ => rfl⟩

theorem ycount_setupKept (s : State) {lo : Nat} (n : Nat) (h0 : ¬ setupReg lo) (h4 : ¬ setupReg (lo + 4)) : s.SetupKept (s.ycount lo n) p r :=
  ⟨rfl, rfl, fun _ h => get_bump_other _ _ _ _ _ (fun e => h0 (e ▸ h)) (fun e => h4 (e ▸ h))⟩

theorem notify_setupKept (s : State) (fn vec : Nat) : s.SetupKept (s.notify fn vec) p r := by
  obtain ⟨pend, out, h, -⟩ := notify_eq s fn vec
  rw [h]
  exact ⟨rfl, rfl, fun _ _ => rfl⟩

theorem idxStore_setupKept (s : State) (p : Pid) (r : BitVec 3) (k : Nat) (v : DWord) : s.SetupKept (s.idxStore p r k v) p r :=
  (idxStore_pairOnly s p r k v).setupKept (by rw [(idxStore_ringsStill s p r k v).ring])

theorem storeAt_setupKept (s : State) (a : DWord) (bs : List Byte) : s.SetupKept (s.storeAt a bs) p r := by
  have hcount (s : State) (i : Nat) {k : Nat} (h : k < 0x100) : s.SetupKept (s.ycount (yOM + 0x10000 * i + k) 1) p r :=
    ycount_setupKept s 1 (by simp only [setupReg, yOM]; omega) (by simp only [setupReg, yOM]; omega)
  unfold State.storeAt
  split
  · refine foldl_relates (R := fun s t => State.SetupKept s t p r) .refl State.SetupKept.trans (fun s i => ?_) s
    dsimp only
    split
    · exact (hcount s _ (by decide)).trans ⟨rfl, rfl, fun _ _ => rfl⟩
    · exact State.SetupKept.trans (t := s.writeOm _ _) ⟨rfl, rfl, fun _ _ => rfl⟩ (hcount _ _ (by decide))
  · exact ⟨rfl, rfl, fun _ _ => rfl⟩

theorem publishAt_setupKept (s : State) (p : Pid) (r : BitVec 3) (bs : List Byte) (n : Nat) : s.SetupKept (s.publishAt p r bs n) p r := by
  unfold State.publishAt
  extract_lets g s1 w s2
  have h1 : s.SetupKept s1 p r := storeAt_setupKept s _ _
  have hg : g = s1.ring p r := ((storeAt_ringsStill s _ _).ring p r).symm
  have h2 : s.SetupKept s2 p r := (h1.trans (setRing_setupKept (by rw [← hg]))).trans (idxStore_setupKept _ _ _ _ _)
  split
  · exact h2
  · exact h2.trans (notify_setupKept _ _ _)

theorem publishOne_setupKept (s : State) (p : Pid) (r : BitVec 3) (x : RingRecord) : s.SetupKept (s.publishOne p r x) p r := by
  have hat : s.SetupKept (s.publishAt p r x.bytes x.bytes.length) p r := publishAt_setupKept s p r _ _
  have hr := r.isLt
  unfold State.publishOne
  generalize s.publishAt p r x.bytes x.bytes.length = s1 at hat
  have h2 : s.SetupKept (s1.setRing p r { s1.ring p r with published := (s1.ring p r).published ++ [x] }) p r :=
    hat.trans (setRing_setupKept rfl)
  dsimp only
  split
  · refine h2.trans ((ycount_setupKept _ _ ?_ ?_).trans (ycount_setupKept _ _ ?_ ?_)) <;> simp only [setupReg, ringOff, yJB] <;> omega
  · exact h2

/-- What waiting, publishing a record and publishing a skip marker each keep, the publication of several records keeps. -/
theorem publishList_relates {R : State → State → Prop} (htrans : ∀ {s t u}, R s t → R t u → R s u)
    (hwait : ∀ (s : State) l, R s (s.setRing p r { s.ring p r with waiting := l })) (hone : ∀ (s : State) x, R s (s.publishOne p r x))
    (hskip : ∀ s : State, R s (s.publishSkip p r)) (l : List RingRecord) (s : State) : R s (publishList p r l s) := by
  induction l generalizing s with
  | nil => exact hwait s []
  | cons y l ih =>
    unfold publishList
    dsimp only
    split
    · exact hwait s _
    · split
      · exact hwait s _
      · split
        · exact htrans (hone s y) (ih _)
        · exact hwait s _
      · split
        · exact hwait s _
        · split
          · split
            · exact htrans (htrans (hskip s) (hone _ y)) (ih _)
            · exact htrans (hskip s) (hwait _ _)
          · exact htrans (hskip s) (hwait _ _)

theorem publishList_setupKept (l : List RingRecord) (s : State) : s.SetupKept (publishList p r l s) p r :=
  publishList_relates (R := fun s t => State.SetupKept s t p r) State.SetupKept.trans (fun _ _ => setRing_setupKept rfl)
    (fun s x => publishOne_setupKept s p r x) (fun s => publishAt_setupKept s p r _ _) l s

theorem pushRecord_setupKept (s : State) (p : Pid) (r : BitVec 3) (x : RingRecord) : s.SetupKept (s.pushRecord p r x) p r := by
  have hload : s.SetupKept (s.loadRdidx p r) p r := by
    have h : s.SetupKept (s.idxLoad p r 3).1 p r := (idxLoad_pairOnly s p r 3).setupKept (by rw [(idxLoad_ringsStill s p r 3).ring])
    unfold State.loadRdidx
    split
    · rename_i s1 v heq
      rw [heq] at h
      dsimp only at h ⊢
      split
      · exact h.trans (setRing_setupKept rfl)
      · exact h
    · rename_i s1 heq
      rwa [heq] at h
  exact hload.trans (publishList_setupKept _ _)

/-! ### UNLOAD -/

section
variable {s1 : State} {x : RawRecord} {host : List Byte}

theorem exec_unload (hf : s.fetchRecord p r host = some (s1, x)) (hk : x.kind = 3) : exec (.unload p r host) s =
    .next (published s (((s1.readRecord p r x.len).dropAll (s.residentsOf p r)).pushRecord p r
      (bareCompletion (BitVec.ofNat 64 (numAt x.payload 0 8)) (if (s.residentsOf p r).isEmpty then 7 else 0) 0))) := by
  have hres : (s1.readRecord p r x.len).residentsOf p r = s.residentsOf p r := by
    have h := (fetchRecord_pairOnly hf).trans (advanceRd_pairOnly s1 p r (recSize x.len))
    rw [State.readRecord, h]
    rfl
  show execUnload p r host s = _
  unfold execUnload
  rw [hf]
  dsimp only
  rw [if_neg (not_not.2 hk), hres]
  rfl

/-- An UNLOAD of a ring without resident placements ends in status 7 (R246, R263). -/
theorem unload_nothing (hf : s.fetchRecord p r host = some (s1, x)) (hk : x.kind = 3) (hnil : s.residentsOf p r = []) :
    ∃ t : State, ∃ y, exec (.unload p r host) s = .next t ∧ s.readPast t p r (recSize x.len) ∧ s.recorded t p r y ∧
      y.completes (BitVec.ofNat 64 (numAt x.payload 0 8)) 7 0 ∧ t.jobs = s.jobs := by
  obtain ⟨hpast, hrec, hcomp, hjobs⟩ :=
    completes_once hf (status := 7) (detail := 0) (BitVec.ofNat 64 (numAt x.payload 0 8)) (by omega) (by omega)
  have hexec := exec_unload hf hk
  rw [hnil] at hexec
  refine ⟨_, _, hexec, readPast_published hpast s, recorded_after hrec (published_ring _ _ _ _), hcomp, ?_⟩
  exact (published_published (p := p) (r := r) (E := fun _ => True) s _).jobs.trans hjobs

/-- An UNLOAD drops the ring's resident placements, whose clusters await their scrub, and ends in its record (R246, R252). -/
theorem unload_drops (hf : s.fetchRecord p r host = some (s1, x)) (hk : x.kind = 3) (hne : s.residentsOf p r ≠ []) :
    ∃ t : State, ∃ y, exec (.unload p r host) s = .next t ∧ s.readPast t p r (recSize x.len) ∧ s.recorded t p r y ∧
      y.completes (BitVec.ofNat 64 (numAt x.payload 0 8)) 0 0 ∧ t.residentsOf p r = [] ∧
      ∀ z ∈ s.residentsOf p r, ∀ cl ∈ z.clusters, (t.cluster cl).scrubPend = true := by
  have hexec := exec_unload hf hk
  rw [if_neg (by simpa using hne)] at hexec
  have hrel := dropAll_releases (s1.readRecord p r x.len) (s.residentsOf p r)
  have hres := @mem_dropAll_residents (s1.readRecord p r x.len) (s.residentsOf p r)
  have hscrub := @dropAll_scrubPend (s1.readRecord p r x.len) (s.residentsOf p r)
  have hold : (s1.readRecord p r x.len).residents = s.residents := by
    rw [State.readRecord, (fetchRecord_pairOnly hf).trans (advanceRd_pairOnly s1 p r (recSize x.len))]
  have hpast := fun y hb hc hg => readPast_recorded (u := (s1.readRecord p r x.len).dropAll (s.residentsOf p r)) hf y hb hc hg
  generalize (s1.readRecord p r x.len).dropAll (s.residentsOf p r) = u at *
  have hkept := pushRecord_setupKept u p r (bareCompletion (BitVec.ofNat 64 (numAt x.payload 0 8)) 0 0)
  have hbooks := (pushRecord_grows u p r (bareCompletion (BitVec.ofNat 64 (numAt x.payload 0 8)) 0 0) p r).clusters
  obtain ⟨hread, hrec⟩ := hpast (bareCompletion (BitVec.ofNat 64 (numAt x.payload 0 8)) 0 0) (by rw [hrel]) (by rw [hrel]) (by rw [hrel])
  generalize u.pushRecord p r (bareCompletion (BitVec.ofNat 64 (numAt x.payload 0 8)) 0 0) = v at *
  obtain ⟨ys, hpub, -⟩ := published_yregs s v
  refine ⟨_, _, hexec, readPast_published hread s, recorded_after hrec (published_ring s v p r), ⟨rfl, rfl, rfl⟩, ?_, fun z hz cl hcl => ?_⟩
  · rw [hpub]
    refine List.filter_eq_nil_iff.2 fun z hz hring => ?_
    obtain ⟨h1, h2⟩ := hres (hkept.residents ▸ hz)
    exact h2 (List.mem_filter.2 ⟨hold ▸ h1, hring⟩)
  · rw [hpub]
    refine Eq.trans ?_ (hscrub hz hcl)
    exact congrArg (fun m => (SMap.get Cluster.reset m cl).scrubPend) hbooks

end

/-! ### Registers of a pair -/

/-- The word that maps a page of the inbox to a helper core, ORD and owned by a partition's VF (R292, R293). -/
def pageWord (p : Pid) (h : CoreId) : Word :=
  0xC0000000#32 ||| place 32 25 5 (p.toNat + 1) ||| place 32 10 10 h.y.toNat ||| place 32 0 10 h.x.toNat

theorem getLsbD_place (lo n x : Nat) {i : Nat} (hi : i < 32) :
    (place 32 lo n x).getLsbD i = (decide (lo ≤ i ∧ i < lo + n) && x.testBit (i - lo)) := by
  rw [place, BitVec.getLsbD_shiftLeft, BitVec.getLsbD_ofNat, Nat.testBit_mod_two_pow]
  by_cases h : lo ≤ i
  · simp [hi, h, Nat.not_lt.2 h, show i - lo < 32 by omega, show i - lo < n ↔ i < lo + n by omega]
  · simp [h, Nat.lt_of_not_le h]

theorem pageWord_fields (p : Pid) (h : CoreId) :
    (pageWord p h).getLsbD 31 = true ∧ (pageWord p h).getLsbD 30 = true ∧ field (pageWord p h) 25 5 = p.toNat + 1 := by
  have hp := p.isLt
  refine ⟨?_, ?_, ?_⟩
  · simp [pageWord]
  · simp [pageWord]
  · have hbits : (pageWord p h).extractLsb' 25 5 = BitVec.ofNat 5 (p.toNat + 1) := by
      refine BitVec.eq_of_getLsbD_eq fun i hi => ?_
      have htop : ∀ i < 5, (0xC0000000#32).getLsbD (25 + i) = false := by decide
      simp [pageWord, hi, htop i hi, getLsbD_place _ _ _ (show 25 + i < 32 by omega), show 25 + i < 30 by omega, show ¬ 25 + i < 20 by omega,
        show ¬ 25 + i < 10 by omega]
      rw [BitVec.getElem_eq_testBit_toNat, BitVec.toNat_ofNat, Nat.testBit_mod_two_pow]
      simp [hi]
    rw [field, hbits, BitVec.toNat_ofNat]
    omega

/-- Mapping the page of a partition's index blocks writes no other register. -/
theorem mapRingPage_eq (s : State) (p : Pid) : ∃ ys, s.mapRingPage p = { s with yregs := ys } ∧
    ∀ off, off ≠ ringPage p → ys.get (yardReset off) off = s.yreg off := by
  unfold State.mapRingPage
  dsimp only
  split
  · exact ⟨s.yregs, rfl, fun _ _ => rfl⟩
  · split
    · exact ⟨s.yregs, rfl, fun _ _ => rfl⟩
    · exact ⟨_, rfl, fun off h => SMap.get_set_other _ _ _ _ _ h⟩

/-- With a helper core the page is mapped, ORD and owned by the partition's VF (R292, R293). -/
theorem mapRingPage_maps (h : s.helperCore p ≠ none) : ((s.mapRingPage p).yreg (ringPage p)).getLsbD 31 = true ∧
    ((s.mapRingPage p).yreg (ringPage p)).getLsbD 30 = true ∧ field ((s.mapRingPage p).yreg (ringPage p)) 25 5 = p.toNat + 1 := by
  unfold State.mapRingPage
  dsimp only
  split
  · rename_i hmapped
    simpa [and_assoc] using hmapped
  · split
    · rename_i hnone
      exact absurd hnone h
    · rename_i c _
      rw [yreg_setYreg, if_pos rfl]
      exact pageWord_fields p c

/-- The state with a pair's EN set. -/
def State.pairOn (s : State) (p : Pid) (r : BitVec 3) : State := s.setYreg (ringOff p r) (setField (s.yreg (ringOff p r)) 31 1 1)

/-- The word of JB_RIDX of a pair (R244). -/
def State.ridxWord (s : State) (p : Pid) (r : BitVec 3) : Word :=
  if s.devicePair p r then 0 else BitVec.ofNat 32 (0x10000 * p.toNat + 0x100 * r.toNat)

/-- The state with the registers of a pair that is enabled (R244, R245). -/
def State.pairSet (s : State) (p : Pid) (r : BitVec 3) : State :=
  (if s.devicePair p r then s.pairOn p r else (s.pairOn p r).mapRingPage p).setYreg (ringOff p r + 0x1C) (s.ridxWord p r)

/-- The state in which the index block of such a pair has its place, its words zero, and its WRIDX is watched (R197, R244). -/
def State.pairWatched (s : State) (p : Pid) (r : BitVec 3) : State :=
  (((s.pairSet p r).setRing p r { (s.pairSet p r).ring p r with idx := (s.pairSet p r).idxPlace p r }).zeroRing p r).watchRing p r

theorem ringEnable_enables (hv : s.pvalid p = true) (hen : s.ringEn p r = false) (hok : s.ringRegionsOk p r = true) :
    ringEnable p r s = (publishList p r ((s.pairWatched p r).ring p r).waiting (s.pairWatched p r)).answer none := by
  unfold ringEnable
  extract_lets off s1 s2 s3 s4 s5
  rw [if_neg (by simp [hv, hen, hok])]
  rfl

theorem ringPage_ne (p q : Pid) (r : BitVec 3) {k : Nat} (h : k < 0x40) : ringOff p r + k ≠ ringPage q := by
  have := r.isLt
  have := p.isLt
  simp only [ringOff, ringPage, yJB, yHP]
  omega

theorem setupReg_ringOff (p : Pid) (r : BitVec 3) {k : Nat} (h : k < 0x28) : setupReg (ringOff p r + k) := by
  have := r.isLt
  have := p.isLt
  simp only [setupReg, ringOff, yJB]
  omega

theorem setupReg_ringPage (p : Pid) : setupReg (ringPage p) := by
  have := p.isLt
  simp only [setupReg, ringPage, yHP]
  omega

/-- Only registers are written. -/
theorem pairSet_yregs (s : State) (p : Pid) (r : BitVec 3) : ∃ ys, s.pairSet p r = { s with yregs := ys } ∧
    ∀ off, off ≠ ringOff p r → off ≠ ringOff p r + 0x1C → off ≠ ringPage p → ys.get (yardReset off) off = s.yreg off := by
  have hset (a : State) (off : Nat) (h : off ≠ ringOff p r + 0x1C) : (a.setYreg (ringOff p r + 0x1C) (s.ridxWord p r)).yreg off = a.yreg off := by
    rw [yreg_setYreg, if_neg h]
  have hon (off : Nat) (h : off ≠ ringOff p r) : (s.pairOn p r).yreg off = s.yreg off := by rw [State.pairOn, yreg_setYreg, if_neg h]
  unfold State.pairSet
  split
  · exact ⟨_, rfl, fun off h1 h2 _ => (hset _ off h2).trans (hon off h1)⟩
  · obtain ⟨ys, hmap, hys⟩ := mapRingPage_eq (s.pairOn p r) p
    rw [hmap]
    exact ⟨_, rfl, fun off h1 h2 h3 => (hset { s.pairOn p r with yregs := ys } off h2).trans ((hys off h3).trans (hon off h1))⟩

theorem pairSet_en (s : State) (p : Pid) (r : BitVec 3) :
    (s.pairSet p r).yreg (ringOff p r) = setField (s.yreg (ringOff p r)) 31 1 1 := by
  have hon : (s.pairOn p r).yreg (ringOff p r) = setField (s.yreg (ringOff p r)) 31 1 1 := by rw [State.pairOn, yreg_setYreg, if_pos rfl]
  rw [State.pairSet, yreg_setYreg, if_neg (by omega)]
  split
  · exact hon
  · obtain ⟨ys, hmap, hys⟩ := mapRingPage_eq (s.pairOn p r) p
    rw [hmap]
    exact (hys _ (ringPage_ne p p r (k := 0) (by decide))).trans hon

theorem pairSet_ridx (s : State) (p : Pid) (r : BitVec 3) : (s.pairSet p r).yreg (ringOff p r + 0x1C) = s.ridxWord p r := by
  rw [State.pairSet, yreg_setYreg, if_pos rfl]

theorem pairSet_devicePair (s : State) (p : Pid) (r : BitVec 3) : (s.pairSet p r).devicePair p r = s.devicePair p r := by
  obtain ⟨ys, hset, hys⟩ := pairSet_yregs s p r
  have h4 := hys (ringOff p r + 4) (by omega) (by omega) (ringPage_ne p p r (by decide))
  have h8 := hys (ringOff p r + 8) (by omega) (by omega) (ringPage_ne p p r (by decide))
  rw [hset]
  show (addrSpace (pair64 (ys.get _ _) (ys.get _ _)) == 2) = _
  rw [h4, h8]
  rfl

theorem helperCore_of (h : t.yreg (yJB + 0x10) = s.yreg (yJB + 0x10)) (hc : ∀ cl, t.usableCores cl = s.usableCores cl) (q : Pid) :
    t.helperCore q = s.helperCore q := by
  rw [State.helperCore, State.helperCore, h, hc]

theorem pairSet_helperCore (s : State) (p q : Pid) (r : BitVec 3) : (s.pairSet p r).helperCore q = s.helperCore q := by
  obtain ⟨ys, hset, hys⟩ := pairSet_yregs s p r
  have h := hys (yJB + 0x10) (by simp only [ringOff, yJB]; omega) (by simp only [ringOff, yJB]; omega)
    (by simp only [ringPage, yJB, yHP]; omega)
  rw [hset]
  exact helperCore_of (s := s) (t := { s with yregs := ys }) h (fun _ => rfl) q

/-- The pair in space 4 has its index block on its partition's page, where there is a helper core (R244, R292, R293). -/
theorem pairSet_page (hd : s.devicePair p r = false) (hh : s.helperCore p ≠ none) :
    ((s.pairSet p r).yreg (ringPage p)).getLsbD 31 = true ∧ ((s.pairSet p r).yreg (ringPage p)).getLsbD 30 = true ∧
      field ((s.pairSet p r).yreg (ringPage p)) 25 5 = p.toNat + 1 ∧ (s.pairSet p r).idxPlace p r =
        some (pageCore ((s.pairSet p r).yreg (ringPage p)), pageOff ((s.pairSet p r).yreg (ringPage p)) (0x100 * r.toNat)) := by
  have hpage : (s.pairSet p r).yreg (ringPage p) = ((s.pairOn p r).mapRingPage p).yreg (ringPage p) := by
    rw [State.pairSet, if_neg (by simp [hd]), yreg_setYreg, if_neg (ringPage_ne p p r (by decide)).symm]
  have hhelp : (s.pairOn p r).helperCore p = s.helperCore p :=
    helperCore_of (s := s) (t := s.pairOn p r) (by rw [State.pairOn, yreg_setYreg, if_neg (by simp only [ringOff, yJB]; omega)]) (fun _ => rfl) p
  obtain ⟨h31, h30, hvf⟩ := mapRingPage_maps (s := s.pairOn p r) (hhelp ▸ hh)
  rw [← hpage] at h31 h30 hvf
  refine ⟨h31, h30, hvf, ?_⟩
  rw [State.idxPlace, pairSet_devicePair, if_neg (by simp [hd])]
  exact if_pos h31

/-! ### A pair is enabled -/

/-- The pair's index words are zero and its index block has its place; what waits goes on waiting (R197, R255). -/
theorem pairWatched_ring (s : State) (p : Pid) (r : BitVec 3) : (s.pairWatched p r).ring p r =
    { s.ring p r with idx := (s.pairSet p r).idxPlace p r, subWr := 0, subRd := 0, compWr := 0, compRd := 0 } := by
  obtain ⟨ys, hset, -⟩ := pairSet_yregs s p r
  have hring : (s.pairSet p r).ring p r = s.ring p r := by rw [hset]; rfl
  rw [State.pairWatched, (watchRing_ringStep _ p r).2.ring, (zeroRing_ringsStill _ p r).ring, ring_setRing_self, ring_setRing_self, hring]

/-- A step on a pair of a state with the same cores. -/
theorem State.RingStep.ringCoresKept_from (h : t.RingStep u p r (s.offHelper p)) (hb : t.bu = s.bu) (hc : t.cores = s.cores) :
    s.ringCoresKept u p r := by
  have hblank : t.blankCore = s.blankCore := by rw [State.blankCore, State.blankCore, hb]
  refine ⟨h.phase.trans (by rw [hb]), fun n hn hh => ?_⟩
  have hn' := h.cores n (h.idx ▸ hn) hh
  rwa [hblank, hc] at hn'

/-- The state in which the index block of a pair that is enabled has its place. -/
def State.pairPlaced (s : State) (p : Pid) (r : BitVec 3) : State :=
  (s.pairSet p r).setRing p r { (s.pairSet p r).ring p r with idx := (s.pairSet p r).idxPlace p r }

theorem zeroRing_pairOnly (s : State) (p : Pid) (r : BitVec 3) : s.pairOnly (s.zeroRing p r) :=
  (setRing_pairOnly s p r _).trans (foldl_relates (R := State.pairOnly) .refl State.pairOnly.trans
    (fun a k => idxStore_pairOnly a p r k 0) _)

theorem zeroRing_ringStep (s : State) (p : Pid) (r : BitVec 3) {E : Nat → Prop} : s.RingStep (s.zeroRing p r) p r E :=
  State.RingStep.trans (t := s.setRing p r { s.ring p r with subWr := 0, subRd := 0, compWr := 0, compRd := 0 }) (setRing_ringStep rfl)
    (foldl_relates (R := fun a b => State.RingStep a b p r E) .refl State.RingStep.trans (fun a k => idxStore_ringStep a p r k 0) _)

/-- Zeroing index words and watching one touches cores alone. -/
theorem pairWatched_pairOnly (s : State) (p : Pid) (r : BitVec 3) : (s.pairSet p r).pairOnly (s.pairWatched p r) :=
  ((setRing_pairOnly _ _ _ _).trans (zeroRing_pairOnly _ _ _)).trans (watchRing_pairOnly _ _ _)

/-- Of the cores it touches those alone that serve the pair. -/
theorem pairWatched_step (s : State) (p : Pid) (r : BitVec 3) : (s.pairPlaced p r).RingStep (s.pairWatched p r) p r (s.offHelper p) := by
  have hhelp : ((s.pairPlaced p r).zeroRing p r).helperCore p = s.helperCore p := by
    rw [show (s.pairPlaced p r).zeroRing p r = _ from (setRing_pairOnly (s.pairSet p r) p r _).trans (zeroRing_pairOnly _ p r)]
    exact pairSet_helperCore s p p r
  have hoff : ((s.pairPlaced p r).zeroRing p r).offHelper p = s.offHelper p := by
    funext n
    rw [State.offHelper, hhelp, State.offHelper]
  have hwatch := (watchRing_ringStep ((s.pairPlaced p r).zeroRing p r) p r).1
  rw [hoff] at hwatch
  exact (zeroRing_ringStep _ p r).trans hwatch

theorem pairPlaced_cores (s : State) (p : Pid) (r : BitVec 3) : (s.pairPlaced p r).bu = s.bu ∧ (s.pairPlaced p r).cores = s.cores := by
  obtain ⟨ys, hset, -⟩ := pairSet_yregs s p r
  rw [State.pairPlaced, hset]
  exact ⟨rfl, rfl⟩

/-- A write to ring registers by the physical function, while the TDI is not locked. -/
theorem ringWrite_pf (hpf : s.pfServes) (ht : s.tdiLocked p = false) (off : Nat) (changes : Bool) (f : State → State) :
    ringWrite .pf p off changes s f = f s := by
  rw [ringWrite, if_neg (not_not.2 hpf.2.1), yardWrite_pf hpf]
  exact fixedWrite_open ht .pf changes f

/-- What an enabled pair is (R244, R245, R256). -/
theorem ringEnable_pair (hv : s.pvalid p = true) (hen : s.ringEn p r = false) (hok : s.ringRegionsOk p r = true) :
    s.ringCoresKept (ringEnable p r s) p r ∧ (∀ off, setupReg off → (ringEnable p r s).yreg off = (s.pairSet p r).yreg off) ∧
      ((ringEnable p r s).ring p r).subWr = 0 ∧ ((ringEnable p r s).ring p r).subRd = 0 ∧ ((ringEnable p r s).ring p r).compRd = 0 ∧
      ((s.ring p r).waiting = [] → ((ringEnable p r s).ring p r).compWr = 0) ∧ (ringEnable p r s).carried p r = s.carried p r ∧
      ((ringEnable p r s).ring p r).idx = (s.pairSet p r).idxPlace p r ∧ (ringEnable p r s).resp = .done := by
  have hring := pairWatched_ring s p r
  have honly := pairWatched_pairOnly s p r
  have hstep := pairWatched_step s p r
  obtain ⟨hbu, hcores⟩ := pairPlaced_cores s p r
  rw [ringEnable_enables hv hen hok]
  generalize s.pairWatched p r = w at *
  have hpub := publishList_published (E := s.offHelper p) p r (w.ring p r).waiting w
  have hcar := (publishList_publishes p r (w.ring p r).waiting w).carried p r
  have hkept := publishList_setupKept (p := p) (r := r) (w.ring p r).waiting w
  refine ⟨(hstep.trans hpub.toRingStep).ringCoresKept_from hbu hcores, fun off hoff => (hkept.yregs off hoff).trans ?_, ?_, ?_, ?_, fun hw => ?_,
    hcar.trans ?_, ?_, rfl⟩
  · rw [honly]
    rfl
  · exact hkept.subWr.trans (by rw [hring])
  · exact hpub.subRd.trans (by rw [hring])
  · exact hpub.compRd.trans (by rw [hring])
  · rw [hring]
    dsimp only
    rw [hw]
    show ((w.setRing p r _).ring p r).compWr = 0
    rw [ring_setRing_self, hring]
  · rw [if_pos ⟨rfl, rfl⟩, hring]
    rfl
  · exact hpub.idx.trans (by rw [hring])

/-! ### A pair is disabled, and its ERR cleared -/

theorem yreg_answer (s : State) (e : Option Nat) (off : Nat) : (s.answer e).yreg off = s.yreg off := rfl

theorem ringDisable_refused {j : Job} (h : j ∈ s.jobs) (hp : j.p = p) (hr : j.r = r) (hph : j.phase ≠ .finished) :
    ringDisable p r s = s.answer (some 0x09) :=
  if_pos (List.any_eq_true.2 ⟨j, h, by simp [hp, hr, hph]⟩)

theorem ringDisable_disables (h : ∀ j ∈ s.jobs, j.p = p → j.r = r → j.phase = .finished) :
    ringDisable p r s = (s.setYreg (ringOff p r) (setField (s.yreg (ringOff p r)) 31 1 0)).answer none := by
  refine if_neg fun hany => ?_
  obtain ⟨j, hj, hj'⟩ := List.any_eq_true.1 hany
  simp only [Bool.and_eq_true, beq_iff_eq, bne_iff_ne, and_assoc] at hj'
  exact hj'.2.2 (h j hj hj'.1 hj'.2.1)

theorem ringDisable_ringEn (h : ∀ j ∈ s.jobs, j.p = p → j.r = r → j.phase = .finished) : (ringDisable p r s).ringEn p r = false := by
  rw [ringDisable_disables h, State.ringEn, yreg_answer, yreg_setYreg, if_pos rfl]
  exact setClosed_bit false _

theorem ringErrClear_bits (s : State) (p : Pid) (r : BitVec 3) :
    ((ringErrClear p r s).yreg (ringOff p r)).getLsbD 30 = false ∧ (ringErrClear p r s).ringEn p r = s.ringEn p r := by
  rw [State.ringEn, ringErrClear, yreg_answer, yreg_setYreg, if_pos rfl]
  constructor
  · rw [getLsbD_setField _ _ _ _ (by decide), if_pos (by decide)]
    rfl
  · rw [getLsbD_setField _ _ _ _ (by decide), if_neg (by decide)]
    rfl

/-- EN set leaves the rest of the register. -/
theorem extractLsb'_setField_en (w : Word) : (setField w 31 1 1).extractLsb' 0 31 = w.extractLsb' 0 31 := by
  refine BitVec.eq_of_getLsbD_eq fun i hi => ?_
  rw [BitVec.getLsbD_extractLsb', BitVec.getLsbD_extractLsb', getLsbD_setField _ _ _ _ (by omega), if_neg (by omega)]

end

/-! ### The obligation -/

/-- Settles O36: a record read is the state in which its index has been passed, from which each kind of record takes its own step; a pair that is
enabled is its registers set, its block placed and zeroed, and what waits published. -/
theorem jobRecordsRead : Obligations.JobRecordsRead := by
  unfold Obligations.JobRecordsRead
  refine ⟨?_, fun s p r host bytes hf cmd hcmd => exec_noRecord hf cmd hcmd, ?_⟩
  · intro s s1 p r host bytes bs x d g q id k s2 ends stores hf
    have hplaced : s2.pkgPlaced p q = s1.pkgPlaced p q := readRecord_pkgPlaced s1 p r x.len q
    have hstores (n : Nat) : stores (s1.advanceRd p r n) := fun c off hi hup hw => advanceRd_stores hf n hi hup hw
    refine ⟨fun hk hp => ?_, fun _ hp ha hr => exec_submit_waits hf hp ha hr, fun hk hp hw => ⟨fun hl => ?_, fun hl hd => ?_, fun hl hd => ?_⟩,
      fun h1 h2 h3 h4 => ?_, fun hk => ?_, fun hk hj => kill_nothing hf hk hj, fun hk hnil => unload_nothing hf hk hnil,
      fun hk hne => unload_drops hf hk hne⟩
    · exact submit_fails hf hk (fun h => absurd (hp.symm.trans h) (by decide)) (by decide) (takeSubmit_unplaced (hplaced.trans hp))
    · exact submit_fails hf hk (fun _ => hw) (by decide) (takeSubmit_unread (hplaced.trans hp) hl)
    · exact submit_fails hf hk (fun _ => hw) (pkgReject_le hd) (takeSubmit_rejects (hplaced.trans hp) hl hd)
    · obtain ⟨t, hexec, hpast, hjob, hlen, hpub, hres, hkeep⟩ := submit_accepted hf hk hp hw hl hd
      exact ⟨t, newJob p r q k, hexec, hpast, hjob, rfl, rfl, rfl, rfl, hlen, hpub, hres, hkeep⟩
    · refine ⟨_, exec_unknownKind hf h1 h2 h3 h4, advanceRd_readPast hf (recSize x.len), hstores (recSize x.len), ?_, advanceRd_jobs hf _⟩
      rw [State.ringErr, yreg_setYreg, if_pos rfl]
      rfl
    · refine ⟨_, exec_skipMarker hf hk, advanceRd_readPast hf _, hstores _, ?_, advanceRd_jobs hf _⟩
      rw [(fetchRecord_pairOnly hf).trans (advanceRd_pairOnly s1 p r _)]
  · intro s p r off w hpf
    refine ⟨fun ht => ⟨fun hv hen hok => ?_, fun hok => ?_, fun h => ?_, fun j hj hp hr hph => ?_, ?_⟩, fun ht hen => ?_⟩
    · obtain ⟨hcores, hyregs, hsubWr, hsubRd, hcompRd, hcompWr, hcar, hidx, hresp⟩ := ringEnable_pair hv hen hok
      have hreg : (ringEnable p r s).yreg off = setField w 31 1 1 := (hyregs off (setupReg_ringOff p r (k := 0) (by decide))).trans (pairSet_en s p r)
      have hridx : (ringEnable p r s).yreg (off + 0x1C) = s.ridxWord p r :=
        (hyregs _ (setupReg_ringOff p r (by decide))).trans (pairSet_ridx s p r)
      have hpage := hyregs _ (setupReg_ringPage p)
      refine ⟨_, congrArg Host.Outcome.next (ringWrite_pf hpf ht _ _ _), hresp, ?_, ?_, hsubWr, hsubRd, hcompRd, hcompWr, hcar, fun hd => ?_,
        fun hd => ⟨?_, fun hh => ?_⟩, hcores⟩
      · rw [State.ringEn, show (ringEnable p r s).yreg (ringOff p r) = _ from hreg]
        exact setClosed_bit true _
      · rw [hreg]
        exact extractLsb'_setField_en _
      · rw [hridx, State.ridxWord, if_pos hd]
      · rw [hridx, State.ridxWord, if_neg (by simp [hd])]
      · rw [hpage, hidx]
        exact pairSet_page hd hh
    · refine congrArg Host.Outcome.next ((ringWrite_pf hpf ht _ _ _).trans ?_)
      exact if_pos (by simp [hok])
    · refine ⟨_, congrArg Host.Outcome.next (ringWrite_pf hpf ht _ _ _), ?_, ringDisable_ringEn h, ?_⟩
      · rw [ringDisable_disables h]
        rfl
      · rw [ringDisable_disables h]
        rfl
    · exact congrArg Host.Outcome.next ((ringWrite_pf hpf ht _ _ _).trans (ringDisable_refused hj hp hr hph))
    · obtain ⟨herr, hen⟩ := ringErrClear_bits s p r
      exact ⟨_, congrArg Host.Outcome.next (ringWrite_pf hpf ht _ _ _), rfl, herr, hen, rfl⟩
    · refine congrArg Host.Outcome.next ?_
      rw [ringWrite, if_neg (not_not.2 hpf.2.1), yardWrite_pf hpf, hen]
      exact fixedWrite_unchanged ht .pf _

end Sys2Proof.Machine
end
